-- ==== Sys2Proof/Word.lean ====
section
/-! DEFINITION. The word types of the machine and the plainest operations on them and on keyed lists. -/

namespace Sys2Proof

/-- A 64-bit word: token values, tags, message words (R24, R29, R41). -/
abbrev Word := BitVec 64

/-- One byte of memory (R3). -/
abbrev Byte := BitVec 8

/-- Bits [hi:lo] of a number, counted from the least significant (R2). -/
def bitsOf (x hi lo : Nat) : Nat := (x >>> lo) % 2 ^ (hi + 1 - lo)

/-- Bit n of a number (R2). -/
def bitOf (x n : Nat) : Bool := x.testBit n

/-- A Bool as a number. -/
def b2n (b : Bool) : Nat := if b then 1 else 0

/-- The field v placed at bit lo. -/
def putBits (v lo : Nat) : Nat := v <<< lo

/-- The least multiple of m that is at least n. -/
def roundUp (n m : Nat) : Nat := (n + m - 1) / m * m

/-- The quotient rounded up. -/
def ceilDiv (n m : Nat) : Nat := (n + m - 1) / m

/-- Keyed lists: a small table held as plain data. -/
def Assoc.get? {κ α : Type} [DecidableEq κ] : List (κ × α) → κ → Option α
  | [], _ => none
  | (k, v) :: t, x => if k = x then some v else Assoc.get? t x

/-- The value at a key, or d where the key is not listed. -/
def Assoc.getD {κ α : Type} [DecidableEq κ] (m : List (κ × α)) (k : κ) (d : α) : α :=
  (Assoc.get? m k).getD d

/-- The table with the value v at the key k, in the place the key had. -/
def Assoc.set {κ α : Type} [DecidableEq κ] : List (κ × α) → κ → α → List (κ × α)
  | [], k, v => [(k, v)]
  | (k', v') :: t, k, v => if k' = k then (k, v) :: t else (k', v') :: Assoc.set t k v

/-- The table without the key k. -/
def Assoc.erase {κ α : Type} [DecidableEq κ] (m : List (κ × α)) (k : κ) : List (κ × α) :=
  m.filter fun p => p.1 ≠ k

/-- The least n below the bound for which f holds. -/
def leastBelow (bound : Nat) (f : Nat → Bool) : Option Nat :=
  (List.range bound).find? f

/-- The list with its element at i replaced by v. -/
def setAt {α : Type} : List α → Nat → α → List α
  | [], _, _ => []
  | _ :: t, 0, v => v :: t
  | h :: t, i + 1, v => h :: setAt t i v

end Sys2Proof
end

