-- ==== Sys2Proof/Syntax.lean ====
section
/-! DEFINITION. The syntax of the machine: node records, the tokens, firings and messages that events carry, and the
ONE inductive Instr, one constructor for each row of the opcode table (194 record instructions, 102 events). -/

namespace Sys2Proof

/-! ## Coordinates (R11, R14, R15, R86) -/

/-- A compute die: package 0 to 63, die 0 to 3 (R15). -/
structure DieId where
  pkg : Nat
  die : Nat
deriving DecidableEq, Repr

/-- A cluster: cluster 0 to 7 of a die (R15). -/
structure CluId where
  pkg : Nat
  die : Nat
  clu : Nat
deriving DecidableEq, Repr

/-- A core: index 0 to 191 in its cluster, or 192 and 193 for control cores 0 and 1 (R86). -/
structure CoreId where
  pkg : Nat
  die : Nat
  clu : Nat
  core : Nat
deriving DecidableEq, Repr

/-- The die of a core. -/
def CoreId.dieId (c : CoreId) : DieId := ⟨c.pkg, c.die⟩
/-- The cluster of a core. -/
def CoreId.cluId (c : CoreId) : CluId := ⟨c.pkg, c.die, c.clu⟩
/-- A control core (R86). -/
def CoreId.isCtl (c : CoreId) : Bool := decide (192 ≤ c.core)
/-- The die of a cluster. -/
def CluId.dieId (c : CluId) : DieId := ⟨c.pkg, c.die⟩

/-! ## Records, tokens, firings (R75, R87, R21) -/

/-- The fields of a node record beside its opcode (R75). -/
structure Rec where
  sub  : BitVec 6
  typ  : BitVec 4
  ari  : BitVec 2
  tag  : BitVec 4
  lk   : BitVec 2
  rsv  : BitVec 2
  lit  : BitVec 20
  dstA : BitVec 24
  dstB : BitVec 24
deriving DecidableEq, Repr

/-- A value with its KIND byte (R87, R88). -/
structure Operand where
  val  : Word
  kind : BitVec 8
deriving DecidableEq, Repr

/-- A token on its way to a core: node and port of the receiver, tag, value, kind (R87), and the copied image of a
slice descriptor that crosses cores (R282): its bytes, empty for any other token. -/
structure Token where
  node  : Nat
  port  : Nat
  tag   : Word
  opnd  : Operand
  image : List Byte
deriving DecidableEq, Repr

/-- The arrival paths of a core (R128). -/
inductive Path where
  | network
  | own
  | wing
deriving DecidableEq, Repr

/-- A firing: a node executing for one tag, with the operands that met (R23, R141); `seq` is its completion number and
`link` its place in a control core's chain, 0 outside chains (R147). -/
structure Firing where
  core : CoreId
  node : Nat
  tag  : Word
  op0  : Operand
  op1  : Operand
  op2  : Operand
  seq  : BitVec 32
  link : Nat
deriving DecidableEq, Repr

/-! ## Active messages (R41, R108, R249, R386) -/

/-- Who sent a message: the host, a firing, an armed send of a firing, or a LAUNCH (R43, R222, R385, R401). -/
inductive SenderKind where
  | host
  | firing
  | armed
  | launch
deriving DecidableEq, Repr

/-- The sender of a message: its kind, and the record, tag and colour that sent it (R43, R401). -/
structure Sender where
  kind   : SenderKind
  core   : CoreId
  node   : Nat
  tag    : Word
deriving DecidableEq, Repr

/-- The engines an active message can be sent to (R41, R402 DETAIL codes). -/
inductive EngineKind where
  | matrix
  | copy
  | link
  | stream
  | launch
deriving DecidableEq, Repr

/-- An engine: its kind and the core (matrix, launch) or cluster (core 0 of it) that holds it. -/
structure EngineId where
  kind : EngineKind
  at_  : CoreId
deriving DecidableEq, Repr

/-- A translation: page base and size in virtual and physical addresses, W and NC (R212, R214). -/
structure Leaf where
  vbase : Nat
  size  : Nat
  pbase : Nat
  w     : Bool
  nc    : Bool
deriving DecidableEq, Repr

/-- An active message: its 64-bit words, two for each beat (R41), its sender, whether a firing's issue checked its
footprints, and the translations found there (R215, R222). -/
structure Msg where
  words   : List Word
  sender  : Sender
  checked : Bool
  pages   : List Leaf
deriving DecidableEq, Repr

/-- One piece of a copy, at most 48 bytes and one sector (R222, R223). Between packages that links of version 2.0 join it carries the
map generation under which its sender routed it (R377); `taken` marks one that its destination has accepted and still holds (R378). -/
structure Piece where
  engine : EngineId
  msg    : Nat
  pa     : Nat
  bytes  : List Byte
  poison : Bool
  red    : Option (BitVec 2 × BitVec 4)
  nc     : Bool
  gen    : Option (BitVec 16)
  taken  : Bool
  last   : Bool
deriving DecidableEq, Repr

/-! ## Coherence (R361, R364, R365) -/

/-- What a die may do with a line it holds, and the directory's states (R361). -/
inductive Perm where
  | i
  | s
  | e
  | o
  | m
deriving DecidableEq, Repr

/-- A coherence request of a die for a line, under a map generation (R364, R377); `noKeep` as in R370. -/
structure CohReq where
  line   : Nat
  die    : DieId
  noKeep : Bool
  gen    : BitVec 16
deriving DecidableEq, Repr

/-- A line's 192 bytes and its poisoned sectors, as data messages carry them (R365, R227). -/
structure LineData where
  bytes  : List Byte
  poison : List Nat
deriving DecidableEq, Repr

/-- The request a forward carries (R365). -/
inductive FwdKind where
  | gets
  | getx
  | recall
deriving DecidableEq, Repr

/-! ## Host and firmware events (R103, R106, R208, R360, R435) -/

/-- What the host asks through the adapter: a read of n bytes, a write (R208), the loader's acceptance of the image that stands at an
address (R102, R110), a read of `DEV.BOOT` (R104), a firmware write to the serial flash (R103); `next` is the adapter's going on with
the accesses that it holds (R106, R208). -/
inductive HostOp where
  | read  (pa n : Nat)
  | write (pa : Nat) (bytes : List Byte)
  | load  (pa : Nat)
  | devBoot
  | flash (off : Nat) (bytes : List Byte)
  | next
deriving DecidableEq, Repr

/-- The registers of the management port that the chapters name (R205, R211, R261, R360, R435). -/
inductive MgmtReg where
  | ptbase
  | shardbase
  | dirmap
  | slicemap (die : Nat)
  | islCounter (island which : Nat)
deriving DecidableEq, Repr

/-- Why a page walk was made: a prefetch (R241) or the retry of a withheld access (R216). -/
inductive WalkFor where
  | prefetch (core : CoreId) (va : Nat)
  | retry    (core : CoreId) (req : Nat)
deriving DecidableEq, Repr

/-- Why a directory failed (R372). -/
inductive DirFail where
  | supply
  | arrayError
  | watchdog
  | linkIsland
deriving DecidableEq, Repr

/-! ## The instructions: one constructor for each row of the opcode table -/

/-- Instr: the record instructions carry their record's fields; the events carry what they name. -/
inductive Instr where
  -- node records (R90)
  | sink (r : Rec)
  | dup (r : Rec)
  | const (r : Rec)
  | steer (r : Rec)
  | gate (r : Rec)
  | loopin (r : Rec)
  | iter (r : Rec)
  | loopout (r : Rec)
  | loopcr (r : Rec)
  | call (r : Rec)
  | callCol (r : Rec)
  | ret (r : Rec)
  | tagget (r : Rec)
  | tagset (r : Rec)
  | spawn (r : Rec)
  | purge (r : Rec)
  | join (r : Rec)
  | cmb (r : Rec)
  | dends (r : Rec)
  | bndry (r : Rec)
  | vote (r : Rec)
  | rng (r : Rec)
  | evpost (r : Rec)
  | endg (r : Rec)
  | add (r : Rec)
  | sub (r : Rec)
  | mul (r : Rec)
  | mulh (r : Rec)
  | div (r : Rec)
  | rem (r : Rec)
  | neg (r : Rec)
  | abs (r : Rec)
  | min (r : Rec)
  | max (r : Rec)
  | and (r : Rec)
  | or (r : Rec)
  | xor (r : Rec)
  | andn (r : Rec)
  | shl (r : Rec)
  | shr (r : Rec)
  | sar (r : Rec)
  | rotl (r : Rec)
  | clz (r : Rec)
  | ctz (r : Rec)
  | popc (r : Rec)
  | brev (r : Rec)
  | bext (r : Rec)
  | bins (r : Rec)
  | cmp (r : Rec)
  | sel (r : Rec)
  | madd (r : Rec)
  | lea (r : Rec)
  | line (r : Rec)
  | fadd (r : Rec)
  | fsub (r : Rec)
  | fmul (r : Rec)
  | fma (r : Rec)
  | fdiv (r : Rec)
  | fsqrt (r : Rec)
  | fmin (r : Rec)
  | fmax (r : Rec)
  | fabs (r : Rec)
  | fneg (r : Rec)
  | fcmp (r : Rec)
  | fcvt (r : Rec)
  | frnd (r : Rec)
  | fexp2 (r : Rec)
  | flog2 (r : Rec)
  | frcp (r : Rec)
  | frsq (r : Rec)
  | vadd (r : Rec)
  | vsub (r : Rec)
  | vmul (r : Rec)
  | vfma (r : Rec)
  | vmin (r : Rec)
  | vmax (r : Rec)
  | vabs (r : Rec)
  | vneg (r : Rec)
  | vand (r : Rec)
  | vor (r : Rec)
  | vxor (r : Rec)
  | vshl (r : Rec)
  | vshr (r : Rec)
  | vcmp (r : Rec)
  | vsel (r : Rec)
  | vred (r : Rec)
  | vscan (r : Rec)
  | vexp2 (r : Rec)
  | vrcp (r : Rec)
  | vrsq (r : Rec)
  | vcvt (r : Rec)
  | vperm (r : Rec)
  | vsplat (r : Rec)
  | viota (r : Rec)
  | vpack (r : Rec)
  | vunpk (r : Rec)
  | vcpy (r : Rec)
  | cvt (r : Rec)
  | qblk (r : Rec)
  | dqblk (r : Rec)
  | ternpk (r : Rec)
  | ternpkUnpk (r : Rec)
  | ld (r : Rec)
  | st (r : Rec)
  | ldv (r : Rec)
  | stv (r : Rec)
  | ldg (r : Rec)
  | sts (r : Rec)
  | mnop (r : Rec)
  | wave (r : Rec)
  | pf (r : Rec)
  | lwb (r : Rec)
  | linv (r : Rec)
  | sbind (r : Rec)
  | scancel (r : Rec)
  | sstat (r : Rec)
  | cpy (r : Rec)
  | cpyr (r : Rec)
  | mcrd (r : Rec)
  | xlat (r : Rec)
  | tlbinv (r : Rec)
  | fence (r : Rec)
  | rel (r : Rec)
  | acq (r : Rec)
  | tlinc (r : Rec)
  | tlwait (r : Rec)
  | tlarm (r : Rec)
  | tlread (r : Rec)
  | barinit (r : Rec)
  | bararr (r : Rec)
  | barexit (r : Rec)
  | itake (r : Rec)
  | iput (r : Rec)
  | iread (r : Rec)
  | iclr (r : Rec)
  | atom (r : Rec)
  | acas (r : Rec)
  | lsend (r : Rec)
  | specbeg (r : Rec)
  | speccmt (r : Rec)
  | specabt (r : Rec)
  | oclm (r : Rec)
  | orel (r : Rec)
  | old (r : Rec)
  | olds (r : Rec)
  | oldsQ (r : Rec)
  | mma (r : Rec)
  | mmat (r : Rec)
  | mmax (r : Rec)
  | aclr (r : Rec)
  | amov (r : Rec)
  | aadd (r : Rec)
  | acvt (r : Rec)
  | ackpt (r : Rec)
  | arst (r : Rec)
  | astat (r : Rec)
  | topk (r : Rec)
  | topkm (r : Rec)
  | smxi (r : Rec)
  | smxu (r : Rec)
  | smxn (r : Rec)
  | smxm (r : Rec)
  | smxr (r : Rec)
  | smxw (r : Rec)
  | smxs (r : Rec)
  | qsend (r : Rec)
  | qfwd (r : Rec)
  | klook (r : Rec)
  | klookPage (r : Rec)
  | kapp (r : Rec)
  | kpin (r : Rec)
  | kpinUnpin (r : Rec)
  | kevict (r : Rec)
  | kfill (r : Rec)
  | pxlook (r : Rec)
  | pxins (r : Rec)
  | pgmap (r : Rec)
  | pgmapList (r : Rec)
  | pgfrz (r : Rec)
  | pgnew (r : Rec)
  | seqtbl (r : Rec)
  | seqtblNext (r : Rec)
  | trap (r : Rec)
  | brk (r : Rec)
  | sysrd (r : Rec)
  | syswr (r : Rec)
  | evget (r : Rec)
  | launch (r : Rec)
  | cfginst (r : Rec)
  | curtain (r : Rec)
  | ctxsv (r : Rec)
  | ctxld (r : Rec)
  | time (r : Rec)
  | prompt (r : Rec)
  -- events that carry what they name
  | bootTest (p : Nat) (sigOk hbmOk sliceOk rebuild : Bool)
  | bootMap (p : Nat) (linksOk : Bool) (gran ptbase shardbase dirmap : Nat)
  | bootRuntime (p : Nat) (sigOk digestOk : Bool)
  | linkTraining (p peer : Nat) (lo hi : BitVec 16) (lowLanes highLanes : Bool)
  | hostAccess (p : Nat) (op : HostOp)
  | registerWrite (p : Nat) (reg : MgmtReg) (v : Nat)
  | start (c : CoreId) (m : Msg)
  | graphreg (c : CoreId) (m : Msg)
  | replay (c : CoreId) (m : Msg)
  | patch (c : CoreId) (m : Msg)
  | graphdrop (c : CoreId) (m : Msg)
  | taskgraphNodeDispatch (c : CoreId) (tg replay node : Nat)
  | tokenArrival (c : CoreId) (path : Path) (t : Token)
  | wingsHoldRelease (c : CoreId) (path : Path)
  | chainLink (c : CoreId) (t : Token) (n : Nat)
  | linkTokenCrossing (src : CoreId) (node : Nat) (dst : CoreId) (t : Token)
  | engineInboxAccept (e : EngineId) (m : Msg)
  | engineMessageComplete (e : EngineId) (id : Nat)
  | copy (e : EngineId) (id : Nat)
  | copyr (e : EngineId) (id : Nat)
  | copyp (e : EngineId) (id : Nat)
  | copypr (e : EngineId) (id : Nat)
  | lcopy (e : EngineId) (id : Nat)
  | copyPieceArrival (p : Piece)
  | remoteAdvance (k : CluId) (colour : BitVec 9) (ctr : Nat)
  | waveAccessPerform (c : CoreId) (tag : Word) (region : Nat)
  | sliceFillArrival (d : DieId) (line : Nat) (perm : Perm) (keep : Bool) (data : LineData)
  | pageWalkComplete (d : DieId) (w : WalkFor)
  | mmaxACopy (c leader : CoreId) (n : Nat)
  | gets (x : CohReq)
  | getx (x : CohReq)
  | upg (x : CohReq)
  | putm (x : CohReq) (keep : Bool) (data : LineData) (sectors : List Nat)
  | invalidation (p line : Nat) (d : DieId) (wholePkg : Bool)
  | invalidationAck (p line : Nat) (frm : DieId) (wholePkg : Bool)
  | forward (p line : Nat) (k : FwdKind) (owner req : DieId)
  | directoryFailure (p : Nat) (why : DirFail)
  | purgeArriveDie (act : Nat) (d : DieId)
  | hbmBankTest (d : DieId) (stack : Nat) (failing spares : Bool)
  | linkBeatCrcFail (p peer : Nat) (noSlot : Bool)
  | auditBeat (p peer : Nat) (free received : BitVec 16)
  | thermal (p island : Nat) (t : Int)
  | mirrorCloseRecord (p line : Nat) (m : Nat) (st : Perm) (owner : DieId) (dies pkgs : List Nat)
  -- events of one party that name it, with at most two numbers and a mark, in State.site
  | powerOnReset
  | replayRelease
  | install
  | admission
  | allowanceRefresh
  | launchBlocking
  | clockChangeDone
  | wingProbeReturn
  | backlogRefill
  | streamStart
  | streamElement
  | streamComplete
  | loadReply
  | releaseComplete
  | mergeWindowClose
  | tlbEntryDrop
  | queryTokenStationArrival
  | visitStart
  | refillComplete
  | evictionCopyComplete
  | tokenReturn
  | shardTableTurn
  | matrixAccept
  | matrixStart
  | matrixOccupancyEnd
  | matrixRetry
  | matrixReply
  | grant
  | done
  | putack
  | mirrorOpenAck
  | recallWindow
  | directoryWatchdog
  | dirTakeover
  | dirLost
  | channelClosing
  | channelRetired
  | curtainClear
  | fullSave
  | saveWhole
  | colourPurge
  | purgeEnd
  | securityTrigger
  | retireDiscard
  | completionTokenRetire
  | promptRoutineEnd
  | coreDrowsy
  | routerDrowsy
  | routerWake
  | coreWake
  | powerGate
  | droopStretch
  | currentPeak
  | packagePowerWindow
  | mirrorOpenRecord
  | writeAcknowledgement
  | directoryRestore
  | attestationRequest
  | supplyRecovery
deriving DecidableEq, Repr

/-- What an event names that carries nothing itself: a core (a cluster or a die stands by its core 0, a package by die 0's),
two numbers and a mark. Lean's compiler gives no more than 245 constructors of one type fields, so the events of one party
read theirs from here (log 2). -/
structure Site where
  core : CoreId
  n    : Nat
  m    : Nat
  flag : Bool
deriving DecidableEq, Repr

/-- The site of an event that carries what it names. -/
def Site.zero : Site := ⟨⟨0, 0, 0, 0⟩, 0, 0, false⟩

/-- A thing still to happen: an event at its site, or the issue of the firing at the head of a core's ready queue (R144). -/
inductive Item where
  | event (i : Instr) (x : Site)
  | issue (c : CoreId)
deriving DecidableEq, Repr

end Sys2Proof
end

