-- ==== Sys2Proof/Config.lean ====
section
/-! DEFINITION. What an implementation fixes, and the free values: constants with no body, so that nothing can be proved
of what they are. -/

namespace Sys2Proof.Config

/-- The result word that a prompter routine leaves (R198): the routines' contents are no part of the manual, so this is a
free value, applied to the model's counter of free draws (log 9). -/
opaque promptResult : Nat → BitVec 32

/-- Whether a prompter routine runs into the bound of 16 instructions (R198): a free value (log 9). -/
opaque promptEnds : Nat → Bool

/-- The bytes a prompter routine leaves in the line it holds locked (R198): free values (log 9). -/
opaque promptByte : Nat → Nat → Byte

/-- How many whole k-groups of the writers in flight an element read by AMOV `.peek` holds (R306): a free value (log 10). -/
opaque peekGroups : Nat → Nat → Nat

/-- The firmware version that DEV.BOOT reports (R104): major in the upper byte; the manual gives none (log 11). -/
opaque fwVersion : BitVec 16

/-- The wing base, in units of 49,152 bytes, of a core that CFGINST installs first: no START names one (R134, R195). A free value
(log 77). -/
opaque wingAt : Nat → Nat

/-- The address at which the dispatcher retains a START body (R412): a free value (log 78). -/
opaque startAt : Nat → BitVec 64

/-- The size, below 4,096 bytes, of a save section whose layout the manual leaves open (R412): a free value (log 79). -/
opaque sectionSize : Nat → Nat
/-- Its bytes: free values (log 79). -/
opaque sectionByte : Nat → Nat → Byte

/-- Whether a constant cache still holds a word that memory has changed since (R80): a free value (log 7). -/
opaque constKept : Nat → Bool

/-- The merge windows of a slice (R209). -/
def mergeWindows : Nat := 16

/-- HBM4E bytes of a die: 96 GiB, 90 GiB in rebuild mode (R203). -/
def hbmBytes (rebuild : Bool) : Nat := (if rebuild then 90 else 96) * 2 ^ 30

/-- The span of a package in the physical address space (R202). -/
def pkgSpan : Nat := 0x300000000000
/-- The span of a die (R202). -/
def dieSpan : Nat := 0xC0000000000
/-- The offset of a die's SRAM aperture (R203). -/
def sramBase : Nat := 0x60000000000
/-- The spacing of the cluster-shared memories in the aperture (R203). -/
def clusterStep : Nat := 0x4000000
/-- Bytes of a core's scratchpad (R9). -/
def padBytes : Nat := 262144
/-- Bytes of a cluster's shared memory: 192 scratchpads (R11, R200). -/
def sharedBytes : Nat := 192 * 262144
/-- Bytes of the chip scratchpad (R200). -/
def chipBytes : Nat := 32 * 2 ^ 20
/-- The bytes of a line and of a sector (R7). -/
def lineBytes : Nat := 192
/-- The bytes of a sector (R7). -/
def sectorBytes : Nat := 48
/-- The bytes of a small page (R7). -/
def smallPage : Nat := 49152
/-- The bytes of a medium page (R7). -/
def mediumPage : Nat := 3145728
/-- The bytes of a large page (R7). -/
def largePage : Nat := 805306368
/-- The caps of the islands in watts (R125). -/
def islandCap (i : Nat) : Nat :=
  if i < 32 then 62 else if i < 36 then 60 else if i = 36 then 90 else if i = 37 then 110 else 88
/-- The package power limit in watts (R1, R125). -/
def packageLimit : Nat := 2600
/-- The scale of a committed draw at an operating point, in hundredths (R126). -/
def pointScale (pt : Nat) : Nat := ([100, 86, 74, 63, 53, 36] : List Nat).getD pt 36
/-- The lowest and highest interface versions the part advertises (R107). -/
def versions : Nat × Nat := (0x0100, 0x0200)

end Sys2Proof.Config
end

