-- ==== Sys2Proof/Machine/Flags.lean ====
section
/-! DEFINITION. Numbers: element types, exact values, rounding, conversions, exp2_dev, and the sticky flags each raises
(R47 to R74). Everything here is arithmetic on numerals; no state. -/

namespace Sys2Proof.Machine

open Sys2Proof

/-! ## Sticky flags (R66) -/

/-- The sticky flags a computation raises, as the bits of ACT.FLAGS (R66). -/
abbrev Flg := Nat

/-- NV, invalid operation (R53). -/
def fNV : Flg := 1
/-- DZ, finite non-zero value divided by zero. -/
def fDZ : Flg := 2
/-- OF, overflow (R62). -/
def fOF : Flg := 4
/-- UF, tiny and inexact, or a flush to zero. -/
def fUF : Flg := 8
/-- NX, inexact. -/
def fNX : Flg := 16
/-- SAT, integer, conversion or `.sat` clamp. -/
def fSAT : Flg := 32
/-- ACCSAT, INT32 accumulator clamped (R71). -/
def fACCSAT : Flg := 64
/-- NANSCALE, NaN block scale consumed (R60). -/
def fNANSCALE : Flg := 128
/-- TERNRSV, reserved ternary code read (R58). -/
def fTERNRSV : Flg := 256
/-- IDZ, integer division by zero (R51). -/
def fIDZ : Flg := 512

/-! ## Element types (R47) -/

/-- How a floating format uses its top exponent. -/
inductive FmtKind where
  /-- Infinities and NaNs in the IEEE manner. -/
  | ieee
  /-- One NaN pattern per sign, no infinities (R54). -/
  | e4m3
  /-- No infinities, no NaNs (R56, R57). -/
  | finite
deriving DecidableEq, Repr

/-- A floating format: exponent bits, fraction bits, bias, kind (R52, R54 to R57). -/
structure Fmt where
  ebits : Nat
  fbits : Nat
  bias  : Nat
  kind  : FmtKind
deriving DecidableEq, Repr

/-- FP32. -/
def fp32 : Fmt := ⟨8, 23, 127, .ieee⟩
/-- FP16. -/
def fp16 : Fmt := ⟨5, 10, 15, .ieee⟩
/-- BF16. -/
def bf16 : Fmt := ⟨8, 7, 127, .ieee⟩
/-- FP8 E4M3. -/
def e4m3 : Fmt := ⟨4, 3, 7, .e4m3⟩
/-- FP8 E5M2. -/
def e5m2 : Fmt := ⟨5, 2, 15, .ieee⟩
/-- FP6 E3M2. -/
def e3m2 : Fmt := ⟨3, 2, 3, .finite⟩
/-- FP4 E2M1. -/
def e2m1 : Fmt := ⟨2, 1, 1, .finite⟩

/-- The bits below the sign. -/
def Fmt.mbits (f : Fmt) : Nat := f.ebits + f.fbits
/-- The width. -/
def Fmt.width (f : Fmt) : Nat := f.mbits + 1
/-- The exponent of the smallest normal, 1 − bias. -/
def Fmt.emin (f : Fmt) : Int := 1 - (f.bias : Int)
/-- The magnitude bits of the largest finite value. -/
def Fmt.maxBits (f : Fmt) : Nat :=
  match f.kind with
  | .ieee => (2 ^ f.ebits - 1) * 2 ^ f.fbits - 1
  | .e4m3 => 2 ^ f.mbits - 2
  | .finite => 2 ^ f.mbits - 1
/-- The canonical NaN (R52, R54, R55); +0 for a format that has none (R67). -/
def Fmt.qnan (f : Fmt) : Nat :=
  match f.kind with
  | .ieee => (2 ^ f.ebits - 1) * 2 ^ f.fbits + 2 ^ (f.fbits - 1)
  | .e4m3 => 2 ^ f.mbits - 1
  | .finite => 0

/-- An element type: an integer of a width and signedness, a floating format, or ternary (R47). -/
inductive ElemTy where
  | int (w : Nat) (signed : Bool)
  | flt (f : Fmt)
  | tern
deriving DecidableEq, Repr

/-- The type of a TYP code (R47). -/
def elemTy (typ : Nat) : ElemTy :=
  match typ with
  | 0 => .int 8 true
  | 1 => .int 16 true
  | 2 => .int 32 true
  | 3 => .int 64 true
  | 4 => .int 8 false
  | 5 => .int 16 false
  | 6 => .int 32 false
  | 7 => .int 64 false
  | 8 => .flt fp32
  | 9 => .flt fp16
  | 10 => .flt bf16
  | 11 => .flt e4m3
  | 12 => .flt e5m2
  | 13 => .flt e3m2
  | 14 => .flt e2m1
  | _ => .tern

/-- The width in bits. -/
def ElemTy.width : ElemTy → Nat
  | .int w _ => w
  | .flt f => f.width
  | .tern => 2

/-- The width of a TYP code's elements. -/
def typWidth (typ : Nat) : Nat := (elemTy typ).width

/-- The floating format of a TYP code; FP32 for a type that is none. -/
def fmtOf (typ : Nat) : Fmt :=
  match elemTy typ with
  | .flt f => f
  | _ => fp32

/-- Two's complement: the w low bits of x read as a signed integer (R47). -/
def toSigned (w x : Nat) : Int :=
  if 2 ^ (w - 1) ≤ x % 2 ^ w then (x % 2 ^ w : Nat) - (2 ^ w : Nat) else (x % 2 ^ w : Nat)

/-- The w low bits of x as an integer of the signedness given. -/
def readInt (w : Nat) (signed : Bool) (x : Nat) : Int :=
  if signed then toSigned w x else (x % 2 ^ w : Nat)

/-- An integer modulo 2^w, as bits (R50, R74 wrap). -/
def wrapBits (w : Nat) (x : Int) : Nat := (x % (2 ^ w : Nat)).toNat

/-- The largest value of an integer type. -/
def intMax (w : Nat) (signed : Bool) : Int := if signed then (2 ^ (w - 1) : Nat) - 1 else (2 ^ w : Nat) - 1
/-- The smallest value of an integer type. -/
def intMin (w : Nat) (signed : Bool) : Int := if signed then -((2 ^ (w - 1) : Nat) : Int) else 0

/-- An exact integer result as bits with flags: wrapped, or under `.sat` clamped once with SAT (R50). -/
def intResult (w : Nat) (signed sat : Bool) (x : Int) : Nat × Flg :=
  if sat && decide (intMax w signed < x) then (wrapBits w (intMax w signed), fSAT)
  else if sat && decide (x < intMin w signed) then (wrapBits w (intMin w signed), fSAT)
  else (wrapBits w x, 0)

/-- Sign extension of the w low bits to 64 for a signed integer type, zero fill for any other (R48). -/
def holdScalar (t : ElemTy) (x : Nat) : Word :=
  match t with
  | .int w true => BitVec.ofNat 64 (wrapBits 64 (toSigned w x))
  | _ => BitVec.ofNat 64 (x % 2 ^ t.width)

/-! ## Exact values (R74) -/

/-- An exact value: NaN (signalling or not), an infinity, or ± (m + ε) · 2^e, where ε is 0, or strictly between 0 and 1
where the value was cut (`cut`). Zero keeps its sign. -/
inductive Val where
  | nan (signalling : Bool)
  | inf (neg : Bool)
  | fin (neg : Bool) (m : Nat) (e : Int) (cut : Bool)
deriving DecidableEq, Repr

/-- An integer as an exact value. -/
def Val.ofInt (x : Int) : Val := .fin (decide (x < 0)) x.natAbs 0 false

/-- The value of the bits of a format (R52, R54 to R57). A signalling NaN has the top fraction bit clear; E4M3 has no such
bit and its NaN is quiet (log 30). -/
def readFlt (f : Fmt) (x : Nat) : Val :=
  let neg := x.testBit f.mbits
  let m := x % 2 ^ f.mbits
  if f.maxBits < m then
    match f.kind with
    | .ieee => if m % 2 ^ f.fbits = 0 then .inf neg else .nan (!(m.testBit (f.fbits - 1)))
    | _ => .nan false
  else
    let ef := m / 2 ^ f.fbits
    let fr := m % 2 ^ f.fbits
    if ef = 0 then .fin neg fr (f.emin - f.fbits) false
    else .fin neg (2 ^ f.fbits + fr) ((ef : Int) - 1 + f.emin - f.fbits) false

/-- The value of a ternary code (R58). -/
def ternVal (c : Nat) : Int := if c % 4 = 1 then 1 else if c % 4 = 3 then -1 else 0

/-- The value of an element's bits, and the flag of a reserved ternary code (R58). -/
def readElem (t : ElemTy) (x : Nat) : Val × Flg :=
  match t with
  | .int w s => (Val.ofInt (readInt w s x), 0)
  | .flt f => (readFlt f x, 0)
  | .tern => (Val.ofInt (ternVal x), if x % 4 = 2 then fTERNRSV else 0)

/-- A NaN. -/
def Val.isNan : Val → Bool
  | .nan _ => true
  | _ => false
/-- A signalling NaN. -/
def Val.isSnan : Val → Bool
  | .nan s => s
  | _ => false
/-- A zero. -/
def Val.isZero : Val → Bool
  | .fin _ m _ c => decide (m = 0) && !c
  | _ => false
/-- The sign. -/
def Val.neg? : Val → Bool
  | .nan _ => false
  | .inf n => n
  | .fin n _ _ _ => n
/-- The value with the other sign. -/
def Val.flip : Val → Val
  | .nan s => .nan s
  | .inf n => .inf (!n)
  | .fin n m e c => .fin (!n) m e c
/-- The magnitude. -/
def Val.mag : Val → Val
  | .nan s => .nan s
  | .inf _ => .inf false
  | .fin _ m e c => .fin false m e c
/-- The value times 2^k, exact. -/
def Val.scale (v : Val) (k : Int) : Val :=
  match v with
  | .fin n m e c => .fin n m (e + k) c
  | x => x

/-- NV where an operand of an arithmetic operation is a signalling NaN (R53). -/
def snanFlag (xs : List Val) : Flg := if xs.any Val.isSnan then fNV else 0

/-- The signed integer of a finite exact value over 2^e, for e no more than the value's own. -/
def Val.over (v : Val) (e : Int) : Int :=
  match v with
  | .fin n m e' _ => if n then -((m * 2 ^ (e' - e).toNat : Nat) : Int) else ((m * 2 ^ (e' - e).toNat : Nat) : Int)
  | _ => 0

/-- The product of two exact values, with NV for 0 × ∞ (R53). -/
def Val.mul (a b : Val) : Val × Flg :=
  match a, b with
  | .nan _, _ => (.nan false, 0)
  | _, .nan _ => (.nan false, 0)
  | .inf n, .inf k => (.inf (n != k), 0)
  | .inf n, .fin k m _ _ => if m = 0 then (.nan false, fNV) else (.inf (n != k), 0)
  | .fin n m _ _, .inf k => if m = 0 then (.nan false, fNV) else (.inf (n != k), 0)
  | .fin n m e c, .fin k m' e' c' => (.fin (n != k) (m * m') (e + e') (c || c'), 0)

/-- The sum of two exact values, with NV for ∞ − ∞ (R53). A zero sum of operands of unlike sign is +0, and −0 under RDN
(`down`); equal zeros keep their sign (log 31). -/
def Val.add (down : Bool) (a b : Val) : Val × Flg :=
  match a, b with
  | .nan _, _ => (.nan false, 0)
  | _, .nan _ => (.nan false, 0)
  | .inf n, .inf k => if n = k then (.inf n, 0) else (.nan false, fNV)
  | .inf n, _ => (.inf n, 0)
  | _, .inf k => (.inf k, 0)
  | .fin n m e c, .fin k m' e' c' =>
    let e0 := if e ≤ e' then e else e'
    let x := (Val.fin n m e c).over e0 + (Val.fin k m' e' c').over e0
    if x = 0 then (.fin (if n = k then n else down) 0 e0 (c || c'), 0)
    else (.fin (decide (x < 0)) x.natAbs e0 (c || c'), 0)

/-- The difference. -/
def Val.sub (down : Bool) (a b : Val) : Val × Flg := Val.add down a b.flip

/-- The number of extra bits kept of a quotient, a root or a logarithm: more than a rounding and the 32 bits of D in R63
read. -/
def guardBits : Nat := 160

/-- The quotient, cut after many bits; 0 ÷ 0 and ∞ ÷ ∞ are NaN with NV, finite non-zero ÷ 0 an infinity with DZ (R53, R66). -/
def Val.div (a b : Val) : Val × Flg :=
  match a, b with
  | .nan _, _ => (.nan false, 0)
  | _, .nan _ => (.nan false, 0)
  | .inf _, .inf _ => (.nan false, fNV)
  | .inf n, .fin k _ _ _ => (.inf (n != k), 0)
  | .fin n _ _ _, .inf k => (.fin (n != k) 0 0 false, 0)
  | .fin n m e c, .fin k m' e' c' =>
    if m' = 0 then (if m = 0 then (.nan false, fNV) else (.inf (n != k), fDZ))
    else (.fin (n != k) (m * 2 ^ guardBits / m') (e - e' - guardBits) (c || c' || decide (m * 2 ^ guardBits % m' ≠ 0)), 0)

/-- One more binary digit of a square root: from r with r² ≤ x, the digit of weight 2^k. -/
def sqrtGo (x : Nat) : Nat → Nat → Nat
  | 0, r => if (r + 1) * (r + 1) ≤ x then r + 1 else r
  | k + 1, r =>
    let r' := r + 2 ^ (k + 1)
    sqrtGo x k (if r' * r' ≤ x then r' else r)

/-- The integer square root of a number. -/
def natSqrt (x : Nat) : Nat := sqrtGo x (x.log2 / 2 + 1) 0

/-- The square root, cut after many bits; NaN with NV below −0, and −0 for −0 (R53). -/
def Val.sqrt (a : Val) : Val × Flg :=
  match a with
  | .nan _ => (.nan false, 0)
  | .inf n => if n then (.nan false, fNV) else (.inf false, 0)
  | .fin n m e _ =>
    if m = 0 then (.fin n 0 e false, 0)
    else if n then (.nan false, fNV)
    else
      let odd := decide (e % 2 ≠ 0)
      let m' := (if odd then 2 * m else m) * 2 ^ (2 * guardBits)
      let r := natSqrt m'
      (.fin false r ((if odd then e - 1 else e) / 2 - guardBits) (decide (r * r ≠ m')), 0)

/-- 1 ÷ √a, cut after many bits; an infinity of a's sign with DZ for ±0 (R184). -/
def Val.rsqrt (a : Val) : Val × Flg :=
  match a with
  | .nan _ => (.nan false, 0)
  | .inf n => if n then (.nan false, fNV) else (.fin false 0 0 false, 0)
  | .fin n m e _ =>
    if m = 0 then (.inf n, fDZ)
    else if n then (.nan false, fNV)
    else
      let odd := decide (e % 2 ≠ 0)
      let m' := if odd then 2 * m else m
      let r := natSqrt (2 ^ (2 * guardBits) / m')
      (.fin false r (-((if odd then e - 1 else e) / 2) - guardBits) (decide (r * r * m' ≠ 2 ^ (2 * guardBits))), 0)

/-- Comparison of two values that are no NaN: the sign of a − b. -/
def Val.cmp (a b : Val) : Int :=
  match a, b with
  | .inf n, .inf k => if n = k then 0 else if n then -1 else 1
  | .inf n, _ => if n then -1 else 1
  | _, .inf k => if k then 1 else -1
  | .fin n m e c, .fin k m' e' c' =>
    let e0 := if e ≤ e' then e else e'
    let x := (Val.fin n m e c).over e0 - (Val.fin k m' e' c').over e0
    if x < 0 then -1 else if x = 0 then 0 else 1
  | .nan _, _ => 0
  | _, .nan _ => 0

/-! ## Rounding (R61 to R63, R74) -/

/-- Whether a magnitude cut to t with a remainder goes to the next one: `half` compares the remainder with half the step
(0 below, 1 equal, 2 above), `frac` is floor(D × 2^32) of R63, `r` the upper half of a draw (R61, R63). -/
def roundUp? (mode : Nat) (neg : Bool) (t half frac r : Nat) (exact : Bool) : Bool :=
  if exact then false
  else match mode with
    | 0 => decide (half = 2) || (decide (half = 1) && decide (t % 2 = 1))
    | 1 => false
    | 2 => !neg
    | 3 => neg
    | 4 => decide (1 ≤ half)
    | 5 => decide (r < frac)
    | _ => decide (half = 2) || (decide (half = 1) && decide (t % 2 = 1))

/-- A magnitude (m + ε) · 2^e in steps of 2^q: the whole steps, and whether the mode rounds up; exactness beside them. -/
def roundSteps (mode : Nat) (neg : Bool) (r m : Nat) (e : Int) (cut : Bool) (q : Int) : Nat × Bool :=
  if q ≤ e then (m * 2 ^ (e - q).toNat, !cut)
  else
    let s := (q - e).toNat
    let t := m / 2 ^ s
    let rem := m % 2 ^ s
    let half := if 2 * rem < 2 ^ s then 0 else if 2 * rem = 2 ^ s then (if cut then 2 else 1) else 2
    let exact := decide (rem = 0) && !cut
    (t + b2n (roundUp? mode neg t half (rem * 2 ^ 32 / 2 ^ s) r exact), exact)

/-- The sign placed above magnitude bits. -/
def Fmt.signed (f : Fmt) (neg : Bool) (m : Nat) : Nat := if neg then 2 ^ f.mbits + m else m

/-- What an overflow delivers, and its flags (R62). -/
def overflowBits (f : Fmt) (mode : Nat) (sat neg : Bool) : Nat × Flg :=
  if sat || decide (f.kind = .finite) then (f.signed neg f.maxBits, fOF ||| fNX ||| fSAT)
  else match f.kind with
    | .e4m3 => (f.qnan, fOF ||| fNX)
    | _ =>
      if mode = 1 || (mode = 2 && neg) || (mode = 3 && !neg) then (f.signed neg f.maxBits, fOF ||| fNX)
      else (f.signed neg (f.maxBits + 1), fOF ||| fNX)

/-- An exact value rounded to a format by a mode (R61, R74 round), with `.sat` or not; r is the upper half of the draw that
SR consumes. Bits and flags. A NaN becomes the canonical NaN, or +0 with NV and SAT where the format has none. -/
def roundVal (f : Fmt) (mode : Nat) (sat : Bool) (r : Nat) (v : Val) : Nat × Flg :=
  match v with
  | .nan _ => if f.kind = .finite then (0, fNV ||| fSAT) else (f.qnan, 0)
  | .inf n => if f.kind = .ieee then (f.signed n (f.maxBits + 1), 0) else overflowBits f mode sat n
  | .fin n m e c =>
    if m = 0 && !c then (f.signed n 0, 0)
    else
      let ex := (m.log2 : Int) + e
      let top := if ex < f.emin then f.emin else ex
      let (t, exact) := roundSteps mode n r m e c (top - f.fbits)
      let bits := (top - f.emin).toNat * 2 ^ f.fbits + t
      if f.maxBits < bits then overflowBits f mode sat n
      else if exact then (f.signed n bits, 0)
      else (f.signed n bits, fNX ||| (if 0 < bits ∧ bits < 2 ^ f.fbits then fUF else 0))

/-- An exact finite value rounded to an integer by a mode (R61). -/
def roundInt (mode r : Nat) (v : Val) : Int × Bool :=
  match v with
  | .fin n m e c =>
    let (t, exact) := roundSteps mode n r m e c 0
    (if n then -(t : Int) else (t : Int), exact)
  | _ => (0, true)

/-- NaN to 0 with NV and SAT; an infinity or a value outside [lo, hi] clamped once with NV and SAT; else the rounded
integer, with NX where it differs (R67, float to integer or ternary). -/
def toIntSat (lo hi : Int) (mode r : Nat) (v : Val) : Int × Flg :=
  match v with
  | .nan _ => (0, fNV ||| fSAT)
  | .inf n => (if n then lo else hi, fNV ||| fSAT)
  | .fin _ _ _ _ =>
    let (x, exact) := roundInt mode r v
    if hi < x then (hi, fNV ||| fSAT)
    else if x < lo then (lo, fNV ||| fSAT)
    else (x, if exact then 0 else fNX)

/-- The code of a ternary value (R58). -/
def ternCode (x : Int) : Nat := if x = 0 then 0 else if x < 0 then 3 else 1

/-- A conversion of one element between types (R67): bits, flags, and whether the element was clamped or a NaN mapped to
zero. -/
def convElem (src dst : ElemTy) (mode : Nat) (sat : Bool) (r x : Nat) : Nat × Flg × Bool :=
  let (v, f0) := readElem src x
  match dst with
  | .flt f =>
    let (y, fl) := roundVal f mode sat r v
    (y, f0 ||| fl ||| snanFlag [v], decide (fl &&& fSAT ≠ 0))
  | .int w s =>
    match src with
    | .flt _ =>
      let (y, fl) := toIntSat (intMin w s) (intMax w s) mode r v
      (wrapBits w y, f0 ||| fl, decide (fl &&& fSAT ≠ 0))
    | _ =>
      let (y, fl) := intResult w s sat (v.over 0)
      (y, f0 ||| fl, decide (fl ≠ 0))
  | .tern =>
    match src with
    | .flt _ =>
      let (y, fl) := toIntSat (-1) 1 mode r v
      (ternCode y, f0 ||| fl, decide (fl &&& fSAT ≠ 0))
    | _ =>
      let y := v.over 0
      if 1 < y then (1, f0 ||| fSAT, true)
      else if y < -1 then (3, f0 ||| fSAT, true)
      else (ternCode y, f0, false)

/-! ## Draws (R64) -/

/-- The draw function (R64). -/
def mix (v : Word) : Word :=
  let z := v * 0x9E3779B97F4A7C15#64
  let z := (z ^^^ (z >>> 30)) * 0xBF58476D1CE4E5B9#64
  let z := (z ^^^ (z >>> 27)) * 0x94D049BB133111EB#64
  z ^^^ (z >>> 31)

/-- The upper half of the i-th draw (from 0) of a firing whose reservation found the counter at c (R63, R64). -/
def drawHi (c : Word) (i : Nat) : Nat := (mix (c + BitVec.ofNat 64 (i + 1))).toNat / 2 ^ 32

/-! ## The device exponential (R73) -/

/-- FP32 fused multiply-add under RNE with its flags left out (R74, within exp2_dev). -/
def fma32 (a b c : Nat) : Nat :=
  (roundVal fp32 0 false 0
    (Val.add false ((readFlt fp32 a).mul (readFlt fp32 b)).1 (readFlt fp32 c)).1).1

/-- exp2_dev on FP32 bits: bits and flags (R73). -/
def exp2Dev (x : Nat) : Nat × Flg :=
  match readFlt fp32 x with
  | .nan _ => (fp32.qnan, 0)
  | .inf n => if n then (0, 0) else (fp32.signed false (fp32.maxBits + 1), fOF)
  | .fin n m e c =>
    let v := Val.fin n m e c
    if 0 ≤ v.cmp (.ofInt 128) then (fp32.signed false (fp32.maxBits + 1), fOF)
    else if v.cmp (.ofInt (-150)) < 0 then (0, fUF)
    else
      let k := (roundInt 3 0 v).1
      let f := (roundVal fp32 0 false 0 (Val.sub false v (.ofInt k)).1).1
      let t := fma32 f 0x3DA00000 0x3E680000
      let t := fma32 f t 0x3F320000
      let p := fma32 f t 0x3F800000
      let y := (readFlt fp32 p).scale k
      if y.cmp (.fin false 1 (-126) false) < 0 then (0, fUF)
      else ((roundVal fp32 0 false 0 y).1, 0)

/-! ## Logarithm (R187) -/

/-- Binary digits of log2 of y / 2^p, with y / 2^p in [1, 2): square, and take a digit where the square reaches 2. -/
def log2Go (p : Nat) : Nat → Nat → Nat → Nat
  | 0, _, acc => acc
  | k + 1, y, acc =>
    let y2 := y * y / 2 ^ p
    if 2 ^ (p + 1) ≤ y2 then log2Go p k (y2 / 2) (2 * acc + 1) else log2Go p k y2 (2 * acc)

/-- log2 of a positive exact value, cut after 160 binary places (log 32). -/
def Val.log2 (m : Nat) (e : Int) : Val :=
  let b := m.log2
  let ip : Int := (b : Int) + e
  if m = 2 ^ b then .ofInt ip
  else
    let fr := log2Go 512 160 (m * 2 ^ 512 / 2 ^ b) 0
    let x := ip * (2 ^ 160 : Nat) + (fr : Int)
    if 0 ≤ x then .fin false x.toNat (-160) true
    else .fin true (x.natAbs - 1) (-160) true

/-- The OR of the flags of results (R66). -/
def orFlags (xs : List (Nat × Flg)) : Flg := xs.foldl (fun a x => a ||| x.2) 0

end Sys2Proof.Machine
end

