-- ==== Sys2Proof/Machine/Forms.lean ====
section
/-! DEFINITION. What the encoding tables allow of a record (R76, R153, R155, R175, R183, R189, R228, R284, R297, R312,
R380): one Form for each record instruction, read by the loader's checks and by those at fire time (R92). -/

namespace Sys2Proof

/-- The layouts of the SUB field (R81). -/
inductive Layout where
  | rounded
  | integer
  | scoped
  | plain
deriving DecidableEq, Repr

/-- What the encoding tables allow of one record instruction: its opcode, SUB layout, TAG codes, TYP codes, pairs of ARI and
LK, SUB values (with the TYP), literal values for LK 0b01, and whether R91 makes it privileged. -/
structure Form where
  opc    : Nat
  layout : Layout
  tags   : List Nat
  typs   : List Nat
  combos : List (Nat × Nat)
  sub    : Nat → Nat → Bool
  lit    : Nat → Bool
  priv   : Bool

namespace Forms

/-- TAG 0 to 6 (R31). -/
def tags06 : List Nat := [0, 1, 2, 3, 4, 5, 6]
/-- TAG 0 to 3. -/
def tags03 : List Nat := [0, 1, 2, 3]
/-- Every TYP code (R47). -/
def typAny : List Nat := [0, 1, 2, 3, 4, 5, 6, 7, 8, 9, 10, 11, 12, 13, 14, 15]
/-- The integer types (R175). -/
def typInt : List Nat := [0, 1, 2, 3, 4, 5, 6, 7]
/-- The scalar float types (R183). -/
def typFloat : List Nat := [8, 9, 10]
/-- The vector integer types VI (R284). -/
def typVI : List Nat := [0, 1, 2, 4, 5, 6]
/-- The vector float types VF (R284). -/
def typVF : List Nat := [8, 9, 10]
/-- VI and VF together (R284). -/
def typV : List Nat := [0, 1, 2, 4, 5, 6, 8, 9, 10]
/-- No limit on the literal beyond its kind. -/
def litAny : Nat → Bool := fun _ => true
/-- SUB zero. -/
def sub0 : Nat → Nat → Bool := fun s _ => decide (s = 0)
/-- SUB exactly k. -/
def subIs (k : Nat) : Nat → Nat → Bool := fun s _ => decide (s = k)
/-- SUB at most k. -/
def subMax (k : Nat) : Nat → Nat → Bool := fun s _ => decide (s ≤ k)
/-- Layout I with SAT free and VAR zero (R175). -/
def subSat : Nat → Nat → Bool := fun s _ => decide (s % 32 = 0)
/-- Layout F with RM and SAT used and VAR zero (R183). -/
def subF : Nat → Nat → Bool := fun s _ => decide (s % 4 = 0)
/-- Layout F with RM used, SAT and VAR zero (R183). -/
def subRm : Nat → Nat → Bool := fun s _ => decide (s % 8 = 0)
/-- Layout F with RM zero, SAT free, VAR zero (R284, VABS and VNEG). -/
def subSatF : Nat → Nat → Bool := fun s _ => decide (s % 4 = 0) && decide (s / 8 = 0)
/-- Layout F for an instruction over V: RM is zero for the integer types (R284). -/
def subFV : Nat → Nat → Bool := fun s t => decide (s % 4 = 0) && (decide (8 ≤ t) || decide (s / 8 = 0))
/-- Layout S with VAR zero (R81). -/
def subScope0 : Nat → Nat → Bool := fun s _ => decide (s % 8 = 0)
/-- Layout S with VAR at most k. -/
def subVarMax (k : Nat) : Nat → Nat → Bool := fun s _ => decide (s % 8 ≤ k)
/-- Layout S with VAR exactly k. -/
def subVarIs (k : Nat) : Nat → Nat → Bool := fun s _ => decide (s % 8 = k)
/-- CMB operations: codes 0 to 5, and 0 to 2 for a float type (R170). -/
def subCmb : Nat → Nat → Bool := fun s t => decide (s ≤ 5) && (decide (t < 8) || decide (s ≤ 2))
/-- RNG: raw with UINT64, unit with FP32 (R155). -/
def subRng : Nat → Nat → Bool := fun s t => (decide (s = 0) && decide (t = 7)) || (decide (s = 1) && decide (t = 8))
/-- VCMP conditions: 0 to 6, and 6 for float types alone (R286). -/
def subVcmp : Nat → Nat → Bool := fun s t => decide (s ≤ 6) && (decide (8 ≤ t) || decide (s ≠ 6))
/-- VRED and VSCAN operations: `.or` for integer types alone, RM zero for them (R287). -/
def subVred : Nat → Nat → Bool := fun s t =>
  if 8 ≤ t then decide (s % 4 ≠ 3) else decide (s / 8 = 0)
/-- TLBINV: scope die, package or pod, VAR[0] alone (R253). -/
def subTlbinv : Nat → Nat → Bool := fun s _ => decide (s % 8 ≤ 1) && decide (3 ≤ s / 8)
/-- ATOM and ACAS: VAR[2] REL alone, and SCOPE 0 without it (R380). -/
def subRel : Nat → Nat → Bool := fun s _ => decide (s % 4 = 0) && (decide (s / 4 % 2 = 1) || decide (s / 8 = 0))
/-- MMA and MMAT: H, Z, BS; BS only for 0xB to 0xE and always for 0xD and 0xE (R304). -/
def subMma : Nat → Nat → Bool := fun s t =>
  decide (s < 8) && (if s / 4 = 1 then decide (11 ≤ t) && decide (t ≤ 14) else decide (t ≠ 13) && decide (t ≠ 14))
/-- MMAX: G codes 0 to 4, Z, BS as for MMA (R297, R304). -/
def subMmax : Nat → Nat → Bool := fun s t =>
  decide (s < 32) && decide (s % 8 ≤ 4) &&
    (if s / 16 = 1 then decide (11 ≤ t) && decide (t ≤ 14) else decide (t ≠ 13) && decide (t ≠ 14))
/-- AMOV: directions 0 to 2, PEEK only with `.ts` and `.tt` (R297, R306). -/
def subAmov : Nat → Nat → Bool := fun s _ => decide (s < 8) && decide (s % 4 ≠ 3) && (decide (s / 4 = 0) || decide (s % 4 ≠ 1))

/-- The form of `sink` records. -/
def sink : Form := ⟨0x01, .plain, [0], [0], [(1, 0), (2, 0), (3, 0)], sub0, litAny, false⟩
/-- The form of `dup` records. -/
def dup : Form := ⟨0x02, .plain, tags06, [0], [(1, 0)], sub0, litAny, false⟩
/-- The form of `const` records. -/
def const : Form := ⟨0x03, .plain, tags06, typAny, [(1, 1), (1, 2)], sub0, litAny, false⟩
/-- The form of `steer` records. -/
def steer : Form := ⟨0x04, .plain, tags06, [0], [(2, 0)], sub0, litAny, false⟩
/-- The form of `gate` records. -/
def gate : Form := ⟨0x05, .plain, tags06, [0], [(2, 0), (3, 0)], sub0, litAny, false⟩
/-- The form of `loopin` records. -/
def loopin : Form := ⟨0x06, .plain, [2], [0], [(1, 1), (2, 1)], sub0, (fun l => decide (1 ≤ l) && decide (l ≤ 64)), false⟩
/-- The form of `iter` records. -/
def iter : Form := ⟨0x07, .plain, [0], [0], [(1, 1), (2, 1)], (subMax 1), (fun l => decide (l < 4096)), false⟩
/-- The form of `loopout` records. -/
def loopout : Form := ⟨0x08, .plain, [3], [0], [(1, 1), (2, 1)], (subMax 1), (fun l => decide (l < 4096)), false⟩
/-- The form of `loopcr` records. -/
def loopcr : Form := ⟨0x09, .plain, [0], [0], [(1, 1)], sub0, (fun l => decide (l < 4096)), false⟩
/-- The form of `call` records. -/
def call : Form := ⟨0x0A, .plain, [2], [0], [(1, 1)], sub0, litAny, false⟩
/-- The form of `callCol` records. -/
def callCol : Form := ⟨0x0A, .plain, [4], [0], [(1, 0)], sub0, litAny, false⟩
/-- The form of `ret` records. -/
def ret : Form := ⟨0x0B, .plain, [3], [0], [(1, 2)], sub0, litAny, false⟩
/-- The form of `tagget` records. -/
def tagget : Form := ⟨0x0C, .plain, tags06, [0], [(1, 0), (1, 1)], (subMax 4), litAny, false⟩
/-- The form of `tagset` records. -/
def tagset : Form := ⟨0x0D, .plain, [0], [0], [(2, 0)], sub0, litAny, false⟩
/-- The form of `spawn` records. -/
def spawn : Form := ⟨0x0E, .plain, [4], [0], [(1, 0)], (subMax 1), litAny, false⟩
/-- The form of `purge` records. -/
def purge : Form := ⟨0x0F, .plain, [0], [0], [(1, 0)], sub0, litAny, false⟩
/-- The form of `join` records. -/
def join : Form := ⟨0x10, .plain, tags06, [0], [(1, 0)], sub0, litAny, false⟩
/-- The form of `cmb` records. -/
def cmb : Form := ⟨0x11, .plain, [0], [0, 1, 2, 3, 4, 5, 6, 7, 8, 9, 10], [(1, 1)], subCmb, (fun l => decide (1 ≤ l) && decide (l < 524288)), false⟩
/-- The form of `dends` records. -/
def dends : Form := ⟨0x12, .plain, tags06, [0], [(1, 0)], (subMax 2), litAny, false⟩
/-- The form of `bndry` records. -/
def bndry : Form := ⟨0x13, .scoped, [0], [0], [(1, 0)], subScope0, litAny, false⟩
/-- The form of `vote` records. -/
def vote : Form := ⟨0x14, .plain, [0], [0], [(3, 0)], sub0, litAny, false⟩
/-- The form of `rng` records. -/
def rng : Form := ⟨0x15, .plain, tags06, [7, 8], [(1, 0)], subRng, litAny, false⟩
/-- The form of `evpost` records. -/
def evpost : Form := ⟨0x16, .plain, [0], [0], [(2, 1)], (subMax 3), litAny, false⟩
/-- The form of `endg` records. -/
def endg : Form := ⟨0x17, .plain, [0], [0], [(1, 0)], sub0, litAny, false⟩
/-- The form of `add` records. -/
def add : Form := ⟨0x20, .integer, tags06, typInt, [(2, 0), (1, 1), (1, 2)], subSat, litAny, false⟩
/-- The form of `sub` records. -/
def sub : Form := ⟨0x21, .integer, tags06, typInt, [(2, 0), (1, 1), (1, 2)], subSat, litAny, false⟩
/-- The form of `mul` records. -/
def mul : Form := ⟨0x22, .integer, tags06, typInt, [(2, 0), (1, 1), (1, 2)], subSat, litAny, false⟩
/-- The form of `mulh` records. -/
def mulh : Form := ⟨0x23, .integer, tags06, typInt, [(2, 0), (1, 1), (1, 2)], sub0, litAny, false⟩
/-- The form of `div` records. -/
def div : Form := ⟨0x24, .integer, tags06, typInt, [(2, 0), (1, 1), (1, 2)], subSat, litAny, false⟩
/-- The form of `rem` records. -/
def rem : Form := ⟨0x25, .integer, tags06, typInt, [(2, 0), (1, 1), (1, 2)], sub0, litAny, false⟩
/-- The form of `neg` records. -/
def neg : Form := ⟨0x26, .integer, tags06, typInt, [(1, 0)], subSat, litAny, false⟩
/-- The form of `abs` records. -/
def abs : Form := ⟨0x27, .integer, tags06, typInt, [(1, 0)], subSat, litAny, false⟩
/-- The form of `min` records. -/
def min : Form := ⟨0x28, .integer, tags06, typInt, [(2, 0), (1, 1), (1, 2)], sub0, litAny, false⟩
/-- The form of `max` records. -/
def max : Form := ⟨0x29, .integer, tags06, typInt, [(2, 0), (1, 1), (1, 2)], sub0, litAny, false⟩
/-- The form of `and` records. -/
def and : Form := ⟨0x2A, .integer, tags06, typInt, [(2, 0), (1, 1), (1, 2)], sub0, litAny, false⟩
/-- The form of `or` records. -/
def or : Form := ⟨0x2B, .integer, tags06, typInt, [(2, 0), (1, 1), (1, 2)], sub0, litAny, false⟩
/-- The form of `xor` records. -/
def xor : Form := ⟨0x2C, .integer, tags06, typInt, [(2, 0), (1, 1), (1, 2)], sub0, litAny, false⟩
/-- The form of `andn` records. -/
def andn : Form := ⟨0x2D, .integer, tags06, typInt, [(2, 0), (1, 1), (1, 2)], sub0, litAny, false⟩
/-- The form of `shl` records. -/
def shl : Form := ⟨0x2E, .integer, tags06, typInt, [(2, 0), (1, 1), (1, 2)], subSat, litAny, false⟩
/-- The form of `shr` records. -/
def shr : Form := ⟨0x2F, .integer, tags06, typInt, [(2, 0), (1, 1), (1, 2)], sub0, litAny, false⟩
/-- The form of `sar` records. -/
def sar : Form := ⟨0x30, .integer, tags06, typInt, [(2, 0), (1, 1), (1, 2)], sub0, litAny, false⟩
/-- The form of `rotl` records. -/
def rotl : Form := ⟨0x31, .integer, tags06, typInt, [(2, 0), (1, 1), (1, 2)], sub0, litAny, false⟩
/-- The form of `clz` records. -/
def clz : Form := ⟨0x32, .integer, tags06, typInt, [(1, 0)], sub0, litAny, false⟩
/-- The form of `ctz` records. -/
def ctz : Form := ⟨0x33, .integer, tags06, typInt, [(1, 0)], sub0, litAny, false⟩
/-- The form of `popc` records. -/
def popc : Form := ⟨0x34, .integer, tags06, typInt, [(1, 0)], sub0, litAny, false⟩
/-- The form of `brev` records. -/
def brev : Form := ⟨0x35, .integer, tags06, typInt, [(1, 0)], sub0, litAny, false⟩
/-- The form of `bext` records. -/
def bext : Form := ⟨0x36, .integer, tags06, typInt, [(2, 0), (1, 1), (1, 2)], sub0, litAny, false⟩
/-- The form of `bins` records. -/
def bins : Form := ⟨0x37, .integer, tags06, typInt, [(3, 0), (2, 1), (2, 2)], sub0, litAny, false⟩
/-- The form of `cmp` records. -/
def cmp : Form := ⟨0x38, .integer, tags06, typInt, [(2, 0), (1, 1), (1, 2)], (subMax 5), litAny, false⟩
/-- The form of `sel` records. -/
def sel : Form := ⟨0x39, .integer, tags06, typInt, [(3, 0), (2, 1), (2, 2)], sub0, litAny, false⟩
/-- The form of `madd` records. -/
def madd : Form := ⟨0x3A, .integer, tags06, typInt, [(3, 0), (2, 1), (2, 2)], subSat, litAny, false⟩
/-- The form of `lea` records. -/
def lea : Form := ⟨0x3B, .integer, tags06, typInt, [(2, 0), (2, 1), (2, 2)], (subMax 9), litAny, false⟩
/-- The form of `line` records. -/
def line : Form := ⟨0x3C, .integer, tags06, [7], [(1, 0)], (subMax 4), litAny, false⟩
/-- The form of `fadd` records. -/
def fadd : Form := ⟨0x40, .rounded, tags06, typFloat, [(2, 0), (1, 1), (1, 2)], subF, litAny, false⟩
/-- The form of `fsub` records. -/
def fsub : Form := ⟨0x41, .rounded, tags06, typFloat, [(2, 0), (1, 1), (1, 2)], subF, litAny, false⟩
/-- The form of `fmul` records. -/
def fmul : Form := ⟨0x42, .rounded, tags06, typFloat, [(2, 0), (1, 1), (1, 2)], subF, litAny, false⟩
/-- The form of `fma` records. -/
def fma : Form := ⟨0x43, .rounded, tags06, typFloat, [(3, 0), (2, 1), (2, 2)], subF, litAny, false⟩
/-- The form of `fdiv` records. -/
def fdiv : Form := ⟨0x44, .rounded, tags06, typFloat, [(2, 0), (1, 1), (1, 2)], subF, litAny, false⟩
/-- The form of `fsqrt` records. -/
def fsqrt : Form := ⟨0x45, .rounded, tags06, typFloat, [(1, 0)], subF, litAny, false⟩
/-- The form of `fmin` records. -/
def fmin : Form := ⟨0x46, .rounded, tags06, typFloat, [(2, 0), (1, 1), (1, 2)], sub0, litAny, false⟩
/-- The form of `fmax` records. -/
def fmax : Form := ⟨0x47, .rounded, tags06, typFloat, [(2, 0), (1, 1), (1, 2)], sub0, litAny, false⟩
/-- The form of `fabs` records. -/
def fabs : Form := ⟨0x48, .rounded, tags06, typFloat, [(1, 0)], sub0, litAny, false⟩
/-- The form of `fneg` records. -/
def fneg : Form := ⟨0x49, .rounded, tags06, typFloat, [(1, 0)], sub0, litAny, false⟩
/-- The form of `fcmp` records. -/
def fcmp : Form := ⟨0x4A, .rounded, tags06, typFloat, [(2, 0), (1, 1), (1, 2)], (subMax 3), litAny, false⟩
/-- The form of `fcvt` records. -/
def fcvt : Form := ⟨0x4B, .rounded, tags06, typAny, [(1, 1)], subF, (fun l => decide (l < 16)), false⟩
/-- The form of `frnd` records. -/
def frnd : Form := ⟨0x4C, .rounded, tags06, typFloat, [(1, 0)], subRm, litAny, false⟩
/-- The form of `fexp2` records. -/
def fexp2 : Form := ⟨0x4D, .rounded, tags06, typFloat, [(1, 0)], subRm, litAny, false⟩
/-- The form of `flog2` records. -/
def flog2 : Form := ⟨0x4E, .rounded, tags06, typFloat, [(1, 0)], subRm, litAny, false⟩
/-- The form of `frcp` records. -/
def frcp : Form := ⟨0x4F, .rounded, tags06, typFloat, [(1, 0)], subF, litAny, false⟩
/-- The form of `frsq` records. -/
def frsq : Form := ⟨0x50, .rounded, tags06, typFloat, [(1, 0)], subF, litAny, false⟩
/-- The form of `vadd` records. -/
def vadd : Form := ⟨0x58, .rounded, tags06, typV, [(2, 0), (1, 1), (1, 2)], subFV, litAny, false⟩
/-- The form of `vsub` records. -/
def vsub : Form := ⟨0x59, .rounded, tags06, typV, [(2, 0), (1, 1), (1, 2)], subFV, litAny, false⟩
/-- The form of `vmul` records. -/
def vmul : Form := ⟨0x5A, .rounded, tags06, typV, [(2, 0), (1, 1), (1, 2)], subFV, litAny, false⟩
/-- The form of `vfma` records. -/
def vfma : Form := ⟨0x5B, .rounded, tags06, typVF, [(3, 0), (2, 1), (2, 2)], subF, litAny, false⟩
/-- The form of `vmin` records. -/
def vmin : Form := ⟨0x5C, .rounded, tags06, typV, [(2, 0), (1, 1), (1, 2)], sub0, litAny, false⟩
/-- The form of `vmax` records. -/
def vmax : Form := ⟨0x5D, .rounded, tags06, typV, [(2, 0), (1, 1), (1, 2)], sub0, litAny, false⟩
/-- The form of `vabs` records. -/
def vabs : Form := ⟨0x5E, .rounded, tags06, typV, [(1, 0)], subSatF, litAny, false⟩
/-- The form of `vneg` records. -/
def vneg : Form := ⟨0x5F, .rounded, tags06, typV, [(1, 0)], subSatF, litAny, false⟩
/-- The form of `vand` records. -/
def vand : Form := ⟨0x60, .plain, tags06, typVI, [(2, 0), (1, 1), (1, 2)], sub0, litAny, false⟩
/-- The form of `vor` records. -/
def vor : Form := ⟨0x61, .plain, tags06, typVI, [(2, 0), (1, 1), (1, 2)], sub0, litAny, false⟩
/-- The form of `vxor` records. -/
def vxor : Form := ⟨0x62, .plain, tags06, typVI, [(2, 0), (1, 1), (1, 2)], sub0, litAny, false⟩
/-- The form of `vshl` records. -/
def vshl : Form := ⟨0x63, .integer, tags06, typVI, [(2, 0), (1, 1), (1, 2)], subSat, litAny, false⟩
/-- The form of `vshr` records. -/
def vshr : Form := ⟨0x64, .integer, tags06, typVI, [(2, 0), (1, 1), (1, 2)], sub0, litAny, false⟩
/-- The form of `vcmp` records. -/
def vcmp : Form := ⟨0x65, .plain, tags06, typV, [(2, 0), (1, 1), (1, 2)], subVcmp, litAny, false⟩
/-- The form of `vsel` records. -/
def vsel : Form := ⟨0x66, .plain, tags06, typV, [(3, 0), (2, 1), (2, 2)], sub0, litAny, false⟩
/-- The form of `vred` records. -/
def vred : Form := ⟨0x67, .rounded, tags06, typV, [(1, 0)], subVred, litAny, false⟩
/-- The form of `vscan` records. -/
def vscan : Form := ⟨0x68, .rounded, tags06, typV, [(1, 0)], subVred, litAny, false⟩
/-- The form of `vexp2` records. -/
def vexp2 : Form := ⟨0x69, .rounded, tags06, typVF, [(1, 0)], subRm, litAny, false⟩
/-- The form of `vrcp` records. -/
def vrcp : Form := ⟨0x6A, .rounded, tags06, typVF, [(1, 0)], subF, litAny, false⟩
/-- The form of `vrsq` records. -/
def vrsq : Form := ⟨0x6B, .rounded, tags06, typVF, [(1, 0)], subF, litAny, false⟩
/-- The form of `vcvt` records. -/
def vcvt : Form := ⟨0x6C, .rounded, tags06, typAny, [(2, 1)], subF, (fun l => decide (l < 16)), false⟩
/-- The form of `vperm` records. -/
def vperm : Form := ⟨0x6D, .plain, tags06, [2, 6, 8], [(2, 0)], sub0, litAny, false⟩
/-- The form of `vsplat` records. -/
def vsplat : Form := ⟨0x6E, .plain, tags06, typV, [(2, 0), (1, 1), (1, 2)], sub0, litAny, false⟩
/-- The form of `viota` records. -/
def viota : Form := ⟨0x6F, .plain, tags06, typVI, [(2, 0), (1, 1), (1, 2)], sub0, litAny, false⟩
/-- The form of `vpack` records. -/
def vpack : Form := ⟨0x70, .plain, tags06, typV, [(3, 0)], sub0, litAny, false⟩
/-- The form of `vunpk` records. -/
def vunpk : Form := ⟨0x71, .plain, tags06, typV, [(3, 0)], sub0, litAny, false⟩
/-- The form of `vcpy` records. -/
def vcpy : Form := ⟨0x72, .plain, tags06, [0], [(2, 0)], sub0, litAny, false⟩
/-- The form of `cvt` records. -/
def cvt : Form := ⟨0x73, .rounded, tags06, typAny, [(1, 1)], subF, (fun l => decide (l < 16)), false⟩
/-- The form of `qblk` records. -/
def qblk : Form := ⟨0x74, .rounded, tags06, [8], [(3, 1)], subF, (fun l => decide (l < 16)), false⟩
/-- The form of `dqblk` records. -/
def dqblk : Form := ⟨0x75, .rounded, tags06, [8], [(3, 1)], subF, (fun l => decide (l < 16)), false⟩
/-- The form of `ternpk` records. -/
def ternpk : Form := ⟨0x76, .plain, tags06, [8], [(3, 0), (2, 1), (2, 2)], sub0, litAny, false⟩
/-- The form of `ternpkUnpk` records. -/
def ternpkUnpk : Form := ⟨0x76, .plain, tags06, [0], [(2, 0)], (subIs 1), litAny, false⟩
/-- The form of `ld` records. -/
def ld : Form := ⟨0x80, .plain, tags03, [0, 1, 2, 3, 4, 5, 6, 7, 8, 9, 10, 11, 12], [(1, 0), (1, 1), (1, 2)], sub0, litAny, false⟩
/-- The form of `st` records. -/
def st : Form := ⟨0x81, .plain, tags03, [0, 1, 2, 3, 4, 5, 6, 7, 8, 9, 10, 11, 12], [(2, 0), (2, 1), (2, 2)], sub0, litAny, false⟩
/-- The form of `ldv` records. -/
def ldv : Form := ⟨0x82, .plain, tags03, typAny, [(2, 0), (2, 1), (2, 2)], sub0, litAny, false⟩
/-- The form of `stv` records. -/
def stv : Form := ⟨0x83, .plain, tags03, typAny, [(2, 0), (2, 1), (2, 2)], sub0, litAny, false⟩
/-- The form of `ldg` records. -/
def ldg : Form := ⟨0x84, .plain, tags03, [0, 1, 2, 4, 5, 6, 8, 9, 10, 11, 12], [(2, 0), (2, 1), (2, 2)], sub0, litAny, false⟩
/-- The form of `sts` records. -/
def sts : Form := ⟨0x85, .plain, tags03, [0, 1, 2, 4, 5, 6, 8, 9, 10, 11, 12], [(3, 0), (3, 1), (3, 2)], sub0, litAny, false⟩
/-- The form of `mnop` records. -/
def mnop : Form := ⟨0x86, .plain, tags03, [0], [(1, 2)], sub0, litAny, false⟩
/-- The form of `wave` records. -/
def wave : Form := ⟨0x87, .plain, tags03, [0], [(1, 1)], sub0, (fun l => decide (l < 16384) && decide (1 ≤ l % 64)), false⟩
/-- The form of `pf` records. -/
def pf : Form := ⟨0x88, .plain, tags03, [0], [(1, 0), (1, 1)], sub0, litAny, false⟩
/-- The form of `lwb` records. -/
def lwb : Form := ⟨0x89, .plain, tags03, [0], [(1, 0), (1, 1)], sub0, litAny, false⟩
/-- The form of `linv` records. -/
def linv : Form := ⟨0x8A, .plain, tags03, [0], [(1, 0), (1, 1)], (subMax 1), litAny, false⟩
/-- The form of `sbind` records. -/
def sbind : Form := ⟨0x8B, .plain, tags03, [0], [(3, 1)], sub0, (fun l => decide (l < 32)), false⟩
/-- The form of `scancel` records. -/
def scancel : Form := ⟨0x8C, .plain, tags03, [0], [(1, 1)], (subMax 1), (fun l => decide (l < 32)), false⟩
/-- The form of `sstat` records. -/
def sstat : Form := ⟨0x8D, .plain, tags03, [0], [(1, 1)], sub0, (fun l => decide (l < 32)), false⟩
/-- The form of `cpy` records. -/
def cpy : Form := ⟨0x8E, .scoped, tags03, [0], [(3, 0), (3, 1)], (subVarMax 1), (fun l => decide (l < 64)), false⟩
/-- The form of `cpyr` records. -/
def cpyr : Form := ⟨0x8F, .scoped, tags03, [2, 8, 10], [(3, 0), (3, 1)], (subVarMax 2), (fun l => decide (l < 64)), false⟩
/-- The form of `mcrd` records. -/
def mcrd : Form := ⟨0x90, .plain, tags03, typAny, [(2, 0), (2, 1), (2, 2)], sub0, litAny, false⟩
/-- The form of `xlat` records. -/
def xlat : Form := ⟨0x91, .plain, tags03, [0], [(1, 0), (1, 1)], sub0, litAny, false⟩
/-- The form of `tlbinv` records. -/
def tlbinv : Form := ⟨0x92, .scoped, tags03, [0], [(1, 0)], subTlbinv, litAny, true⟩
/-- The form of `fence` records. -/
def fence : Form := ⟨0x98, .scoped, tags03, [0], [(1, 0)], subScope0, litAny, false⟩
/-- The form of `rel` records. -/
def rel : Form := ⟨0x99, .scoped, tags03, [0], [(1, 0)], subScope0, litAny, false⟩
/-- The form of `acq` records. -/
def acq : Form := ⟨0x9A, .plain, tags03, [0], [(1, 0)], sub0, litAny, false⟩
/-- The form of `tlinc` records. -/
def tlinc : Form := ⟨0x9B, .scoped, tags03, [0], [(1, 1)], subScope0, (fun l => decide (l < 32)), false⟩
/-- The form of `tlwait` records. -/
def tlwait : Form := ⟨0x9C, .plain, tags03, [0], [(1, 1)], sub0, (fun l => decide (l < 32)), false⟩
/-- The form of `tlarm` records. -/
def tlarm : Form := ⟨0x9D, .plain, tags03, [0], [(2, 1)], sub0, (fun l => decide (l < 64)), false⟩
/-- The form of `tlread` records. -/
def tlread : Form := ⟨0x9E, .plain, tags03, [0], [(1, 1)], sub0, (fun l => decide (l < 32)), false⟩
/-- The form of `barinit` records. -/
def barinit : Form := ⟨0x9F, .plain, tags03, [0], [(2, 0)], sub0, litAny, false⟩
/-- The form of `bararr` records. -/
def bararr : Form := ⟨0xA0, .plain, tags03, [0], [(1, 0)], sub0, litAny, false⟩
/-- The form of `barexit` records. -/
def barexit : Form := ⟨0xA1, .plain, tags03, [0], [(1, 0)], sub0, litAny, false⟩
/-- The form of `itake` records. -/
def itake : Form := ⟨0xA2, .plain, tags03, [0, 1, 2, 3, 4, 5, 6, 7, 8, 9, 10], [(1, 0), (1, 1)], sub0, litAny, false⟩
/-- The form of `iput` records. -/
def iput : Form := ⟨0xA3, .plain, tags03, [0, 1, 2, 3, 4, 5, 6, 7, 8, 9, 10], [(2, 0), (2, 1)], sub0, litAny, false⟩
/-- The form of `iread` records. -/
def iread : Form := ⟨0xA4, .plain, tags03, [0, 1, 2, 3, 4, 5, 6, 7, 8, 9, 10], [(1, 0), (1, 1)], sub0, litAny, false⟩
/-- The form of `iclr` records. -/
def iclr : Form := ⟨0xA5, .plain, tags03, [0], [(1, 0), (1, 1)], sub0, litAny, false⟩
/-- The form of `atom` records. -/
def atom : Form := ⟨0xA6, .scoped, tags03, [2, 3, 6, 7, 8], [(2, 1)], subRel, litAny, false⟩
/-- The form of `acas` records. -/
def acas : Form := ⟨0xA7, .scoped, tags03, [2, 3, 6, 7], [(3, 0), (3, 1)], subRel, (fun l => decide (l < 131072)), false⟩
/-- The form of `lsend` records. -/
def lsend : Form := ⟨0xA8, .scoped, tags03, [0], [(3, 1)], subScope0, (fun l => decide (l < 262144)), false⟩
/-- The form of `specbeg` records. -/
def specbeg : Form := ⟨0xA9, .plain, [4], [0], [(2, 1)], sub0, (fun l => decide (l < 4096)), true⟩
/-- The form of `speccmt` records. -/
def speccmt : Form := ⟨0xAA, .plain, tags03, [0], [(3, 0)], sub0, litAny, false⟩
/-- The form of `specabt` records. -/
def specabt : Form := ⟨0xAB, .plain, tags03, [0], [(1, 0)], sub0, litAny, false⟩
/-- The form of `oclm` records. -/
def oclm : Form := ⟨0xB0, .plain, tags03, [0], [(1, 1)], (subMax 1), (fun l => decide (l < 32)), false⟩
/-- The form of `orel` records. -/
def orel : Form := ⟨0xB1, .plain, tags03, [0], [(1, 1)], sub0, (fun l => decide (l < 32)), false⟩
/-- The form of `old` records. -/
def old : Form := ⟨0xB2, .plain, tags03, [0], [(2, 1)], sub0, (fun l => decide (l < 16)), false⟩
/-- The form of `olds` records. -/
def olds : Form := ⟨0xB3, .plain, tags03, [0], [(2, 1)], (subIs 0), (fun l => decide (l < 131072)), false⟩
/-- The form of `oldsQ` records. -/
def oldsQ : Form := ⟨0xB3, .plain, tags03, [0], [(1, 1)], (subIs 1), (fun l => decide (l < 131072)), false⟩
/-- The form of `mma` records. -/
def mma : Form := ⟨0xB4, .plain, tags03, [0, 9, 10, 11, 12, 13, 14, 15], [(3, 0)], subMma, litAny, false⟩
/-- The form of `mmat` records. -/
def mmat : Form := ⟨0xB5, .plain, tags03, [0, 9, 10, 11, 12, 13, 14, 15], [(3, 0)], subMma, litAny, false⟩
/-- The form of `mmax` records. -/
def mmax : Form := ⟨0xB6, .plain, tags03, [0, 9, 10, 11, 12, 13, 14], [(3, 0)], subMmax, litAny, false⟩
/-- The form of `aclr` records. -/
def aclr : Form := ⟨0xB7, .plain, tags03, [0], [(1, 0)], sub0, litAny, false⟩
/-- The form of `amov` records. -/
def amov : Form := ⟨0xB8, .plain, tags03, [0], [(2, 0)], subAmov, litAny, false⟩
/-- The form of `aadd` records. -/
def aadd : Form := ⟨0xB9, .plain, tags03, [2, 8], [(2, 0)], subSat, litAny, false⟩
/-- The form of `acvt` records. -/
def acvt : Form := ⟨0xBA, .rounded, tags03, [2, 8], [(2, 1)], subF, (fun l => decide (l < 16)), false⟩
/-- The form of `ackpt` records. -/
def ackpt : Form := ⟨0xBB, .plain, tags03, [0], [(2, 0), (2, 1)], sub0, litAny, false⟩
/-- The form of `arst` records. -/
def arst : Form := ⟨0xBC, .plain, tags03, [0], [(2, 0), (2, 1)], sub0, litAny, false⟩
/-- The form of `astat` records. -/
def astat : Form := ⟨0xBD, .plain, tags03, [0], [(1, 0)], sub0, litAny, false⟩
/-- The form of `topk` records. -/
def topk : Form := ⟨0xBE, .plain, tags03, [2, 6, 8], [(3, 1)], (subMax 1), (fun l => decide (l < 128)), false⟩
/-- The form of `topkm` records. -/
def topkm : Form := ⟨0xBF, .plain, tags03, [2, 6, 8], [(3, 1)], (subMax 1), (fun l => decide (l < 128)), false⟩
/-- The form of `smxi` records. -/
def smxi : Form := ⟨0xC8, .plain, tags03, [0], [(1, 1)], (subMax 7), (fun l => decide (l < 8192)), false⟩
/-- The form of `smxu` records. -/
def smxu : Form := ⟨0xC9, .plain, tags03, [0], [(3, 1)], (subMax 7), (fun l => decide (l < 4096)), false⟩
/-- The form of `smxn` records. -/
def smxn : Form := ⟨0xCA, .rounded, tags03, [0], [(2, 1)], subF, (fun l => decide (l < 16384) && decide (l % 16 ∈ [8, 9, 10, 11]) && decide (1 ≤ l / 16 % 128) && decide (l / 16 % 128 ≤ 64)), false⟩
/-- The form of `smxm` records. -/
def smxm : Form := ⟨0xCB, .plain, tags03, [0], [(2, 1)], (subMax 7), (fun l => decide (1 ≤ l) && decide (l ≤ 64)), false⟩
/-- The form of `smxr` records. -/
def smxr : Form := ⟨0xCC, .plain, tags03, [0], [(2, 0)], (subMax 7), litAny, false⟩
/-- The form of `smxw` records. -/
def smxw : Form := ⟨0xCD, .plain, tags03, [0], [(2, 0)], (subMax 7), litAny, false⟩
/-- The form of `smxs` records. -/
def smxs : Form := ⟨0xCE, .plain, tags03, [0], [(1, 1)], sub0, (fun l => decide (l < 64)), false⟩
/-- The form of `qsend` records. -/
def qsend : Form := ⟨0xCF, .plain, tags03, [0], [(1, 0)], sub0, litAny, false⟩
/-- The form of `qfwd` records. -/
def qfwd : Form := ⟨0xD0, .plain, tags03, [0], [(1, 0)], sub0, litAny, false⟩
/-- The form of `klook` records. -/
def klook : Form := ⟨0xD1, .plain, tags03, [0], [(1, 0)], (subIs 0), litAny, false⟩
/-- The form of `klookPage` records. -/
def klookPage : Form := ⟨0xD1, .plain, tags03, [0], [(2, 0)], (subIs 1), litAny, false⟩
/-- The form of `kapp` records. -/
def kapp : Form := ⟨0xD2, .scoped, tags03, [0], [(2, 0)], subScope0, litAny, false⟩
/-- The form of `kpin` records. -/
def kpin : Form := ⟨0xD3, .plain, tags03, [0], [(3, 1)], (subIs 0), (fun l => decide (l < 64)), false⟩
/-- The form of `kpinUnpin` records. -/
def kpinUnpin : Form := ⟨0xD3, .plain, tags03, [0], [(1, 1)], (subIs 1), (fun l => decide (l < 8)), false⟩
/-- The form of `kevict` records. -/
def kevict : Form := ⟨0xD4, .plain, tags03, [0], [(1, 0)], sub0, litAny, true⟩
/-- The form of `kfill` records. -/
def kfill : Form := ⟨0xD5, .plain, tags03, [0], [(1, 0)], sub0, litAny, false⟩
/-- The form of `pxlook` records. -/
def pxlook : Form := ⟨0xD6, .plain, tags03, [0], [(3, 0)], sub0, litAny, false⟩
/-- The form of `pxins` records. -/
def pxins : Form := ⟨0xD7, .scoped, tags03, [0], [(3, 0)], subScope0, litAny, false⟩
/-- The form of `pgmap` records. -/
def pgmap : Form := ⟨0xD8, .scoped, tags03, [0], [(3, 0)], (subVarIs 0), litAny, false⟩
/-- The form of `pgmapList` records. -/
def pgmapList : Form := ⟨0xD8, .scoped, tags03, [0], [(2, 0)], (subVarIs 1), litAny, false⟩
/-- The form of `pgfrz` records. -/
def pgfrz : Form := ⟨0xD9, .scoped, tags03, [0], [(1, 0)], subScope0, litAny, false⟩
/-- The form of `pgnew` records. -/
def pgnew : Form := ⟨0xDA, .scoped, tags03, [0], [(2, 0)], subScope0, litAny, false⟩
/-- The form of `seqtbl` records. -/
def seqtbl : Form := ⟨0xDB, .plain, tags03, [0], [(2, 1)], (subIs 0), (fun l => decide (l < 16)), false⟩
/-- The form of `seqtblNext` records. -/
def seqtblNext : Form := ⟨0xDB, .plain, tags03, [0], [(1, 0)], (subIs 1), litAny, false⟩
/-- The form of `trap` records. -/
def trap : Form := ⟨0xF0, .plain, [0], [0], [(1, 1)], sub0, litAny, false⟩
/-- The form of `brk` records. -/
def brk : Form := ⟨0xF1, .plain, [0], [0], [(1, 0)], sub0, litAny, false⟩
/-- The form of `sysrd` records. -/
def sysrd : Form := ⟨0xF2, .plain, tags03, [0], [(1, 1)], sub0, litAny, false⟩
/-- The form of `syswr` records. -/
def syswr : Form := ⟨0xF3, .plain, tags03, [0], [(1, 1)], sub0, litAny, false⟩
/-- The form of `evget` records. -/
def evget : Form := ⟨0xF4, .plain, tags03, [0], [(1, 0)], (subMax 3), litAny, true⟩
/-- The form of `launch` records. -/
def launch : Form := ⟨0xF5, .plain, tags03, [0], [(2, 0)], sub0, litAny, true⟩
/-- The form of `cfginst` records. -/
def cfginst : Form := ⟨0xF6, .plain, tags03, [0], [(2, 0)], sub0, litAny, true⟩
/-- The form of `curtain` records. -/
def curtain : Form := ⟨0xF7, .plain, tags03, [0], [(2, 0)], sub0, litAny, true⟩
/-- The form of `ctxsv` records. -/
def ctxsv : Form := ⟨0xF8, .plain, tags03, [0], [(2, 0)], sub0, litAny, true⟩
/-- The form of `ctxld` records. -/
def ctxld : Form := ⟨0xF9, .plain, tags03, [0], [(2, 0)], sub0, litAny, true⟩
/-- The form of `time` records. -/
def time : Form := ⟨0xFA, .plain, tags03, [0], [(1, 0)], (subMax 1), litAny, false⟩
/-- The form of `prompt` records. -/
def prompt : Form := ⟨0xFB, .plain, tags03, [0], [(2, 1)], sub0, (fun l => decide (l < 256)), true⟩

end Forms

/-- The record of a record instruction; none for an event. -/
def Instr.record : Instr → Option Rec
  | .sink r => some r
  | .dup r => some r
  | .const r => some r
  | .steer r => some r
  | .gate r => some r
  | .loopin r => some r
  | .iter r => some r
  | .loopout r => some r
  | .loopcr r => some r
  | .call r => some r
  | .callCol r => some r
  | .ret r => some r
  | .tagget r => some r
  | .tagset r => some r
  | .spawn r => some r
  | .purge r => some r
  | .join r => some r
  | .cmb r => some r
  | .dends r => some r
  | .bndry r => some r
  | .vote r => some r
  | .rng r => some r
  | .evpost r => some r
  | .endg r => some r
  | .add r => some r
  | .sub r => some r
  | .mul r => some r
  | .mulh r => some r
  | .div r => some r
  | .rem r => some r
  | .neg r => some r
  | .abs r => some r
  | .min r => some r
  | .max r => some r
  | .and r => some r
  | .or r => some r
  | .xor r => some r
  | .andn r => some r
  | .shl r => some r
  | .shr r => some r
  | .sar r => some r
  | .rotl r => some r
  | .clz r => some r
  | .ctz r => some r
  | .popc r => some r
  | .brev r => some r
  | .bext r => some r
  | .bins r => some r
  | .cmp r => some r
  | .sel r => some r
  | .madd r => some r
  | .lea r => some r
  | .line r => some r
  | .fadd r => some r
  | .fsub r => some r
  | .fmul r => some r
  | .fma r => some r
  | .fdiv r => some r
  | .fsqrt r => some r
  | .fmin r => some r
  | .fmax r => some r
  | .fabs r => some r
  | .fneg r => some r
  | .fcmp r => some r
  | .fcvt r => some r
  | .frnd r => some r
  | .fexp2 r => some r
  | .flog2 r => some r
  | .frcp r => some r
  | .frsq r => some r
  | .vadd r => some r
  | .vsub r => some r
  | .vmul r => some r
  | .vfma r => some r
  | .vmin r => some r
  | .vmax r => some r
  | .vabs r => some r
  | .vneg r => some r
  | .vand r => some r
  | .vor r => some r
  | .vxor r => some r
  | .vshl r => some r
  | .vshr r => some r
  | .vcmp r => some r
  | .vsel r => some r
  | .vred r => some r
  | .vscan r => some r
  | .vexp2 r => some r
  | .vrcp r => some r
  | .vrsq r => some r
  | .vcvt r => some r
  | .vperm r => some r
  | .vsplat r => some r
  | .viota r => some r
  | .vpack r => some r
  | .vunpk r => some r
  | .vcpy r => some r
  | .cvt r => some r
  | .qblk r => some r
  | .dqblk r => some r
  | .ternpk r => some r
  | .ternpkUnpk r => some r
  | .ld r => some r
  | .st r => some r
  | .ldv r => some r
  | .stv r => some r
  | .ldg r => some r
  | .sts r => some r
  | .mnop r => some r
  | .wave r => some r
  | .pf r => some r
  | .lwb r => some r
  | .linv r => some r
  | .sbind r => some r
  | .scancel r => some r
  | .sstat r => some r
  | .cpy r => some r
  | .cpyr r => some r
  | .mcrd r => some r
  | .xlat r => some r
  | .tlbinv r => some r
  | .fence r => some r
  | .rel r => some r
  | .acq r => some r
  | .tlinc r => some r
  | .tlwait r => some r
  | .tlarm r => some r
  | .tlread r => some r
  | .barinit r => some r
  | .bararr r => some r
  | .barexit r => some r
  | .itake r => some r
  | .iput r => some r
  | .iread r => some r
  | .iclr r => some r
  | .atom r => some r
  | .acas r => some r
  | .lsend r => some r
  | .specbeg r => some r
  | .speccmt r => some r
  | .specabt r => some r
  | .oclm r => some r
  | .orel r => some r
  | .old r => some r
  | .olds r => some r
  | .oldsQ r => some r
  | .mma r => some r
  | .mmat r => some r
  | .mmax r => some r
  | .aclr r => some r
  | .amov r => some r
  | .aadd r => some r
  | .acvt r => some r
  | .ackpt r => some r
  | .arst r => some r
  | .astat r => some r
  | .topk r => some r
  | .topkm r => some r
  | .smxi r => some r
  | .smxu r => some r
  | .smxn r => some r
  | .smxm r => some r
  | .smxr r => some r
  | .smxw r => some r
  | .smxs r => some r
  | .qsend r => some r
  | .qfwd r => some r
  | .klook r => some r
  | .klookPage r => some r
  | .kapp r => some r
  | .kpin r => some r
  | .kpinUnpin r => some r
  | .kevict r => some r
  | .kfill r => some r
  | .pxlook r => some r
  | .pxins r => some r
  | .pgmap r => some r
  | .pgmapList r => some r
  | .pgfrz r => some r
  | .pgnew r => some r
  | .seqtbl r => some r
  | .seqtblNext r => some r
  | .trap r => some r
  | .brk r => some r
  | .sysrd r => some r
  | .syswr r => some r
  | .evget r => some r
  | .launch r => some r
  | .cfginst r => some r
  | .curtain r => some r
  | .ctxsv r => some r
  | .ctxld r => some r
  | .time r => some r
  | .prompt r => some r
  | .powerOnReset => none
  | .bootTest _ _ _ _ _ => none
  | .bootMap _ _ _ _ _ _ => none
  | .bootRuntime _ _ _ => none
  | .linkTraining _ _ _ _ _ _ => none
  | .hostAccess _ _ => none
  | .registerWrite _ _ _ => none
  | .start _ _ => none
  | .graphreg _ _ => none
  | .replay _ _ => none
  | .patch _ _ => none
  | .graphdrop _ _ => none
  | .replayRelease => none
  | .taskgraphNodeDispatch _ _ _ _ => none
  | .install => none
  | .admission => none
  | .allowanceRefresh => none
  | .launchBlocking => none
  | .clockChangeDone => none
  | .tokenArrival _ _ _ => none
  | .wingProbeReturn => none
  | .wingsHoldRelease _ _ => none
  | .backlogRefill => none
  | .chainLink _ _ _ => none
  | .linkTokenCrossing _ _ _ _ => none
  | .engineInboxAccept _ _ => none
  | .engineMessageComplete _ _ => none
  | .copy _ _ => none
  | .copyr _ _ => none
  | .copyp _ _ => none
  | .copypr _ _ => none
  | .lcopy _ _ => none
  | .copyPieceArrival _ => none
  | .remoteAdvance _ _ _ => none
  | .streamStart => none
  | .streamElement => none
  | .streamComplete => none
  | .loadReply => none
  | .waveAccessPerform _ _ _ => none
  | .releaseComplete => none
  | .sliceFillArrival _ _ _ _ _ => none
  | .mergeWindowClose => none
  | .pageWalkComplete _ _ => none
  | .tlbEntryDrop => none
  | .queryTokenStationArrival => none
  | .visitStart => none
  | .refillComplete => none
  | .evictionCopyComplete => none
  | .tokenReturn => none
  | .shardTableTurn => none
  | .matrixAccept => none
  | .matrixStart => none
  | .matrixOccupancyEnd => none
  | .matrixRetry => none
  | .matrixReply => none
  | .mmaxACopy _ _ _ => none
  | .gets _ => none
  | .getx _ => none
  | .upg _ => none
  | .putm _ _ _ _ => none
  | .invalidation _ _ _ _ => none
  | .invalidationAck _ _ _ _ => none
  | .forward _ _ _ _ _ => none
  | .grant => none
  | .done => none
  | .putack => none
  | .mirrorOpenAck => none
  | .recallWindow => none
  | .directoryFailure _ _ => none
  | .directoryWatchdog => none
  | .dirTakeover => none
  | .dirLost => none
  | .channelClosing => none
  | .channelRetired => none
  | .curtainClear => none
  | .fullSave => none
  | .saveWhole => none
  | .colourPurge => none
  | .purgeArriveDie _ _ => none
  | .purgeEnd => none
  | .hbmBankTest _ _ _ _ => none
  | .linkBeatCrcFail _ _ _ => none
  | .auditBeat _ _ _ _ => none
  | .securityTrigger => none
  | .retireDiscard => none
  | .completionTokenRetire => none
  | .promptRoutineEnd => none
  | .coreDrowsy => none
  | .routerDrowsy => none
  | .routerWake => none
  | .coreWake => none
  | .powerGate => none
  | .droopStretch => none
  | .currentPeak => none
  | .packagePowerWindow => none
  | .thermal _ _ _ => none
  | .mirrorOpenRecord => none
  | .mirrorCloseRecord _ _ _ _ _ _ _ => none
  | .writeAcknowledgement => none
  | .directoryRestore => none
  | .attestationRequest => none
  | .supplyRecovery => none

/-- The form of a record instruction; none for an event. -/
def Instr.form : Instr → Option Form
  | .sink _ => some Forms.sink
  | .dup _ => some Forms.dup
  | .const _ => some Forms.const
  | .steer _ => some Forms.steer
  | .gate _ => some Forms.gate
  | .loopin _ => some Forms.loopin
  | .iter _ => some Forms.iter
  | .loopout _ => some Forms.loopout
  | .loopcr _ => some Forms.loopcr
  | .call _ => some Forms.call
  | .callCol _ => some Forms.callCol
  | .ret _ => some Forms.ret
  | .tagget _ => some Forms.tagget
  | .tagset _ => some Forms.tagset
  | .spawn _ => some Forms.spawn
  | .purge _ => some Forms.purge
  | .join _ => some Forms.join
  | .cmb _ => some Forms.cmb
  | .dends _ => some Forms.dends
  | .bndry _ => some Forms.bndry
  | .vote _ => some Forms.vote
  | .rng _ => some Forms.rng
  | .evpost _ => some Forms.evpost
  | .endg _ => some Forms.endg
  | .add _ => some Forms.add
  | .sub _ => some Forms.sub
  | .mul _ => some Forms.mul
  | .mulh _ => some Forms.mulh
  | .div _ => some Forms.div
  | .rem _ => some Forms.rem
  | .neg _ => some Forms.neg
  | .abs _ => some Forms.abs
  | .min _ => some Forms.min
  | .max _ => some Forms.max
  | .and _ => some Forms.and
  | .or _ => some Forms.or
  | .xor _ => some Forms.xor
  | .andn _ => some Forms.andn
  | .shl _ => some Forms.shl
  | .shr _ => some Forms.shr
  | .sar _ => some Forms.sar
  | .rotl _ => some Forms.rotl
  | .clz _ => some Forms.clz
  | .ctz _ => some Forms.ctz
  | .popc _ => some Forms.popc
  | .brev _ => some Forms.brev
  | .bext _ => some Forms.bext
  | .bins _ => some Forms.bins
  | .cmp _ => some Forms.cmp
  | .sel _ => some Forms.sel
  | .madd _ => some Forms.madd
  | .lea _ => some Forms.lea
  | .line _ => some Forms.line
  | .fadd _ => some Forms.fadd
  | .fsub _ => some Forms.fsub
  | .fmul _ => some Forms.fmul
  | .fma _ => some Forms.fma
  | .fdiv _ => some Forms.fdiv
  | .fsqrt _ => some Forms.fsqrt
  | .fmin _ => some Forms.fmin
  | .fmax _ => some Forms.fmax
  | .fabs _ => some Forms.fabs
  | .fneg _ => some Forms.fneg
  | .fcmp _ => some Forms.fcmp
  | .fcvt _ => some Forms.fcvt
  | .frnd _ => some Forms.frnd
  | .fexp2 _ => some Forms.fexp2
  | .flog2 _ => some Forms.flog2
  | .frcp _ => some Forms.frcp
  | .frsq _ => some Forms.frsq
  | .vadd _ => some Forms.vadd
  | .vsub _ => some Forms.vsub
  | .vmul _ => some Forms.vmul
  | .vfma _ => some Forms.vfma
  | .vmin _ => some Forms.vmin
  | .vmax _ => some Forms.vmax
  | .vabs _ => some Forms.vabs
  | .vneg _ => some Forms.vneg
  | .vand _ => some Forms.vand
  | .vor _ => some Forms.vor
  | .vxor _ => some Forms.vxor
  | .vshl _ => some Forms.vshl
  | .vshr _ => some Forms.vshr
  | .vcmp _ => some Forms.vcmp
  | .vsel _ => some Forms.vsel
  | .vred _ => some Forms.vred
  | .vscan _ => some Forms.vscan
  | .vexp2 _ => some Forms.vexp2
  | .vrcp _ => some Forms.vrcp
  | .vrsq _ => some Forms.vrsq
  | .vcvt _ => some Forms.vcvt
  | .vperm _ => some Forms.vperm
  | .vsplat _ => some Forms.vsplat
  | .viota _ => some Forms.viota
  | .vpack _ => some Forms.vpack
  | .vunpk _ => some Forms.vunpk
  | .vcpy _ => some Forms.vcpy
  | .cvt _ => some Forms.cvt
  | .qblk _ => some Forms.qblk
  | .dqblk _ => some Forms.dqblk
  | .ternpk _ => some Forms.ternpk
  | .ternpkUnpk _ => some Forms.ternpkUnpk
  | .ld _ => some Forms.ld
  | .st _ => some Forms.st
  | .ldv _ => some Forms.ldv
  | .stv _ => some Forms.stv
  | .ldg _ => some Forms.ldg
  | .sts _ => some Forms.sts
  | .mnop _ => some Forms.mnop
  | .wave _ => some Forms.wave
  | .pf _ => some Forms.pf
  | .lwb _ => some Forms.lwb
  | .linv _ => some Forms.linv
  | .sbind _ => some Forms.sbind
  | .scancel _ => some Forms.scancel
  | .sstat _ => some Forms.sstat
  | .cpy _ => some Forms.cpy
  | .cpyr _ => some Forms.cpyr
  | .mcrd _ => some Forms.mcrd
  | .xlat _ => some Forms.xlat
  | .tlbinv _ => some Forms.tlbinv
  | .fence _ => some Forms.fence
  | .rel _ => some Forms.rel
  | .acq _ => some Forms.acq
  | .tlinc _ => some Forms.tlinc
  | .tlwait _ => some Forms.tlwait
  | .tlarm _ => some Forms.tlarm
  | .tlread _ => some Forms.tlread
  | .barinit _ => some Forms.barinit
  | .bararr _ => some Forms.bararr
  | .barexit _ => some Forms.barexit
  | .itake _ => some Forms.itake
  | .iput _ => some Forms.iput
  | .iread _ => some Forms.iread
  | .iclr _ => some Forms.iclr
  | .atom _ => some Forms.atom
  | .acas _ => some Forms.acas
  | .lsend _ => some Forms.lsend
  | .specbeg _ => some Forms.specbeg
  | .speccmt _ => some Forms.speccmt
  | .specabt _ => some Forms.specabt
  | .oclm _ => some Forms.oclm
  | .orel _ => some Forms.orel
  | .old _ => some Forms.old
  | .olds _ => some Forms.olds
  | .oldsQ _ => some Forms.oldsQ
  | .mma _ => some Forms.mma
  | .mmat _ => some Forms.mmat
  | .mmax _ => some Forms.mmax
  | .aclr _ => some Forms.aclr
  | .amov _ => some Forms.amov
  | .aadd _ => some Forms.aadd
  | .acvt _ => some Forms.acvt
  | .ackpt _ => some Forms.ackpt
  | .arst _ => some Forms.arst
  | .astat _ => some Forms.astat
  | .topk _ => some Forms.topk
  | .topkm _ => some Forms.topkm
  | .smxi _ => some Forms.smxi
  | .smxu _ => some Forms.smxu
  | .smxn _ => some Forms.smxn
  | .smxm _ => some Forms.smxm
  | .smxr _ => some Forms.smxr
  | .smxw _ => some Forms.smxw
  | .smxs _ => some Forms.smxs
  | .qsend _ => some Forms.qsend
  | .qfwd _ => some Forms.qfwd
  | .klook _ => some Forms.klook
  | .klookPage _ => some Forms.klookPage
  | .kapp _ => some Forms.kapp
  | .kpin _ => some Forms.kpin
  | .kpinUnpin _ => some Forms.kpinUnpin
  | .kevict _ => some Forms.kevict
  | .kfill _ => some Forms.kfill
  | .pxlook _ => some Forms.pxlook
  | .pxins _ => some Forms.pxins
  | .pgmap _ => some Forms.pgmap
  | .pgmapList _ => some Forms.pgmapList
  | .pgfrz _ => some Forms.pgfrz
  | .pgnew _ => some Forms.pgnew
  | .seqtbl _ => some Forms.seqtbl
  | .seqtblNext _ => some Forms.seqtblNext
  | .trap _ => some Forms.trap
  | .brk _ => some Forms.brk
  | .sysrd _ => some Forms.sysrd
  | .syswr _ => some Forms.syswr
  | .evget _ => some Forms.evget
  | .launch _ => some Forms.launch
  | .cfginst _ => some Forms.cfginst
  | .curtain _ => some Forms.curtain
  | .ctxsv _ => some Forms.ctxsv
  | .ctxld _ => some Forms.ctxld
  | .time _ => some Forms.time
  | .prompt _ => some Forms.prompt
  | .powerOnReset => none
  | .bootTest _ _ _ _ _ => none
  | .bootMap _ _ _ _ _ _ => none
  | .bootRuntime _ _ _ => none
  | .linkTraining _ _ _ _ _ _ => none
  | .hostAccess _ _ => none
  | .registerWrite _ _ _ => none
  | .start _ _ => none
  | .graphreg _ _ => none
  | .replay _ _ => none
  | .patch _ _ => none
  | .graphdrop _ _ => none
  | .replayRelease => none
  | .taskgraphNodeDispatch _ _ _ _ => none
  | .install => none
  | .admission => none
  | .allowanceRefresh => none
  | .launchBlocking => none
  | .clockChangeDone => none
  | .tokenArrival _ _ _ => none
  | .wingProbeReturn => none
  | .wingsHoldRelease _ _ => none
  | .backlogRefill => none
  | .chainLink _ _ _ => none
  | .linkTokenCrossing _ _ _ _ => none
  | .engineInboxAccept _ _ => none
  | .engineMessageComplete _ _ => none
  | .copy _ _ => none
  | .copyr _ _ => none
  | .copyp _ _ => none
  | .copypr _ _ => none
  | .lcopy _ _ => none
  | .copyPieceArrival _ => none
  | .remoteAdvance _ _ _ => none
  | .streamStart => none
  | .streamElement => none
  | .streamComplete => none
  | .loadReply => none
  | .waveAccessPerform _ _ _ => none
  | .releaseComplete => none
  | .sliceFillArrival _ _ _ _ _ => none
  | .mergeWindowClose => none
  | .pageWalkComplete _ _ => none
  | .tlbEntryDrop => none
  | .queryTokenStationArrival => none
  | .visitStart => none
  | .refillComplete => none
  | .evictionCopyComplete => none
  | .tokenReturn => none
  | .shardTableTurn => none
  | .matrixAccept => none
  | .matrixStart => none
  | .matrixOccupancyEnd => none
  | .matrixRetry => none
  | .matrixReply => none
  | .mmaxACopy _ _ _ => none
  | .gets _ => none
  | .getx _ => none
  | .upg _ => none
  | .putm _ _ _ _ => none
  | .invalidation _ _ _ _ => none
  | .invalidationAck _ _ _ _ => none
  | .forward _ _ _ _ _ => none
  | .grant => none
  | .done => none
  | .putack => none
  | .mirrorOpenAck => none
  | .recallWindow => none
  | .directoryFailure _ _ => none
  | .directoryWatchdog => none
  | .dirTakeover => none
  | .dirLost => none
  | .channelClosing => none
  | .channelRetired => none
  | .curtainClear => none
  | .fullSave => none
  | .saveWhole => none
  | .colourPurge => none
  | .purgeArriveDie _ _ => none
  | .purgeEnd => none
  | .hbmBankTest _ _ _ _ => none
  | .linkBeatCrcFail _ _ _ => none
  | .auditBeat _ _ _ _ => none
  | .securityTrigger => none
  | .retireDiscard => none
  | .completionTokenRetire => none
  | .promptRoutineEnd => none
  | .coreDrowsy => none
  | .routerDrowsy => none
  | .routerWake => none
  | .coreWake => none
  | .powerGate => none
  | .droopStretch => none
  | .currentPeak => none
  | .packagePowerWindow => none
  | .thermal _ _ _ => none
  | .mirrorOpenRecord => none
  | .mirrorCloseRecord _ _ _ _ _ _ _ => none
  | .writeAcknowledgement => none
  | .directoryRestore => none
  | .attestationRequest => none
  | .supplyRecovery => none

/-- A destination that keeps R83 and R84: null with zero bits, same core with CORE zero, a core of the cluster at most 191,
a far index at most 63. -/
def destCanonical (d : BitVec 24) : Bool :=
  let n := d.toNat
  match n / 2 ^ 22 with
  | 0 => decide (n = 0)
  | 1 => decide (bitsOf n 21 14 = 0)
  | 2 => decide (bitsOf n 21 14 ≤ 191)
  | _ => decide (bitsOf n 21 14 ≤ 63)

/-- The route class of a destination (R83). -/
def destClass (d : BitVec 24) : Nat := d.toNat / 2 ^ 22

/-- A destination of route class 0b01 or 0b10, as the starts of an activation require (R165). -/
def destLocal (d : BitVec 24) : Bool := decide (destClass d = 1) || decide (destClass d = 2)

/-- The RM field's reserved code of layout F (R61, R81). -/
def rmBad (l : Layout) (sub : Nat) : Bool := decide (l = .rounded) && decide (sub / 8 = 6)

/-- The SCOPE field's reserved codes of layout S (R82). -/
def scopeBad (l : Layout) (sub : Nat) : Bool := decide (l = .scoped) && decide (6 ≤ sub / 8)

/-- The opcodes whose destination A must be null, and is ignored at fire time (R155). -/
def nullA (opc : Nat) : Bool := decide (opc ∈ [0x01, 0x0B, 0x17])

/-- The opcodes whose destination B must be null, and is ignored at fire time (R155, R228, R380). -/
def nullB (opc : Nat) : Bool := decide (opc ∈ [0x01, 0x0B, 0x17, 0x8E, 0x8F, 0xA2, 0xA4, 0xA8])

/-- The forms that start an activation at destination A, which must then be of class 0b01 or 0b10 (R165): SPAWN, coloured
CALL and SPECBEG. -/
def startsAtA (opc tag : Nat) : Bool := decide (opc = 0x0E) || decide (opc = 0xA9) || (decide (opc = 0x0A) && decide (tag = 4))

end Sys2Proof
end

