-- ==== Sys2Proof/WellFormed.lean ====
section
/-! DEFINITION. The well-formed instructions: records that the loader accepts, events between parties that exist. -/

namespace Sys2Proof

/-- A record that the loader accepts under a form (R75, R76, R84, R153), but for the checks that need the image. -/
def Rec.wf (f : Form) (r : Rec) : Bool :=
  decide (r.rsv.toNat = 0) && decide (r.tag.toNat ∈ f.tags) && decide (r.typ.toNat ∈ f.typs)
    && decide ((r.ari.toNat, r.lk.toNat) ∈ f.combos) && !rmBad f.layout r.sub.toNat && !scopeBad f.layout r.sub.toNat
    && f.sub r.sub.toNat r.typ.toNat && (decide (r.lk.toNat ≠ 0) || decide (r.lit.toNat = 0))
    && (decide (r.lk.toNat ≠ 1) || f.lit r.lit.toNat) && destCanonical r.dstA && destCanonical r.dstB
    && (!nullA f.opc || decide (r.dstA = 0)) && (!nullB f.opc || decide (r.dstB = 0))
    && (!startsAtA f.opc r.tag.toNat || destLocal r.dstA)
    && (decide (f.opc ≠ 0x0C) || decide ((r.sub.toNat = 4) = (r.lk.toNat = 1)))

/-- The parties an event names, as cores: a package p as ⟨p, 0, 0, 0⟩, a die or cluster by its core 0. -/
def Instr.parties : Instr → List CoreId
  | .sink _ => []
  | .dup _ => []
  | .const _ => []
  | .steer _ => []
  | .gate _ => []
  | .loopin _ => []
  | .iter _ => []
  | .loopout _ => []
  | .loopcr _ => []
  | .call _ => []
  | .callCol _ => []
  | .ret _ => []
  | .tagget _ => []
  | .tagset _ => []
  | .spawn _ => []
  | .purge _ => []
  | .join _ => []
  | .cmb _ => []
  | .dends _ => []
  | .bndry _ => []
  | .vote _ => []
  | .rng _ => []
  | .evpost _ => []
  | .endg _ => []
  | .add _ => []
  | .sub _ => []
  | .mul _ => []
  | .mulh _ => []
  | .div _ => []
  | .rem _ => []
  | .neg _ => []
  | .abs _ => []
  | .min _ => []
  | .max _ => []
  | .and _ => []
  | .or _ => []
  | .xor _ => []
  | .andn _ => []
  | .shl _ => []
  | .shr _ => []
  | .sar _ => []
  | .rotl _ => []
  | .clz _ => []
  | .ctz _ => []
  | .popc _ => []
  | .brev _ => []
  | .bext _ => []
  | .bins _ => []
  | .cmp _ => []
  | .sel _ => []
  | .madd _ => []
  | .lea _ => []
  | .line _ => []
  | .fadd _ => []
  | .fsub _ => []
  | .fmul _ => []
  | .fma _ => []
  | .fdiv _ => []
  | .fsqrt _ => []
  | .fmin _ => []
  | .fmax _ => []
  | .fabs _ => []
  | .fneg _ => []
  | .fcmp _ => []
  | .fcvt _ => []
  | .frnd _ => []
  | .fexp2 _ => []
  | .flog2 _ => []
  | .frcp _ => []
  | .frsq _ => []
  | .vadd _ => []
  | .vsub _ => []
  | .vmul _ => []
  | .vfma _ => []
  | .vmin _ => []
  | .vmax _ => []
  | .vabs _ => []
  | .vneg _ => []
  | .vand _ => []
  | .vor _ => []
  | .vxor _ => []
  | .vshl _ => []
  | .vshr _ => []
  | .vcmp _ => []
  | .vsel _ => []
  | .vred _ => []
  | .vscan _ => []
  | .vexp2 _ => []
  | .vrcp _ => []
  | .vrsq _ => []
  | .vcvt _ => []
  | .vperm _ => []
  | .vsplat _ => []
  | .viota _ => []
  | .vpack _ => []
  | .vunpk _ => []
  | .vcpy _ => []
  | .cvt _ => []
  | .qblk _ => []
  | .dqblk _ => []
  | .ternpk _ => []
  | .ternpkUnpk _ => []
  | .ld _ => []
  | .st _ => []
  | .ldv _ => []
  | .stv _ => []
  | .ldg _ => []
  | .sts _ => []
  | .mnop _ => []
  | .wave _ => []
  | .pf _ => []
  | .lwb _ => []
  | .linv _ => []
  | .sbind _ => []
  | .scancel _ => []
  | .sstat _ => []
  | .cpy _ => []
  | .cpyr _ => []
  | .mcrd _ => []
  | .xlat _ => []
  | .tlbinv _ => []
  | .fence _ => []
  | .rel _ => []
  | .acq _ => []
  | .tlinc _ => []
  | .tlwait _ => []
  | .tlarm _ => []
  | .tlread _ => []
  | .barinit _ => []
  | .bararr _ => []
  | .barexit _ => []
  | .itake _ => []
  | .iput _ => []
  | .iread _ => []
  | .iclr _ => []
  | .atom _ => []
  | .acas _ => []
  | .lsend _ => []
  | .specbeg _ => []
  | .speccmt _ => []
  | .specabt _ => []
  | .oclm _ => []
  | .orel _ => []
  | .old _ => []
  | .olds _ => []
  | .oldsQ _ => []
  | .mma _ => []
  | .mmat _ => []
  | .mmax _ => []
  | .aclr _ => []
  | .amov _ => []
  | .aadd _ => []
  | .acvt _ => []
  | .ackpt _ => []
  | .arst _ => []
  | .astat _ => []
  | .topk _ => []
  | .topkm _ => []
  | .smxi _ => []
  | .smxu _ => []
  | .smxn _ => []
  | .smxm _ => []
  | .smxr _ => []
  | .smxw _ => []
  | .smxs _ => []
  | .qsend _ => []
  | .qfwd _ => []
  | .klook _ => []
  | .klookPage _ => []
  | .kapp _ => []
  | .kpin _ => []
  | .kpinUnpin _ => []
  | .kevict _ => []
  | .kfill _ => []
  | .pxlook _ => []
  | .pxins _ => []
  | .pgmap _ => []
  | .pgmapList _ => []
  | .pgfrz _ => []
  | .pgnew _ => []
  | .seqtbl _ => []
  | .seqtblNext _ => []
  | .trap _ => []
  | .brk _ => []
  | .sysrd _ => []
  | .syswr _ => []
  | .evget _ => []
  | .launch _ => []
  | .cfginst _ => []
  | .curtain _ => []
  | .ctxsv _ => []
  | .ctxld _ => []
  | .time _ => []
  | .prompt _ => []
  | .powerOnReset => []
  | .bootTest p _ _ _ _ => [⟨p, 0, 0, 0⟩]
  | .bootMap p _ _ _ _ _ => [⟨p, 0, 0, 0⟩]
  | .bootRuntime p _ _ => [⟨p, 0, 0, 0⟩]
  | .linkTraining p _ _ _ _ _ => [⟨p, 0, 0, 0⟩]
  | .hostAccess p _ => [⟨p, 0, 0, 0⟩]
  | .registerWrite p _ _ => [⟨p, 0, 0, 0⟩]
  | .start c _ => [c]
  | .graphreg c _ => [c]
  | .replay c _ => [c]
  | .patch c _ => [c]
  | .graphdrop c _ => [c]
  | .replayRelease => []
  | .taskgraphNodeDispatch c _ _ _ => [c]
  | .install => []
  | .admission => []
  | .allowanceRefresh => []
  | .launchBlocking => []
  | .clockChangeDone => []
  | .tokenArrival c _ _ => [c]
  | .wingProbeReturn => []
  | .wingsHoldRelease c _ => [c]
  | .backlogRefill => []
  | .chainLink c _ _ => [c]
  | .linkTokenCrossing src _ dst _ => [src, dst]
  | .engineInboxAccept e _ => [e.at_]
  | .engineMessageComplete e _ => [e.at_]
  | .copy e _ => [e.at_]
  | .copyr e _ => [e.at_]
  | .copyp e _ => [e.at_]
  | .copypr e _ => [e.at_]
  | .lcopy e _ => [e.at_]
  | .copyPieceArrival p => [p.engine.at_]
  | .remoteAdvance k _ _ => [⟨k.pkg, k.die, k.clu, 0⟩]
  | .streamStart => []
  | .streamElement => []
  | .streamComplete => []
  | .loadReply => []
  | .waveAccessPerform c _ _ => [c]
  | .releaseComplete => []
  | .sliceFillArrival d _ _ _ _ => [⟨d.pkg, d.die, 0, 0⟩]
  | .mergeWindowClose => []
  | .pageWalkComplete d _ => [⟨d.pkg, d.die, 0, 0⟩]
  | .tlbEntryDrop => []
  | .queryTokenStationArrival => []
  | .visitStart => []
  | .refillComplete => []
  | .evictionCopyComplete => []
  | .tokenReturn => []
  | .shardTableTurn => []
  | .matrixAccept => []
  | .matrixStart => []
  | .matrixOccupancyEnd => []
  | .matrixRetry => []
  | .matrixReply => []
  | .mmaxACopy c leader _ => [c, leader]
  | .gets x => [⟨x.die.pkg, x.die.die, 0, 0⟩]
  | .getx x => [⟨x.die.pkg, x.die.die, 0, 0⟩]
  | .upg x => [⟨x.die.pkg, x.die.die, 0, 0⟩]
  | .putm x _ _ _ => [⟨x.die.pkg, x.die.die, 0, 0⟩]
  | .invalidation p _ d _ => [⟨p, 0, 0, 0⟩, ⟨d.pkg, d.die, 0, 0⟩]
  | .invalidationAck p _ frm _ => [⟨p, 0, 0, 0⟩, ⟨frm.pkg, frm.die, 0, 0⟩]
  | .forward p _ _ owner req => [⟨p, 0, 0, 0⟩, ⟨owner.pkg, owner.die, 0, 0⟩, ⟨req.pkg, req.die, 0, 0⟩]
  | .grant => []
  | .done => []
  | .putack => []
  | .mirrorOpenAck => []
  | .recallWindow => []
  | .directoryFailure p _ => [⟨p, 0, 0, 0⟩]
  | .directoryWatchdog => []
  | .dirTakeover => []
  | .dirLost => []
  | .channelClosing => []
  | .channelRetired => []
  | .curtainClear => []
  | .fullSave => []
  | .saveWhole => []
  | .colourPurge => []
  | .purgeArriveDie _ d => [⟨d.pkg, d.die, 0, 0⟩]
  | .purgeEnd => []
  | .hbmBankTest d _ _ _ => [⟨d.pkg, d.die, 0, 0⟩]
  | .linkBeatCrcFail p _ _ => [⟨p, 0, 0, 0⟩]
  | .auditBeat p _ _ _ => [⟨p, 0, 0, 0⟩]
  | .securityTrigger => []
  | .retireDiscard => []
  | .completionTokenRetire => []
  | .promptRoutineEnd => []
  | .coreDrowsy => []
  | .routerDrowsy => []
  | .routerWake => []
  | .coreWake => []
  | .powerGate => []
  | .droopStretch => []
  | .currentPeak => []
  | .packagePowerWindow => []
  | .thermal p _ _ => [⟨p, 0, 0, 0⟩]
  | .mirrorOpenRecord => []
  | .mirrorCloseRecord p _ _ _ owner _ _ => [⟨p, 0, 0, 0⟩, ⟨owner.pkg, owner.die, 0, 0⟩]
  | .writeAcknowledgement => []
  | .directoryRestore => []
  | .attestationRequest => []
  | .supplyRecovery => []

/-- A party that exists in a pod of n packages (R11, R12, R15, R86). -/
def CoreId.exists_ (n : Nat) (c : CoreId) : Bool :=
  decide (c.pkg < n) && decide (c.die < 4) && decide (c.clu < 8) && decide (c.core < 194)

/-- An instruction that names only parties of the pod. -/
def Instr.partiesOk (n : Nat) (i : Instr) : Bool := i.parties.all (CoreId.exists_ n)

/-- A well-formed instruction: a record that its table allows, or an event between parties of a pod of n packages. -/
def Instr.wf (n : Nat) (i : Instr) : Bool :=
  match i.form, i.record with
  | some f, some r => r.wf f
  | _, _ => i.partiesOk n

/-- The parties that a thing to happen names all exist. -/
def Item.partiesOk (n : Nat) : Item → Bool
  | .event i x => i.partiesOk n && x.core.exists_ n
  | .issue c => c.exists_ n

end Sys2Proof
end

