-- ==== Sys2Proof/Decode.lean ====
section
/-! DEFINITION. The decoder of node records, total on any 12 bytes and on any 96-bit word (R75, R90), and after it the
encoder from the same tables. A reserved opcode decodes to nothing (R90: the record then meets R92 step 1). -/

namespace Sys2Proof

/-- The record fields of a 96-bit word (R75). -/
def recOfWord (w : BitVec 96) : Rec :=
  { sub := w.extractLsb' 82 6, typ := w.extractLsb' 78 4, ari := w.extractLsb' 76 2, tag := w.extractLsb' 72 4,
    lk := w.extractLsb' 70 2, rsv := w.extractLsb' 68 2, lit := w.extractLsb' 48 20, dstA := w.extractLsb' 24 24,
    dstB := w.extractLsb' 0 24 }

/-- The opcode of a 96-bit word (R75). -/
def opcOfWord (w : BitVec 96) : BitVec 8 := w.extractLsb' 88 8

/-- The instruction of an opcode with a record's fields; none for a reserved opcode (R90). Where one opcode serves two
rows of the table, TAG 4 selects the coloured CALL (R153) and VAR[0] the second form (R284, R297, R312). -/
def ofOpcode (opc : Nat) (r : Rec) : Option Instr :=
  let v0 := r.sub.toNat % 2 = 1
  match opc with
  | 0x01 => some (.sink r)
  | 0x02 => some (.dup r)
  | 0x03 => some (.const r)
  | 0x04 => some (.steer r)
  | 0x05 => some (.gate r)
  | 0x06 => some (.loopin r)
  | 0x07 => some (.iter r)
  | 0x08 => some (.loopout r)
  | 0x09 => some (.loopcr r)
  | 0x0A => some (if r.tag.toNat = 4 then .callCol r else .call r)
  | 0x0B => some (.ret r)
  | 0x0C => some (.tagget r)
  | 0x0D => some (.tagset r)
  | 0x0E => some (.spawn r)
  | 0x0F => some (.purge r)
  | 0x10 => some (.join r)
  | 0x11 => some (.cmb r)
  | 0x12 => some (.dends r)
  | 0x13 => some (.bndry r)
  | 0x14 => some (.vote r)
  | 0x15 => some (.rng r)
  | 0x16 => some (.evpost r)
  | 0x17 => some (.endg r)
  | 0x20 => some (.add r)
  | 0x21 => some (.sub r)
  | 0x22 => some (.mul r)
  | 0x23 => some (.mulh r)
  | 0x24 => some (.div r)
  | 0x25 => some (.rem r)
  | 0x26 => some (.neg r)
  | 0x27 => some (.abs r)
  | 0x28 => some (.min r)
  | 0x29 => some (.max r)
  | 0x2A => some (.and r)
  | 0x2B => some (.or r)
  | 0x2C => some (.xor r)
  | 0x2D => some (.andn r)
  | 0x2E => some (.shl r)
  | 0x2F => some (.shr r)
  | 0x30 => some (.sar r)
  | 0x31 => some (.rotl r)
  | 0x32 => some (.clz r)
  | 0x33 => some (.ctz r)
  | 0x34 => some (.popc r)
  | 0x35 => some (.brev r)
  | 0x36 => some (.bext r)
  | 0x37 => some (.bins r)
  | 0x38 => some (.cmp r)
  | 0x39 => some (.sel r)
  | 0x3A => some (.madd r)
  | 0x3B => some (.lea r)
  | 0x3C => some (.line r)
  | 0x40 => some (.fadd r)
  | 0x41 => some (.fsub r)
  | 0x42 => some (.fmul r)
  | 0x43 => some (.fma r)
  | 0x44 => some (.fdiv r)
  | 0x45 => some (.fsqrt r)
  | 0x46 => some (.fmin r)
  | 0x47 => some (.fmax r)
  | 0x48 => some (.fabs r)
  | 0x49 => some (.fneg r)
  | 0x4A => some (.fcmp r)
  | 0x4B => some (.fcvt r)
  | 0x4C => some (.frnd r)
  | 0x4D => some (.fexp2 r)
  | 0x4E => some (.flog2 r)
  | 0x4F => some (.frcp r)
  | 0x50 => some (.frsq r)
  | 0x58 => some (.vadd r)
  | 0x59 => some (.vsub r)
  | 0x5A => some (.vmul r)
  | 0x5B => some (.vfma r)
  | 0x5C => some (.vmin r)
  | 0x5D => some (.vmax r)
  | 0x5E => some (.vabs r)
  | 0x5F => some (.vneg r)
  | 0x60 => some (.vand r)
  | 0x61 => some (.vor r)
  | 0x62 => some (.vxor r)
  | 0x63 => some (.vshl r)
  | 0x64 => some (.vshr r)
  | 0x65 => some (.vcmp r)
  | 0x66 => some (.vsel r)
  | 0x67 => some (.vred r)
  | 0x68 => some (.vscan r)
  | 0x69 => some (.vexp2 r)
  | 0x6A => some (.vrcp r)
  | 0x6B => some (.vrsq r)
  | 0x6C => some (.vcvt r)
  | 0x6D => some (.vperm r)
  | 0x6E => some (.vsplat r)
  | 0x6F => some (.viota r)
  | 0x70 => some (.vpack r)
  | 0x71 => some (.vunpk r)
  | 0x72 => some (.vcpy r)
  | 0x73 => some (.cvt r)
  | 0x74 => some (.qblk r)
  | 0x75 => some (.dqblk r)
  | 0x76 => some (if v0 then .ternpkUnpk r else .ternpk r)
  | 0x80 => some (.ld r)
  | 0x81 => some (.st r)
  | 0x82 => some (.ldv r)
  | 0x83 => some (.stv r)
  | 0x84 => some (.ldg r)
  | 0x85 => some (.sts r)
  | 0x86 => some (.mnop r)
  | 0x87 => some (.wave r)
  | 0x88 => some (.pf r)
  | 0x89 => some (.lwb r)
  | 0x8A => some (.linv r)
  | 0x8B => some (.sbind r)
  | 0x8C => some (.scancel r)
  | 0x8D => some (.sstat r)
  | 0x8E => some (.cpy r)
  | 0x8F => some (.cpyr r)
  | 0x90 => some (.mcrd r)
  | 0x91 => some (.xlat r)
  | 0x92 => some (.tlbinv r)
  | 0x98 => some (.fence r)
  | 0x99 => some (.rel r)
  | 0x9A => some (.acq r)
  | 0x9B => some (.tlinc r)
  | 0x9C => some (.tlwait r)
  | 0x9D => some (.tlarm r)
  | 0x9E => some (.tlread r)
  | 0x9F => some (.barinit r)
  | 0xA0 => some (.bararr r)
  | 0xA1 => some (.barexit r)
  | 0xA2 => some (.itake r)
  | 0xA3 => some (.iput r)
  | 0xA4 => some (.iread r)
  | 0xA5 => some (.iclr r)
  | 0xA6 => some (.atom r)
  | 0xA7 => some (.acas r)
  | 0xA8 => some (.lsend r)
  | 0xA9 => some (.specbeg r)
  | 0xAA => some (.speccmt r)
  | 0xAB => some (.specabt r)
  | 0xB0 => some (.oclm r)
  | 0xB1 => some (.orel r)
  | 0xB2 => some (.old r)
  | 0xB3 => some (if v0 then .oldsQ r else .olds r)
  | 0xB4 => some (.mma r)
  | 0xB5 => some (.mmat r)
  | 0xB6 => some (.mmax r)
  | 0xB7 => some (.aclr r)
  | 0xB8 => some (.amov r)
  | 0xB9 => some (.aadd r)
  | 0xBA => some (.acvt r)
  | 0xBB => some (.ackpt r)
  | 0xBC => some (.arst r)
  | 0xBD => some (.astat r)
  | 0xBE => some (.topk r)
  | 0xBF => some (.topkm r)
  | 0xC8 => some (.smxi r)
  | 0xC9 => some (.smxu r)
  | 0xCA => some (.smxn r)
  | 0xCB => some (.smxm r)
  | 0xCC => some (.smxr r)
  | 0xCD => some (.smxw r)
  | 0xCE => some (.smxs r)
  | 0xCF => some (.qsend r)
  | 0xD0 => some (.qfwd r)
  | 0xD1 => some (if v0 then .klookPage r else .klook r)
  | 0xD2 => some (.kapp r)
  | 0xD3 => some (if v0 then .kpinUnpin r else .kpin r)
  | 0xD4 => some (.kevict r)
  | 0xD5 => some (.kfill r)
  | 0xD6 => some (.pxlook r)
  | 0xD7 => some (.pxins r)
  | 0xD8 => some (if v0 then .pgmapList r else .pgmap r)
  | 0xD9 => some (.pgfrz r)
  | 0xDA => some (.pgnew r)
  | 0xDB => some (if v0 then .seqtblNext r else .seqtbl r)
  | 0xF0 => some (.trap r)
  | 0xF1 => some (.brk r)
  | 0xF2 => some (.sysrd r)
  | 0xF3 => some (.syswr r)
  | 0xF4 => some (.evget r)
  | 0xF5 => some (.launch r)
  | 0xF6 => some (.cfginst r)
  | 0xF7 => some (.curtain r)
  | 0xF8 => some (.ctxsv r)
  | 0xF9 => some (.ctxld r)
  | 0xFA => some (.time r)
  | 0xFB => some (.prompt r)
  | _ => none

/-- The instruction of a 96-bit record (R75, R90). -/
def decodeWord (w : BitVec 96) : Option Instr := ofOpcode (opcOfWord w).toNat (recOfWord w)

/-- Bytes read as one number, least significant first (R3). -/
def leNat : List Byte → Nat
  | [] => 0
  | b :: t => b.toNat + 256 * leNat t

/-- The n bytes of a number, least significant first (R3). -/
def leBytes : Nat → Nat → List Byte
  | 0, _ => []
  | n + 1, x => BitVec.ofNat 8 x :: leBytes n (x / 256)

/-- The instruction of a record in memory or in an image: 12 bytes, byte 0 holding bits [7:0] (R75), with the rest of the
bytes; none for fewer than 12 bytes or a reserved opcode. -/
def decode (bs : List Byte) : Option (Instr × List Byte) :=
  if bs.length < 12 then none
  else (decodeWord (BitVec.ofNat 96 (leNat (bs.take 12)))).map fun i => (i, bs.drop 12)

/-- The 96-bit word of an opcode and a record's fields (R75). -/
def wordOf (opc : BitVec 8) (r : Rec) : BitVec 96 :=
  opc ++ r.sub ++ r.typ ++ r.ari ++ r.tag ++ r.lk ++ r.rsv ++ r.lit ++ r.dstA ++ r.dstB

/-- The 96-bit record of a record instruction; none for an event, which has no record (R75, R90). -/
def encode (i : Instr) : Option (BitVec 96) :=
  match i.form, i.record with
  | some f, some r => some (wordOf (BitVec.ofNat 8 f.opc) r)
  | _, _ => none

/-- The 12 bytes of a record instruction (R75). -/
def encodeBytes (i : Instr) : Option (List Byte) := (encode i).map fun w => leBytes 12 w.toNat

/-- The instruction this decoder reads from an instruction whose bits are w, bit 0 the least significant of the first
byte: a record is 96 bits, so a table's shorter word leaves the bits above nbits zero. -/
def decodeTableWord (nbits w : Nat) : Option Instr :=
  (decode (leBytes 12 (w % 2 ^ (min nbits 96)))).map Prod.fst

end Sys2Proof
end

