-- ==== Sys2Proof/Machine/State.lean ====
section
/-! DEFINITION. The state of a pod: cores, clusters, dies, packages, activations, memory, and what is still to happen.
Plain data throughout. Every part that the state does not list stands as its reset value. -/

namespace Sys2Proof.Machine

open Sys2Proof

/-! ## Faults and refusals of the model itself -/

/-- Why the machine stops. The architecture's own faults are posted records (R401) and next states; none of them is here. -/
inductive Fault where
  /-- Raised by `step` for an agenda item that names a core, cluster, die or package outside the pod (R11, R15): the
  manual gives such a party no behaviour. Safe: the model stops where the hardware has nothing to do. -/
  | noParty (i : Item)
deriving DecidableEq, Repr

/-- Why an instruction has no meaning in the model. -/
inductive Refusal where
  /-- Raised by an arm of `exec` that is not modelled yet. Safe: nothing is claimed of it. -/
  | notModelled (mnemonic : String)
deriving DecidableEq, Repr

/-! ## Memory -/

/-- Bytes by address: strictly rising addresses, no entry equal to the unlisted value (0 unless its user says otherwise). -/
abbrev Memory := List Host.Cell

/-! ## Matching (R131, R34, R160, R170, R172) -/

/-- What a matching-store or wing entry holds. -/
inductive EntryBody where
  /-- WAITING: the ports filled and their operands (R131). A CMB entry holds the running value on port 0 and the count on
  port 1 (R170); a VOTE entry its copies (R172), with bit 7 of `flags` set once a majority was sent. -/
  | waiting (pm : BitVec 3) (op0 op1 op2 : Operand) (flags : BitVec 8)
  /-- COMPLETE: a whole firing waiting for the ready queue (R131, R142). -/
  | complete (f : Firing)
  /-- A loop gate: next, base, credit mask, limit k, exited (R34). -/
  | gate (next base : Nat) (mask : Word) (k : Nat) (exited : Bool)
  /-- A request held at a gate, in holding order, with the record whose destinations it sends to (R160). -/
  | held (order via : Nat) (op0 op1 : Operand)
deriving DecidableEq, Repr

/-- An entry of the matching store (wing none) or of a wing set (R131, R135). -/
structure Entry where
  node : Nat
  tag  : Word
  body : EntryBody
  wing : Option Nat
deriving DecidableEq, Repr

/-- What stands behind a wing probe: an arrival, marked when it came from a chain link (R137, R148), or the gate action of a firing of
the gate (node, outer tag) (R160). -/
inductive Parked where
  | arrival (t : Token) (chained : Bool)
  | gate (node : Nat) (outer : Word) (f : Firing)
deriving DecidableEq, Repr

/-- A probe slot in use (R137, R138). -/
structure Probe where
  slot : Nat
  set_ : Nat
  what : Parked
deriving DecidableEq, Repr

/-! ## Memory requests and releases of a core (R235, R347) -/

/-- Where a reply goes: the core, record and result tag that asked, and its destinations. -/
structure ReplyTo where
  core : CoreId
  node : Nat
  tag  : Word
  dstA : BitVec 24
  dstB : BitVec 24
deriving DecidableEq, Repr

/-- What a memory request does when it is performed. -/
inductive MemOp where
  | load
  | loadVec (row nrow : Nat) (merge : Bool)
  | gather (row : Nat) (lanes : List Nat)
  | store
  | storeVec
  | scatter
  | mnop
  | writeBack
  | invalidate (discard : Bool)
  | atom (op : Nat) (arg : Word)
  | cas (x16 : Bool) (expected new : Word)
  | presence (k : Nat) (v : Word)
  | pattern (port : Nat) (ctag : Word) (cdst : BitVec 24)
  | ckpt (msg : Nat)
  | restore (msg : Nat)
  | table (req : Nat)
deriving DecidableEq, Repr

/-- A run of bytes of a request: virtual address, physical key once translated (R215), length, NC page. -/
structure MemPart where
  va  : Nat
  pa  : Option Nat
  len : Nat
  nc  : Bool
deriving DecidableEq, Repr

/-- A memory request of a firing, from its issue until its reply (R235, R237): `got` holds the bytes read so far by key,
`data` the bytes to write, `done` whether a write has been performed, `pages` the translations that SBIND found for its
stream (R215, R244), `after` the scope of the release that goes before it (R348), `stage` 1 once an MCRD has asked its lines to merge
(R240) or a maintenance has acted on its line (R242), and 2 for a matrix message that accesses all its bytes, 0 and 1 while SMXW or SMXR
reads its token's header and has read it (R324). -/
structure MemReq where
  id     : Nat
  node   : Nat
  inTag  : Word
  tag    : Word
  colour : BitVec 9
  typ    : BitVec 4
  op     : MemOp
  parts  : List MemPart
  got    : List (Nat × Byte)
  data   : List Byte
  poison : Bool
  dstA   : BitVec 24
  dstB   : BitVec 24
  reply0 : Operand
  wave   : Option (Nat × Nat × Nat × Nat)
  withheld : Bool
  done   : Bool
  pages  : List Leaf
  after  : Option Nat
  stage  : Nat
deriving DecidableEq, Repr

/-- A deferral-pool entry in use (R38): who waits, the CLASS of its reply, the word it waits on, and its place in the order of queueing. -/
structure Waiter where
  who   : ReplyTo
  cls   : Nat
  word  : Nat
  order : Nat
deriving DecidableEq, Repr

/-- A wave instance: key (tag, region), OPEN, LAST, last_own, last_succ, members performed, waiting members (R232, R233). -/
structure WaveInst where
  tag      : Word
  region   : Nat
  opened   : Bool
  last     : Nat
  lastOwn  : Nat
  lastSucc : Nat
  did      : List Nat
  waiting  : List MemReq
deriving DecidableEq, Repr

/-- A release in progress and what it holds back (R347, R348): the core's earlier requests that must have been answered, those that must
have left the memory unit, the lines of the die that were die-performed when its probe reached them, whether later requests wait for it (R381), the number of a
counter that it completes (R383), the items that leave when it completes, and whether a curtain reached its record while it was in
progress, so that its token is kept (R358). -/
structure Release where
  id      : Nat
  colour  : BitVec 9
  scope   : Nat
  reqs    : List Nat
  leave   : List Nat
  probed  : Bool
  lines   : List Nat
  blocks  : Bool
  tlc     : Option (Nat × Nat)
  held    : List Item
  kept    : Bool
deriving DecidableEq, Repr

/-! ## Matrix engine (R294, R298) -/

/-- A message of a core's matrix engine: its record, opcode and firing; its stage (0 accepted, 1 running, 2 waiting for memory,
3 ended); the draw counter and rounding mode at its start (R64), the values it read, its replies, whether it was repeated
(R419), the translations found at acceptance; for MMAX its number and the members that have received A (R305); for SMXW and SMXR `got`
tells whether the token's header has been read (R324). -/
structure MatMsg where
  id      : Nat
  opc     : Nat
  r       : Rec
  f       : Firing
  tag     : Word
  stage   : Nat
  draw    : Word
  mode    : Nat
  src     : List Byte
  outA    : Option Operand
  outB    : Option Operand
  retried : Bool
  parts   : List MemPart
  num     : Nat
  got     : Nat
deriving DecidableEq, Repr

/-- A row state of an accumulator tile (R267). -/
structure RowState where
  m     : BitVec 32
  l     : BitVec 32
  e     : BitVec 16
  flush : BitVec 16
  flags : BitVec 8
deriving DecidableEq, Repr

/-- The cleared row state: m = −∞, e = EMPTY, l = +0 (R299). -/
def RowState.init : RowState := ⟨0xFF800000#32, 0, 0x8000#16, 0, 0⟩

/-! ## Rings and shards (R258, R265) -/

/-- A shard slot (R258): its page, the page's index, layer and head group, its location state, scratchpad position if it
has one, entry destination and visit tag; `evicting` blocks new visits (R259); `refill` is 1 while a refill copy runs. -/
structure Slot where
  pid      : Nat
  pidx     : Nat
  layer    : Nat
  hg       : Nat
  loc      : BitVec 2
  pos      : Option Nat
  entry    : BitVec 24
  tag      : Word
  evicting : Bool
  refill   : Bool
  poisoned : Bool
deriving DecidableEq, Repr

/-- What a ring buffer holds (R271, R272, R273). -/
inductive RingUse where
  | visit (slot : Nat)
  | waiting (slot order : Nat)
  | returned
deriving DecidableEq, Repr

/-- A query token on the rings or in a ring buffer (R265 to R271): its bytes, its activation, the stations still to come,
the slots still to visit at the present station, each with the page found there. -/
structure QTok where
  id    : Nat
  act   : Nat
  bytes : List Byte
  at_   : CoreId
  route : List CoreId
  slots : List (Nat × Nat)
  buf   : Option Nat
deriving DecidableEq, Repr

/-- A shard instruction outstanding (R330): its opcode, record, firing, result tag, how far it has come (0 before its turn), the page
and the list or chain that its turn is for, its place in the order in which requests reached the die's slices, the bytes it read. -/
structure ShardReq where
  id    : Nat
  opc   : Nat
  r     : Rec
  f     : Firing
  tag   : Word
  stage : Nat
  pid   : Option Nat
  list  : Option Nat
  order : Option Nat
  data  : List Byte
deriving DecidableEq, Repr

/-! ## A core (R9) -/

/-- The power states of a core or a router (R433). -/
inductive Power where
  | awake
  | drowsy
  | gated
deriving DecidableEq, Repr

/-- A core. -/
structure Core where
  elem     : List (Nat × BitVec 96)          -- element memory, R9, R75: 0 where not listed
  far      : List (Nat × Word)               -- far table of 64 entries, resolved, R85, R113
  regions  : List (Nat × (Nat × Nat))        -- node: region number and scope of its image, R350
  owner    : List (Nat × Word)               -- node: image that installed it, R101, R113
  chorus   : List (Nat × (Nat × Nat))        -- node: copy number and original core, R97, R172
  store    : List Entry                      -- matching store and wings, R131, R135
  wingCfg  : Word                            -- CORE.WINGCFG, R134
  probes   : List Probe                      -- probe slots, 32, R138
  parked   : List (Token × Bool)             -- arrivals behind an outstanding probe, in order, each marked if chained, R138, R148
  holdNet  : List Entry                      -- entries held on the network path, R140
  holdOwn  : List Entry                      -- on the local path
  holdWing : List Entry                      -- on the wing path
  waiting  : List (Path × Token)             -- arrivals that wait on their path for a probe slot, R138
  holdAt   : List (Path × Nat)               -- paths held now, each with the cycle from which HOLD counts it, R138, R140, R146
  comps    : List (Path × Firing)            -- completions of the present cycle, R141
  ready    : List Firing                     -- ready queue, 256, R142
  nextSeq  : BitVec 32                       -- next completion number, R141
  phase    : Word                            -- CORE.PHASE, R149
  phmask0  : BitVec 512                      -- CORE.PHMASK0, R149
  phmask1  : BitVec 512                      -- CORE.PHMASK1, R149
  spill    : BitVec 32                       -- CORE.MSTAT.SPILL, R146
  probe    : BitVec 32                       -- CORE.MSTAT.PROBE
  backlog  : BitVec 32                       -- CORE.MSTAT.BACKLOG
  hold     : BitVec 32                       -- CORE.MSTAT.HOLD
  dup      : BitVec 32                       -- CORE.MSTAT.DUP
  nulls    : BitVec 32                       -- CORE.MSTAT.NULLS
  vstat    : Word                            -- CORE.VSTAT, R192
  predict  : List (Nat × BitVec 2)           -- STEER counters, 0b10 where not listed, R148
  lanes    : Memory                          -- lane slices, 64 KiB, R9
  ctlPad   : Memory                          -- a control core's scratchpad, R203
  reqs     : List MemReq                     -- requests that left or wait to leave the memory unit, R235
  waves    : List WaveInst                   -- 16 wave instances, R232, R234
  touched  : List Nat                        -- touched mask: slices 0 to 47, 48 chip, 49 shared, 50 to 53 dies, 54 packages, R347
  rels     : List Release                    -- releases in progress, R347
  kept     : List Item                       -- tokens of completed releases that a curtain reached, R358
  opmem    : Memory                          -- operand slots, 64 KiB, R294
  scales   : Memory                          -- scale arrays, 16 × 256 entries, stored as code XOR 0x7F, R294, R296
  acc      : Memory                          -- accumulator tiles, 64 KiB, R294
  rows     : List ((Nat × Nat) × RowState)   -- row states by tile and row, R267, R294
  oClaim   : List (Option (BitVec 9))        -- claims of o0 to o15, R299
  aClaim   : List (Option (BitVec 9))        -- claims of a0 to a7, R299
  scaleQ   : List (Byte × BitVec 9)          -- scale queue, 1,024, R294, R296
  consts   : List ((Nat × Nat) × Word)       -- constant cache, 2,048 words by activation and address, R9, R80
  path     : List MatMsg                     -- engine path, 16, R298
  inbox    : List MatMsg                     -- accepted matrix messages, R298
  mmaxN    : List (BitVec 9 × Nat)           -- MMAX accepted for each colour, R305
  mmaxBuf  : List ((BitVec 9 × Nat) × (Nat × (List Byte × List Byte))) -- received A copies: form, bytes, scales, R305
  slots    : List (Option Slot)              -- 8 shard slots, R258
  rings    : List (Option (Nat × RingUse))   -- 2 ring buffers: token and use, R258, R271
  ringWait : List Nat                        -- tokens waiting on the ring for a buffer, R271
  shardReqs : List ShardReq                  -- shard instructions outstanding, R330
  power    : Power                           -- R433
  router   : Power                           -- the router of the core, R433
  routerDeciding : Bool                      -- the power-down decision is made in this cycle, R434
  drowsyAt : Nat                             -- when the core became DROWSY, R435
  routerAt : Nat                             -- when its router did
  gateAt   : Nat                             -- tenths of cycles that its island had counted when the core was gated, R197
  lost     : Nat                             -- tenths of cycles for which it was gated before, R197
deriving DecidableEq, Repr

/-- A core as reset leaves it. -/
def Core.reset : Core :=
  { elem := [], far := [], regions := [], owner := [], chorus := [], store := [], wingCfg := 0, probes := [], parked := [],
    holdNet := [], holdOwn := [], holdWing := [], waiting := [], holdAt := [], comps := [], ready := [], nextSeq := 0, phase := 0, phmask0 := 0,
    phmask1 := 0, spill := 0, probe := 0, backlog := 0, hold := 0, dup := 0, nulls := 0, vstat := 0, predict := [],
    lanes := [], ctlPad := [], reqs := [], waves := [], touched := [], rels := [], kept := [], opmem := [], scales := [], acc := [],
    rows := [], oClaim := List.replicate 16 none, aClaim := List.replicate 8 none, scaleQ := [], consts := [], path := [], inbox := [],
    mmaxN := [], mmaxBuf := [], slots := List.replicate 8 none, rings := [none, none], ringWait := [], shardReqs := [],
    power := .awake, router := .awake, routerDeciding := false, drowsyAt := 0,
    routerAt := 0, gateAt := 0, lost := 0 }

/-- A core that the state does not list: as reset leaves it, an ordinary core gated with its router, for no configuration uses it
(R115). -/
def Core.unlisted (c : CoreId) : Core := if c.isCtl then Core.reset else { Core.reset with power := .gated, router := .gated }

/-! ## A cluster (R11) -/

/-- A callboard queue: records of four words, lost count (R431, R432). -/
structure Queue where
  recs   : List (List Word)
  lost   : Nat
deriving DecidableEq, Repr

/-- A bound stream (R218, R219, R220): pattern words, binding tag and core, completion tag and destination, its counter
number if TLE, where it stands, the failing address while it is withheld in
stall mode (R216), and the translations found at issue (R215). -/
structure Stream where
  pat    : List Word
  core   : CoreId
  node   : Nat
  btag   : Word
  ctag   : Word
  cdst   : BitVec 24
  dst    : BitVec 24
  num    : Nat
  pos    : Nat
  sent   : Nat
  status : Nat
  stall  : Option Nat
  pages  : List Leaf
deriving DecidableEq, Repr

/-- A stream port: the running stream and the bound streams behind it (R217). -/
structure Port where
  running : Option Stream
  queued  : List Stream
deriving DecidableEq, Repr

/-- A timeline counter: TAKEN, DONE, and the numbers above DONE that have completed (R382). -/
structure Counter where
  taken : Nat
  doneN : Nat
  ahead : List Nat
deriving DecidableEq, Repr

/-- A held TLWAIT (R384). -/
structure Wait where
  colour : BitVec 9
  ctr    : Nat
  thr    : Nat
  who    : ReplyTo
deriving DecidableEq, Repr

/-- An armed send (R385). -/
structure Armed where
  colour : BitVec 9
  ctr    : Nat
  thr    : Nat
  engine : EngineKind
  msg    : Msg
  who    : ReplyTo
deriving DecidableEq, Repr

/-- An accepted message of a copy or link engine (R42, R43): its counter number, pieces written, status, whether it ends without
a release, the failing address while it stands in stall mode (R216), whether its checks are made, the source bytes read so far, each
with its poison, how many destination bytes have left in pieces, what stood where its pieces went while its source was not all read
(R222), and, once its release has probed, the lines that release waits for (R42, R347). -/
structure EngMsg where
  id      : Nat
  msg     : Msg
  num     : Nat
  written : Nat
  status  : Nat
  noRel   : Bool
  stalled : Option Nat
  begun   : Bool
  got     : List (Byte × Bool)
  sent    : Nat
  stood   : List (Nat × (Byte × Bool))
  lines   : List (DieId × Nat)
  probed  : Bool
deriving DecidableEq, Repr

/-- The tile sequencer's table (R280, R339): owner colour, cumulative lengths, tile height, sequence and row to come. -/
structure TileSeq where
  colour : BitVec 9
  cu     : List Nat
  h      : Nat
  seq    : Nat
  row    : Nat
deriving DecidableEq, Repr

/-- A launch held at a control core (R114, R116, R126, R127): its START words, sender, the message's number on its counter, the time
from which it has found no operating point, installed, blocking, replay number, reissue count, its window bases (R110), the valid
entries of its placement (R111); the activation that a reissue restarts (R417); the save, colour and asker of a restore (R414). -/
structure Launch where
  id       : Nat
  words    : List Word
  sender   : Sender
  num      : Nat
  since    : Option Nat
  ready    : Bool
  blocking : Bool
  replay   : Nat
  reissues : Nat
  windows  : List Nat
  place    : List Word
  of_      : Option Nat
  restore  : Option (Nat × (BitVec 9 × ReplyTo))
deriving DecidableEq, Repr

/-- A replay of a task graph (R119, R120): number, which of the graph's four places holds its copies, copied bodies and parameter blocks,
nodes not yet dispatched, nodes running, nodes retired OK, nodes skipped. -/
structure Replay where
  num     : Nat
  slot    : Nat
  bodies  : List (List Word)
  params  : List (List Word)
  todo    : List Nat
  running : List Nat
  okNodes : List Nat
  skipped : List Nat
deriving DecidableEq, Repr

/-- A registered task graph (R118 to R123), with the control core that holds it, where its storage begins, and the PSIZE registered for each
node. -/
structure TaskGraph where
  ctl     : Nat
  tgid    : Nat
  base    : Nat
  psizes  : List Nat
  bodies  : List (List Word)
  succs   : List (List Nat)
  nextNum : Nat
  live    : List Replay
  heldQ   : List (Msg × Nat)
  dropped : Bool
deriving DecidableEq, Repr

/-- A cluster. -/
structure Cluster where
  queues   : List Queue                        -- callboard, R11, R431
  ports    : List (Nat × Port)                 -- 32 stream ports, R217
  copyIn   : List EngMsg                       -- copy engine inbox and accepted messages, R42
  linkIn   : List EngMsg                       -- link engine
  ctrs     : List ((BitVec 9 × Nat) × Counter) -- timeline counters by colour and index, R382
  waits    : List Wait                         -- 256 held waits, R384
  armed    : List Armed                        -- 64 armed sends, R385
  seqr     : Option TileSeq                    -- tile sequencer, R280
  launches : List (Nat × List Launch)          -- held launches of control cores 0 and 1, R126
  graphs   : List TaskGraph                    -- registered task graphs of control cores, R118
deriving DecidableEq, Repr

/-- An empty callboard queue. -/
def Queue.reset : Queue := ⟨[], 0⟩

/-- A cluster as reset leaves it. -/
def Cluster.reset : Cluster :=
  { queues := List.replicate 4 Queue.reset, ports := [], copyIn := [], linkIn := [], ctrs := [], waits := [], armed := [],
    seqr := none, launches := [], graphs := [] }

/-! ## A die (R12) -/

/-- A sector of a held line: valid, dirty, poisoned, owner colour, none for the system class (R206, R207). -/
structure Sector where
  valid  : Bool
  dirty  : Bool
  poison : Bool
  owner  : Option (BitVec 9)
deriving DecidableEq, Repr

/-- A line in a die's slices (R206): permission, sectors, bytes by offset, bytes die-performed and not yet applied with
the colour that wrote them (R342), an outstanding request, an outstanding PUTM, a prompter's lock (R198),
whether an invalidation met the outstanding request (R367), the sectors a fill is to bring (R206), the sectors that a
waiting write covers whole (R227), whether the outstanding PUTM gives the line up and which sectors it carries (R364, R367), whether a
GETX follows the outstanding GETS (R364), whether a GETX's data has come (R365), and whether the line stands in no way, for a read
of a coarse-mode region (R370). -/
structure Line where
  line    : Nat
  perm    : Perm
  sectors : List Sector
  bytes   : Memory
  pend    : List (Nat × (Byte × Option (BitVec 9)))
  asked   : Option FwdKind
  wback   : Bool
  locked  : Bool
  dropIt  : Bool
  want    : List Nat
  whole   : List Nat
  leaving : Bool
  wsent   : List Nat
  nextX   : Bool
  came    : Bool
  passing : Bool
deriving DecidableEq, Repr

/-- A translation entry: of a record or stream port, or of the last-level TLB (R214). -/
structure TlbEntry where
  who   : Option (CoreId × Nat)
  vbase : Nat
  size  : Nat
  pbase : Nat
  w     : Bool
  nc    : Bool
deriving DecidableEq, Repr

/-- An open merge window of a slice: the line, the joiners' requests (R209), and whether a write waits for it to close, so that no more
may join (R210). -/
structure MergeWin where
  line    : Nat
  joiners : List (CoreId × Nat)
  closing : Bool
deriving DecidableEq, Repr

/-- Who reads through a die's slices beside the cores: an engine's message, a stream port, the host, the copy of a slot's page (R208, R259,
R362). -/
inductive Reader where
  | msg (e : EngineId) (id : Nat)
  | port (k : CluId) (n : Nat)
  | host (p id : Nat)
  | page (c : CoreId) (slot : Nat)
deriving DecidableEq, Repr

/-- A read of an engine or the host in progress: its runs, and the bytes taken so far by key, each with its poison (R343, R362). -/
structure SliceRead where
  who  : Reader
  runs : List MemPart
  got  : List (Nat × (Byte × Bool))
deriving DecidableEq, Repr

/-- A barrier (R388, R389): instance, owner, phase, members present, members owed, held replies, absences. -/
structure Barrier where
  inst    : BitVec 24
  owner   : BitVec 9
  phase   : BitVec 16
  members : List (BitVec 9)
  owed    : List (BitVec 9)
  replies : List (BitVec 9 × ReplyTo)
  nabs    : Nat
  absent  : Bool
  killed  : Bool
deriving DecidableEq, Repr

/-- A speculation handle (R395): opener, child activation while live, RNG snapshot, where the log lies, its entries and how many
are in use (R396). -/
structure SpecHandle where
  owner   : Nat
  child   : Nat
  live    : Bool
  snap    : Word
  log     : List MemPart
  entries : Nat
  used    : Nat
deriving DecidableEq, Repr

/-- A prompter routine that a slice runs or is to run (R198): its number, the line that it holds locked, its argument, who asked. -/
structure Prompt where
  id      : Nat
  line    : Nat
  routine : Nat
  arg     : Word
  who     : ReplyTo
deriving DecidableEq, Repr

/-- A die. -/
structure Die where
  colours  : List (BitVec 9 × Nat)      -- live colours and their activations, R25
  lines    : List Line                  -- the slices' lines, most recently used first, R206
  gran     : Nat                        -- DIE.SLICEMAP.GRAN, R205
  tlb      : List TlbEntry              -- translation entries, R214
  windows  : List MergeWin              -- merge windows, R209
  reads    : List SliceRead             -- reads of engines and the host through the slices, R208, R362
  scaleNet : List (CoreId × (Byte × BitVec 9)) -- scales in the scale network, in send order, R16, R221
  barriers : List (Nat × Barrier)       -- 256 barriers, R388
  barInst  : BitVec 24                  -- last instance number given, R388
  handles  : List (Nat × SpecHandle)    -- 64 speculation handles, R395
  prompts  : List Prompt                -- prompter routines of its slices, in the order asked, R198
  testing  : List (Nat × Nat)           -- stacks whose parking area is in use, with banks redirected, R421
deriving DecidableEq, Repr

/-- A die as reset leaves it. -/
def Die.reset : Die :=
  { colours := [], lines := [], gran := 0, tlb := [], windows := [], reads := [], scaleNet := [], barriers := [], barInst := 0, handles := [],
    prompts := [], testing := [] }

/-! ## A package (R13, R14, R19) -/

/-- The kinds of directory transaction (R364, R368). -/
inductive TxnKind where
  | gets
  | getx
  | recall
  | putm
deriving DecidableEq, Repr

/-- A transaction open on a line (R365, R371): kind, requester, acknowledgements awaited, mirror's OPEN acknowledged,
grant sent, whether the owner kept dirty sectors, what waits for the OPEN acknowledgement, and whether a recall takes only the copies of
other packages than the home (R369). -/
structure Txn where
  kind    : TxnKind
  req     : CohReq
  acks    : Nat
  opened  : Bool
  granted : Bool
  dirty   : Bool
  after   : List Item
  part    : Bool
deriving DecidableEq, Repr

/-- A directory entry (R361) with the transaction open on it (BUSY) and the requests waiting behind (R366). -/
structure DirEntry where
  line  : Nat
  st    : Perm
  owner : DieId
  dies  : List Nat
  pkgs  : List Nat
  txn   : Option Txn
  queue : List Item
deriving DecidableEq, Repr

/-- A mirror's copy of an entry, with its OPEN mark (R371). -/
structure MirEntry where
  line  : Nat
  st    : Perm
  owner : DieId
  dies  : List Nat
  pkgs  : List Nat
  open_ : Bool
deriving DecidableEq, Repr

/-- An island (R19, R125 to R127, R433 to R438). Temperatures in 1/8 °C, currents in hundredths of the rating. -/
structure Island where
  temp     : Int
  current  : Nat
  allow    : Nat        -- allowance in hundredths of a watt, R125
  committed : Nat       -- committed charge at point 0 in watts, R126
  point    : Nat        -- operating point, R126
  clock    : Nat        -- point the clock runs at until a change completes, R127
  stretched : Bool      -- droop stretch, R437
  stopped  : Bool       -- clock stopped by EVENT 2, R438
  hot      : Bool       -- EVENT 1 has posted and admissions are off, R438
  force5   : Bool       -- held at point 5 until the next refresh, R437
  down1    : Bool       -- one point down at the next refresh, R437
  energy   : BitVec 64  -- ISL.PWR.ENERGY, R435
  abandon  : BitVec 64  -- ISL.PWR.ABANDON
  drowsy   : BitVec 64  -- ISL.PWR.DROWSY
  changes  : BitVec 64  -- ISL.PT.CHANGES
  tmax     : BitVec 64  -- ISL.THERM.TMAX
  retired  : BitVec 64  -- ISL.RETIRED
  purged   : BitVec 64  -- ISL.PURGED
  cycles   : Nat        -- tenths of arithmetic cycles counted up to `since`, R197
  since    : Nat        -- when the clock last changed
deriving DecidableEq, Repr

/-- An island as reset leaves it: 25 °C, no current, point 0. -/
def Island.reset : Island :=
  { temp := 200, current := 0, allow := 0, committed := 0, point := 0, clock := 0, stretched := false, stopped := false,
    hot := false, force5 := false, down1 := false, energy := 0, abandon := 0, drowsy := 0, changes := 0, tmax := 0,
    retired := 0, purged := 0, cycles := 0, since := 0 }

/-- A link of a package: the host link (peer 64) or the peer channel to another package (R105, R107, R378, R422, R423). -/
structure LinkSt where
  ver     : BitVec 16   -- LINK.STAT.VER, 0 while down
  lanes   : Nat
  closing : Bool
  retired : Bool
  sent    : BitVec 16   -- beats sent, R423
  window  : Nat         -- credit window, R423
  repairs : Nat         -- repairs counted, R423
  replays : Nat         -- beats resent, R422
deriving DecidableEq, Repr

/-- A link that has not trained. -/
def LinkSt.reset : LinkSt := ⟨0, 0, false, false, 0, 0, 0, 0⟩

/-- A core block of an image: image coordinates, first node, records (R101), and the section that holds it. -/
structure Block where
  at_   : CoreId
  first : Nat
  recs  : List (BitVec 96)
  sect  : Nat
deriving DecidableEq, Repr

/-- Why the loader refuses an image (R102): the rows of its table, a section that breaks its layout (R100), and a wave annotation (R231). -/
inductive LoadWhy where
  | header
  | sections
  | layout
  | record
  | plan
  | depth
  | gate
  | window
  | spec
  | shardClass
  | chorus
  | edge
  | wave
deriving DecidableEq, Repr

/-- What the loader reports of an image that it refuses: the first reason, with the section, core and node concerned (R102). -/
structure LoadReport where
  why  : LoadWhy
  sect : Option Nat
  core : Option CoreId
  node : Option Nat
deriving DecidableEq, Repr

/-- An accepted image (R22, R99, R100). -/
structure Image where
  id      : Word
  pa      : Nat
  stall   : Bool
  spec    : Bool
  chorus  : Bool
  plan    : List Nat
  pool    : Nat
  wings   : Nat
  blocks  : List Block
  windows : List (Nat × (Nat × List Word))
  fars    : List (CoreId × List Word)
  streams : List (CoreId × (Nat × BitVec 24))
  classes : List (Nat × Nat × Nat)
  regions : List (Nat × List (CoreId × Nat × Nat))
  choruses : List (CoreId × Nat × Nat × Nat × Nat)
deriving DecidableEq, Repr

/-- An image resident on a cluster: image, cluster, image cluster, placement used (R113), and when its installation is complete (R115,
R116). -/
structure Resident where
  image : Word
  clu   : CluId
  from_ : CluId
  place : List Word
  due   : Nat
deriving DecidableEq, Repr

/-- What the host adapter returns for an access: the bytes read, with poison among them or not (R227), that a write is done, or an error
status (R203, R208). -/
inductive HostReply where
  | data (bytes : List Byte) (poison : Bool)
  | done
  | error
deriving DecidableEq, Repr

/-- A curtained region (R406 to R411): its name, launched activation, control core and asker, save area (0 for none); `held` once it is
held without a save, `clear` once it has cleared, `full` once its full save has begun, `saving` while its save is written,
`ctxsv` when CTXSV asked. -/
structure Curtain where
  id     : Nat
  root   : Nat
  core   : CoreId
  who    : ReplyTo
  area   : Nat
  held   : Bool
  clear  : Bool
  full   : Bool
  saving : Bool
  ctxsv  : Bool
deriving DecidableEq, Repr

/-- A package. -/
structure Package where
  stage    : BitVec 4                    -- DEV.BOOT STAGE, R103, R104
  rebuild  : Bool                        -- DEV.BOOT REBUILD, R14
  reason   : BitVec 8                    -- DEV.BOOT REASON, R104
  ptbase   : Nat                         -- DEV.PTBASE, R211
  shardbase : Nat                        -- DEV.SHARDBASE, R261
  dirmap   : Nat                         -- DEV.DIRMAP, R360
  resetAt  : Nat                         -- the time of the package's last reset, R197
  stopped  : Bool                        -- stopped under EVENT 4, R438
  images   : List Image                  -- accepted by the loader, R102, R110
  report   : Option LoadReport           -- what the loader reported of the last image, none if it accepted it, R102
  resident : List Resident               -- R113
  islands  : List Island                 -- 40 islands, R19
  links    : List (Nat × LinkSt)         -- host link and peer channels, R105, R378
  dir      : List DirEntry               -- coherence directory, R361
  dirUp    : Bool                        -- the directory works, R372
  waitQ    : List Item                   -- requests that wait for a slot or a way of the directory, in arrival order, R363, R368
  progress : Nat                         -- when the directory last made progress while requests waited, R372
  mapRecs  : List (List Nat × List (Nat × List Word)) -- records that follow the release of writes of a directory map: the lines still to
                                         -- be applied, and each record with its package, R360
  mirror   : List MirEntry               -- the copies this junction die holds as a mirror, R371
  acting   : List Nat                    -- packages for whose regions this one acts, R373
  podgen   : BitVec 16                   -- map generation, R377
  low      : List (Nat × Nat)            -- windows below THRESH ÷ 4 of each coarse region of the package, R369
  recalls  : List (Nat × Nat)            -- recalls of each region of the package in the present window, R369
  lost     : Bool                        -- the regions of this package are LOST, R376
  coarse   : List Nat                    -- regions in coarse mode, R369
  alarm    : BitVec 8                    -- alarm register, R424
  keys     : Bool                        -- device keys present, R425
  attest   : List Bool                   -- answers to attestation requests, R425
  bankBad  : List (Nat × Nat)            -- second failing banks reported to the management port, R421
  curtains : List Curtain                -- regions curtained by this package's control cores, R406
  hostQ    : List HostOp                 -- host accesses that the adapter holds, in arrival order, R106, R208
  hostLines : List Nat                   -- lines that host writes may not be applied in yet, R106
  flash    : Memory                      -- the serial flash with the first-stage firmware, R103
  routines : List Nat                    -- numbers of the prompter routines loaded at start-up, R103, R198
  storeAt  : Nat                         -- task-graph storage that the runtime reserves: where it begins, R118
  storeLen : Nat                         -- the 8-byte words of it that each control core has
  cfgs     : List (Nat × ReplyTo)        -- CFGINST instructions that wait for their wake and transfer time, R115, R195
deriving DecidableEq, Repr

/-- A package as power-on leaves it. -/
def Package.reset : Package :=
  { stage := 1, rebuild := false, reason := 0, ptbase := 0, shardbase := 0, dirmap := 0, resetAt := 0, stopped := false,
    images := [], report := none, resident := [], islands := List.replicate 40 Island.reset, links := [], dir := [], dirUp := true,
    waitQ := [], progress := 0, mapRecs := [],
    mirror := [], acting := [], podgen := 0, low := [], recalls := [], lost := false,
    coarse := [], alarm := 0, keys := true, attest := [],
    bankBad := [], curtains := [], hostQ := [], hostLines := [], flash := [], routines := [], storeAt := 0, storeLen := 0, cfgs := [] }

/-! ## Activations (R28) -/

/-- A destination as a record of a core gives it (R83). -/
structure Dest where
  core : CoreId
  node : Nat
  dst  : BitVec 24
deriving DecidableEq, Repr

/-- How an activation started: by START, SPAWN, coloured CALL, SPECBEG, or a `.col` record (R25, R166). -/
inductive Origin where
  | launch
  | spawn
  | call
  | spec
  | col
deriving DecidableEq, Repr

/-- Where an activation stands (R168, R426, R411, R415). -/
inductive Life where
  | live
  | ending
  | purging
  | saved
deriving DecidableEq, Repr

/-- An activation's state (R28). -/
structure Act where
  map      : List (DieId × BitVec 9)   -- colour map
  ctrl     : BitVec 32                 -- control word, R65
  flags    : BitVec 32                 -- sticky flags, R66
  rng      : Word                      -- RNG counter, R64
  windows  : List Nat                  -- 8 constant-window bases, R110
  wsizes   : List (Nat × Nat)          -- declared window sizes, R80
  plan     : List Nat                  -- tag plan, R30
  defer    : Nat                       -- deferral-pool base, R28
  defern   : Nat                       -- deferral-pool size in entries
  pool     : List (Nat × Waiter)       -- pool entries in use, R38
  poolAct  : Nat                       -- the activation whose pool it shares, R165
  stall    : Bool                      -- fault mode, R216
  grant    : Bool                      -- speculation grant
  reissue  : Bool                      -- reissuable
  eclass   : Nat                       -- energy class, R124
  phase    : Nat                       -- phase class, R149
  spec     : Bool                      -- speculative, R395
  handle   : Option (DieId × Nat)      -- the handle it was opened under, R395
  parent   : Option Nat                -- parent activation
  pdest    : Option Dest               -- Parent destination, none for null
  ptag     : Word                      -- Parent tag
  origin   : Origin
  ctl      : CoreId                    -- admitting control core
  image    : Word                      -- IMAGEID
  start    : List Word                 -- retained START body, R417
  entry    : Dest                      -- entry destination and original $0, R417
  arg0     : Word
  rng0     : Word                      -- original RNG counter, R417
  reissues : Nat                       -- reissues made, R417
  replay   : Nat                       -- replay number, R429
  clus     : List CluId                -- physical clusters of its placement
  place    : List Word                 -- valid entries of its placement, R111
  charged  : Bool                      -- energy charge committed, R127
  life     : Life
  endWord  : Word                      -- ENDG's $0, R169
  discarded : Bool                     -- RETIRE_DISCARD done, R427
  curtain  : Bool                      -- its region is closed by a curtain, R407
  heldBy   : Bool                      -- its region is held, nothing of it fires, R408, R410
  reached  : List DieId                -- dies that its purge has reached, R416
deriving DecidableEq, Repr

/-- An activation with nothing bound: what a firing under a colour that is not live reads. -/
def Act.reset : Act :=
  { map := [], ctrl := 0, flags := 0, rng := 0, windows := [], wsizes := [], plan := [], defer := 0, defern := 0,
    pool := [], poolAct := 0, stall := false, grant := false, reissue := false, eclass := 0, phase := 0, spec := false,
    handle := none, parent := none, pdest := none, ptag := 0, origin := .launch, ctl := ⟨0, 0, 0, 192⟩, image := 0,
    start := [], entry := ⟨⟨0, 0, 0, 0⟩, 0, 0⟩, arg0 := 0, rng0 := 0, reissues := 0, replay := 0, clus := [], place := [],
    charged := false, life := .live, endWord := 0, discarded := false, curtain := false, heldBy := false, reached := [] }

/-- A core's matrix engine as a save area holds it: claims, slots and tiles with their scales, row states (R412, R414). -/
structure SavedMat where
  core   : CoreId
  slots  : List (Nat × BitVec 9)
  tiles  : List (Nat × BitVec 9)
  opmem  : Memory
  scales : Memory
  acc    : Memory
  rows   : List ((Nat × Nat) × RowState)
deriving DecidableEq, Repr

/-- What a save holds, kept beside its bytes: the area that it was written to, the bytes written there by offset, where its TYPE 1 sections
begin, and all that its sections stand for (log 17). -/
structure Saved where
  id      : Nat
  area    : Nat
  chunks  : List (Nat × List Byte)
  heads   : List Nat
  acts    : List (Nat × Act)
  entries : List (CoreId × Entry)
  waves   : List (CoreId × WaveInst)
  mats    : List SavedMat
  ctrs    : List (CluId × ((BitVec 9 × Nat) × Counter))
  waits   : List (CluId × Wait)
  armed   : List (CluId × Armed)
  bars    : List (DieId × (Nat × Barrier))
  streams : List (CluId × Nat × Stream)
  qtoks   : List (QTok × Option (Nat × RingUse))
  reqs    : List (CoreId × MemReq)
  hnds    : List (DieId × (Nat × SpecHandle))
  slots   : List (CoreId × Nat × Slot)
  kept    : List (CoreId × Item)
  shards  : List (CoreId × ShardReq)
deriving DecidableEq, Repr

/-! ## The pod -/

/-- An event that waits for a time. -/
structure Timer where
  due   : Nat
  instr : Instr
  site  : Site
deriving DecidableEq, Repr

/-- The state of the machine. `agenda`, `timers`, `now`, `elapse`, `errs`, `cur`, `site`, `uid`, `free` are the model's own: what is
still to happen, the time, the errors that memory is to meet, the firing that issues, the site of the event that happens, the next name and
the next free draw. -/
structure State where
  podSize  : Nat                          -- packages of the pod, 1 to 64, R15
  now      : Nat                          -- nanoseconds, R197
  elapse   : List Nat                     -- nanoseconds that pass before each coming step, 1 where not listed
  errs     : List (List Nat)              -- sectors of HBM4E in which an uncorrectable error shows before each coming step, R227
  agenda   : List Item                    -- what is still to happen, in order
  timers   : List Timer                   -- events that wait for a time
  cur      : Firing                       -- the firing that issues
  site     : Site                         -- the site of the event that happens
  uid      : Nat                          -- next name
  free     : Nat                          -- next free draw
  mem      : Memory                       -- physical memory, R202, R203
  poison   : List Nat                     -- poisoned sectors of memory, R227
  exported : List Nat                     -- lines whose export bit is 1, R362
  cores    : List (CoreId × Core)
  clusters : List (CluId × Cluster)
  dies     : List (DieId × Die)
  packages : List (Nat × Package)
  acts     : List (Nat × Act)
  qtoks    : List QTok                    -- query tokens, R265
  saves    : List Saved
  hostOut  : List HostReply               -- what the adapters have returned to the host, R203, R208
deriving DecidableEq, Repr

/-- An operand of zeros. -/
def zeroOp : Operand := ⟨0, 0⟩

/-- The firing register's reset contents. -/
def Firing.reset : Firing := ⟨⟨0, 0, 0, 0⟩, 0, 0, zeroOp, zeroOp, zeroOp, 0, 0⟩

/-- The machine right after power-on: every package in stage ROM (R103), memory with nothing listed, nothing to happen. -/
def State.reset : State :=
  { podSize := 64, now := 0, elapse := [], errs := [], agenda := [], timers := [], cur := Firing.reset, site := Site.zero, uid := 0, free := 0, mem := [],
    poison := [], exported := [], cores := [], clusters := [], dies := [], packages := [], acts := [], qtoks := [],
    saves := [], hostOut := [] }

end Sys2Proof.Machine
end

