-- ==== Sys2Proof/Machine/Ops.lean ====
section
/-! DEFINITION. The named operations over the state: memory, parts of the pod, the agenda, the callboard, faults, tags,
activations, draws and flags. -/

namespace Sys2Proof.Machine

open Sys2Proof

/-! ## Memory -/

/-- The byte at an address: 0 where nothing is listed (log 1). -/
def Memory.get : Memory → Nat → Byte
  | [], _ => 0
  | (k, b) :: t, a => if k = a then b else Memory.get t a

/-- The memory with one byte written, in canonical form: a byte equal to the unlisted value is not listed. -/
def Memory.put : Memory → Nat → Byte → Memory
  | [], a, b => if b = 0 then [] else [(a, b)]
  | (k, c) :: t, a, b =>
    if a < k then (if b = 0 then (k, c) :: t else (a, b) :: (k, c) :: t)
    else if a = k then (if b = 0 then t else (a, b) :: t)
    else (k, c) :: Memory.put t a b

/-- n bytes from an address. -/
def Memory.getN (m : Memory) (a n : Nat) : List Byte := (List.range n).map fun i => m.get (a + i)

/-- Bytes written from an address upward. -/
def Memory.putN : Memory → Nat → List Byte → Memory
  | m, _, [] => m
  | m, a, b :: t => Memory.putN (m.put a b) (a + 1) t

/-- The canonical form: addresses strictly rising, none listing the unlisted value. -/
def Memory.wf : Memory → Bool
  | [] => true
  | [(_, b)] => decide (b ≠ 0)
  | (k, b) :: (k', c) :: t => decide (k < k') && decide (b ≠ 0) && Memory.wf ((k', c) :: t)

/-- The little-endian word of 8 bytes (R3). -/
def wordOfBytes (bs : List Byte) : Word := BitVec.ofNat 64 (leNat bs)

/-! ## Parts of the pod -/

/-- A core. -/
def State.core (s : State) (c : CoreId) : Core := Assoc.getD s.cores c (Core.unlisted c)
/-- The state with a core replaced. -/
def State.setCore (s : State) (c : CoreId) (k : Core) : State := { s with cores := Assoc.set s.cores c k }
/-- The state with a core changed. -/
def State.modCore (s : State) (c : CoreId) (f : Core → Core) : State := s.setCore c (f (s.core c))

/-- A cluster. -/
def State.cluster (s : State) (k : CluId) : Cluster := Assoc.getD s.clusters k Cluster.reset
/-- The state with a cluster replaced. -/
def State.setCluster (s : State) (k : CluId) (x : Cluster) : State := { s with clusters := Assoc.set s.clusters k x }
/-- The state with a cluster changed. -/
def State.modCluster (s : State) (k : CluId) (f : Cluster → Cluster) : State := s.setCluster k (f (s.cluster k))

/-- A die. -/
def State.die (s : State) (d : DieId) : Die := Assoc.getD s.dies d Die.reset
/-- The state with a die replaced. -/
def State.setDie (s : State) (d : DieId) (x : Die) : State := { s with dies := Assoc.set s.dies d x }
/-- The state with a die changed. -/
def State.modDie (s : State) (d : DieId) (f : Die → Die) : State := s.setDie d (f (s.die d))

/-- A package. -/
def State.pkg (s : State) (p : Nat) : Package := Assoc.getD s.packages p Package.reset
/-- The state with a package replaced. -/
def State.setPkg (s : State) (p : Nat) (x : Package) : State := { s with packages := Assoc.set s.packages p x }
/-- The state with a package changed. -/
def State.modPkg (s : State) (p : Nat) (f : Package → Package) : State := s.setPkg p (f (s.pkg p))

/-- An activation; one with nothing bound where none is. -/
def State.act (s : State) (a : Nat) : Act := Assoc.getD s.acts a Act.reset
/-- The state with an activation replaced. -/
def State.setAct (s : State) (a : Nat) (x : Act) : State := { s with acts := Assoc.set s.acts a x }
/-- The state with a live activation changed; unchanged where it is gone. -/
def State.modAct (s : State) (a : Nat) (f : Act → Act) : State :=
  match Assoc.get? s.acts a with
  | some x => s.setAct a (f x)
  | none => s

/-- The cores a state lists in a cluster. -/
def State.coresOfClu (s : State) (k : CluId) : List CoreId := (s.cores.map Prod.fst).filter fun c => c.cluId = k
/-- The cores a state lists on a die. -/
def State.coresOfDie (s : State) (d : DieId) : List CoreId := (s.cores.map Prod.fst).filter fun c => c.dieId = d
/-- The four dies of a package (R13). -/
def diesOf (p : Nat) : List DieId := [⟨p, 0⟩, ⟨p, 1⟩, ⟨p, 2⟩, ⟨p, 3⟩]
/-- Every die of the pod (R15). -/
def State.allDies (s : State) : List DieId := (List.range s.podSize).flatMap diesOf
/-- The eight clusters of a die (R12). -/
def clustersOf (d : DieId) : List CluId := (List.range 8).map fun k => ⟨d.pkg, d.die, k⟩
/-- Core 0 of a die, standing for the die where a core is asked for. -/
def dieCore0 (d : DieId) : CoreId := ⟨d.pkg, d.die, 0, 0⟩
/-- Core 0 of a cluster, standing for the cluster. -/
def cluCore0 (k : CluId) : CoreId := ⟨k.pkg, k.die, k.clu, 0⟩

/-! ## The agenda -/

/-- An event placed behind everything else that is to happen. -/
def State.later (s : State) (i : Instr) : State := { s with agenda := s.agenda ++ [.event i Site.zero] }
/-- An event of a core, with the numbers it names, placed behind everything else. -/
def State.laterAt (s : State) (i : Instr) (c : CoreId) (n : Nat) (m : Nat := 0) (flag : Bool := false) : State :=
  { s with agenda := s.agenda ++ [.event i ⟨c, n, m, flag⟩] }
/-- Items placed behind everything else. -/
def State.laterAll (s : State) (is : List Item) : State := { s with agenda := s.agenda ++ is }
/-- An event placed before everything else: what happens in the next cycle. -/
def State.nextUp (s : State) (i : Instr) : State := { s with agenda := .event i Site.zero :: s.agenda }
/-- The issue of the firing at the head of a core's ready queue, behind everything else (R144). -/
def State.issueLater (s : State) (c : CoreId) : State := { s with agenda := s.agenda ++ [.issue c] }
/-- An event due at a time of the model's clock. -/
def State.at_ (s : State) (due : Nat) (i : Instr) (x : Site) : State := { s with timers := s.timers ++ [⟨due, i, x⟩] }
/-- A package's place in a site. -/
def pkgCore (p : Nat) : CoreId := ⟨p, 0, 0, 0⟩
/-- A fresh name. -/
def State.fresh (s : State) : Nat × State := (s.uid, { s with uid := s.uid + 1 })

/-- Package time: nanoseconds since the package's last reset (R197). -/
def State.time (s : State) (p : Nat) : Nat := s.now - (s.pkg p).resetAt
/-- Word 3 of a callboard record: AUX or the like above the low half of package time (R401, R431). -/
def State.timeWord (s : State) (p : Nat) (hi : Nat) : Word :=
  BitVec.ofNat 64 (hi % 2 ^ 32 * 2 ^ 32 + s.time p % 2 ^ 32)

/-! ## The callboard (R431, R432) -/

/-- Bits [55:48] of `CORE.ID` style naming: the core index in a record, 0 to 191, or the control core's number (R401). -/
def coreField (c : CoreId) : Nat := if c.isCtl then c.core - 192 else c.core

/-- Word 2 of the LOST record of a queue raised by one (R432). -/
def bumpLost : List (List Word) → List (List Word)
  | [] => []
  | r :: t =>
    match r with
    | [w0, w1, w2, w3] =>
      if w0.toNat / 2 ^ 56 = 0x0C then [w0, w1, w2 + 1, w3] :: t else r :: bumpLost t
    | _ => r :: bumpLost t

/-- A record enters a queue, or is lost and counted (R432); whether it was posted. -/
def Queue.post (q : Queue) (r : List Word) (time : Word) : Queue × Bool :=
  if q.recs.length < 1023 then ({ q with recs := q.recs ++ [r] }, true)
  else if q.lost = 0 then
    ({ recs := q.recs ++ [[0x0C00000000000000#64, 0, 1, time]], lost := 1 }, false)
  else ({ q with recs := bumpLost q.recs, lost := q.lost + 1 }, false)

/-- The oldest record removed; the lost count returns to 0 with the LOST record (R193, R432). -/
def Queue.take (q : Queue) : Option (List Word × Queue) :=
  match q.recs with
  | [] => none
  | r :: t =>
    if (r.headD 0).toNat / 2 ^ 56 = 0x0C then some (r, { recs := t, lost := 0 })
    else some (r, { q with recs := t })

/-- A record posted to a queue of a cluster; whether it was posted (R431, R432). -/
def State.board (s : State) (k : CluId) (qn : Nat) (r : List Word) : State × Bool :=
  let cl := s.cluster k
  let (q, ok) := (cl.queues.getD qn Queue.reset).post r (s.timeWord k.pkg 0)
  (s.setCluster k { cl with queues := setAt cl.queues qn q }, ok)

/-- A record posted to a queue of every cluster of a package (R369, R373, R424, R438). -/
def State.boardPkg (s : State) (p qn : Nat) (r : List Word) : State :=
  ((diesOf p).flatMap clustersOf).foldl (fun s k => (s.board k qn r).1) s

/-! ## Faults (R401, R402): taking an exception -/

/-- The fault causes (R402). -/
inductive Cause where
  | illegalRecord
  | reservedOpcode
  | badLiteralKind
  | alignment
  | translation
  | permission
  | scopeChannel
  | operandSlot
  | presenceConflict
  | uncorrectable
  | chorusSplit
  | mapMoved
  | homeUnreachable
  | trap
  | break_
  | tagOverflow
  | colourExhausted
  | loopGate
  | inboxReject
  | streamFootprint
  | specConflict
  | nanscaleTrap
deriving DecidableEq, Repr

/-- The cause codes (R402). -/
def Cause.code : Cause → Nat
  | .illegalRecord => 0x01
  | .reservedOpcode => 0x02
  | .badLiteralKind => 0x03
  | .alignment => 0x04
  | .translation => 0x05
  | .permission => 0x06
  | .scopeChannel => 0x07
  | .operandSlot => 0x08
  | .presenceConflict => 0x09
  | .uncorrectable => 0x0A
  | .chorusSplit => 0x0B
  | .mapMoved => 0x0C
  | .homeUnreachable => 0x0D
  | .trap => 0x0E
  | .break_ => 0x0F
  | .tagOverflow => 0x10
  | .colourExhausted => 0x11
  | .loopGate => 0x12
  | .inboxReject => 0x13
  | .streamFootprint => 0x14
  | .specConflict => 0x15
  | .nanscaleTrap => 0x16

/-- A fault: its cause with DETAIL, INFO and AUX (R402). -/
structure Flt where
  cause  : Cause
  info   : Word := 0
  detail : Nat := 0
  aux    : Nat := 0
deriving DecidableEq, Repr

/-- Where a fault arose (R401 SOURCE). -/
inductive Source where
  | firing
  | arrival
  | engine
  | port
deriving DecidableEq, Repr

/-- The SOURCE codes. -/
def Source.code : Source → Nat
  | .firing => 0
  | .arrival => 1
  | .engine => 2
  | .port => 3

/-- Word 0 in the fault layout of R401. -/
def faultWord0 (kind cause source : Nat) (stall : Bool) (colour node core : Nat) (ctl : Bool) (detail : Nat) : Word :=
  BitVec.ofNat 64
    (putBits (kind % 256) 56 + putBits (cause % 256) 48 + putBits (source % 4) 46 + putBits (b2n stall) 45
      + putBits (colour % 512) 36 + putBits (node % 4096) 24 + putBits (core % 256) 16 + putBits (b2n ctl) 15
      + detail % 4096)

/-- Bits [63:55] of a tag (R29). -/
def colourOf (t : Word) : BitVec 9 := t.extractLsb' 55 9
/-- Bits [54:52] of a tag: the depth (R29). -/
def depthOf (t : Word) : Nat := (t.extractLsb' 52 3).toNat
/-- Bits [51:0] of a tag: the field stack (R29). -/
def stackOf (t : Word) : Nat := (t.extractLsb' 0 52).toNat
/-- A tag of its fields (R29). -/
def mkTag (c : BitVec 9) (depth stack : Nat) : Word := c ++ BitVec.ofNat 3 depth ++ BitVec.ofNat 52 stack

/-- TAKING A FAULT: its record is posted to queue 1 of a cluster, naming a core, node and tag (R401). -/
def State.fault (s : State) (k : CluId) (src : Source) (stall : Bool) (c : CoreId) (node : Nat) (tag : Word) (f : Flt) :
    State :=
  (s.board k 1
    [faultWord0 1 f.cause.code src.code stall (colourOf tag).toNat node (coreField c) c.isCtl f.detail, tag, f.info,
      s.timeWord k.pkg f.aux]).1

/-- A fault of the firing that issues (R401). -/
def State.faultCur (s : State) (f : Flt) : State :=
  s.fault s.cur.core.cluId .firing false s.cur.core s.cur.node s.cur.tag f

/-- A fault of an engine on a message (R401): in the cluster of the record that sent it, or, for a host message or an armed
send, in the engine's cluster; a host message names CORE 0xFF and node 0, and both name RTAG. -/
def State.faultEngine (s : State) (e : CluId) (m : Msg) (stall : Bool) (f : Flt) : State :=
  match m.sender.kind with
  | .host =>
    (s.board e 1
      [faultWord0 1 f.cause.code 2 stall (colourOf (m.words.getD 1 0)).toNat 0 0xFF false f.detail, m.words.getD 1 0,
        f.info, s.timeWord e.pkg f.aux]).1
  | .armed => s.fault e .engine stall m.sender.core m.sender.node (m.words.getD 1 0) f
  | _ => s.fault m.sender.core.cluId .engine stall m.sender.core m.sender.node m.sender.tag f

/-! ## Activations and colours (R25, R28) -/

/-- The activation a colour names on a die. -/
def State.owner? (s : State) (d : DieId) (col : BitVec 9) : Option Nat := Assoc.get? (s.die d).colours col

/-- The activation of a tag on a core's die. -/
def State.actOf? (s : State) (d : DieId) (t : Word) : Option Nat := s.owner? d (colourOf t)

/-- The activation of the firing that issues. -/
def State.curAct? (s : State) : Option Nat := s.actOf? s.cur.core.dieId s.cur.tag

/-- Its state; one with nothing bound where the colour is not live. -/
def State.curAct (s : State) : Act :=
  match s.curAct? with
  | some a => s.act a
  | none => Act.reset

/-- The state with the firing's activation changed. -/
def State.modCurAct (s : State) (f : Act → Act) : State :=
  match s.curAct? with
  | some a => s.modAct a f
  | none => s

/-- A sticky flag raised: ORed into ACT.FLAGS of an activation (R66). -/
def State.raiseIn (s : State) (a : Nat) (fl : Flg) : State :=
  s.modAct a fun x => { x with flags := x.flags ||| BitVec.ofNat 32 fl }

/-- A sticky flag raised by the firing (R66). -/
def State.raise (s : State) (fl : Flg) : State :=
  s.modCurAct fun x => { x with flags := x.flags ||| BitVec.ofNat 32 fl }

/-- n draws reserved by the firing in one request: the counter moves by n (R64). The draws are those of the old counter. -/
def State.reserve (s : State) (n : Nat) : State :=
  s.modCurAct fun x => { x with rng := x.rng + BitVec.ofNat 64 n }

/-- The rounding mode of an RM code: 7 takes ACT.CTRL.RM (R61, R65). -/
def Act.mode (a : Act) (rm : Nat) : Nat := if rm = 7 then (a.ctrl.extractLsb' 0 3).toNat else rm

/-- The width of level j of a tag plan; 0 where it is not declared (R30). -/
def levelWidth (plan : List Nat) (j : Nat) : Nat := if j = 0 then 0 else plan.getD (j - 1) 0

/-- One tag operation other than new colour: none is TAG_OVERFLOW (R31, R32). -/
def tagOp (plan : List Nat) (t : Word) (code : Nat) (op0 : Word) : Option Word :=
  let d := depthOf t
  let f := stackOf t
  let w := levelWidth plan d
  match code with
  | 0 => some t
  | 1 => if d = 0 then none else some (mkTag (colourOf t) d (f / 2 ^ w * 2 ^ w + (f % 2 ^ w + 1) % 2 ^ w))
  | 2 =>
    let w' := levelWidth plan (d + 1)
    if d = 7 ∨ w' = 0 then none else some (mkTag (colourOf t) (d + 1) (f * 2 ^ w'))
  | 3 => if d = 0 then none else some (mkTag (colourOf t) (d - 1) (f / 2 ^ w))
  | 5 => if d = 0 then none else some (mkTag (colourOf t) d (f / 2 ^ w * 2 ^ w + op0.toNat % 2 ^ w))
  | 6 => if d = 0 then none else some (mkTag (colourOf t) d (f / 2 ^ w * 2 ^ w))
  | _ => none

/-- The tag with its innermost field set (R31 code 5 acting on a known field). -/
def setInner (plan : List Nat) (t : Word) (v : Nat) : Word :=
  let w := levelWidth plan (depthOf t)
  mkTag (colourOf t) (depthOf t) (stackOf t / 2 ^ w * 2 ^ w + v % 2 ^ w)

/-- The innermost field; 0 at depth 0 (R163). -/
def innerOf (plan : List Nat) (t : Word) : Nat :=
  if depthOf t = 0 then 0 else stackOf t % 2 ^ levelWidth plan (depthOf t)

/-- Bits above the levels a tag uses are clear and its depth is declared (R164). -/
def tagOk (plan : List Nat) (t : Word) : Bool :=
  let d := depthOf t
  decide (d ≤ (plan.filter fun w => w ≠ 0).length) && decide (stackOf t < 2 ^ ((plan.take d).foldl (· + ·) 0))

/-- The lowest free colour of a die (R25). -/
def State.freeColour (s : State) (d : DieId) : Option (BitVec 9) :=
  (leastBelow 512 fun n => (Assoc.get? (s.die d).colours (BitVec.ofNat 9 n)).isNone).map (BitVec.ofNat 9)

/-- A colour bound on a die, its counter sets zeroed (R25, R382). -/
def State.bindColour (s : State) (d : DieId) (col : BitVec 9) (a : Nat) : State :=
  { s.modDie d (fun x => { x with colours := Assoc.set x.colours col a }) with
    clusters := s.clusters.map fun p =>
      if p.1.dieId = d then (p.1, { p.2 with ctrs := p.2.ctrs.filter fun x => decide (x.1.1 ≠ col) }) else p }

/-- A phase mask with the colour's bit set or cleared (R149). -/
def setBit (m : BitVec 512) (i : Nat) (v : Bool) : BitVec 512 :=
  if v then m ||| (1#512 <<< i) else m &&& ~~~(1#512 <<< i)

/-- The colour set in the mask of a phase class on an activation's cores of a die, those of its clusters that hold the image: 1 attention,
2 feed-forward (R149). -/
def State.setPhase (s : State) (d : DieId) (image : Word) (clus : List CluId) (col : BitVec 9) (phase : Nat) : State :=
  if phase = 1 ∨ phase = 2 then
    ((s.coresOfDie d).filter fun c => decide (c.cluId ∈ clus) && (s.core c).owner.any fun p => decide (p.2 = image)).foldl
      (fun s c => s.modCore c fun k =>
        if phase = 1 then { k with phmask0 := setBit k.phmask0 col.toNat true }
        else { k with phmask1 := setBit k.phmask1 col.toNat true }) s
  else s

/-- The colour's bits cleared on a die's cores (R149). -/
def State.clearPhase (s : State) (d : DieId) (col : BitVec 9) : State :=
  (s.coresOfDie d).foldl
    (fun s c => s.modCore c fun k =>
      { k with phmask0 := setBit k.phmask0 col.toNat false, phmask1 := setBit k.phmask1 col.toNat false }) s

/-- A child activation of the firing that issues, started on its die (R165, R166): colour, state, Parent; the RNG counter
takes one draw of the parent. None when no colour is free (R26). Answers its tag (new colour, depth 0) and name. -/
def State.startChild (s : State) (origin : Origin) (reiss : Bool) (pdest : Option Dest) (spec : Bool)
    (handle : Option (DieId × Nat)) : Option (Word × Nat × State) :=
  let d := s.cur.core.dieId
  match s.freeColour d with
  | none => none
  | some col =>
    let par := s.curAct
    let (id, s) := s.fresh
    let s := s.reserve 1
    let child : Act :=
      { par with map := [(d, col)], flags := 0, rng := mix (par.rng + 1), grant := false, reissue := reiss, eclass := 0,
                 parent := s.curAct?, pdest := pdest, ptag := s.cur.tag, origin := origin, start := [],
                 entry := ⟨s.cur.core, s.cur.node, 0⟩, arg0 := s.cur.op0.val, rng0 := mix (par.rng + 1), reissues := 0, replay := 0,
                 charged := false, life := .live, endWord := 0, discarded := false, reached := [], pool := [], spec := spec,
                 handle := handle }
    let s := { s with acts := s.acts ++ [(id, child)] }
    let s := (s.bindColour d col id).setPhase d par.image par.clus col par.phase
    some (mkTag col 0 0, id, s)

/-- An activation and every live activation descended from it (R406, R415). -/
def State.familyGo (s : State) : Nat → List Nat → List Nat
  | 0, acc => acc
  | k + 1, acc =>
    let more := (s.acts.filter fun p =>
      (match p.2.parent with | some q => decide (q ∈ acc) | none => false) && decide (p.1 ∉ acc)).map Prod.fst
    if more.isEmpty then acc else State.familyGo s k (acc ++ more)

/-- The region of an activation: itself and its descendants (R406). -/
def State.family (s : State) (a : Nat) : List Nat := s.familyGo s.acts.length [a]

/-- The colour an activation holds on a die (R27). -/
def State.colourOn (s : State) (a : Nat) (d : DieId) : Option (BitVec 9) := Assoc.get? (s.act a).map d

end Sys2Proof.Machine
end

