-- ==== Sys2Proof/Machine/Mem.lean ====
section
/-! DEFINITION. Addresses and translation: what a physical address names (R202, R203), the near levels (R199 to R201), reads as
a die sees them (R343). -/

namespace Sys2Proof.Machine

open Sys2Proof

/-! ## Physical addresses (R202, R203) -/

/-- What a physical address names. -/
inductive PhysAt where
  | hbm (d : DieId) (off : Nat)
  | chip (d : DieId) (off : Nat)
  | shared (k : CluId) (off : Nat)
  | nothing
deriving DecidableEq, Repr

/-- What an offset within a die's span names (R203). -/
def offAt (d : DieId) (rebuild : Bool) (off : Nat) : PhysAt :=
  if off < Config.hbmBytes rebuild then .hbm d off
  else if off < Config.sramBase then .nothing
  else
    let o := off - Config.sramBase
    let k := o / Config.clusterStep
    let b := o % Config.clusterStep
    if k = 0 then (if b < Config.chipBytes then .chip d b else .nothing)
    else if k ≤ 8 ∧ b < Config.sharedBytes then .shared ⟨d.pkg, d.die, k - 1⟩ b
    else .nothing

/-- What a physical address names in this pod (R202, R203). -/
def State.physAt (s : State) (pa : Nat) : PhysAt :=
  let p := pa / Config.pkgSpan
  if p < s.podSize then
    offAt ⟨p, pa % Config.pkgSpan / Config.dieSpan⟩ (s.pkg p).rebuild (pa % Config.dieSpan)
  else .nothing

/-- The die in whose span a physical address lies (R202, R359). -/
def dieOfPa (pa : Nat) : DieId := ⟨pa / Config.pkgSpan, pa % Config.pkgSpan / Config.dieSpan⟩

/-- The physical base of a die's span (R202). -/
def dieBase (d : DieId) : Nat := d.pkg * Config.pkgSpan + d.die * Config.dieSpan

/-- The aperture address of byte off of a cluster-shared memory (R203). -/
def sharedPa (k : CluId) (off : Nat) : Nat := dieBase ⟨k.pkg, k.die⟩ + Config.sramBase + (k.clu + 1) * Config.clusterStep + off
/-- The aperture address of byte off of a chip scratchpad (R203). -/
def chipPa (d : DieId) (off : Nat) : Nat := dieBase d + Config.sramBase + off

/-- The memory that a physical address lies in: its kind, and its die or cluster. -/
def PhysAt.region : PhysAt → Option (Nat × CluId)
  | .hbm d _ => some (0, ⟨d.pkg, d.die, 0⟩)
  | .chip d _ => some (1, ⟨d.pkg, d.die, 0⟩)
  | .shared k _ => some (2, k)
  | .nothing => none

/-- Every byte of a range is named by something (R203): its first and last byte lie in one memory, for no two stand side by side. -/
def State.rangeOk (s : State) (pa n : Nat) : Bool :=
  (s.physAt pa).region.isSome && decide ((s.physAt (pa + (n - 1))).region = (s.physAt pa).region)

/-- Within the three levels that presence words and reductions may use: cluster-shared memory or a chip scratchpad, by
aperture name (R39, R223). -/
def State.isSram (s : State) (pa : Nat) : Bool :=
  match s.physAt pa with
  | .chip _ _ => true
  | .shared _ _ => true
  | _ => false

/-- HBM4E of some die. -/
def State.isHbm (s : State) (pa : Nat) : Bool :=
  match s.physAt pa with
  | .hbm _ _ => true
  | _ => false

/-! ## Links and coherence domains (R107, R340, R378) -/

/-- The host link's number among a package's links. -/
def hostLink : Nat := 64

/-- A link of a package. -/
def State.link (s : State) (p peer : Nat) : LinkSt := Assoc.getD (s.pkg p).links peer LinkSt.reset
/-- A link of a package changed. -/
def State.modLink (s : State) (p peer : Nat) (f : LinkSt → LinkSt) : State :=
  s.modPkg p fun x => { x with links := Assoc.set x.links peer (f (Assoc.getD x.links peer LinkSt.reset)) }

/-- The packages that channels of at least a version join to some, directly or through others; a closing channel takes no new traffic
(R378). -/
def State.reachGo (s : State) (ver : Nat) : Nat → List Nat → List Nat
  | 0, acc => acc
  | k + 1, acc =>
    let more := ((acc.flatMap fun p => (s.pkg p).links.filterMap fun x =>
      if x.1 < s.podSize ∧ ver ≤ x.2.ver.toNat ∧ !x.2.closing then some x.1 else none).dedup).filter fun q => decide (q ∉ acc)
    if more.isEmpty then acc else State.reachGo s ver k (acc ++ more)

/-- Two packages are in one coherence domain (R107, R340). -/
def State.joined (s : State) (p q : Nat) : Bool := decide (p = q) || decide (q ∈ s.reachGo 0x0200 s.podSize [p])

/-- Tokens, messages and copies pass between two packages (R107, R378). -/
def State.routed (s : State) (p q : Nat) : Bool := decide (p = q) || decide (q ∈ s.reachGo 0x0100 s.podSize [p])

/-- A generation is older than the present one (R377). -/
def olderGen (h g : BitVec 16) : Bool := decide (1 ≤ (g - h).toNat) && decide ((g - h).toNat ≤ 32767)

/-- The generation that a write to another package carries: its sender's, where links of version 2.0 join the two (R377). -/
def State.genTo (s : State) (p q : Nat) : Option (BitVec 16) :=
  if decide (p ≠ q) && s.joined p q then some (s.pkg p).podgen else none

/-- A write that carries an older generation than its destination's (R377). -/
def genMoved (h : Option (BitVec 16)) (g : BitVec 16) : Bool :=
  match h with
  | some h => olderGen h g
  | none => false

/-- The packages of a package's coherence domain (R107). -/
def State.domain (s : State) (p : Nat) : List Nat := (List.range s.podSize).filter fun q => s.joined p q

/-! ## Keys of a core's bytes

A byte that a core reaches has a key: its physical address; for a lane slice, laneKey + offset; for a control core's
scratchpad, which has no physical address (R203), padKey + offset. Keys from laneKey up are the core's own. -/

/-- The first key of a core's lane slices. -/
def laneKey : Nat := 2 ^ 60
/-- The first key of a control core's scratchpad. -/
def padKey : Nat := 2 ^ 61

/-- Bit [55] of a virtual address: near (R199). -/
def isNear (va : Nat) : Bool := va.testBit 55
/-- Bits [54:52] of a near address: the level (R200). -/
def nearLevel (va : Nat) : Nat := bitsOf va 54 52
/-- Bits [51:0] of a near address. -/
def nearOff (va : Nat) : Nat := va % 2 ^ 52

/-- The bytes of a near level (R200). -/
def nearSize (level : Nat) : Nat :=
  match level with
  | 0 => 65536
  | 1 => Config.padBytes
  | 2 => Config.sharedBytes
  | 3 => Config.chipBytes
  | _ => 0

/-- The key of a near address for a core, for an access of n bytes; none faults TRANSLATION (R200, R201). -/
def nearKey (c : CoreId) (va n : Nat) : Option Nat :=
  let off := nearOff va
  let lv := nearLevel va
  if nearSize lv < off + max n 1 then none
  else match lv with
    | 0 => some (laneKey + off)
    | 1 => some (if c.isCtl then padKey + off else sharedPa c.cluId (c.core * Config.padBytes + off))
    | 2 => some (sharedPa c.cluId off)
    | 3 => some (chipPa c.dieId off)
    | _ => none

/-- The physical address of a near address for an engine of a cluster, which has no core: levels 0 and 1 fault (R201). -/
def nearPaOfCluster (k : CluId) (va n : Nat) : Option Nat :=
  if nearLevel va ≤ 1 then none else nearKey (cluCore0 k) va n

/-! ## Reads as a die sees them (R343) -/

/-- A line that a die holds. -/
def Die.line? (x : Die) (l : Nat) : Option Line := x.lines.find? fun y => decide (y.line = l)

/-- The sector of a byte within its line (R7). -/
def sectorOf (pa : Nat) : Nat := pa % 192 / 48

/-- A sector of a line, invalid where none. -/
def Line.sector (y : Line) (i : Nat) : Sector := y.sectors.getD i ⟨false, false, false, none⟩

/-- The last applied write of a byte: the dirty copy of a slice, else the byte in memory (R343). -/
def State.appliedByte (s : State) (pa : Nat) : Byte :=
  match s.dies.findSome? fun p =>
    match p.2.line? (pa / 192) with
    | some y => if (y.sector (sectorOf pa)).valid && (y.sector (sectorOf pa)).dirty then some (y.bytes.get (pa % 192)) else none
    | none => none
  with
  | some b => b
  | none => s.mem.get pa

/-- A byte as a die reads it: its own die-performed write that is not yet applied, else the last applied write (R343). -/
def State.peekByte (s : State) (d : DieId) (pa : Nat) : Byte :=
  match (s.die d).line? (pa / 192) with
  | some y =>
    match Assoc.get? y.pend (pa % 192) with
    | some x => x.1
    | none => s.appliedByte pa
  | none => s.appliedByte pa

/-- n bytes as a die reads them. -/
def State.peek (s : State) (d : DieId) (pa n : Nat) : List Byte := (List.range n).map fun i => s.peekByte d (pa + i)

/-- A 64-bit word as a die reads it (R3). -/
def State.peekWord (s : State) (d : DieId) (pa : Nat) : Word := wordOfBytes (s.peek d pa 8)

/-- A sector that carries poison, in a slice that holds it dirty or in memory (R227). -/
def State.poisoned (s : State) (pa : Nat) : Bool :=
  match s.dies.findSome? fun p =>
    match p.2.line? (pa / 192) with
    | some y => if (y.sector (sectorOf pa)).valid && (y.sector (sectorOf pa)).dirty then some (y.sector (sectorOf pa)).poison else none
    | none => none
  with
  | some b => b
  | none => decide (pa / 48 ∈ s.poison)

/-- The poison that a byte carries as a die reads it: that of the die's own sector where it holds it or has written to it, else that of
the last applied write (R227). -/
def State.poisonedIn (s : State) (d : DieId) (pa : Nat) : Bool :=
  match (s.die d).line? (pa / 192) with
  | some y =>
    let i := sectorOf pa
    if i ∈ y.whole then false
    else if (y.sector i).valid then (y.sector i).poison
    else (y.sector i).poison || s.poisoned pa
  | none => s.poisoned pa

/-- A range that carries poison in some sector, as a die reads it. -/
def State.poisonedRange (s : State) (d : DieId) (pa n : Nat) : Bool :=
  (List.range (if n = 0 then 0 else (pa + n - 1) / 48 - pa / 48 + 1)).any fun i => s.poisonedIn d ((pa / 48 + i) * 48)

/-- A byte that a core reaches by its key, as its die sees it. -/
def State.keyByte (s : State) (c : CoreId) (key : Nat) : Byte :=
  if padKey ≤ key then (s.core c).ctlPad.get (key - padKey)
  else if laneKey ≤ key then (s.core c).lanes.get (key - laneKey)
  else s.peekByte c.dieId key

/-- n bytes that a core reaches by key. -/
def State.keyBytes (s : State) (c : CoreId) (key n : Nat) : List Byte := (List.range n).map fun i => s.keyByte c (key + i)

end Sys2Proof.Machine
end

