-- ==== Sys2Proof/Machine/Slices.lean ====
section
/-! DEFINITION. The cache slices of a die (R205 to R210, R342, R343, R364): lines, die-performed writes and their application,
fills, evictions and write-backs, merge windows. -/

namespace Sys2Proof.Machine

open Sys2Proof

/-! ## Homes and directories (R359, R373) -/

/-- The home die of a line (R359). -/
def homeDie (l : Nat) : DieId := dieOfPa (l * 192)

/-- The region index of a line in its package (R359). -/
def regionOf (l : Nat) : Nat := (homeDie l).die * 128 + l * 192 % Config.dieSpan / Config.largePage

/-- The package whose directory serves a line: its home package, or the mirror that acts for it (R359, R373). -/
def State.dirOf (s : State) (l : Nat) : Nat :=
  let p := (homeDie l).pkg
  if (s.pkg p).dirUp then p
  else match s.packages.find? fun x => decide (p ∈ x.2.acting) with
    | some x => x.1
    | none => p

/-- The region of the line is LOST (R376). -/
def State.isLost (s : State) (l : Nat) : Bool := (s.pkg (homeDie l).pkg).lost

/-- The line is in a coarse-mode region of another package than the die's (R370). -/
def State.coarseFor (s : State) (d : DieId) (l : Nat) : Bool :=
  decide ((homeDie l).pkg ≠ d.pkg) && decide (regionOf l ∈ (s.pkg (homeDie l).pkg).coarse)

/-- A coherence request of a die under the present generation its package knows (R364, R377). -/
def State.cohReq (s : State) (d : DieId) (l : Nat) (noKeep : Bool) : CohReq := ⟨l, d, noKeep, (s.pkg d.pkg).podgen⟩

/-! ## Lines -/

/-- A sector that holds nothing. -/
def Sector.none_ : Sector := ⟨false, false, false, none⟩

/-- A line just allocated (R206), or standing in no way (R370). -/
def Line.fresh (l : Nat) (p : Perm) (passing : Bool := false) : Line :=
  { line := l, perm := p, sectors := List.replicate 4 Sector.none_, bytes := [], pend := [], asked := none, wback := false,
    locked := false, dropIt := false, want := [], whole := [], leaving := false, wsent := [], nextX := false, came := false,
    passing := passing }

/-- A line that waits in the write-back buffer to leave: no copy that the die may use (R367). -/
def Line.away (y : Line) : Bool := y.wback && y.leaving

/-- A line changed, where the die holds it. -/
def State.modLine (s : State) (d : DieId) (l : Nat) (f : Line → Line) : State :=
  s.modDie d fun x => { x with lines := x.lines.map fun y => if y.line = l then f y else y }

/-- A line removed. -/
def State.dropLine (s : State) (d : DieId) (l : Nat) : State :=
  s.modDie d fun x => { x with lines := x.lines.filter fun y => decide (y.line ≠ l) }

/-- A line used: it becomes the most recent (R206). -/
def State.touchLine (s : State) (d : DieId) (l : Nat) : State :=
  s.modDie d fun x =>
    { x with lines := x.lines.filter (fun y => decide (y.line = l)) ++ x.lines.filter fun y => decide (y.line ≠ l) }

/-- The slice and set of a line under a granularity (R205, R206). -/
def sliceSet (gran l : Nat) : Nat × Nat :=
  if gran = 0 then (l % 48, l / 48 % 896) else (l * 192 / 49152 % 48, l % 896)

/-- A line is applied in whole or part and not yet in memory. -/
def Line.isDirty (y : Line) : Bool := y.sectors.any fun x => x.valid && x.dirty

/-- The bytes and poison of a line as the last applied writes left them: what the home or an owner sends (R365). -/
def State.lineData (s : State) (l : Nat) : LineData :=
  ⟨(List.range 192).map fun i => s.appliedByte (l * 192 + i), (List.range 4).filter fun i => s.poisoned (l * 192 + 48 * i)⟩

/-- A sector written into memory with its poison mark (R226, R227). -/
def State.storeSector (s : State) (sec : Nat) (bs : List Byte) (poison : Bool) : State :=
  { s with mem := s.mem.putN (sec * 48) bs,
           poison := if poison then (if sec ∈ s.poison then s.poison else sec :: s.poison)
                     else s.poison.filter fun x => decide (x ≠ sec) }

/-- Sectors of a line's data written into home memory (R364, R365). -/
def State.storeHome (s : State) (l : Nat) (data : LineData) (sectors : List Nat) : State :=
  sectors.foldl
    (fun s i => s.storeSector (l * 4 + i) ((List.range 48).map fun j => data.bytes.getD (48 * i + j) 0) (decide (i ∈ data.poison))) s

/-- A line's own data: its bytes and the poison of its sectors. -/
def Line.data (y : Line) : LineData :=
  ⟨(List.range 192).map y.bytes.get, (List.range 4).filter fun i => (y.sector i).valid && (y.sector i).poison⟩

/-- The dirty sectors of a line. -/
def Line.dirtySectors (y : Line) : List Nat := (List.range 4).filter fun i => (y.sector i).valid && (y.sector i).dirty

/-- The line with the named sectors clean. -/
def Line.cleaned (y : Line) (secs : List Nat) : Line :=
  { y with sectors := (List.range 4).map fun i =>
      if i ∈ secs then { y.sector i with dirty := false, owner := none } else y.sector i }

/-- A write-back of some of a held line's dirty sectors (R207, R242, R364): into home memory at once for a line that no directory
entry lists, else by PUTM. With `keep` the line stays; without it the line leaves, by PUTM
through the write-back buffer (R367). -/
def State.writeBackSome (s : State) (d : DieId) (l : Nat) (keep : Bool) (secs : List Nat) : State :=
  match (s.die d).line? l with
  | none => s
  | some y =>
    if l ∈ s.exported then
      if (y.perm = .m ∨ y.perm = .o ∨ y.perm = .e) ∧ !y.wback ∧ (!keep ∨ !secs.isEmpty) then
        (s.modLine d l fun y => { y with wback := true, leaving := !keep, wsent := secs }).later
          (.putm (s.cohReq d l false) keep y.data secs)
      else if keep ∨ y.wback then s
      else s.dropLine d l
    else
      let s := s.storeHome l y.data secs
      if keep then s.modLine d l fun y => y.cleaned secs else s.dropLine d l

/-- A write-back of every dirty sector of a held line. -/
def State.writeBack (s : State) (d : DieId) (l : Nat) (keep : Bool) : State :=
  match (s.die d).line? l with
  | none => s
  | some y => s.writeBackSome d l keep y.dirtySectors

/-- The lines that take up the ways of a line's set (R206). -/
def Die.mates (x : Die) (l : Nat) : List Line :=
  x.lines.filter fun y => decide (sliceSet x.gran y.line = sliceSet x.gran l) && !y.away && !y.passing

/-- The least recently used line of a line's set that no request holds (R206). -/
def Die.oldest (x : Die) (l : Nat) : Option Line :=
  ((x.mates l).filter fun y => y.pend.isEmpty && y.asked.isNone && !y.locked && !y.wback).getLast?

/-- A line of the die has a way, or can be given one (R206). -/
def State.hasRoom (s : State) (d : DieId) (l : Nat) : Bool :=
  let x := s.die d
  (x.line? l).isSome || s.coarseFor d l || decide ((x.mates l).length < 12) || (x.oldest l).isSome

/-- A way freed for a line: the least recently used line of its set that no request holds leaves (R206). -/
def State.makeRoom (s : State) (d : DieId) (l : Nat) : State :=
  if ((s.die d).mates l).length < 12 then s
  else match (s.die d).oldest l with
    | some y => s.writeBack d y.line false
    | none => s

/-- A line allocated where the die holds none: with every permission where the home die's own access needs no directory
(R362), else with none. A line of another package's coarse-mode region takes no way (R370). -/
def State.allocLine (s : State) (d : DieId) (l : Nat) : State :=
  match (s.die d).line? l with
  | some _ => s.touchLine d l
  | none =>
    let far := s.coarseFor d l
    let s := if far then s else s.makeRoom d l
    let p : Perm := if homeDie l = d ∧ l ∉ s.exported then .m else .i
    s.modDie d fun x => { x with lines := Line.fresh l p far :: x.lines }

/-! ## Asking and applying (R342, R364) -/

/-- GETX or UPG for a line (R364). -/
def State.sendGetx (s : State) (d : DieId) (y : Line) : State :=
  if !y.away ∧ (y.perm = .s ∨ y.perm = .o) then s.later (.upg (s.cohReq d y.line false)) else s.later (.getx (s.cohReq d y.line false))

/-- A request sent to the directory for a line (R364): GETS where nothing is outstanding; GETX or UPG also at once behind a GETS. -/
def State.ask (s : State) (d : DieId) (l : Nat) (k : FwdKind) : State :=
  match (s.die d).line? l with
  | none => s
  | some y =>
    if y.wback && !y.leaving then s
    else match y.asked, k with
      | none, .gets => (s.modLine d l fun y => { y with asked := some .gets }).later (.gets (s.cohReq d l (s.coarseFor d l)))
      | none, _ => (s.modLine d l fun y => { y with asked := some .getx, came := false }).sendGetx d y
      | some .gets, .gets => s
      | some .gets, _ => if y.nextX then s else (s.modLine d l fun y => { y with nextX := true, came := false }).sendGetx d y
      | some _, _ => s

/-- Sectors wanted of a line (R206): the home fills them from memory where it needs no directory; else GETS (R362). Where no way can be
had, nothing is asked yet. -/
def State.wantSectors (s : State) (d : DieId) (l : Nat) (secs : List Nat) : State :=
  if !s.hasRoom d l then s
  else
    let s := s.allocLine d l
    match (s.die d).line? l with
    | none => s
    | some y =>
      let s := s.modLine d l fun y => { y with want := y.want ++ secs.filter fun i => decide (i ∉ y.want) }
      if y.perm ≠ .i ∧ !y.away then
        if y.asked.isSome then s
        else (s.modLine d l fun y => { y with asked := some .gets }).later (.sliceFillArrival d l y.perm true (s.lineData l))
      else s.ask d l .gets

/-- The pending bytes of a sector. -/
def Line.pendOf (y : Line) (i : Nat) : List (Nat × (Byte × Option (BitVec 9))) := y.pend.filter fun p => decide (p.1 / 48 = i)

/-- The sectors that die-performed writes touch. -/
def Line.pendSectors (y : Line) : List Nat := (List.range 4).filter fun i => !(y.pendOf i).isEmpty

/-- The die-performed writes of a line applied (R342): bytes written, sectors valid and dirty under the last writer's
colour, poison cleared where a write covered the sector whole (R207, R227). -/
def Line.applied (y : Line) : Line :=
  { y with
    perm := .m
    bytes := y.pend.foldl (fun m p => m.put p.1 p.2.1) y.bytes
    sectors := (List.range 4).map fun i =>
      match (y.pendOf i).getLast? with
      | none => y.sector i
      | some p => ⟨true, true, (y.sector i).poison && decide (i ∉ y.whole), p.2.2⟩
    pend := []
    whole := [] }

/-- The junction die of a package writes through the slices of its die 0: a line of a directory map was applied, and the records that
waited for it alone are posted (R360; log 60). -/
def State.mapSettled (s : State) (d : DieId) (l : Nat) : State :=
  if d.die ≠ 0 ∨ (s.pkg d.pkg).mapRecs.isEmpty then s
  else
    let rs := (s.pkg d.pkg).mapRecs.map fun r => (r.1.filter fun x => decide (x ≠ l), r.2)
    (rs.filter fun r => r.1.isEmpty).foldl (fun s r => r.2.foldl (fun s x => s.boardPkg x.1 3 x.2) s)
      (s.modPkg d.pkg fun x => { x with mapRecs := rs.filter fun r => !r.1.isEmpty })

/-- A line's application noted: no release of the die's cores waits for it any more (R347), nor a record of a directory (R360). -/
def State.lineSettled (s : State) (d : DieId) (l : Nat) : State :=
  let s := s.mapSettled d l
  (s.coresOfDie d).foldl
    (fun s c =>
      if (s.core c).rels.any (fun r => decide (l ∈ r.lines)) then
        s.modCore c fun k => { k with rels := k.rels.map fun r => { r with lines := r.lines.filter fun x => decide (x ≠ l) } }
      else s) s

/-- The die-performed writes of a line are applied where the slice holds write permission and the bytes around them; else
it asks for what is lacking (R342, R364). -/
def State.settle (s : State) (d : DieId) (l : Nat) : State :=
  match (s.die d).line? l with
  | none => s
  | some y =>
    if y.pend.isEmpty ∨ y.locked then s
    else if y.wback then (if y.leaving then s.ask d l .getx else s)
    else if y.perm = .m ∨ y.perm = .e then
      let lack := y.pendSectors.filter fun i => !(y.sector i).valid && decide ((y.pendOf i).length < 48)
      if lack.isEmpty then (s.modLine d l Line.applied).lineSettled d l
      else s.wantSectors d l lack
    else s.ask d l .getx

/-! ## Merge windows (R209, R210) -/

/-- A byte captured by a load, once. -/
def MemReq.capture (r : MemReq) (key : Nat) (b : Byte) : MemReq :=
  if (Assoc.get? r.got key).isSome then r else { r with got := r.got ++ [(key, b)] }

/-- The keys of a request's bytes. -/
def MemReq.keys (r : MemReq) : List Nat :=
  r.parts.flatMap fun p => match p.pa with | some a => (List.range p.len).map fun i => a + i | none => []

/-- The keys of a request's bytes in one line. -/
def MemReq.keysIn (r : MemReq) (l : Nat) : List Nat := r.keys.filter fun k => decide (k < laneKey) && decide (k / 192 = l)

/-- The bytes of a line captured by a load as the core's die sees them now. -/
def State.captureLine (s : State) (c : CoreId) (id l : Nat) : State :=
  s.modCore c fun k =>
    { k with reqs := k.reqs.map fun r =>
        if r.id = id then
          { (r.keysIn l).foldl (fun r key => r.capture key (s.peekByte c.dieId key)) r with
            poison := r.poison || (r.keysIn l).any fun key => s.poisonedIn c.dieId key }
        else r }

/-- A byte that a read may take from the die's slice now: it is die-performed here, or its sector is held (R343). -/
def Line.canRead (y : Line) (off : Nat) : Bool :=
  !y.locked && ((Assoc.get? y.pend off).isSome || (decide (y.perm ≠ .i) && !y.away && (y.sector (off / 48)).valid))

/-- The offsets of a line that the joiners of its merge window still lack. -/
def State.windowOffs (s : State) (w : MergeWin) : List Nat :=
  (w.joiners.flatMap fun j =>
    (s.core j.1).reqs.flatMap fun q =>
      if q.id = j.2 then ((q.keysIn w.line).filter fun k => (Assoc.get? q.got k).isNone).map (· % 192) else []).dedup

/-- The line of a merge window can serve every sector that its joiners ask for (R209). -/
def State.windowServes (s : State) (d : DieId) (w : MergeWin) : Bool :=
  (s.windowOffs w).all fun o => match (s.die d).line? w.line with | some y => y.canRead o | none => false

/-- A merge window closes: every joiner receives the line's data as it stands (R209, R210). -/
def State.closeWindow (s : State) (d : DieId) (l : Nat) : State :=
  match (s.die d).windows.find? fun w => decide (w.line = l) with
  | none => s
  | some w =>
    let s := w.joiners.foldl (fun s j => s.captureLine j.1 j.2 l) s
    s.modDie d fun x => { x with windows := x.windows.filter fun w => decide (w.line ≠ l) }

/-! ## Writes that enter a slice (R206, R207, R342) -/

/-- A line may take a write now: it has a way or can be given one, no prompter's routine holds it, and an open merge window on it can be
served; one that cannot takes no more joiners, and the write waits (R198, R206, R210). -/
def State.lineReady (s : State) (d : DieId) (l : Nat) : Bool × State :=
  let free := s.hasRoom d l && !((s.die d).line? l).any (·.locked)
  match (s.die d).windows.find? fun w => decide (w.line = l) with
  | some w =>
    if s.windowServes d w then (free, s)
    else (false, s.modDie d fun x => { x with windows := x.windows.map fun w => if w.line = l then { w with closing := true } else w })
  | none => (free, s)

/-- A range written by a party of a die may be written now (R206, R210). -/
def State.writeReady (s : State) (d : DieId) (nc : Bool) (pa n : Nat) : Bool × State :=
  if nc ∨ !s.isHbm pa ∨ n = 0 then (true, s)
  else
    let at_ := if s.coarseFor d (pa / 192) then homeDie (pa / 192) else d
    (List.range ((pa + n - 1) / 192 - pa / 192 + 1)).foldl
      (fun x i => let (ok, s) := x.2.lineReady at_ (pa / 192 + i); (x.1 && ok, s)) (true, s)

/-- Bytes of one line enter the slice of a die under an owner colour: die-performed (R342). An open merge window on the line
closes first (R210). -/
def State.enterLine (s : State) (d : DieId) (l off : Nat) (bs : List Byte) (owner : Option (BitVec 9)) : State :=
  let s := (s.closeWindow d l).allocLine d l
  let idx := (List.range bs.length).map fun i => (off + i, bs.getD i 0)
  let full := (List.range 4).filter fun i => decide (off ≤ 48 * i) && decide (48 * i + 48 ≤ off + bs.length)
  let s := s.modLine d l fun y =>
    { y with pend := idx.foldl (fun p e => Assoc.erase p e.1 ++ [(e.1, (e.2, owner))]) y.pend, whole := y.whole ++ full }
  s.settle d l

/-- Bytes written far through a die's slices, line by line (R206). -/
def State.dieWriteGo (s : State) (d : DieId) (owner : Option (BitVec 9)) : Nat → Nat → List Byte → State
  | 0, _, _ => s
  | k + 1, pa, bs =>
    if bs.isEmpty then s
    else
      let n := min bs.length (192 - pa % 192)
      State.dieWriteGo (s.enterLine d (pa / 192) (pa % 192) (bs.take n) owner) d owner k (pa + n) (bs.drop n)

/-- Bytes written at a physical address by a party on a die: SRAM and NC pages are written directly, HBM4E lines through the
die's slice, or, in a coarse-mode region of another package, through the home die's (R208, R342, R370). -/
def State.dieWrite (s : State) (d : DieId) (nc : Bool) (pa : Nat) (bs : List Byte) (owner : Option (BitVec 9)) : State :=
  if nc ∨ !s.isHbm pa then
    { s with mem := s.mem.putN pa bs,
             poison := s.poison.filter fun x => !(decide (pa ≤ x * 48) && decide (x * 48 + 48 ≤ pa + bs.length)) }
  else if s.coarseFor d (pa / 192) then s.dieWriteGo (homeDie (pa / 192)) none (bs.length + 1) pa bs
  else s.dieWriteGo d owner (bs.length + 1) pa bs

/-- Bytes written by the system class: tables, wings, pools, the host (R207). -/
def State.sysWrite (s : State) (d : DieId) (pa : Nat) (bs : List Byte) : State := s.dieWrite d false pa bs none

/-- A 64-bit word written by the system class. -/
def State.sysWord (s : State) (d : DieId) (pa : Nat) (w : Word) : State := s.sysWrite d pa (leBytes 8 w.toNat)

/-- Every sector that a range touches marked poisoned: in the slice that the range was written through, else in memory (R227). -/
def State.spoil (s : State) (d : DieId) (nc : Bool) (pa n : Nat) : State :=
  (List.range (if n = 0 then 0 else (pa + n - 1) / 48 - pa / 48 + 1)).foldl
    (fun s i =>
      let sec := pa / 48 + i
      if nc ∨ !s.isHbm pa then { s with poison := if sec ∈ s.poison then s.poison else sec :: s.poison }
      else s.modLine (if s.coarseFor d (sec / 4) then homeDie (sec / 4) else d) (sec / 4) fun y =>
        { y with sectors := (List.range 4).map (fun j => if j = sec % 4 then { y.sector j with poison := true } else y.sector j),
                 whole := y.whole.filter fun j => decide (j ≠ sec % 4) }) s

/-! ## Reads that need a line (R206, R343) -/

/-- The line of a die can serve a read of some of its bytes now. -/
def State.lineServes (s : State) (d : DieId) (l : Nat) (offs : List Nat) : Bool :=
  match (s.die d).line? l with
  | some y => offs.all y.canRead
  | none => false

/-- The sectors of a line that a read needs and the die does not hold asked for (R206, R362). -/
def State.fillFor (s : State) (d : DieId) (l : Nat) (offs : List Nat) : State :=
  match (s.die d).line? l with
  | some y =>
    if y.locked then s
    else s.wantSectors d l ((offs.map (· / 48)).dedup.filter fun i => !(decide (y.perm ≠ .i) && !y.away && (y.sector i).valid))
  | none => s.wantSectors d l (offs.map (· / 48)).dedup

/-- The bytes of a line that a load still lacks, captured where the slice can serve them, else asked for (R206, R343). -/
def State.readLine (s : State) (c : CoreId) (id l : Nat) (offs : List Nat) : State :=
  if s.lineServes c.dieId l offs then (s.captureLine c id l).touchLine c.dieId l else s.fillFor c.dieId l offs

/-! ## Reads of engines, the host and walks (R208, R212, R362) -/

/-- The lines that a range touches, each with its offsets in the range. -/
def rangeLines (pa n : Nat) : List (Nat × List Nat) :=
  if n = 0 then []
  else (List.range ((pa + n - 1) / 192 - pa / 192 + 1)).map fun i =>
    let l := pa / 192 + i
    (l, (List.range 192).filter fun o => decide (pa ≤ l * 192 + o) && decide (l * 192 + o < pa + n))

/-- A read by the system class passes through the slices, which serve it or fill; its value is that of the last applied write or the die's
own (R343; log 14). -/
def State.readThrough (s : State) (d : DieId) (pa n : Nat) : State :=
  if !s.isHbm pa then s
  else (rangeLines pa n).foldl (fun s x => if s.lineServes d x.1 x.2 then s.touchLine d x.1 else s.fillFor d x.1 x.2) s

/-- The keys of runs. -/
def runKeys (ps : List MemPart) : List Nat :=
  ps.flatMap fun p => match p.pa with | some a => (List.range p.len).map fun i => a + i | none => []

/-- A byte with its poison as a die reads it. -/
def State.markedByte (s : State) (d : DieId) (k : Nat) : Byte × Bool := (s.peekByte d k, s.poisonedIn d k)

/-- The bytes of a line taken by a read in progress, each once. -/
def State.takeRead (s : State) (d : DieId) (l : Nat) (r : SliceRead) : SliceRead :=
  let ks := (runKeys r.runs).filter fun k => decide (k / 192 = l) && (Assoc.get? r.got k).isNone
  { r with got := r.got ++ ks.map fun k => (k, s.markedByte d k) }

/-- The bytes of runs that no slice serves: NC pages and SRAM (R203, R208). -/
def State.unsliced (s : State) (p : MemPart) : Bool := match p.pa with | some a => p.nc || !s.isHbm a | none => true

/-- What runs still need of the slices: their lines with the offsets that cannot be read now. -/
def State.runsLack (s : State) (d : DieId) (ps : List MemPart) : List (Nat × List Nat) :=
  (ps.filter fun p => !s.unsliced p).flatMap fun p =>
    (rangeLines (p.pa.getD 0) p.len).filter fun x => !s.lineServes d x.1 x.2

/-- A read of runs through the slices of a die goes on: with every byte at hand its data, each byte with its poison, else none and what it
lacks asked for (R343, R362). -/
def State.drawRuns (s : State) (d : DieId) (who : Reader) (ps : List MemPart) : Option (List (Byte × Bool)) × State :=
  let old := (s.die d).reads.find? fun r => decide (r.who = who)
  let s := s.modDie d fun x => { x with reads := x.reads.filter fun r => decide (r.who ≠ who) }
  let lack := s.runsLack d ps
  if old.isNone ∧ lack.isEmpty then
    (some ((runKeys ps).map fun k => s.markedByte d k),
      (ps.filter fun p => !s.unsliced p).foldl (fun s p => s.readThrough d (p.pa.getD 0) p.len) s)
  else
    let r : SliceRead := match old.filter fun r => decide (r.runs = ps) with
      | some r => r
      | none => ⟨who, ps, (ps.filter fun p => s.unsliced p).flatMap fun p => (runKeys [p]).map fun k => (k, s.markedByte d k)⟩
    let lines := ((runKeys ps).filter fun k => (Assoc.get? r.got k).isNone).map (· / 192) |>.dedup
    let r := (lines.filter fun l => decide (l ∉ lack.map (·.1))).foldl (fun r l => s.takeRead d l r) r
    if (runKeys ps).all fun k => (Assoc.get? r.got k).isSome then
      (some ((runKeys ps).map fun k => Assoc.getD r.got k (0, false)), s)
    else
      (none, (lack.filter fun x => decide (x.1 ∈ lines)).foldl (fun s x => s.fillFor d x.1 x.2)
        (s.modDie d fun x => { x with reads := x.reads ++ [r] }))

/-- A read given up. -/
def State.dropRead (s : State) (d : DieId) (who : Reader) : State :=
  s.modDie d fun x => { x with reads := x.reads.filter fun r => decide (r.who ≠ who) }

/-- Every waiting load of a die's cores, and every waiting read of its engines and the host, takes the bytes of a line that is used once
and not kept (R367, R370). -/
def State.captureAll (s : State) (d : DieId) (l : Nat) : State :=
  (s.coresOfDie d).foldl
    (fun s c => (s.core c).reqs.foldl (fun s r => if r.withheld || (r.keysIn l).isEmpty then s else s.captureLine c r.id l) s)
    (s.modDie d fun x => { x with reads := x.reads.map fun r => s.takeRead d l r })

end Sys2Proof.Machine
end

