-- ==== Sys2Proof/Machine/Walks.lean ====
section
/-! DEFINITION. Page walks and TLB entries (R211 to R215), and the footprint of a core's access. -/

namespace Sys2Proof.Machine

open Sys2Proof

/-! ## Page walks (R211 to R213) -/

/-- The page size that a leaf maps at a level (R211). -/
def levelPage (level : Nat) : Nat :=
  match level with
  | 0 => Config.dieSpan
  | 1 => Config.largePage
  | 2 => Config.mediumPage
  | _ => Config.smallPage

/-- The index into a level's table (R211). -/
def levelIndex (level va : Nat) : Nat :=
  match level with
  | 0 => va / Config.dieSpan
  | 1 => va / Config.largePage % 16384
  | 2 => va / Config.mediumPage % 256
  | _ => va / Config.smallPage % 64

/-- A walk from a table at a level: the leaf, or the level at which it failed (R213). A leaf's whole page and every entry read must be
named by something (R203). -/
def State.walkGo (s : State) (d : DieId) (va : Nat) : Nat → Nat → Nat → Leaf ⊕ Nat
  | 0, level, _ => .inr level
  | k + 1, level, table =>
    let at_ := table + 8 * levelIndex level va
    let e := (s.peekWord d at_).toNat
    let pa := e % 2 ^ 52
    let kind := bitsOf e 62 61
    if !(s.rangeOk at_ 8) then .inr level
    else if !(e.testBit 63) then .inr level
    else if bitsOf e 58 52 ≠ 0 then .inr level
    else if s.physAt pa = .nothing then .inr level
    else if kind = 0 then (if level = 3 ∨ pa % 192 ≠ 0 then .inr level else State.walkGo s d va k (level + 1) pa)
    else if kind = 1 then
      let sz := levelPage level
      if level = 0 ∨ pa % sz ≠ 0 ∨ !(s.rangeOk pa sz) then .inr level
      else .inl ⟨va / sz * sz, sz, pa, e.testBit 60, e.testBit 59⟩
    else .inr level

/-- A walk of the package's table for a far address; an address at or above 2,731 × 12 TiB fails with no walk, 0xFFF
(R211, R402). -/
def State.walk (s : State) (d : DieId) (va : Nat) : Leaf ⊕ Nat :=
  if 2731 * Config.dieSpan ≤ va then .inr 0xFFF else s.walkGo d va 4 0 (s.pkg d.pkg).ptbase

/-- The entries that a walk reads, from a table at a level (R211). -/
def State.walkReads (s : State) (d : DieId) (va : Nat) : Nat → Nat → Nat → List Nat
  | 0, _, _ => []
  | k + 1, level, table =>
    let at_ := table + 8 * levelIndex level va
    let e := (s.peekWord d at_).toNat
    at_ :: (if e.testBit 63 ∧ bitsOf e 62 61 = 0 ∧ level < 3 then State.walkReads s d va k (level + 1) (e % 2 ^ 52) else [])

/-- A walk's reads pass through the slices of the walking die, which fill as for any read (R212; log 14). -/
def State.walkThrough (s : State) (d : DieId) (va : Nat) : State :=
  if 2731 * Config.dieSpan ≤ va then s
  else (s.walkReads d va 4 0 (s.pkg d.pkg).ptbase).foldl (fun s a => s.readThrough d a 8) s

/-- Whether a translation entry's page holds an address. -/
def TlbEntry.holds (e : TlbEntry) (va : Nat) : Bool := decide (e.vbase ≤ va) && decide (va < e.vbase + e.size)

/-- The leaf of an entry. -/
def TlbEntry.leaf (e : TlbEntry) : Leaf := ⟨e.vbase, e.size, e.pbase, e.w, e.nc⟩

/-- A translation for a record or port (`who`) or for none: from its own entry, else from the last-level TLB, else by a
walk, which fills both (R214). -/
def State.translate (s : State) (d : DieId) (who : Option (CoreId × Nat)) (va : Nat) : (Leaf ⊕ Nat) × State :=
  let x := s.die d
  let own := if who.isSome then x.tlb.find? (fun e => decide (e.who = who) && e.holds va) else none
  match own with
  | some e => (.inl e.leaf, s)
  | none =>
    let fill (t : List TlbEntry) (lf : Leaf) : List TlbEntry :=
      if who.isSome then ⟨who, lf.vbase, lf.size, lf.pbase, lf.w, lf.nc⟩ :: t.filter (fun e => decide (e.who ≠ who)) else t
    match x.tlb.find? fun e => e.who.isNone && e.holds va with
    | some e => (.inl e.leaf, s.setDie d { x with tlb := fill x.tlb e.leaf })
    | none =>
      match s.walk d va with
      | .inr n => (.inr n, s.walkThrough d va)
      | .inl lf =>
        let last := (x.tlb.filter fun e => e.who.isNone).take 4095
        let own := x.tlb.filter fun e => e.who.isSome
        (.inl lf,
          (s.setDie d { x with tlb := fill (own ++ ⟨none, lf.vbase, lf.size, lf.pbase, lf.w, lf.nc⟩ :: last) lf }).walkThrough d va)

/-- The pages of a far range, in ascending order, each translated: their translations as runs, or the first failure
(R215). A write through a leaf with W = 0 faults PERMISSION; a 65th page faults STREAM_FOOTPRINT. -/
def State.footGo (s : State) (d : DieId) (who : Option (CoreId × Nat)) (write : Bool) :
    Nat → Nat → Nat → List MemPart → Nat → (Except Flt (List MemPart × Nat)) × State
  | 0, _, _, acc, pages => (.ok (acc, pages), s)
  | k + 1, va, n, acc, pages =>
    if n = 0 then (.ok (acc, pages), s)
    else if 64 ≤ pages then (.error { cause := .streamFootprint, info := BitVec.ofNat 64 (pages + 1) }, s)
    else
      match s.translate d who va with
      | (.inr lv, s) => (.error { cause := .translation, info := BitVec.ofNat 64 va, detail := lv }, s)
      | (.inl lf, s) =>
        if write && !lf.w then (.error { cause := .permission, info := BitVec.ofNat 64 va }, s)
        else
          let run := min n (lf.vbase + lf.size - va)
          State.footGo s d who write k (va + run) (n - run) (acc ++ [⟨va, some (lf.pbase + (va - lf.vbase)), run, lf.nc⟩])
            (pages + 1)

/-- The first near address: bytes of a far range from here on are near (R199, R238). -/
def nearFrom : Nat := 2 ^ 55

/-- The bytes of a far range that are far. -/
def farLen (va n : Nat) : Nat := min n (nearFrom - va)

/-- The near run of a range for a core, or TRANSLATION (R201). -/
def nearRun (c : CoreId) (va n : Nat) : Except Flt (List MemPart) :=
  match nearKey c va n with
  | some k => .ok [⟨va, some k, n, false⟩]
  | none => .error { cause := .translation, info := BitVec.ofNat 64 va, detail := 0xFFF }

/-- The runs of bytes of a range for a core's access: one near run, or the pages of a far one, which may run on into the near levels
(R199, R215, R238). -/
def State.footprint (s : State) (c : CoreId) (who : Option (CoreId × Nat)) (write : Bool) (va n : Nat) :
    (Except Flt (List MemPart)) × State :=
  if isNear va then (nearRun c va n, s)
  else
    match s.footGo c.dieId who write 66 va (farLen va n) [] 0 with
    | (.ok (ps, _), s) =>
      if n ≤ farLen va n then (.ok ps, s) else ((nearRun c nearFrom (n - farLen va n)).map fun qs => ps ++ qs, s)
    | (.error f, s) => (.error f, s)

/-- The virtual address of R229: operand plus displacement modulo 2^64, none where bits [63:56] are set. -/
def vaOf (base disp : Word) : Option Nat :=
  let a := (base + disp).toNat
  if a < 2 ^ 56 then some a else none

end Sys2Proof.Machine
end

