-- ==== Sys2Proof/Machine/Operands.lean ====
section
/-! DEFINITION. Operands: kinds (R88), literals (R78 to R80), tokens as operands (R76, R77), slice descriptors and their images
(R89, R282), tile references (R89). -/

namespace Sys2Proof.Machine

open Sys2Proof

/-! ## Kinds (R88) -/

/-- The FORM of a kind: 0 scalar, 1 slice descriptor, 2 tile reference, 3 reserved; an overflow report is scalar. -/
def kindForm (k : BitVec 8) : Nat := if k.toNat / 128 = 1 then 0 else bitsOf k.toNat 6 5

/-- The END bits of a kind; zero for an overflow report (R88). -/
def kindEnd (k : BitVec 8) : Nat := if k.toNat / 128 = 1 then 0 else k.toNat % 8

/-- A kind of a form, a class and end bits. -/
def mkKind (form cls ends : Nat) : BitVec 8 := BitVec.ofNat 8 (form * 32 + cls * 8 + ends)

/-- The CLASS of a TYP code (R88). -/
def classOf (typ : Nat) : Nat := if typ < 4 then 0 else if typ < 8 then 1 else if typ < 11 then 2 else 3

/-- The kind of an overflow report (R68, R88). -/
def overflowKind (more : Bool) (lane : Nat) : BitVec 8 := BitVec.ofNat 8 (128 + b2n more * 64 + lane % 64)

/-- Scalar, unsigned, END zero. -/
def kUnsigned : BitVec 8 := mkKind 0 1 0

/-- A result with scalar unsigned kind and END zero (R152). -/
def plainOp (v : Word) : Operand := ⟨v, kUnsigned⟩

/-! ## Literals (R78 to R80) -/

/-- The immediate sign-extended to 64 bits. -/
def immSext (r : Rec) : Word := r.lit.signExtend 64

/-- The immediate as a 64-bit operand of a TYP (R79). -/
def immOperand (typ : Nat) (lit : BitVec 20) : Word :=
  if typ = 8 then BitVec.ofNat 64 (lit.toNat * 4096)
  else if typ = 9 ∨ typ = 10 then BitVec.ofNat 64 (lit.toNat % 65536)
  else if 11 ≤ typ ∧ typ ≤ 14 then BitVec.ofNat 64 (lit.toNat % 2 ^ typWidth typ)
  else lit.signExtend 64

/-- The address of word off of constant window win, as the firing's activation bound it; none where the window is unbound or the offset is
not below its declared size (R80). -/
def State.windowAt (s : State) (win off : Nat) : Option Nat :=
  let a := s.curAct
  match Assoc.get? a.wsizes win with
  | some size => if off < size then some (a.windows.getD win 0 + 8 * off) else none
  | none => none

/-- A word of the firing's constant windows as the constant cache holds it, or as memory gives it where the cache does not (R80). -/
def State.constWord (s : State) (at_ : Nat) : Word :=
  (Assoc.get? (s.core s.cur.core).consts (s.curAct?.getD 0, at_)).getD (s.peekWord s.cur.core.dieId at_)

/-- Word off of constant window win (R80). -/
def State.windowWord (s : State) (win off : Nat) : Option Word := (s.windowAt win off).map s.constWord

/-- The window and offset of a window-word literal (R78). -/
def litWindow (r : Rec) : Nat × Nat := (bitsOf r.lit.toNat 19 17, r.lit.toNat % 2 ^ 17)

/-- The constant cache as a firing finds it: a word that it does not hold is filled from memory, before 2,048 words the oldest leaving; a
word that memory has changed since may be the old one or the new (R9, R80; log 7). -/
def State.constFill (s : State) (at_ : Nat) : State :=
  let c := s.cur.core
  let key := (s.curAct?.getD 0, at_)
  let new := s.peekWord c.dieId at_
  match Assoc.get? (s.core c).consts key with
  | none => (s.modCore c fun k => { k with consts := (key, new) :: k.consts.take 2047 }).readThrough c.dieId at_ 8
  | some old =>
    if old = new then s
    else
      let s' := { s with free := s.free + 1 }
      if Config.constKept s.free then s' else s'.modCore c fun k => { k with consts := Assoc.set k.consts key new }

/-- The literal operand of a record (R78); zero where R92 step 5 refuses it. -/
def State.literal (s : State) (r : Rec) : Word :=
  match r.lk.toNat with
  | 1 => immOperand r.typ.toNat r.lit
  | 2 => (s.windowWord (litWindow r).1 (litWindow r).2).getD 0
  | _ => 0

/-! ## Operands (R76, R77) -/

/-- The value of a token operand of the firing that issues. -/
def State.tokenOp (s : State) (n : Nat) : Operand :=
  match n with
  | 0 => s.cur.op0
  | 1 => s.cur.op1
  | _ => s.cur.op2

/-- Operand n of a record: a token for n below ARI, the literal for n equal to ARI (R76). -/
def State.opnd (s : State) (r : Rec) (n : Nat) : Operand :=
  if n < r.ari.toNat then s.tokenOp n
  else if n = r.ari.toNat ∧ r.lk.toNat ≠ 0 then ⟨s.literal r, mkKind 0 (classOf r.typ.toNat) 0⟩
  else ⟨0, 0⟩

/-- The value of operand n. -/
def State.val (s : State) (r : Rec) (n : Nat) : Word := (s.opnd r n).val

/-- The element bits of operand n as TYP reads them (R48). -/
def State.elem (s : State) (r : Rec) (n : Nat) : Nat := (s.val r n).toNat % 2 ^ typWidth r.typ.toNat

/-- END of the port-0 operand. -/
def State.end0 (s : State) : Nat := kindEnd s.cur.op0.kind

/-- A refused operand (R402). -/
def slotFault (o : Operand) (n : Nat) : Flt := { cause := .operandSlot, info := o.val, detail := n }

/-- Every token operand is a scalar, or OPERAND_SLOT on the first that is not (R152). -/
def State.scalars (s : State) (r : Rec) : Except Flt Unit :=
  match (List.range r.ari.toNat).find? fun n => decide (kindForm (s.tokenOp n).kind ≠ 0) with
  | some n => .error (slotFault (s.tokenOp n) n)
  | none => .ok ()

/-- Operand n is a scalar, or OPERAND_SLOT. -/
def State.scalarAt (s : State) (r : Rec) (n : Nat) : Except Flt Word :=
  if kindForm (s.opnd r n).kind = 0 then .ok (s.val r n) else .error (slotFault (s.opnd r n) n)

/-! ## Slices (R89, R282) -/

/-- A slice: first word and number of words minus 1. -/
structure Slice where
  row  : Nat
  nrow : Nat
deriving DecidableEq, Repr

/-- A descriptor's layout, none where it breaks R89. -/
def sliceOf (v : Word) : Option Slice :=
  let n := v.toNat
  if n / 65536 = 0 ∧ n % 256 + n / 256 ≤ 255 then some ⟨n % 256, n / 256⟩ else none

/-- The descriptor of a slice. -/
def Slice.word (x : Slice) : Word := BitVec.ofNat 64 (x.nrow * 256 + x.row)

/-- The bytes of a slice's image. -/
def Slice.size (x : Slice) : Nat := 256 * (x.nrow + 1)

/-- The lane-slice offset of an image byte (R282). -/
def Slice.at_ (x : Slice) (o : Nat) : Nat := o / 4 % 64 * 1024 + (x.row + o / 256) * 4 + o % 4

/-- Operand n is a slice descriptor that keeps R89, or OPERAND_SLOT. -/
def State.sliceAt (s : State) (r : Rec) (n : Nat) : Except Flt Slice :=
  let o := s.opnd r n
  match (if kindForm o.kind = 1 then sliceOf o.val else none) with
  | some x => .ok x
  | none => .error (slotFault o n)

/-- The image of a slice in a core's lanes. -/
def Core.image (k : Core) (x : Slice) : List Byte := (List.range x.size).map fun o => k.lanes.get (x.at_ o)

/-- An image written over a slice of a core, as far as its bytes go. -/
def Core.putImage (k : Core) (x : Slice) (bs : List Byte) : Core :=
  { k with lanes := ((List.range (min x.size bs.length)).foldl (fun m o => m.put (x.at_ o) (bs.getD o 0)) k.lanes) }

/-- The image of a slice of the firing's core. -/
def State.image (s : State) (x : Slice) : List Byte := (s.core s.cur.core).image x

/-- An image written over a slice of the firing's core. -/
def State.putImage (s : State) (x : Slice) (bs : List Byte) : State := s.modCore s.cur.core fun k => k.putImage x bs

/-- Elements of a type of w bits packed into bytes (R49, R282). -/
def packElems (w : Nat) (es : List Nat) : List Byte :=
  let x := es.foldr (fun e acc => acc * 2 ^ w + e % 2 ^ w) 0
  leBytes ((w * es.length + 7) / 8) x

/-- The first n elements of packed bytes. -/
def unpackElems (bs : List Byte) (w n : Nat) : List Nat :=
  let x := leNat bs
  (List.range n).map fun e => x / 2 ^ (w * e) % 2 ^ w

/-! ## Tile references (R89) -/

/-- A tile reference: accumulator or operand slot, and index; none where it breaks R89. -/
def tileOf (v : Word) : Option (Bool × Nat) :=
  let n := v.toNat
  if 32 ≤ n then none else if 16 ≤ n ∧ 8 ≤ n % 16 then none else some (decide (16 ≤ n), n % 16)

/-- The word of a tile reference. -/
def tileWord (acc : Bool) (i : Nat) : Word := BitVec.ofNat 64 (b2n acc * 16 + i)

/-! ## Scalar element results -/

/-- A scalar result of TYP with a kind of its class and END (R48, R152). -/
def typedOp (typ ends x : Nat) : Operand := ⟨holdScalar (elemTy typ) x, mkKind 0 (classOf typ) ends⟩

end Sys2Proof.Machine
end

