-- ==== Sys2Proof/Machine/Tokens.lean ====
section
/-! DEFINITION. Sending tokens (R23, R83 to R85, R147, R151), releases held before them (R347, R348, R351), and the checks of a
firing in the order of R92. -/

namespace Sys2Proof.Machine

open Sys2Proof

/-! ## Destinations (R83 to R85) -/

/-- Where a destination leads from a core: the receiving core, node and port; none for null, and for a far entry that is
not valid (R83, R85). -/
def State.target (s : State) (c : CoreId) (dst : BitVec 24) : Option (CoreId × Nat × Nat) :=
  let n := dst.toNat
  let f := bitsOf n 21 14
  match n / 2 ^ 22 with
  | 0 => none
  | 1 => some (c, bitsOf n 13 2, n % 4)
  | 2 => some (⟨c.pkg, c.die, c.clu, f⟩, bitsOf n 13 2, n % 4)
  | _ =>
    let e := (Assoc.getD (s.core c).far f 0).toNat
    if e.testBit 63 then
      some (⟨bitsOf e 52 47, bitsOf e 46 45, bitsOf e 44 42, bitsOf e 41 34⟩, bitsOf e 33 22, bitsOf e 21 20)
    else none

/-- The record at a node of a core's element memory (R128). -/
def State.recordAt (s : State) (c : CoreId) (node : Nat) : BitVec 96 := Assoc.getD (s.core c).elem node 0

/-- Where a record's destination leads: as `target` says, but a token of a chorus copy for a VOTE record of its chorus goes to that record
on the original core, on the port of the copy's number (R172). -/
def State.leads (s : State) (c : CoreId) (node : Nat) (dst : BitVec 24) : Option (CoreId × Nat × Nat) :=
  match s.target c dst with
  | none => none
  | some (c', n, p) =>
    match Assoc.get? (s.core c).chorus node, Assoc.get? (s.core c').chorus n with
    | some (copy, orig), some (_, orig') =>
      if orig = orig' ∧ (opcOfWord (s.recordAt c' n)).toNat = 0x14 then some (⟨c'.pkg, c'.die, c'.clu, orig⟩, n, copy) else some (c', n, p)
    | _, _ => some (c', n, p)

/-- A destination that R84 refuses at fire time. -/
def State.destBad (s : State) (c : CoreId) (dst : BitVec 24) : Bool :=
  let f := bitsOf dst.toNat 21 14
  match destClass dst with
  | 2 => decide (191 < f)
  | 3 => decide (63 < f) || !((Assoc.getD (s.core c).far f 0).toNat.testBit 63)
  | _ => false

/-- The image of a slice that a token carries to another core (R282). -/
def State.imageFor (s : State) (src dst : CoreId) (o : Operand) : List Byte :=
  if src ≠ dst ∧ kindForm o.kind = 1 then
    match sliceOf o.val with
    | some x => (s.core src).image x
    | none => []
  else []

/-- The record at a node starts an activation for its results (R166). -/
def State.startsCol (s : State) (c : CoreId) (node : Nat) : Bool :=
  let w := s.recordAt c node
  decide ((recOfWord w).tag.toNat = 4) && !([0x0A, 0x0E, 0xA9].contains (opcOfWord w).toNat)

/-- The item that brings a token to a place: the local path for what a firing sends to its own core with route class 0b01, the network
path within the die, the link engine to another die, and for a token that a `.col` record sends through a far destination (R27, R83,
R128, R166). -/
def State.itemTo (s : State) (src : CoreId) (node : Nat) (dst : BitVec 24) (reply : Bool) (tok : Token) (c : CoreId) : Item :=
  if c.dieId ≠ src.dieId ∨ (destClass dst = 3 ∧ s.startsCol src node = true) then .event (.linkTokenCrossing src node c tok) Site.zero
  else if destClass dst = 1 ∧ c = src ∧ reply = false then .event (.tokenArrival c .own tok) Site.zero
  else .event (.tokenArrival c .network tok) Site.zero

/-- A token on its way from a record to one of its destinations; `reply` marks a unit's reply, which takes the network path (R128), and
`holder` is the core whose lanes hold the slice that it describes (R282). -/
def State.tokenFrom (s : State) (holder src : CoreId) (node : Nat) (dst : BitVec 24) (reply : Bool) (t : Word) (o : Operand) :
    Option Item :=
  match s.leads src node dst with
  | none => none
  | some (c, n, p) => some (s.itemTo src node dst reply ⟨n, p, t, o, s.imageFor holder c o⟩ c)

/-- A token that a firing of a record sends on its way. -/
def State.tokenItem (s : State) (src : CoreId) (node : Nat) (dst : BitVec 24) (t : Word) (o : Operand) : Option Item :=
  s.tokenFrom src src node dst false t o

/-- A result discarded on a null destination, counted in `CORE.MSTAT.NULLS`, which stops at its top (R23, R146). -/
def State.countNull (s : State) (c : CoreId) : State :=
  s.modCore c fun k => { k with nulls := if k.nulls = 0xFFFFFFFF#32 then k.nulls else k.nulls + 1 }

/-! ## Releases (R347, R348) -/

/-- The instance of a scope that contains one core contains the other (R82, R340). -/
def covers (scope : Nat) (a b : CoreId) : Bool :=
  match scope with
  | 0 => decide (a = b)
  | 1 => decide (a = b)
  | 2 => decide (a.cluId = b.cluId)
  | 3 => decide (a.dieId = b.dieId)
  | 4 => decide (a.pkg = b.pkg)
  | _ => true

/-- The instance of a scope that contains one core contains the other, pod scope reaching no further than the coherence domain (R107, R340). -/
def State.covers (s : State) (scope : Nat) (a b : CoreId) : Bool :=
  Machine.covers scope a b && (decide (scope ≤ 4) || s.joined a.pkg b.pkg)

/-- The request returns data and writes nothing. -/
def MemOp.isRead : MemOp → Bool
  | .load => true
  | .loadVec _ _ _ => true
  | .gather _ _ => true
  | .mnop => true
  | .pattern _ _ _ => true
  | .restore _ => true
  | .table _ => true
  | _ => false

/-- An event that names a request of a core stands behind a release, so that the request has not left its unit (R348). -/
def Core.heldReq (k : Core) (id : Nat) : Bool :=
  k.rels.any fun x => x.held.any fun it => match it with
    | .event .writeAcknowledgement y => decide (y.n = id)
    | .event .loadReply y => decide (y.n = id)
    | _ => false

/-- The requests of a core that have not left its memory unit: withheld, behind their own release, or waiting in a wave instance
(R216, R233, R348). -/
def Core.staying (k : Core) : List MemReq :=
  (k.reqs.filter fun q => q.withheld || k.heldReq q.id) ++ k.waves.flatMap (·.waiting)

/-- What a release waits for among its core's requests (R347, R381): above core scope that every earlier write is answered, and where
`loads` asks the earlier reads that have left the unit. -/
def Core.relReqs (k : Core) (scope : Nat) (loads : Bool) : List Nat :=
  let away := k.staying.map (·.id)
  ((k.reqs ++ k.waves.flatMap (·.waiting)).filter fun q =>
    if q.op.isRead then loads && decide (q.id ∉ away) else decide (2 ≤ scope)).map (·.id)

/-- What a release at lane or core scope waits to see leave: every earlier request (R347). -/
def Core.relLeave (k : Core) (scope : Nat) : List Nat := if scope ≤ 1 then k.staying.map (·.id) else []

/-- A release by a core starts, and the items it holds leave when it completes (R347, R348). `none` as its scope makes no release: it waits
only for what `loads` asks (R381). -/
def State.openRelease (s : State) (c : CoreId) (colour : BitVec 9) (scope : Option Nat) (loads blocks : Bool)
    (tlc : Option (Nat × Nat)) (held : List Item) : State :=
  let (id, s) := s.fresh
  (s.modCore c fun k =>
    { k with rels := k.rels ++
        [{ id := id, colour := colour, scope := scope.getD 0, reqs := k.relReqs (scope.getD 0) loads,
           leave := (scope.map k.relLeave).getD [], probed := false, lines := [], blocks := blocks, tlc := tlc, held := held, kept := false }] }).laterAt
    .releaseComplete c id

/-- A release that covers writes alone and holds only what it names (R348). -/
def State.startRelease (s : State) (c : CoreId) (colour : BitVec 9) (scope : Nat) (blocks : Bool) (held : List Item) : State :=
  s.openRelease c colour (some scope) false blocks none held

/-- The scope of the release that goes before a region record's token to a place: the greater of the regions' scopes at its two ends; none
for a record of no region (R348, R350). -/
def State.scopeTo (s : State) (c : CoreId) (node : Nat) (to_ : Option (CoreId × Nat × Nat)) : Option Nat :=
  match Assoc.get? (s.core c).regions node with
  | none => none
  | some (_, sc) =>
    match to_ with
    | none => some sc
    | some (c', n, _) =>
      match Assoc.get? (s.core c').regions n with
      | some (_, sc') => some (max sc sc')
      | none => some sc

/-- The scope of the release that a region record's token to a destination carries; none for a local token (R348, R350). -/
def State.regionScope (s : State) (c : CoreId) (node : Nat) (dst : BitVec 24) : Option Nat :=
  if destClass dst ≤ 1 then none else s.scopeTo c node (s.leads c node dst)

/-- The scope of the release before a result: the record's own, if it makes one, widened to that of its region's tokens (R348). -/
def State.resultScope (s : State) (r : Rec) (scope : Option Nat) : Option Nat :=
  [r.dstA, r.dstB].foldl
    (fun m d => match s.regionScope s.cur.core s.cur.node d with | some x => some (max (m.getD 0) x) | none => m) scope

/-- A token's item sent, behind its region's release where it has one; a null destination is counted (R23, R348). -/
def State.sendItem (s : State) (c : CoreId) (node : Nat) (dst : BitVec 24) (t : Word) : Option Item → State
  | none => s.countNull c
  | some it =>
    match s.regionScope c node dst with
    | none => s.laterAll [it]
    | some sc => s.startRelease c (colourOf t) sc false [it]

/-- A token sent from a record of a core: discarded and counted on a null destination, held behind its region's release
where it has one (R23, R348). -/
def State.sendFrom (s : State) (c : CoreId) (node : Nat) (dst : BitVec 24) (t : Word) (o : Operand) : State :=
  s.sendItem c node dst t (s.tokenItem c node dst t o)

/-- A result that a unit returns for a record's firing: sent as its own tokens are, on the network path (R128). -/
def State.returnFrom (s : State) (c : CoreId) (node : Nat) (dst : BitVec 24) (t : Word) (o : Operand) : State :=
  s.sendItem c node dst t (s.tokenFrom c c node dst true t o)

/-- A reply of an engine or unit to a destination; nothing is sent or counted for a null one (R41, R42). -/
def State.replyFrom (s : State) (c : CoreId) (node : Nat) (dst : BitVec 24) (t : Word) (o : Operand) : State :=
  match s.tokenFrom c c node dst true t o with
  | none => s
  | some it => s.laterAll [it]

/-! ## Results of the firing that issues (R147, R151) -/

/-- The result token of a chain link: a control core's record of one input whose DSTA is on its own core and whose DSTB is
null, below 32 consecutive links (R147). -/
def State.chains (s : State) (r : Rec) (dst : BitVec 24) : Bool :=
  s.cur.core.isCtl && decide (r.ari.toNat = 1) && decide (destClass r.dstA = 1) && decide (destClass r.dstB = 0)
    && decide (destClass dst = 1) && decide (s.cur.link < 32)

/-- A token of the firing that issues sent to a destination of its record (R24, R147). -/
def State.emit (s : State) (r : Rec) (dst : BitVec 24) (t : Word) (o : Operand) : State :=
  if s.chains r dst then
    s.nextUp (.chainLink s.cur.core ⟨bitsOf dst.toNat 13 2, dst.toNat % 4, t, o, []⟩ (s.cur.link + 1))
  else s.sendFrom s.cur.core s.cur.node dst t o

/-- The result on destination A only (R151). -/
def State.emitA (s : State) (r : Rec) (t : Word) (o : Operand) : State := s.emit r r.dstA t o
/-- The result on destination B only. -/
def State.emitB (s : State) (r : Rec) (t : Word) (o : Operand) : State := s.emit r r.dstB t o
/-- The result on both destinations. -/
def State.out (s : State) (r : Rec) (t : Word) (o : Operand) : State := (s.emitA r t o).emitB r t o

/-! ## The checks of a firing (R92) -/

/-- TAGGET's LK is 0b01 for part 4 and 0b00 for the others; an LK of 0b11 is left to step 5 and an undefined part to step 4 (R76, R153,
R155). -/
def partLk (opc : Nat) (r : Rec) : Bool :=
  decide (opc ≠ 0x0C) || decide (r.lk.toNat = 3) || decide (4 < r.sub.toNat)
    || decide (decide (r.sub.toNat = 4) = decide (r.lk.toNat = 1))

/-- Step 3 of R92: ILLEGAL_RECORD. -/
def State.check3 (f : Form) (r : Rec) (s : State) : Bool :=
  decide (r.rsv = 0) && decide (r.tag.toNat ≤ 6) && !rmBad f.layout r.sub.toNat && !scopeBad f.layout r.sub.toNat
    && (decide (r.lk.toNat = 3) || decide ((r.ari.toNat, r.lk.toNat) ∈ f.combos))
    && (nullA f.opc || !s.destBad s.cur.core r.dstA) && (nullB f.opc || !s.destBad s.cur.core r.dstB)
    && (!startsAtA f.opc r.tag.toNat || destLocal r.dstA) && partLk f.opc r

/-- ACAS with `.x16` in its literal. -/
def x16Of (r : Rec) : Bool := decide (r.lk.toNat = 1) && r.lit.toNat.testBit 16

/-- Step 4: RESERVED_OPCODE (R92, R153); ACAS `.x16` defines TYP 0x3 and 0x7 alone (R394). -/
def check4 (f : Form) (r : Rec) : Bool :=
  f.sub r.sub.toNat r.typ.toNat && decide (r.typ.toNat ∈ f.typs) && decide (r.tag.toNat ∈ f.tags)
    && (decide (f.opc ≠ 0xA7) || !x16Of r || decide (r.typ.toNat = 3) || decide (r.typ.toNat = 7))

/-- Step 5: BAD_LITERAL_KIND (R78, R80, R92). -/
def State.check5 (r : Rec) (s : State) : Bool :=
  match r.lk.toNat with
  | 3 => false
  | 2 => (s.windowWord (litWindow r).1 (litWindow r).2).isSome
  | _ => true

/-- A SYSWR that R191 marks privileged: the masks, `CORE.WINGCFG`, and a write of `CORE.PHASE` that changes MODE. -/
def State.sysPriv (s : State) (r : Rec) : Bool :=
  let i := r.lit.toNat
  (decide (0x002 ≤ i) && decide (i ≤ 0x012))
    || (decide (i = 0x001) && decide (s.cur.op0.val.toNat / 2 % 2 ≠ (s.core s.cur.core).phase.toNat / 2 % 2))

/-- Step 6: PERMISSION (R91, R92, R191). -/
def State.check6 (f : Form) (r : Rec) (s : State) : Bool :=
  ((!f.priv && !(decide (f.opc = 0xF3) && s.sysPriv r)) || s.cur.core.isCtl) && (decide (f.opc ≠ 0xA9) || s.curAct.grant)

/-- Steps 3 to 6 of R92: the fault of the first that fails. -/
def State.check (f : Form) (r : Rec) (s : State) : Option Flt :=
  if !s.check3 f r then some { cause := .illegalRecord }
  else if !check4 f r then some { cause := .reservedOpcode }
  else if !s.check5 r then some { cause := .badLiteralKind, info := BitVec.ofNat 64 r.lit.toNat }
  else if !s.check6 f r then some { cause := .permission }
  else none

/-- A destination of a region record outside the release's scope instance (R351). A BNDRY is judged by its own SCOPE alone, as the worked
example of R351 shows; a destination that must be null is ignored (R155). -/
def State.channelBad (f : Form) (s : State) (r : Rec) : Option Flt :=
  match (if f.opc = 0x13 then [] else (if nullA f.opc then [] else [r.dstA]) ++ (if nullB f.opc then [] else [r.dstB])).find? fun d =>
    match s.regionScope s.cur.core s.cur.node d, s.leads s.cur.core s.cur.node d with
    | some sc, some (c, _, _) => !s.covers sc s.cur.core c
    | _, _ => false
  with
  | some d => some { cause := .scopeChannel, info := BitVec.ofNat 64 d.toNat }
  | none => none

/-- The literal values that the loader accepts and a firing refuses: the rows of OLDS and SMXI, the log of SPECBEG, the formats of QBLK
and DQBLK (R290, R291, R302, R315, R395). -/
def litRuns (opc lit : Nat) : Bool :=
  if opc = 0xB3 then decide (1 ≤ lit / 256) && decide (lit / 256 ≤ 256) && decide (lit % 256 + lit / 256 ≤ 256)
  else if opc = 0xC8 then decide (1 ≤ lit / 64) && decide (lit / 64 ≤ 64) && decide (lit % 64 + lit / 64 ≤ 64)
  else if opc = 0xA9 then decide (1 ≤ lit)
  else if opc = 0x74 ∨ opc = 0x75 then decide (11 ≤ lit) && decide (lit ≤ 14)
  else true

/-- Step 7's checks that every instruction shares: the literal's range, and the channel of a region record (R351; log 12). -/
def State.check7 (f : Form) (r : Rec) (s : State) : Option Flt :=
  if r.lk.toNat = 1 && !(f.lit r.lit.toNat && litRuns f.opc r.lit.toNat) then some { cause := .illegalRecord }
  else s.channelBad f r

/-- What a firing's own part gives: the state after its effect, or the fault that ends it (R92 step 7). -/
abbrev Eff := Except Flt State

/-- A firing whose instruction makes its own tags: the checks of R92 in order, then the effect. Every fault is precise: the
state is the one before the firing, with the record posted (R92, R401). -/
def fireRaw (f : Form) (r : Rec) (s : State) (eff : State → Eff) : Host.Outcome State Fault Refusal :=
  .next (match s.check f r with
    | some x => s.faultCur x
    | none =>
      match s.check7 f r with
      | some x => s.faultCur x
      | none =>
        match eff s with
        | .ok s' => s'
        | .error x => s.faultCur x)

/-- The result tag of a firing, by its record's tag operation (R31, R151); new colour starts an activation (R166), whose seed is drawn before
the firing's own draws (log 106). -/
def State.outTag (s : State) (r : Rec) : Except Flt (Word × State) :=
  if r.tag.toNat = 4 then
    match s.startChild .col false none s.curAct.spec none with
    | some (t, _, s') => .ok (t, s')
    | none => .error { cause := .colourExhausted }
  else
    match tagOp s.curAct.plan s.cur.tag r.tag.toNat s.cur.op0.val with
    | some t => .ok (t, s)
    | none => .error { cause := .tagOverflow }

/-- A firing of an instruction whose tokens go under its record's tag operation: the checks of R92 in order, the tag
operation, then the effect under the result tag. -/
def fire (f : Form) (r : Rec) (s : State) (eff : Word → State → Eff) : Host.Outcome State Fault Refusal :=
  fireRaw f r s fun s =>
    match s.outTag r with
    | .error x => .error x
    | .ok (t, s') => eff t s'

/-- The firing goes back to the head of its ready queue and issues again later: its unit cannot accept it (R144). -/
def State.retryIssue (s : State) : State :=
  (s.modCore s.cur.core fun k => { k with ready := s.cur :: k.ready }).issueLater s.cur.core

end Sys2Proof.Machine
end

