-- ==== Sys2Proof/Machine/Integer.lean ====
section
/-! DEFINITION. The integer and address instructions (R175 to R182). -/

namespace Sys2Proof.Machine

open Sys2Proof

/-! ## The operations on element bits (R50, R51, R176 to R180) -/

/-- An integer type of a TYP code: width and signedness (R47). -/
def intTy (typ : Nat) : Nat × Bool :=
  match elemTy typ with
  | .int w s => (w, s)
  | _ => (64, false)

/-- An operand read as an integer type (R48). -/
def asInt (typ x : Nat) : Int := readInt (intTy typ).1 (intTy typ).2 x

/-- An exact result wrapped, or clamped under `.sat` (R176). -/
def intRes (typ : Nat) (sat : Bool) (x : Int) : Nat × Flg := intResult (intTy typ).1 (intTy typ).2 sat x

/-- The quotient truncated toward zero; all ones with IDZ for a zero divisor (R51). -/
def divBits (typ : Nat) (sat : Bool) (a b : Nat) : Nat × Flg :=
  if asInt typ b = 0 then (2 ^ (intTy typ).1 - 1, fIDZ) else intRes typ sat ((asInt typ a).tdiv (asInt typ b))

/-- The remainder, with the dividend's sign; the dividend with IDZ for a zero divisor (R51). -/
def remBits (typ a b : Nat) : Nat × Flg :=
  if asInt typ b = 0 then (wrapBits (intTy typ).1 (asInt typ a), fIDZ)
  else intRes typ false ((asInt typ a).tmod (asInt typ b))

/-- SHL (R177). -/
def shlBits (typ : Nat) (sat : Bool) (a b : Nat) : Nat × Flg :=
  let w := (intTy typ).1
  let s := b % 2 ^ w
  if s < w then intRes typ sat (asInt typ a * (2 ^ s : Nat))
  else if sat && decide (asInt typ a ≠ 0) then intRes typ true (asInt typ a * (2 ^ (2 * w) : Nat))
  else (0, 0)

/-- SHR (R177). -/
def shrBits (typ a b : Nat) : Nat :=
  let w := (intTy typ).1
  if b % 2 ^ w < w then a % 2 ^ w / 2 ^ (b % 2 ^ w) else 0

/-- SAR (R177). -/
def sarBits (typ a b : Nat) : Nat :=
  let w := (intTy typ).1
  wrapBits w (asInt typ a / ((2 ^ min (b % 2 ^ w) w : Nat) : Int))

/-- ROTL (R177). -/
def rotlBits (typ a b : Nat) : Nat :=
  let w := (intTy typ).1
  let s := b % 2 ^ w % w
  a % 2 ^ w * 2 ^ s % 2 ^ w + a % 2 ^ w / 2 ^ (w - s)

/-- Leading zeros of the w-bit value; w for zero (R178). -/
def clzBits (w a : Nat) : Nat := if a % 2 ^ w = 0 then w else w - 1 - (a % 2 ^ w).log2

/-- Trailing zeros; w for zero (R178). -/
def ctzBits (w a : Nat) : Nat := (leastBelow w fun i => a.testBit i).getD w

/-- One bits (R178). -/
def popcBits (w a : Nat) : Nat := ((List.range w).filter fun i => a.testBit i).length

/-- The order of the w bits reversed (R178). -/
def brevBits (w a : Nat) : Nat := (List.range w).foldl (fun acc i => acc * 2 + b2n (a.testBit i)) 0

/-- The position and length of a control operand (R179). -/
def bitField (c : Word) : Nat × Nat := (c.toNat % 64, min (bitsOf c.toNat 14 8) 64)

/-- BEXT (R179). -/
def bextBits (typ a : Nat) (c : Word) : Nat :=
  let (pos, len) := bitField c
  let (w, sg) := intTy typ
  if len = 0 then 0
  else
    let x := wrapBits len (asInt typ a / ((2 ^ pos : Nat) : Int))
    wrapBits w (readInt len sg x)

/-- BINS (R179). -/
def binsBits (typ a b : Nat) (c : Word) : Nat :=
  let (pos, len) := bitField c
  let w := (intTy typ).1
  let lo := a % 2 ^ w % 2 ^ pos
  let hi := a % 2 ^ w / 2 ^ (pos + len) * 2 ^ (pos + len)
  (hi + wrapBits len (asInt typ b) * 2 ^ pos + lo) % 2 ^ w

/-- A condition of CMP (R180). -/
def cmpCond (cond : Nat) (a b : Int) : Bool :=
  match cond with
  | 0 => decide (a = b)
  | 1 => decide (a ≠ b)
  | 2 => decide (a < b)
  | 3 => decide (a ≤ b)
  | 4 => decide (b < a)
  | _ => decide (b ≤ a)

/-! ## The effect they share -/

/-- `.sat` of layout I (R81). -/
def satI (r : Rec) : Bool := r.sub.toNat.testBit 5

/-- An integer result of TYP sent to both destinations, its flags raised (R152, R176). -/
def intOut (r : Rec) (t : Word) (s : State) (x : Nat × Flg) : Eff :=
  .ok ((s.raise x.2).out r t (typedOp r.typ.toNat s.end0 x.1))

/-- An integer instruction of two operands. -/
def intBin (f : Form) (op : Nat → Nat → Nat × Flg) (r : Rec) (s : State) : Host.Outcome State Fault Refusal :=
  fire f r s fun t s => do
    s.scalars r
    intOut r t s (op (s.elem r 0) (s.elem r 1))

/-- An integer instruction of one operand. -/
def intUn (f : Form) (op : Nat → Nat × Flg) (r : Rec) (s : State) : Host.Outcome State Fault Refusal :=
  fire f r s fun t s => do
    s.scalars r
    intOut r t s (op (s.elem r 0))

/-- ADD: a + b. -/
def execAdd (r : Rec) (s : State) : Host.Outcome State Fault Refusal :=
  intBin Forms.add (fun a b => intRes r.typ.toNat (satI r) (asInt r.typ.toNat a + asInt r.typ.toNat b)) r s
/-- SUB: a − b. -/
def execSub (r : Rec) (s : State) : Host.Outcome State Fault Refusal :=
  intBin Forms.sub (fun a b => intRes r.typ.toNat (satI r) (asInt r.typ.toNat a - asInt r.typ.toNat b)) r s
/-- MUL: a × b. -/
def execMul (r : Rec) (s : State) : Host.Outcome State Fault Refusal :=
  intBin Forms.mul (fun a b => intRes r.typ.toNat (satI r) (asInt r.typ.toNat a * asInt r.typ.toNat b)) r s
/-- MULH: floor(a × b ÷ 2^w). -/
def execMulh (r : Rec) (s : State) : Host.Outcome State Fault Refusal :=
  intBin Forms.mulh
    (fun a b => intRes r.typ.toNat false
      (asInt r.typ.toNat a * asInt r.typ.toNat b / ((2 ^ (intTy r.typ.toNat).1 : Nat) : Int))) r s
/-- DIV: the quotient (R51). -/
def execDiv (r : Rec) (s : State) : Host.Outcome State Fault Refusal :=
  intBin Forms.div (fun a b => divBits r.typ.toNat (satI r) a b) r s
/-- REM: the remainder (R51). -/
def execRem (r : Rec) (s : State) : Host.Outcome State Fault Refusal :=
  intBin Forms.rem (fun a b => remBits r.typ.toNat a b) r s
/-- NEG: −a. -/
def execNeg (r : Rec) (s : State) : Host.Outcome State Fault Refusal :=
  intUn Forms.neg (fun a => intRes r.typ.toNat (satI r) (-(asInt r.typ.toNat a))) r s
/-- ABS: |a|. -/
def execAbs (r : Rec) (s : State) : Host.Outcome State Fault Refusal :=
  intUn Forms.abs (fun a => intRes r.typ.toNat (satI r) ((asInt r.typ.toNat a).natAbs : Int)) r s
/-- MIN: the smaller. -/
def execMin (r : Rec) (s : State) : Host.Outcome State Fault Refusal :=
  intBin Forms.min (fun a b => (if asInt r.typ.toNat a ≤ asInt r.typ.toNat b then a else b, 0)) r s
/-- MAX: the larger. -/
def execMax (r : Rec) (s : State) : Host.Outcome State Fault Refusal :=
  intBin Forms.max (fun a b => (if asInt r.typ.toNat b ≤ asInt r.typ.toNat a then a else b, 0)) r s
/-- AND: a AND b. -/
def execAnd (r : Rec) (s : State) : Host.Outcome State Fault Refusal :=
  intBin Forms.and (fun a b => (a &&& b, 0)) r s
/-- OR: a OR b. -/
def execOr (r : Rec) (s : State) : Host.Outcome State Fault Refusal :=
  intBin Forms.or (fun a b => (a ||| b, 0)) r s
/-- XOR: a XOR b. -/
def execXor (r : Rec) (s : State) : Host.Outcome State Fault Refusal :=
  intBin Forms.xor (fun a b => (a ^^^ b, 0)) r s
/-- ANDN: a AND NOT b. -/
def execAndn (r : Rec) (s : State) : Host.Outcome State Fault Refusal :=
  intBin Forms.andn (fun a b => (a &&& (2 ^ (intTy r.typ.toNat).1 - 1 - b), 0)) r s
/-- SHL (R177). -/
def execShl (r : Rec) (s : State) : Host.Outcome State Fault Refusal :=
  intBin Forms.shl (fun a b => shlBits r.typ.toNat (satI r) a b) r s
/-- SHR (R177). -/
def execShr (r : Rec) (s : State) : Host.Outcome State Fault Refusal :=
  intBin Forms.shr (fun a b => (shrBits r.typ.toNat a b, 0)) r s
/-- SAR (R177). -/
def execSar (r : Rec) (s : State) : Host.Outcome State Fault Refusal :=
  intBin Forms.sar (fun a b => (sarBits r.typ.toNat a b, 0)) r s
/-- ROTL (R177). -/
def execRotl (r : Rec) (s : State) : Host.Outcome State Fault Refusal :=
  intBin Forms.rotl (fun a b => (rotlBits r.typ.toNat a b, 0)) r s
/-- CLZ (R178). -/
def execClz (r : Rec) (s : State) : Host.Outcome State Fault Refusal :=
  intUn Forms.clz (fun a => (clzBits (intTy r.typ.toNat).1 a, 0)) r s
/-- CTZ (R178). -/
def execCtz (r : Rec) (s : State) : Host.Outcome State Fault Refusal :=
  intUn Forms.ctz (fun a => (ctzBits (intTy r.typ.toNat).1 a, 0)) r s
/-- POPC (R178). -/
def execPopc (r : Rec) (s : State) : Host.Outcome State Fault Refusal :=
  intUn Forms.popc (fun a => (popcBits (intTy r.typ.toNat).1 a, 0)) r s
/-- BREV (R178). -/
def execBrev (r : Rec) (s : State) : Host.Outcome State Fault Refusal :=
  intUn Forms.brev (fun a => (brevBits (intTy r.typ.toNat).1 a, 0)) r s
/-- BEXT: bits of a chosen by the 64-bit control operand b (R179). -/
def execBext (r : Rec) (s : State) : Host.Outcome State Fault Refusal :=
  fire Forms.bext r s fun t s => do
    s.scalars r
    intOut r t s (bextBits r.typ.toNat (s.elem r 0) (s.val r 1), 0)
/-- BINS: bits of a replaced by the low bits of b, chosen by the last operand (R179). -/
def execBins (r : Rec) (s : State) : Host.Outcome State Fault Refusal :=
  fire Forms.bins r s fun t s => do
    s.scalars r
    intOut r t s (binsBits r.typ.toNat (s.elem r 0) (s.elem r 1) (s.val r 2), 0)
/-- CMP: 1 when the condition holds, else 0 (R180). -/
def execCmp (r : Rec) (s : State) : Host.Outcome State Fault Refusal :=
  fire Forms.cmp r s fun t s => do
    s.scalars r
    let b := cmpCond r.sub.toNat (asInt r.typ.toNat (s.elem r 0)) (asInt r.typ.toNat (s.elem r 1))
    .ok (s.out r t ⟨BitVec.ofNat 64 (b2n b), mkKind 0 1 s.end0⟩)
/-- SEL: b when $0 is not zero in its 64 bits, else c (R180). -/
def execSel (r : Rec) (s : State) : Host.Outcome State Fault Refusal :=
  fire Forms.sel r s fun t s => do
    s.scalars r
    intOut r t s (if s.cur.op0.val ≠ 0 then s.elem r 1 else s.elem r 2, 0)
/-- MADD: a × b + c. -/
def execMadd (r : Rec) (s : State) : Host.Outcome State Fault Refusal :=
  fire Forms.madd r s fun t s => do
    s.scalars r
    intOut r t s
      (intRes r.typ.toNat (satI r)
        (asInt r.typ.toNat (s.elem r 0) * asInt r.typ.toNat (s.elem r 1) + asInt r.typ.toNat (s.elem r 2)))

/-- The scales of LEA (R181). -/
def leaScale (code : Nat) : Nat := if code ≤ 6 then 2 ^ code else if code = 7 then 48 else if code = 8 then 192 else 49152

/-- LEA: $0 + idx × scale + off modulo 2^64 (R181). -/
def execLea (r : Rec) (s : State) : Host.Outcome State Fault Refusal :=
  fire Forms.lea r s fun t s => do
    s.scalars r
    let off : Word := if r.lk.toNat = 0 then 0 else if r.lk.toNat = 1 then immSext r else s.literal r
    let a := s.cur.op0.val + BitVec.ofInt 64 (asInt r.typ.toNat (s.elem r 1) * (leaScale r.sub.toNat : Int)) + off
    .ok (s.out r t ⟨a, mkKind 0 (classOf r.typ.toNat) s.end0⟩)

/-- The units of LINE (R182). -/
def lineUnit (code : Nat) : Nat :=
  match code with
  | 0 => Config.lineBytes
  | 1 => Config.sectorBytes
  | 2 => Config.smallPage
  | 3 => Config.mediumPage
  | _ => Config.largePage

/-- LINE: the quotient by the unit to A, the remainder to B (R182). -/
def execLine (r : Rec) (s : State) : Host.Outcome State Fault Refusal :=
  fire Forms.line r s fun t s => do
    s.scalars r
    let x := s.cur.op0.val.toNat
    let u := lineUnit r.sub.toNat
    let k := mkKind 0 1 s.end0
    .ok ((s.emitA r t ⟨BitVec.ofNat 64 (x / u), k⟩).emitB r t ⟨BitVec.ofNat 64 (x % u), k⟩)

end Sys2Proof.Machine
end

