-- ==== Sys2Proof/Machine/Fetch.lean ====
section
/-! DEFINITION. What happens next: the passing of time, due timers, and the fetch of the record that the firing at the head of a
ready queue names (R143 to R145). -/

namespace Sys2Proof.Machine

open Sys2Proof

/-- The island of a core's cluster in its package (R19, R436). -/
def coreIsland (c : CoreId) : Nat := c.die * 8 + c.clu

/-- An island of a package. -/
def State.island (s : State) (p i : Nat) : Island := (s.pkg p).islands.getD i Island.reset

/-- Tenths of arithmetic cycles in a nanosecond at an operating point (R126). -/
def clockTenths (pt : Nat) : Nat := ([12, 11, 10, 9, 8, 6] : List Nat).getD pt 6

/-- The tenths of cycles an island has counted (R197). -/
def Island.tenths (x : Island) (now : Nat) : Nat := x.cycles + (if x.stopped then 0 else (now - x.since) * clockTenths x.clock)

/-- The arithmetic cycles of a core's island (R5, R197). -/
def State.coreCycles (s : State) (c : CoreId) : Nat := (s.island c.pkg (coreIsland c)).tenths s.now / 10

/-- An island changed. -/
def State.modIsland (s : State) (p i : Nat) (f : Island → Island) : State :=
  s.modPkg p fun x => { x with islands := setAt x.islands i (f (x.islands.getD i Island.reset)) }

/-- A counter of R435 raised, stopping at its maximum. -/
def satAdd (x : BitVec 64) (n : Nat) : BitVec 64 := BitVec.ofNat 64 (min (x.toNat + n) (2 ^ 64 - 1))

/-- Cycles spent DROWSY added to the island's counter (R435). -/
def State.countDrowsy (s : State) (c : CoreId) (n : Nat) : State :=
  s.modIsland c.pkg (coreIsland c) fun x => { x with drowsy := satAdd x.drowsy n }

/-- A wake of a core's router: in the decision cycle it abandons the decision; a later one wakes the router (R434). -/
def State.wakeRouter (s : State) (c : CoreId) : State :=
  let k := s.core c
  if k.routerDeciding then
    (s.setCore c { k with routerDeciding := false }).modIsland c.pkg (coreIsland c) fun x => { x with abandon := satAdd x.abandon 1 }
  else if k.router = .drowsy then (s.setCore c { k with router := .awake }).countDrowsy c (2 * (s.now - k.routerAt))
  else s

/-- A core whose clock runs: its island is not stopped, its package neither (R438), and it is not gated (R115). -/
def State.coreRuns (s : State) (c : CoreId) : Bool :=
  !(s.island c.pkg (coreIsland c)).stopped && !(s.pkg c.pkg).stopped && decide ((s.core c).power ≠ .gated)

/-- The poisoned sectors of memory once an uncorrectable error that cannot be rebuilt has shown in sectors of HBM4E (R227; log 96). -/
def State.marked (s : State) (secs : List Nat) : List Nat :=
  (secs.filter fun x => s.isHbm (x * 48)).foldl (fun ps x => if x ∈ ps then ps else x :: ps) s.poison

/-- Time passes before a step: as many nanoseconds as `elapse` lists, else one; and the errors that `errs` lists show. -/
def State.tick (s : State) : State :=
  { s with now := s.now + s.elapse.headD 1, elapse := s.elapse.tail, errs := s.errs.tail, poison := s.marked (s.errs.headD []) }

/-- The arithmetic cycles that a core counts: those of its island while the core was not gated (R197). -/
def State.ownCycles (s : State) (c : CoreId) : Nat :=
  let k := s.core c
  let n := (s.island c.pkg (coreIsland c)).tenths s.now
  ((if k.power = .gated then k.gateAt else n) - k.lost) / 10

/-! ## Islands that stand still (R19, R438) -/

/-- The island of a cluster. -/
def cluIsland (k : CoreId) : Option (Nat × Nat) := some (k.pkg, coreIsland k)
/-- The uncore island of a die: its slices, walkers and networks. -/
def dieIsland (d : DieId) : Option (Nat × Nat) := some (d.pkg, 32 + d.die)
/-- The junction island with a package's directory. -/
def dirIsland (p : Nat) : Option (Nat × Nat) := some (p, 36)
/-- The junction island with a package's link ports. -/
def linkIsland (p : Nat) : Option (Nat × Nat) := some (p, 37)

/-- The island, with its package, in which an event that names its party happens (R19). -/
def State.namedIsland (s : State) : Instr → Option (Nat × Nat)
  | .hostAccess p _ | .auditBeat p _ _ _ | .linkBeatCrcFail p _ _ => linkIsland p
  | .start c _ | .graphreg c _ | .replay c _ | .patch c _ | .graphdrop c _ | .taskgraphNodeDispatch c _ _ _ => cluIsland c
  | .tokenArrival c _ _ | .wingsHoldRelease c _ | .chainLink c _ _ | .waveAccessPerform c _ _ | .mmaxACopy c _ _ => cluIsland c
  | .linkTokenCrossing a _ b _ => if a.pkg = b.pkg then dieIsland a.dieId else linkIsland a.pkg
  | .engineInboxAccept e _ | .engineMessageComplete e _ | .copy e _ | .copyr e _ | .copyp e _ | .copypr e _ | .lcopy e _ => cluIsland e.at_
  | .copyPieceArrival x => dieIsland (dieOfPa x.pa)
  | .remoteAdvance k _ _ => cluIsland (cluCore0 k)
  | .sliceFillArrival d _ _ _ _ | .pageWalkComplete d _ | .purgeArriveDie _ d => dieIsland d
  | .gets x | .getx x | .upg x | .putm x _ _ _ => dirIsland (s.dirOf x.line)
  | .invalidation _ _ d _ => dieIsland d
  | .invalidationAck p _ _ _ => dirIsland p
  | .forward _ _ _ d _ => dieIsland d
  | .hbmBankTest d _ _ _ => some (d.pkg, 38 + d.die / 2)
  | .mirrorCloseRecord _ _ m _ _ _ _ => dirIsland m
  | _ => none

/-- The island of an event that reads its party from its site (R19). -/
def sitedIsland (c : CoreId) : Instr → Option (Nat × Nat)
  | .mergeWindowClose | .tlbEntryDrop | .grant | .putack | .promptRoutineEnd => dieIsland c.dieId
  | .done | .mirrorOpenAck | .mirrorOpenRecord | .recallWindow | .directoryWatchdog | .dirTakeover | .directoryRestore => dirIsland c.pkg
  | .channelClosing | .channelRetired => linkIsland c.pkg
  | .replayRelease | .install | .admission | .launchBlocking | .wingProbeReturn | .backlogRefill | .streamStart | .streamElement
  | .streamComplete | .loadReply | .releaseComplete | .writeAcknowledgement | .queryTokenStationArrival | .visitStart | .refillComplete
  | .evictionCopyComplete | .tokenReturn | .shardTableTurn | .matrixAccept | .matrixStart | .matrixOccupancyEnd | .matrixRetry
  | .matrixReply | .curtainClear | .fullSave | .saveWhole | .colourPurge | .purgeEnd | .retireDiscard | .completionTokenRetire
  | .coreDrowsy | .coreWake | .routerDrowsy | .routerWake | .powerGate => cluIsland c
  | _ => none

/-- The island in which a thing to happen happens; none for what firmware, the management port and the power manager do (R19). -/
def State.itemIsland (s : State) : Item → Option (Nat × Nat)
  | .issue c => cluIsland c
  | .event i x => match s.namedIsland i with
    | some y => some y
    | none => sitedIsland x.core i

/-- The package of an island is stopped under EVENT 4: what was to happen there is lost (R438). -/
def State.lostItem (s : State) (it : Item) : Bool :=
  match s.itemIsland it with
  | some (p, _) => (s.pkg p).stopped
  | none => false

/-- The island of a thing to happen stands still, or the core that is to issue is gated: it waits where it stands (R19, R115, R438). -/
def State.halted (s : State) (it : Item) : Bool :=
  match s.itemIsland it with
  | some (p, i) =>
    !(s.pkg p).stopped && ((s.island p i).stopped || (match it with
      | .issue c => decide ((s.core c).power = .gated)
      | _ => false))
  | none => false

/-- The first timer that is due, in an island that runs, and the others. -/
def State.dueTimer (s : State) : List Timer → Option (Timer × List Timer)
  | [] => none
  | t :: ts =>
    if t.due ≤ s.now ∧ !s.halted (.event t.instr t.site) then some (t, ts)
    else match State.dueTimer s ts with
      | some (x, rest) => some (x, t :: rest)
      | none => none

/-- The first thing to happen that its island lets happen, and the others in their order. -/
def State.nextItem (s : State) : List Item → Option (Item × List Item)
  | [] => none
  | it :: rest =>
    if s.halted it then (State.nextItem s rest).map fun x => (x.1, it :: x.2)
    else some (it, rest)

/-- The firing that runs a record placed for it: control core 0 of cluster 0, node 0, no operands, depth 0. -/
def placedFiring : Firing := ⟨⟨0, 0, 0, 192⟩, 0, 0, zeroOp, zeroOp, zeroOp, 0, 0⟩

/-- A record placed at node 0 of control core 0 with a firing of it at the head of that core's ready queue and its issue
next on the agenda; a timer that would be due waits its turn on the agenda. -/
def State.placeRecord (s : State) (w : BitVec 96) : State :=
  let c := placedFiring.core
  let now := s.now + s.elapse.headD 1
  let s := s.modCore c fun k =>
    { k with elem := Assoc.set k.elem placedFiring.node w, ready := placedFiring :: k.ready, power := .awake }
  let due := s.timers.filter fun t => decide (t.due ≤ now)
  { s with agenda := .issue c :: s.agenda ++ due.map (fun t => .event t.instr t.site),
           timers := s.timers.filter fun t => decide (now < t.due) }

end Sys2Proof.Machine
end

