-- ==== Sys2Proof/Machine/Matching.lean ====
section
/-! DEFINITION. Matching: the matching store and the wings (R131 to R140), completions, the ready queue and the backlog (R141 to
R143, R150), and how an arriving token meets its partners (R128, R129, R133, R170, R172). -/

namespace Sys2Proof.Machine

open Sys2Proof

/-! ## Sets and wings (R132, R134, R135) -/

/-- The set of a key (R132). -/
def setIndex (node : Nat) (tag : Word) : Nat :=
  let h := (List.range 7).foldl (fun h i => h ^^^ (tag.toNat / 2 ^ (10 * i) % 1024)) 0
  h ^^^ (node % 1024) ^^^ (node / 1024 * 256)

/-- The set of an entry. -/
def Entry.set_ (e : Entry) : Nat := setIndex e.node e.tag

/-- Wing ways per set (R134). -/
def Core.wps (k : Core) : Nat := bitsOf k.wingCfg.toNat 62 52
/-- The physical base of the wing area (R134). -/
def Core.wingBase (k : Core) : Nat := k.wingCfg.toNat % 2 ^ 52

/-- A counter of 32 bits that stops at its top (R146). -/
def satInc (x : BitVec 32) : BitVec 32 := if x = 0xFFFFFFFF#32 then x else x + 1

/-- A counter of R146 raised by n. -/
def satAdd32 (x : BitVec 32) (n : Nat) : BitVec 32 := BitVec.ofNat 32 (min (x.toNat + n) 0xFFFFFFFF)

/-- The number of valid wing entries of a set (R136). -/
def Core.wingCount (k : Core) (st : Nat) : Nat := (k.store.filter fun e => e.wing.isSome && decide (e.set_ = st)).length

/-- A way of a store set is free (R131). -/
def Core.wayFree (k : Core) (st : Nat) : Bool := decide ((k.store.filter fun e => e.wing.isNone && decide (e.set_ = st)).length < 8)

/-- The wing entry that R136 takes for a set: wing set s first, then upward. -/
def Core.freeWing (k : Core) (st : Nat) : Option Nat :=
  let used := k.store.filterMap (·.wing)
  ((List.range 1024).findSome? fun j =>
    (leastBelow k.wps fun w => decide ((st + j) % 1024 * k.wps + w ∉ used)).map fun w => (st + j) % 1024 * k.wps + w)

/-- An entry as its wing sector holds it, for a record of `ari` inputs (R135). A gate keeps next, base and its mask in VAL0 to VAL2, a held
request its operands (log 13). -/
def Entry.wingBytes (e : Entry) (ari : Nat) : List Byte :=
  let mk (st pm seq k0 k1 k2 v0 v1 v2 : Nat) : Nat :=
    putBits 1 383 + putBits st 381 + putBits pm 378 + putBits (e.node % 4096) 366 + putBits e.tag.toNat 302 + putBits seq 264
      + putBits k0 256 + putBits k1 248 + putBits k2 240 + putBits v0 176 + putBits v1 112 + putBits v2 48
  leBytes 48 <|
    match e.body with
    | .waiting pm a b c _ =>
      mk 1 pm.toNat 0 a.kind.toNat b.kind.toNat c.kind.toNat a.val.toNat b.val.toNat c.val.toNat
    | .complete f =>
      mk 2 (2 ^ ari - 1) f.seq.toNat f.op0.kind.toNat f.op1.kind.toNat f.op2.kind.toNat f.op0.val.toNat f.op1.val.toNat f.op2.val.toNat
    | .gate n b m _ _ => mk 1 0 0 0 0 0 (n % 2 ^ 64) (b % 2 ^ 64) m.toNat
    | .held _ _ a b => mk 1 0 0 a.kind.toNat b.kind.toNat 0 a.val.toNat b.val.toNat 0

/-- A wing sector written (R135). -/
def State.writeWing (s : State) (c : CoreId) (i : Nat) (bs : List Byte) : State :=
  s.sysWrite c.dieId ((s.core c).wingBase + 48 * i) bs

/-- The wing sector of an entry of a core, whose record says how many ports it fills (R135). -/
def State.wingImage (s : State) (c : CoreId) (e : Entry) : List Byte :=
  e.wingBytes (recOfWord (s.recordAt c e.node)).ari.toNat

/-- The entries held on a path, the oldest first (R140; log 81). -/
def Core.pathHold (k : Core) (p : Path) : List Entry :=
  match p with
  | .network => k.holdNet
  | .own => k.holdOwn
  | .wing => k.holdWing

/-- The core with the entries held on a path changed. -/
def Core.setHold (k : Core) (p : Path) (es : List Entry) : Core :=
  match p with
  | .network => { k with holdNet := es }
  | .own => { k with holdOwn := es }
  | .wing => { k with holdWing := es }

/-- Every entry held on a path. -/
def Core.holds (k : Core) : List Entry := k.holdNet ++ k.holdOwn ++ k.holdWing

/-- Every entry of a core: in the store, in the wings, held on a path. -/
def Core.entries (k : Core) : List Entry := k.store ++ k.holds

/-- A path is held from this cycle on, if it is not held already (R138, R140). -/
def State.holdStart (s : State) (c : CoreId) (p : Path) : State :=
  if (Assoc.get? (s.core c).holdAt p).isSome then s
  else s.modCore c fun k => { k with holdAt := k.holdAt ++ [(p, s.coreCycles c)] }

/-- A path is free again: `CORE.MSTAT.HOLD` takes the cycles it was held (R146; log 99). -/
def State.holdEnd (s : State) (c : CoreId) (p : Path) : State :=
  match Assoc.get? (s.core c).holdAt p with
  | none => s
  | some n =>
    s.modCore c fun k =>
      { k with hold := satAdd32 k.hold (s.coreCycles c - n), holdAt := k.holdAt.filter fun x => decide (x.1 ≠ p),
               waiting := k.waiting.filter fun x => decide (x.1 ≠ p) }

/-- An arrival waits on its path for a probe slot (R138). -/
def State.waitProbe (s : State) (c : CoreId) (p : Path) (t : Token) : State :=
  (s.holdStart c p).modCore c fun k => { k with waiting := Assoc.set k.waiting p t }

/-- A path on which nothing is held any more (R138, R140). -/
def State.pathFree (s : State) (c : CoreId) (p : Path) : State :=
  if !((s.core c).pathHold p).isEmpty || (Assoc.get? (s.core c).waiting p).isSome then s else s.holdEnd c p

/-- A path that accepts no arrival but the one that waits on it (R138, R140). -/
def Core.pathHeld (k : Core) (p : Path) (t : Token) : Bool :=
  !(k.pathHold p).isEmpty || (match Assoc.get? k.waiting p with | some x => decide (x ≠ t) | none => false)

/-- `CORE.MSTAT.HOLD` as it is read: with the cycles of the paths held now (R146; log 99). -/
def State.holdCount (s : State) (c : CoreId) : BitVec 32 :=
  satAdd32 (s.core c).hold (((s.core c).holdAt.map fun x => s.coreCycles c - x.2).sum)

/-- The activation of a tag is held by its curtain's full save (R410). -/
def State.heldTag (s : State) (c : CoreId) (t : Word) : Bool :=
  match s.actOf? c.dieId t with
  | some a => (s.act a).heldBy
  | none => false

/-- The WINGS_FULL record of a held entry (R140, R431). -/
def wingsFullRecord (c : CoreId) (e : Entry) (w : Nat) (time : Word) : List Word :=
  [faultWord0 6 0 0 false (colourOf e.tag).toNat e.node (coreField c) c.isCtl 0, e.tag, BitVec.ofNat 64 w, time]

/-- An entry placed where a way of its set is free, else in the wings; none where the whole area is full (R136). -/
def State.tryPlace (s : State) (c : CoreId) (e : Entry) : Option State :=
  let k := s.core c
  if k.wayFree e.set_ then some (s.setCore c { k with store := k.store ++ [{ e with wing := none }] })
  else match k.freeWing e.set_ with
    | some i =>
      some ((s.setCore c { k with store := k.store ++ [{ e with wing := some i }], spill := satInc k.spill }).writeWing c i (s.wingImage c e))
    | none => none

/-- An entry placed by R136; a whole area full does not keep it out (log 81). -/
def State.putEntryBack (s : State) (c : CoreId) (e : Entry) : State :=
  match s.tryPlace c e with
  | some s => s
  | none => s.modCore c fun k => { k with store := k.store ++ [{ e with wing := none }] }

/-- An entry placed by R136, or held on the path that brought it, with the hold's one record posted; where that path holds an entry
already, it stands behind it (R140; log 81). A full save ends the hold of its region's entries and takes them as they come (R140, R410). -/
def State.place (s : State) (c : CoreId) (p : Path) (e : Entry) : State :=
  match s.tryPlace c e with
  | some s => s
  | none =>
    if s.heldTag c e.tag then s.putEntryBack c e
    else
    let first := ((s.core c).pathHold p).isEmpty
    let s := (s.modCore c fun k => k.setHold p (k.pathHold p ++ [e])).holdStart c p
    if first then (s.board c.cluId 2 (wingsFullRecord c e (1024 * (s.core c).wps) (s.timeWord c.pkg 0))).1 else s

/-- The entries held on a core's paths try again, now that an entry has freed (R140). -/
def State.wakeHolds (s : State) (c : CoreId) : State :=
  [Path.network, .own, .wing].foldl
    (fun s p => if ((s.core c).pathHold p).isEmpty then s else s.later (.wingsHoldRelease c p)) s

/-- An entry that is held no longer: its path resumes once nothing else is held on it (R140). -/
def State.endHold (s : State) (c : CoreId) (e : Entry) : State :=
  [Path.network, .own, .wing].foldl
    (fun s p =>
      if e ∈ (s.core c).pathHold p then (s.modCore c fun k => k.setHold p ((k.pathHold p).erase e)).pathFree c p else s) s

/-- An entry freed, in the store, in the wings or where it is held (R133, R137, R140). -/
def State.freeEntry (s : State) (c : CoreId) (e : Entry) : State :=
  if e ∈ (s.core c).store then
    let s := s.modCore c fun k => { k with store := k.store.erase e }
    let s := match e.wing with
      | some i => s.writeWing c i (List.replicate 48 0)
      | none => s
    s.wakeHolds c
  else s.endHold c e

/-- An entry updated in place (R137). -/
def State.updateEntry (s : State) (c : CoreId) (e e' : Entry) : State :=
  let new (x : Entry) : Entry := if x = e then e' else x
  let s := s.modCore c fun k =>
    { k with store := k.store.map new, holdNet := k.holdNet.map new, holdOwn := k.holdOwn.map new, holdWing := k.holdWing.map new }
  match e.wing with
  | some i => s.writeWing c i (s.wingImage c e')
  | none => s

/-! ## Completions and the ready queue (R141 to R143, R150) -/

/-- The arrival paths in the order of R141's fourth key. -/
def Path.rank : Path → Nat
  | .network => 0
  | .own => 1
  | .wing => 2

/-- R141's order of the completions of one cycle: innermost field, node, full tag, path. -/
def State.compBefore (s : State) (c : CoreId) (x y : Path × Firing) : Bool :=
  let plan (f : Firing) : List Nat :=
    match s.actOf? c.dieId f.tag with
    | some a => (s.act a).plan
    | none => []
  let kx := [innerOf (plan x.2) x.2.tag, x.2.node, x.2.tag.toNat, Path.rank x.1]
  let ky := [innerOf (plan y.2) y.2.tag, y.2.node, y.2.tag.toNat, Path.rank y.1]
  decide (kx < ky)

/-- A completion inserted in order. -/
def insertBy {α : Type} (before : α → α → Bool) (x : α) : List α → List α
  | [] => [x]
  | y :: t => if before y x then y :: insertBy before x t else x :: y :: t

/-- A list in order. -/
def sortBy {α : Type} (before : α → α → Bool) : List α → List α
  | [] => []
  | x :: t => insertBy before x (sortBy before t)

/-- A firing that may not enter the ready queue now: its colour belongs to the phase other than CUR in phased mode (R150), or
a curtain holds its activation (R408, R410). -/
def State.barred (s : State) (c : CoreId) (tag : Word) : Bool :=
  let k := s.core c
  let col := (colourOf tag).toNat
  let other := if k.phase.toNat % 2 = 0 then k.phmask1 else k.phmask0
  (decide (k.phase.toNat / 2 % 2 = 1) && other.getLsbD col)
    || s.heldTag c tag

/-- The backlog: COMPLETE entries that may enter, those held on a path among them, oldest SEQ first (R142). -/
def State.backlog (s : State) (c : CoreId) : List (Entry × Firing) :=
  let k := s.core c
  let age (f : Firing) : Nat := (f.seq - k.nextSeq).toNat
  sortBy (fun x y => decide (age x.2 < age y.2))
    (k.entries.filterMap fun e =>
      match e.body with
      | .complete f => if s.barred c f.tag then none else some (e, f)
      | _ => none)

/-- Slots of the ready queue have freed: they are filled from the backlog, if any waits there (R142). -/
def State.refillSoon (s : State) (c : CoreId) : State := if (s.backlog c).isEmpty then s else s.laterAt .backlogRefill c 0

/-- The window word that a record reads when it issues, its literal or a RET's destination, passes through the constant cache (R80, R161). -/
def State.constRead (s : State) (w : BitVec 96) : State :=
  let r := recOfWord w
  if r.lk.toNat = 2 then
    let inner := if (opcOfWord w).toNat = 0x0B then innerOf s.curAct.plan s.cur.tag else 0
    match s.windowAt (litWindow r).1 ((litWindow r).2 + inner) with
    | some a => s.constFill a
    | none => s
  else s

/-- The instruction of the firing at the head of a core's ready queue, and the state with that firing issuing; none where no
firing waits there. Firings that a curtain holds have left the queue (R410). The slot that frees is filled by R142. -/
def State.fetch (s : State) (c : CoreId) : Option (Option Instr × State) :=
  match (s.core c).ready with
  | [] => none
  | f :: t =>
    let w := s.recordAt c f.node
    some (decodeWord w, ({ (s.modCore c (fun k => { k with ready := t })).refillSoon c with cur := f }).constRead w)

/-- A firing enters the ready queue (R142, R143). -/
def State.enqueue (s : State) (c : CoreId) (f : Firing) : State :=
  (s.modCore c fun k => { k with ready := k.ready ++ [f] }).issueLater c

/-- Free slots of the ready queue filled from the backlog, oldest first (R142). -/
def State.drainBacklog (s : State) (c : CoreId) : Nat → State
  | 0 => s
  | n + 1 =>
    if (s.core c).ready.length < 256 then
      match s.backlog c with
      | [] => s
      | (e, f) :: _ => State.drainBacklog ((s.freeEntry c e).enqueue c f) c n
    else s

/-- One completion of the cycle takes its SEQ and enters the queue, or joins the backlog as a COMPLETE entry (R141, R142). -/
def State.admitFiring (s : State) (c : CoreId) (x : Path × Firing) : State :=
  let k := s.core c
  let f := { x.2 with seq := k.nextSeq }
  let s := s.setCore c { k with nextSeq := k.nextSeq + 1 }
  if !s.barred c f.tag && decide (k.ready.length < 256) && (s.backlog c).isEmpty then s.enqueue c f
  else (s.modCore c fun k => { k with backlog := satInc k.backlog }).place c x.1 ⟨f.node, f.tag, .complete f, none⟩

/-- The cycle's end: the backlog fills free slots, then the cycle's completions enter in the order of R141 (R142). -/
def State.refill (s : State) (c : CoreId) : State :=
  let s := s.drainBacklog c 256
  let xs := sortBy (s.compBefore c) (s.core c).comps
  xs.foldl (fun s x => s.admitFiring c x) (s.modCore c fun k => { k with comps := [] })

/-- A path accepts one token in a cycle, so where it has completed a firing in the present one, the next cycle begins (R128, R141). -/
def State.newCycle (s : State) (c : CoreId) (p : Path) : State :=
  if (s.core c).comps.any fun x => decide (x.1 = p) then s.refill c else s

/-- A firing completes on a path in the present cycle (R141); a second completion on the path begins the next. -/
def State.complete (s : State) (c : CoreId) (p : Path) (f : Firing) : State :=
  let s := s.newCycle c p
  let first := (s.core c).comps.isEmpty
  let s := s.modCore c fun k => { k with comps := k.comps ++ [(p, f)] }
  if first then s.laterAt .backlogRefill c 0 else s

/-! ## Arrivals (R128, R129, R133) -/

/-- A firing of a node under a tag with three operand places. -/
def mkFiring (c : CoreId) (node : Nat) (tag : Word) (a b d : Operand) : Firing := ⟨c, node, tag, a, b, d, 0, 0⟩

/-- A fault of an arrival: the token is discarded (R92 steps 1 and 2, R133). -/
def State.faultArrival (s : State) (c : CoreId) (t : Token) : State :=
  s.fault c.cluId .arrival false c t.node t.tag { cause := .illegalRecord, info := t.opnd.val }

/-- The input that a port fills: the trigger port fills input ARI − 1 (R77). -/
def portOf (ari port : Nat) : Nat := if port = 3 then ari - 1 else port

/-- What a token brings to its input: a trigger brings zero (R77). -/
def brings (t : Token) : Operand := if t.port = 3 then zeroOp else t.opnd

/-- The operand places with one filled. -/
def fillOp (p : Nat) (o : Operand) (x : Operand × Operand × Operand) : Operand × Operand × Operand :=
  match p with
  | 0 => (o, x.2.1, x.2.2)
  | 1 => (x.1, o, x.2.2)
  | _ => (x.1, x.2.1, o)

/-- The operands and ports of a WAITING entry; none yet for a new one. -/
def Entry.waitingOps (e : Option Entry) : BitVec 3 × (Operand × Operand × Operand) × BitVec 8 :=
  match e with
  | some ⟨_, _, .waiting pm a b d fl, _⟩ => (pm, (a, b, d), fl)
  | _ => (0, (zeroOp, zeroOp, zeroOp), 0)

/-- A STEER counter moved one step toward the taken side (R148). -/
def stepCounter (x : BitVec 2) (taken : Bool) : BitVec 2 :=
  if taken then (if x = 3 then 3 else x + 1) else (if x = 0 then 0 else x - 1)

/-- A STEER on a control core whose data came by a chain before its control token is predicted; its counter moves when the
control token takes effect (R148). -/
def State.resolveSteer (s : State) (c : CoreId) (node : Nat) (predicted : Bool) (ctl : Operand) : State :=
  if predicted && c.isCtl then
    s.modCore c fun k =>
      { k with predict := Assoc.set k.predict (node % 1024)
                            (stepCounter (Assoc.getD k.predict (node % 1024) 2) (decide (ctl.val ≠ 0))) }
  else s

/-- An entry written for the first time, or updated (R133, R137). -/
def State.keepEntry (s : State) (c : CoreId) (p : Path) (old : Option Entry) (node : Nat) (tag : Word) (b : EntryBody) : State :=
  match old with
  | some e => s.updateEntry c e { e with body := b }
  | none => s.place c p ⟨node, tag, b, none⟩

/-- An entry freed, if there was one. -/
def State.dropEntry (s : State) (c : CoreId) (old : Option Entry) : State :=
  match old with
  | some e => s.freeEntry c e
  | none => s

/-- A second token for a filled port: discarded, counted, ILLEGAL_RECORD (R133). -/
def State.duplicate (s : State) (c : CoreId) (t : Token) : State :=
  (s.modCore c fun k => { k with dup := satInc k.dup }).faultArrival c t

/-- A token meets the entry of its key, if any, for a record of two or three inputs (R129, R133). `chained` marks a token that
came from a chain link (R148). -/
def State.meet (s : State) (c : CoreId) (p : Path) (opc ari : Nat) (t : Token) (old : Option Entry) (chained : Bool) : State :=
  let (pm, ops, fl) := Entry.waitingOps old
  let i := portOf ari t.port
  if pm.getLsbD i then s.duplicate c t
  else
    let pm' := pm ||| (1#3 <<< i)
    let ops' := fillOp i (brings t) ops
    if pm' = (BitVec.ofNat 3 (2 ^ ari - 1)) then
      let s := if opc = 0x04 ∧ i = 1 then s.resolveSteer c t.node (fl.getLsbD 0) (brings t) else s
      (s.dropEntry c old).complete c p (mkFiring c t.node t.tag ops'.1 ops'.2.1 ops'.2.2)
    else
      s.keepEntry c p old t.node t.tag
        (.waiting pm' ops'.1 ops'.2.1 ops'.2.2 (if chained && decide (opc = 0x04) && decide (i = 0) then fl ||| 1 else fl))

/-! ### Voting (R172) -/

/-- The `CORE.VSTAT` field of a copy raised, stopping at 0xFFFF (R172, R192). -/
def bumpVstat (v : Word) (copy : Nat) : Word :=
  let f := bitsOf v.toNat (16 * copy + 15) (16 * copy)
  if f = 65535 then v else v + BitVec.ofNat 64 (2 ^ (16 * copy))

/-- A copy that disagreed is recorded: its counter, and an event of kind CHORUS_DIFF that names node, tag and copy (R172,
R418). -/
def State.chorusDiff (s : State) (c : CoreId) (t : Token) (copy : Nat) : State :=
  let s := s.modCore c fun k => { k with vstat := bumpVstat k.vstat copy }
  (s.board c.cluId 2
    [faultWord0 2 0 0 false (colourOf t.tag).toNat t.node (coreField c) c.isCtl copy, t.tag, 0, s.timeWord c.pkg 0]).1

/-- One of three operands by port. -/
def pick3 (i : Nat) (x : Operand × Operand × Operand) : Operand :=
  match i with
  | 0 => x.1
  | 1 => x.2.1
  | _ => x.2.2

/-- A token meets the entry of a VOTE record (R172): bit 7 of the entry's flags says that a majority was sent. -/
def State.vote (s : State) (c : CoreId) (p : Path) (t : Token) (old : Option Entry) : State :=
  let (pm, ops, fl) := Entry.waitingOps old
  let i := portOf 3 t.port
  if pm.getLsbD i then s.duplicate c t
  else
    let o := (brings t)
    let pm' := pm ||| (1#3 <<< i)
    let ops' := fillOp i o ops
    let others := [0, 1, 2].filter fun j => pm.getLsbD j
    match others with
    | [] => s.keepEntry c p old t.node t.tag (.waiting pm' ops'.1 ops'.2.1 ops'.2.2 fl)
    | [j] =>
      if pick3 j ops = o then
        (s.keepEntry c p old t.node t.tag (.waiting pm' ops'.1 ops'.2.1 ops'.2.2 (fl ||| 128))).complete c p
          (mkFiring c t.node t.tag o zeroOp zeroOp)
      else s.keepEntry c p old t.node t.tag (.waiting pm' ops'.1 ops'.2.1 ops'.2.2 fl)
    | j :: k :: _ =>
      let s := s.dropEntry c old
      if fl.getLsbD 7 then (if pick3 j ops = o then s else s.chorusDiff c t i)
      else if pick3 j ops = o then
        (s.chorusDiff c t k).complete c p (mkFiring c t.node t.tag o zeroOp zeroOp)
      else if pick3 k ops = o then
        (s.chorusDiff c t j).complete c p (mkFiring c t.node t.tag o zeroOp zeroOp)
      else
        s.fault c.cluId .firing false c t.node t.tag
          { cause := .chorusSplit, info := ops'.1.val, aux := ops'.2.1.val.toNat % 2 ^ 32 }

/-! ### Combining (R170) -/

/-- FMIN and FMAX on the bits of a format (R185): the chosen operand's bits, −0 below +0, a NaN losing to a number, two NaNs
giving the canonical NaN; NV for a signalling NaN. -/
def fminmax (f : Fmt) (wantMax : Bool) (a b : Nat) : Nat × Flg :=
  let x := readFlt f a
  let y := readFlt f b
  let fl := snanFlag [x, y]
  if x.isNan ∧ y.isNan then (f.qnan, fl)
  else if x.isNan then (b, fl)
  else if y.isNan then (a, fl)
  else
    let c := if x.isZero ∧ y.isZero then (if x.neg? = y.neg? then 0 else if x.neg? then -1 else 1) else x.cmp y
    (if wantMax then (if 0 ≤ c then a else b) else (if c ≤ 0 then a else b), fl)

/-- One combination of CMB on element bits (R170). -/
def cmbOp (typ op a b : Nat) : Nat × Flg :=
  match elemTy typ with
  | .int w sg =>
    let x := readInt w sg a
    let y := readInt w sg b
    match op with
    | 0 => (wrapBits w (x + y), 0)
    | 1 => (if x ≤ y then a else b, 0)
    | 2 => (if y ≤ x then a else b, 0)
    | 3 => (a &&& b, 0)
    | 4 => (a ||| b, 0)
    | _ => (a ^^^ b, 0)
  | .flt f =>
    match op with
    | 0 =>
      let x := readFlt f a
      let y := readFlt f b
      let (v, fl) := Val.add false x y
      let (z, fl') := roundVal f 0 false 0 v
      (z, fl ||| fl' ||| snanFlag [x, y])
    | 1 => fminmax f false a b
    | _ => fminmax f true a b
  | .tern => (a, 0)

/-- A token meets the entry of a CMB record (R170): the running value in VAL0, the count in VAL1; the value is sent when the
count reaches the immediate. -/
def State.combine (s : State) (c : CoreId) (p : Path) (r : Rec) (t : Token) (old : Option Entry) : State :=
  let (_, ops, fl) := Entry.waitingOps old
  let o := (brings t)
  let typ := r.typ.toNat
  let w := typWidth typ
  let count := ops.2.1.val.toNat + 1
  let bad := decide (kindForm o.kind ≠ 0)
  let (v, raised) : Operand × Flg :=
    if old.isNone ∨ kindForm ops.1.kind ≠ 0 ∨ bad then (if old.isNone ∨ bad then o else ops.1, 0)
    else
      let (z, f) := cmbOp typ r.sub.toNat (ops.1.val.toNat % 2 ^ w) (o.val.toNat % 2 ^ w)
      (⟨holdScalar (elemTy typ) z, o.kind⟩, f)
  let s := match s.actOf? c.dieId t.tag with
    | some a => s.raiseIn a raised
    | none => s
  if r.lk.toNat ≠ 1 ∨ r.lit.toInt ≤ (count : Int) then (s.dropEntry c old).complete c p (mkFiring c t.node t.tag v zeroOp zeroOp)
  else s.keepEntry c p old t.node t.tag (.waiting 1 v ⟨BitVec.ofNat 64 count, 0⟩ zeroOp fl)

/-! ### The lookup (R133, R137, R138) -/

/-- The WAITING entry of a key in the store or held on a path, or in the wings (R131, R137; log 81). -/
def Core.findEntry (k : Core) (node : Nat) (tag : Word) (inWings : Bool) : Option Entry :=
  k.entries.find? fun e =>
    decide (e.node = node) && decide (e.tag = tag) && (decide (e.wing.isSome = inWings))
      && (match e.body with | .waiting _ _ _ _ _ => true | _ => false)

/-- A token takes effect on the entry found for its key (R129, R170, R172). -/
def State.takeEffect (s : State) (c : CoreId) (p : Path) (opc : Nat) (r : Rec) (t : Token) (old : Option Entry) (chained : Bool) :
    State :=
  if opc = 0x11 then s.combine c p r t old
  else if opc = 0x14 then s.vote c p t old
  else s.meet c p opc r.ari.toNat t old chained

/-- A token that passed the checks looks for its entry: in the store; behind an outstanding probe of its set it waits; on a
miss with wing entries of its set it probes, on one of 32 slots, or waits on its path (R137, R138). -/
def State.lookup (s : State) (c : CoreId) (p : Path) (opc : Nat) (r : Rec) (t : Token) (chained : Bool) : State :=
  let k := s.core c
  let st := setIndex t.node t.tag
  if k.probes.any fun x => decide (x.set_ = st) then s.setCore c { k with parked := k.parked ++ [(t, chained)] }
  else match k.findEntry t.node t.tag false with
    | some e => s.takeEffect c p opc r t (some e) chained
    | none =>
      if k.wingCount st = 0 then s.takeEffect c p opc r t none chained
      else match leastBelow 32 fun i => k.probes.all fun x => decide (x.slot ≠ i) with
        | some i =>
          (s.setCore c { k with probes := k.probes ++ [⟨i, st, .arrival t chained⟩], probe := satInc k.probe }).laterAt .wingProbeReturn c i
        | none => (s.waitProbe c p t).later (if chained then .chainLink c t 0 else .tokenArrival c p t)

/-- Checks 1 and 2 of R92 on an arriving token, then its way: a firing of one input completes at once, any other looks for
its entry (R128, R129). -/
def State.arrive (s : State) (c : CoreId) (p : Path) (t : Token) (chained : Bool) : State :=
  let w := s.recordAt c t.node
  let opc := (opcOfWord w).toNat
  let r := recOfWord w
  let ari := r.ari.toNat
  if (decodeWord w).isNone ∨ ari = 0 then s.faultArrival c t
  else if !(decide (t.port = 3) || decide (t.port < ari)) || decide (kindForm t.opnd.kind = 3) then s.faultArrival c t
  else if ari = 1 ∧ opc ≠ 0x11 ∧ opc ≠ 0x14 then s.complete c p (mkFiring c t.node t.tag (brings t) zeroOp zeroOp)
  else s.lookup c p opc r t chained

/-- The copied image of a slice descriptor written into the receiver's lanes before delivery (R282). -/
def State.deliverImage (s : State) (c : CoreId) (t : Token) : State :=
  if t.image.isEmpty then s
  else match sliceOf t.opnd.val with
    | some x => s.modCore c fun k => k.putImage x t.image
    | none => s

/-! ## The events of matching -/

/-- A tag whose activation is being purged: its tokens are discarded (R416). -/
def State.dying (s : State) (d : DieId) (t : Word) : Bool :=
  match s.actOf? d t with
  | some a => decide ((s.act a).life = .purging) && decide (d ∈ (s.act a).reached)
  | none => false

/-- TOKEN_ARRIVAL (R128): a token waits while its core does not run or its path is held (R138, R140); else it is accepted. A
DROWSY core wakes for it (R433), and so does a DROWSY router for one from the network, which abandons a decision to power down (R434). -/
def execTokenArrival (c : CoreId) (path : Path) (t : Token) (s : State) : Host.Outcome State Fault Refusal :=
  .next (
    if s.dying c.dieId t.tag then (if Assoc.get? (s.core c).waiting path = some t then s.holdEnd c path else s)
    else if !s.coreRuns c then s.later (.tokenArrival c path t)
    else if path = .network ∧ !(s.core c).routerDeciding ∧ (s.core c).router = .drowsy then
      (s.laterAt .routerWake c 0).later (.tokenArrival c path t)
    else
      let s := (if path = .network ∧ (s.core c).routerDeciding then s.wakeRouter c else s).newCycle c path
      if (s.core c).pathHeld path t then s.later (.tokenArrival c path t)
      else if (s.core c).power = .drowsy then (s.laterAt .coreWake c 0).later (.tokenArrival c path t)
      else ((s.holdEnd c path).deliverImage c t).arrive c path t false)

/-- The parked arrivals of a set take effect in order on the wing path, until one of them probes or that path is held (R138, R140). -/
def State.unpark (s : State) (c : CoreId) (st : Nat) : Nat → State
  | 0 => s
  | n + 1 =>
    let k := s.core c
    if (k.probes.any fun x => decide (x.set_ = st)) || !k.holdWing.isEmpty then s
    else match k.parked.find? fun t => decide (setIndex t.1.node t.1.tag = st) with
      | none => s
      | some t => State.unpark (((s.setCore c { k with parked := k.parked.erase t }).newCycle c .wing).arrive c .wing t.1 t.2) c st n

/-- The parked arrivals of every set take effect, as far as they can. -/
def State.unparkAll (s : State) (c : CoreId) : State :=
  ((s.core c).parked.map fun t => setIndex t.1.node t.1.tag).eraseDups.foldl (fun s st => s.unpark c st (s.core c).parked.length) s

/-- An arrival whose probe has returned takes effect on what the core holds of its key (R137). -/
def State.probeReturned (s : State) (c : CoreId) (t : Token) (chained : Bool) : State :=
  let k := s.core c
  let w := s.recordAt c t.node
  let old := match k.findEntry t.node t.tag true with
    | some e => some e
    | none => k.findEntry t.node t.tag false
  s.takeEffect c .wing (opcOfWord w).toNat (recOfWord w) t old chained

/-- WINGS_HOLD_RELEASE (R140): the oldest held entry is placed where an entry has freed; once none is held, its path resumes. -/
def execWingsHoldRelease (c : CoreId) (path : Path) (s : State) : Host.Outcome State Fault Refusal :=
  .next (
    match (s.core c).pathHold path with
    | [] => s
    | e :: es =>
      match s.tryPlace c e with
      | some s =>
        let s := (s.modCore c fun k => k.setHold path es).pathFree c path
        if es.isEmpty ∧ path = .wing then s.unparkAll c else s.wakeHolds c
      | none => s)

/-- CHAIN_LINK (R147): the successor's record is fetched; a record of one input issues next, ahead of the queue; any other
arrival meets its partners on the local path, once that path is free. The checks of arrival are made on it. -/
def execChainLink (c : CoreId) (t : Token) (n : Nat) (s : State) : Host.Outcome State Fault Refusal :=
  let w := s.recordAt c t.node
  let opc := (opcOfWord w).toNat
  .next (
    if s.dying c.dieId t.tag then (if Assoc.get? (s.core c).waiting .own = some t then s.holdEnd c .own else s)
    else if !s.coreRuns c then s.later (.chainLink c t n)
    else if (decodeWord w).isSome ∧ (recOfWord w).ari.toNat = 1 ∧ (t.port = 3 ∨ t.port = 0) ∧ kindForm t.opnd.kind ≠ 3 ∧ opc ≠ 0x11
        ∧ opc ≠ 0x14 ∧ !s.barred c t.tag then
      let s := s.modCore c fun k =>
        { k with ready := { mkFiring c t.node t.tag (brings t) zeroOp zeroOp with link := n } :: k.ready }
      { s with agenda := .issue c :: s.agenda }
    else
      let s := s.newCycle c .own
      if (s.core c).pathHeld .own t then s.later (.chainLink c t n)
      else (s.holdEnd c .own).arrive c .own t true)

/-- LINK_TOKEN_CROSSING (R27): the colour is replaced by the sender's colour-map entry for the destination die; to a die that
the map does not name the token is discarded with TRANSLATION, naming the sending node and tag. So is every token that a `.col` record
sends through a far destination, whichever die that names (R166). A token waits while no link joins the packages (R107). Between packages
that links of version 2.0 join it then travels with the generation under which it was routed, and one that arrives under an older
generation is refused with MAP_MOVED (R377 to R379). -/
def execLinkTokenCrossing (src : CoreId) (node : Nat) (dst : CoreId) (t : Token) (s : State) : Host.Outcome State Fault Refusal :=
  let info := BitVec.ofNat 64 (putBits 1 22 + putBits t.node 2 + t.port)
  .next (
    if s.site.flag ∧ olderGen (BitVec.ofNat 16 s.site.n) (s.pkg dst.pkg).podgen then
      s.fault src.cluId .engine false src node t.tag { cause := .mapMoved, info := info }
    else if !s.routed src.pkg dst.pkg then s.laterAll [.event (.linkTokenCrossing src node dst t) s.site]
    else match (match s.actOf? src.dieId t.tag with
      | some a => if dst.dieId = src.dieId then none else s.colourOn a dst.dieId
      | none => none) with
    | some col =>
      match (if s.site.flag then none else s.genTo src.pkg dst.pkg) with
      | some g => s.laterAt (.linkTokenCrossing src node dst t) src g.toNat 0 true
      | none => s.later (.tokenArrival dst .network { t with tag := mkTag col (depthOf t.tag) (stackOf t.tag) })
    | none => s.fault src.cluId .engine false src node t.tag { cause := .translation, info := info, detail := 0xFFF })

end Sys2Proof.Machine
end

