-- ==== Sys2Proof/Machine/Float.lean ====
section
/-! DEFINITION. The scalar float instructions (R183 to R188). -/

namespace Sys2Proof.Machine

open Sys2Proof

/-! ## The operations on element bits, one rounding each (R184, R188) -/

/-- Rounding of an instruction: mode, `.sat`, and the upper half of the draw that SR takes (R61 to R63). -/
structure Rnd where
  mode : Nat
  sat  : Bool
  draw : Nat
deriving DecidableEq, Repr

/-- An exact value with the flags so far, rounded once (R184). -/
def finish (f : Fmt) (m : Rnd) (x : Val × Flg) (ins : List Val) : Nat × Flg :=
  let (b, fl) := roundVal f m.mode m.sat m.draw x.1
  (b, x.2 ||| fl ||| snanFlag ins)

/-- a + b. -/
def faddBits (f : Fmt) (m : Rnd) (a b : Nat) : Nat × Flg :=
  finish f m (Val.add (decide (m.mode = 3)) (readFlt f a) (readFlt f b)) [readFlt f a, readFlt f b]
/-- a − b. -/
def fsubBits (f : Fmt) (m : Rnd) (a b : Nat) : Nat × Flg :=
  finish f m (Val.sub (decide (m.mode = 3)) (readFlt f a) (readFlt f b)) [readFlt f a, readFlt f b]
/-- a × b. -/
def fmulBits (f : Fmt) (m : Rnd) (a b : Nat) : Nat × Flg :=
  finish f m ((readFlt f a).mul (readFlt f b)) [readFlt f a, readFlt f b]
/-- a × b + c, with NV for 0 × ∞ whatever c is (R184). -/
def fmaBits (f : Fmt) (m : Rnd) (a b c : Nat) : Nat × Flg :=
  let (p, f1) := (readFlt f a).mul (readFlt f b)
  let (v, f2) := Val.add (decide (m.mode = 3)) p (readFlt f c)
  finish f m (v, f1 ||| f2) [readFlt f a, readFlt f b, readFlt f c]
/-- a ÷ b. -/
def fdivBits (f : Fmt) (m : Rnd) (a b : Nat) : Nat × Flg :=
  finish f m ((readFlt f a).div (readFlt f b)) [readFlt f a, readFlt f b]
/-- √a. -/
def fsqrtBits (f : Fmt) (m : Rnd) (a : Nat) : Nat × Flg := finish f m (readFlt f a).sqrt [readFlt f a]
/-- 1 ÷ a. -/
def frcpBits (f : Fmt) (m : Rnd) (a : Nat) : Nat × Flg := finish f m ((Val.ofInt 1).div (readFlt f a)) [readFlt f a]
/-- 1 ÷ √a. -/
def frsqBits (f : Fmt) (m : Rnd) (a : Nat) : Nat × Flg := finish f m (readFlt f a).rsqrt [readFlt f a]
/-- exp2_dev on the value widened to FP32, rounded to the format (R73, R188). -/
def fexp2Bits (f : Fmt) (m : Rnd) (a : Nat) : Nat × Flg :=
  let v := readFlt f a
  let (y, fl) := exp2Dev (roundVal fp32 0 false 0 v).1
  finish f m (readFlt fp32 y, fl) [v]
/-- log2 a (R188). -/
def flog2Bits (f : Fmt) (m : Rnd) (a : Nat) : Nat × Flg :=
  let v := readFlt f a
  match v with
  | .nan _ => finish f m (.nan false, 0) [v]
  | .inf n => finish f m (if n then (.nan false, fNV) else (.inf false, 0)) [v]
  | .fin n k e _ =>
    if k = 0 then finish f m (.inf true, fDZ) [v]
    else if n then finish f m (.nan false, fNV) [v]
    else finish f m (Val.log2 k e, 0) [v]
/-- a rounded to an integral value, its sign kept; NX where the value changes (R188). -/
def frndBits (f : Fmt) (m : Rnd) (a : Nat) : Nat × Flg :=
  let v := readFlt f a
  match v with
  | .nan s => (f.qnan, if s then fNV else 0)
  | .inf _ => (a % 2 ^ f.width, 0)
  | .fin n k e c =>
    let (x, exact) := roundInt m.mode m.draw (.fin n k e c)
    (f.signed n ((roundVal f 0 false 0 (.ofInt (x.natAbs : Int))).1), if exact then 0 else fNX)
/-- The conditions of FCMP (R186). -/
def fcmpBits (f : Fmt) (cond a b : Nat) : Bool × Flg :=
  let x := readFlt f a
  let y := readFlt f b
  let nan := x.isNan || y.isNan
  match cond with
  | 0 => (!nan && decide (x.cmp y = 0), snanFlag [x, y])
  | 1 => (!nan && decide (x.cmp y < 0), if nan then fNV else 0)
  | 2 => (!nan && decide (x.cmp y ≤ 0), if nan then fNV else 0)
  | _ => (nan, snanFlag [x, y])

/-! ## The effect they share -/

/-- The rounding of a record of layout F in its activation; under SR one draw is reserved (R61, R63, R81, R184). -/
def State.rounding (s : State) (r : Rec) : Rnd × State :=
  let mode := s.curAct.mode (r.sub.toNat / 8)
  let m : Rnd := ⟨mode, r.sub.toNat.testBit 2, drawHi s.curAct.rng 0⟩
  (m, if mode = 5 then s.reserve 1 else s)

/-- A float result of TYP sent to both destinations, its flags raised (R152). -/
def fltOut (r : Rec) (t : Word) (s : State) (x : Nat × Flg) : Eff :=
  .ok ((s.raise x.2).out r t (typedOp r.typ.toNat s.end0 x.1))

/-- A rounded float instruction of two operands. -/
def fltBin (f : Form) (op : Fmt → Rnd → Nat → Nat → Nat × Flg) (r : Rec) (s : State) : Host.Outcome State Fault Refusal :=
  fire f r s fun t s => do
    s.scalars r
    let a := s.elem r 0
    let b := s.elem r 1
    let (m, s) := s.rounding r
    fltOut r t s (op (fmtOf r.typ.toNat) m a b)

/-- A rounded float instruction of one operand. -/
def fltUn (f : Form) (op : Fmt → Rnd → Nat → Nat × Flg) (r : Rec) (s : State) : Host.Outcome State Fault Refusal :=
  fire f r s fun t s => do
    s.scalars r
    let a := s.elem r 0
    let (m, s) := s.rounding r
    fltOut r t s (op (fmtOf r.typ.toNat) m a)

/-- FADD. -/
def execFadd (r : Rec) (s : State) : Host.Outcome State Fault Refusal := fltBin Forms.fadd faddBits r s
/-- FSUB. -/
def execFsub (r : Rec) (s : State) : Host.Outcome State Fault Refusal := fltBin Forms.fsub fsubBits r s
/-- FMUL. -/
def execFmul (r : Rec) (s : State) : Host.Outcome State Fault Refusal := fltBin Forms.fmul fmulBits r s
/-- FMA. -/
def execFma (r : Rec) (s : State) : Host.Outcome State Fault Refusal :=
  fire Forms.fma r s fun t s => do
    s.scalars r
    let a := s.elem r 0
    let b := s.elem r 1
    let c := s.elem r 2
    let (m, s) := s.rounding r
    fltOut r t s (fmaBits (fmtOf r.typ.toNat) m a b c)
/-- FDIV. -/
def execFdiv (r : Rec) (s : State) : Host.Outcome State Fault Refusal := fltBin Forms.fdiv fdivBits r s
/-- FSQRT. -/
def execFsqrt (r : Rec) (s : State) : Host.Outcome State Fault Refusal := fltUn Forms.fsqrt fsqrtBits r s
/-- FMIN (R185). -/
def execFmin (r : Rec) (s : State) : Host.Outcome State Fault Refusal :=
  fire Forms.fmin r s fun t s => do
    s.scalars r
    fltOut r t s (fminmax (fmtOf r.typ.toNat) false (s.elem r 0) (s.elem r 1))
/-- FMAX (R185). -/
def execFmax (r : Rec) (s : State) : Host.Outcome State Fault Refusal :=
  fire Forms.fmax r s fun t s => do
    s.scalars r
    fltOut r t s (fminmax (fmtOf r.typ.toNat) true (s.elem r 0) (s.elem r 1))
/-- FABS clears the sign bit and raises nothing (R184). -/
def execFabs (r : Rec) (s : State) : Host.Outcome State Fault Refusal :=
  fire Forms.fabs r s fun t s => do
    s.scalars r
    fltOut r t s (s.elem r 0 % 2 ^ (fmtOf r.typ.toNat).mbits, 0)
/-- FNEG inverts the sign bit and raises nothing (R184). -/
def execFneg (r : Rec) (s : State) : Host.Outcome State Fault Refusal :=
  fire Forms.fneg r s fun t s => do
    s.scalars r
    fltOut r t s (s.elem r 0 ^^^ 2 ^ (fmtOf r.typ.toNat).mbits, 0)
/-- FCMP sends 1 when the condition holds, else 0 (R186). -/
def execFcmp (r : Rec) (s : State) : Host.Outcome State Fault Refusal :=
  fire Forms.fcmp r s fun t s => do
    s.scalars r
    let (b, fl) := fcmpBits (fmtOf r.typ.toNat) (r.sub.toNat % 4) (s.elem r 0) (s.elem r 1)
    .ok ((s.raise fl).out r t ⟨BitVec.ofNat 64 (b2n b), mkKind 0 1 s.end0⟩)

/-- A conversion that rounds: its result is a float, or it turns a float into an integer or ternary value (R63, R67). One
that does not takes no draw (log 34). -/
def convRounds (src dst : ElemTy) : Bool :=
  match dst with
  | .flt _ => true
  | _ => match src with
    | .flt _ => true
    | _ => false

/-- The value of equal types kept, but a NaN made canonical, with NV if it was signalling (R187). -/
def sameType (t : ElemTy) (x : Nat) : Nat × Flg :=
  match t with
  | .flt f => if (readFlt f x).isNan then (f.qnan, snanFlag [readFlt f x]) else (x, 0)
  | _ => (x, 0)

/-- FCVT converts to the type that the immediate names (R187). -/
def execFcvt (r : Rec) (s : State) : Host.Outcome State Fault Refusal :=
  fire Forms.fcvt r s fun t s => do
    s.scalars r
    let x := s.elem r 0
    let src := elemTy r.typ.toNat
    let dt := r.lit.toNat % 16
    let dst := elemTy dt
    if dt = r.typ.toNat then
      let (y, fl) := sameType src x
      .ok ((s.raise fl).out r t (typedOp dt s.end0 y))
    else
      let (m, s') := s.rounding r
      let s' := if convRounds src dst then s' else s
      let (y, fl, _) := convElem src dst m.mode m.sat m.draw x
      .ok ((s'.raise fl).out r t (typedOp dt s.end0 y))

/-- FRND (R188). -/
def execFrnd (r : Rec) (s : State) : Host.Outcome State Fault Refusal := fltUn Forms.frnd frndBits r s
/-- FEXP2 (R188). -/
def execFexp2 (r : Rec) (s : State) : Host.Outcome State Fault Refusal := fltUn Forms.fexp2 fexp2Bits r s
/-- FLOG2 (R188). -/
def execFlog2 (r : Rec) (s : State) : Host.Outcome State Fault Refusal := fltUn Forms.flog2 flog2Bits r s
/-- FRCP. -/
def execFrcp (r : Rec) (s : State) : Host.Outcome State Fault Refusal := fltUn Forms.frcp frcpBits r s
/-- FRSQ. -/
def execFrsq (r : Rec) (s : State) : Host.Outcome State Fault Refusal := fltUn Forms.frsq frsqBits r s

end Sys2Proof.Machine
end

