-- ==== Sys2Proof/Machine/Dataflow.lean ====
section
/-! DEFINITION. The dataflow and tag instructions (R155 to R174): routing, loops and their gates (R34 to R36, R158 to R160), calls
(R161, R162), tags (R163, R164), activations (R165 to R169), combining, boundaries, voting, draws, events. -/

namespace Sys2Proof.Machine

open Sys2Proof

/-- The kind of a result that is neither passed through nor arithmetic: scalar, unsigned or of TYP's class where TYP is not
0x0, END zero (R152). -/
def otherKind (typ : Nat) : BitVec 8 := mkKind 0 (if typ = 0 then 1 else classOf typ) 0

/-! ## Routing (R156, R157) -/

/-- SINK consumes its operands and sends nothing (R156). -/
def execSink (r : Rec) (s : State) : Host.Outcome State Fault Refusal :=
  fire Forms.sink r s fun _ s => do
    s.scalars r
    .ok s

/-- DUP sends $0 to both destinations (R156). -/
def execDup (r : Rec) (s : State) : Host.Outcome State Fault Refusal :=
  fire Forms.dup r s fun t s => .ok (s.out r t s.cur.op0)

/-- CONST sends its literal, typed by TYP (R156). -/
def execConst (r : Rec) (s : State) : Host.Outcome State Fault Refusal :=
  fire Forms.const r s fun t s => do
    s.scalars r
    .ok (s.out r t ⟨holdScalar (elemTy r.typ.toNat) (s.literal r).toNat, otherKind r.typ.toNat⟩)

/-- STEER sends $0 to A when $1 is not zero in all its 64 bits, to B when it is; the other side receives nothing (R157). -/
def execSteer (r : Rec) (s : State) : Host.Outcome State Fault Refusal :=
  fire Forms.steer r s fun t s =>
    .ok (if s.cur.op1.val ≠ 0 then s.emitA r t s.cur.op0 else s.emitB r t s.cur.op0)

/-- GATE waits for all its ports and sends $0 (R156). -/
def execGate (r : Rec) (s : State) : Host.Outcome State Fault Refusal :=
  fire Forms.gate r s fun t s => .ok (s.out r t s.cur.op0)

/-- DENDS sends $0 to A when bit j of its END is 1, else to B (R156). -/
def execDends (r : Rec) (s : State) : Host.Outcome State Fault Refusal :=
  fire Forms.dends r s fun t s =>
    .ok (if s.end0.testBit (r.sub.toNat % 4) then s.emitA r t s.cur.op0 else s.emitB r t s.cur.op0)

/-! ## Loop gates (R34, R35, R158 to R160) -/

/-- The entry of the gate of a LOOPIN node under an outer tag (R34). -/
def Core.gate (k : Core) (node : Nat) (u : Word) : Option Entry :=
  k.entries.find? fun e =>
    decide (e.node = node) && decide (e.tag = u) && (match e.body with | .gate _ _ _ _ _ => true | _ => false)

/-- The requests held at a gate, in holding order (R160). -/
def Core.heldAt (k : Core) (node : Nat) (u : Word) : List Entry :=
  let order (e : Entry) : Nat := match e.body with | .held o _ _ _ => o | _ => 0
  sortBy (fun x y => decide (order x < order y))
    (k.entries.filter fun e =>
      decide (e.node = node) && decide (e.tag = u) && (match e.body with | .held _ _ _ _ => true | _ => false))

/-- A gate's state (R34). -/
structure GateState where
  next   : Nat
  base   : Nat
  mask   : Word
  k      : Nat
  exited : Bool
deriving DecidableEq, Repr

/-- The state in a gate's entry; a new gate of limit k where there is none (R34). -/
def gateState (e : Option Entry) (k : Nat) : GateState :=
  match e with
  | some ⟨_, _, .gate n b m k x, _⟩ => ⟨n, b, m, k, x⟩
  | _ => ⟨0, 0, 0, k, false⟩

/-- The gate has room: the next iteration lies below base + k (R35). -/
def GateState.room (g : GateState) : Bool := decide (g.next < g.base + g.k)

/-- Base advances past every consecutively credited iteration (R35). -/
def GateState.advance : Nat → GateState → GateState
  | 0, g => g
  | n + 1, g => if g.mask.getLsbD 0 then GateState.advance n { g with base := g.base + 1, mask := g.mask >>> 1 } else g

/-- Iteration field f credited, in a field of w bits; none is LOOP_GATE (R35, R36). -/
def GateState.credit (g : GateState) (w f : Nat) : Option GateState :=
  match leastBelow g.k fun i => decide ((g.base + i) % 2 ^ w = f) with
  | none => none
  | some i =>
    if g.next ≤ g.base + i ∨ g.mask.getLsbD i then none
    else some (GateState.advance 64 { g with mask := g.mask ||| (1#64 <<< i) })

/-- A gate's state written into its entry: placed where there is none, updated, or freed once the loop has exited and every
admitted iteration is credited (R34, R160). -/
def State.putGate (s : State) (c : CoreId) (node : Nat) (u : Word) (g : GateState) : State :=
  let old := (s.core c).gate node u
  if g.exited ∧ g.base = g.next then s.dropEntry c old
  else s.keepEntry c .own old node u (.gate g.next g.base g.mask g.k g.exited)

/-- The gate of a tag is behind a curtain (R35, R407). -/
def State.curtained (s : State) (c : CoreId) (u : Word) : Bool :=
  match s.actOf? c.dieId u with
  | some a => (s.act a).curtain
  | none => false

/-- The tag plan of a tag's activation. -/
def State.planOf (s : State) (c : CoreId) (t : Word) : List Nat :=
  match s.actOf? c.dieId t with
  | some a => (s.act a).plan
  | none => []

/-- The tag of an admitted iteration: pushed, with the innermost field set (R159). -/
def admittedTag (plan : List Nat) (u : Word) (n : Nat) : Word :=
  match tagOp plan u 2 0 with
  | some t => setInner plan t n
  | none => u

/-- LOOPIN's limit at the LOOPIN record a node names. -/
def State.gateLimit (s : State) (c : CoreId) (node : Nat) : Nat := (recOfWord (s.recordAt c node)).lit.toNat

/-- The gate of a key as it stands; a new one where it has no entry (R34). -/
def State.gateNow (s : State) (c : CoreId) (node : Nat) (u : Word) : GateState :=
  gateState ((s.core c).gate node u) (s.gateLimit c node)

/-- The oldest held request admitted where there is room; its tokens go to the destinations of the record that made it (R159, R160). -/
def State.serveOne (s : State) (c : CoreId) (node : Nat) (u : Word) (g : GateState) : State × GateState :=
  if s.curtained c u || !g.room then (s, g)
  else match (s.core c).heldAt node u with
    | [] => (s, g)
    | e :: _ =>
      match e.body with
      | .held _ via a b =>
        let r := recOfWord (s.recordAt c via)
        let t := admittedTag (s.planOf c u) u g.next
        let s := s.freeEntry c e
        ((s.sendFrom c via r.dstA t a).sendFrom c via r.dstB t b, { g with next := g.next + 1 })
      | _ => (s, g)

/-- A gate that has room for a held request still admits it in a cycle to come: one in each cycle (R160; log 8). -/
def State.serveSoon (s : State) (c : CoreId) (node : Nat) (u : Word) : State :=
  if !s.curtained c u && (s.gateNow c node u).room && !((s.core c).heldAt node u).isEmpty then
    s.laterAt .backlogRefill c node u.toNat true
  else s

/-- A gate's state after an action on it, and what it still has to admit. -/
def State.endGate (s : State) (c : CoreId) (node : Nat) (u : Word) (g : GateState) : State := (s.putGate c node u g).serveSoon c node u

/-- A cycle of a gate: it admits its oldest held request (R160). A gate freed meanwhile is made anew, as R34 has it. -/
def State.serveGate (s : State) (c : CoreId) (node : Nat) (u : Word) : State :=
  if ((s.core c).heldAt node u).isEmpty then s
  else
    let (s, g) := s.serveOne c node u (s.gateNow c node u)
    s.endGate c node u g

/-- A request of the firing at a gate: admitted, or held behind earlier requests (R159, R160). -/
def State.request (s : State) (r : Rec) (node : Nat) (u : Word) (g : GateState) : State × GateState :=
  let c := s.cur.core
  let a := s.cur.op0
  let b := if r.ari.toNat = 2 then s.cur.op1 else s.cur.op0
  if !s.curtained c u && g.room && ((s.core c).heldAt node u).isEmpty then
    let t := admittedTag (s.planOf c u) u g.next
    ((s.emitA r t a).emitB r t b, { g with next := g.next + 1 })
  else
    let (n, s) := s.fresh
    (s.place c .own ⟨node, u, .held n s.cur.node a b, none⟩, g)

/-- A request that finds no gate makes it, where its limit fits the level it pushes; else LOOP_GATE (R34). -/
def State.gateFits (s : State) (c : CoreId) (node : Nat) (u : Word) : Bool :=
  ((s.core c).gate node u).isSome || decide (s.gateLimit c node ≤ 2 ^ levelWidth (s.planOf c u) (depthOf u + 1))

/-- What ITER, LOOPOUT and LOOPCR share: the index names a LOOPIN on this core, and the tag can be popped (R158). Answers the
LOOPIN's node, the outer tag, the field and its width. -/
def State.loopRef (s : State) (r : Rec) : Except Flt (Nat × Word × Nat × Nat) :=
  let plan := s.curAct.plan
  match tagOp plan s.cur.tag 3 0 with
  | none => .error { cause := .tagOverflow }
  | some u =>
    let node := r.lit.toNat
    if (opcOfWord (s.recordAt s.cur.core node)).toNat ≠ 0x06 then .error { cause := .illegalRecord }
    else .ok (node, u, innerOf plan s.cur.tag, levelWidth plan (depthOf s.cur.tag))

/-- A credit of the firing's iteration where asked for; LOOP_GATE names the field (R36). -/
def creditIf (ask : Bool) (g : GateState) (w f : Nat) : Except Flt GateState :=
  if ask then
    match g.credit w f with
    | some g => .ok g
    | none => .error { cause := .loopGate, info := BitVec.ofNat 64 f }
  else .ok g

/-- LOOPIN's action: an admission request under its own tag; the first creates the gate (R34, R159). -/
def State.loopinAct (r : Rec) (s : State) : Eff :=
  let c := s.cur.core
  let node := s.cur.node
  let u := s.cur.tag
  if !s.gateFits c node u then .error { cause := .loopGate }
  else
    let (s, g) := s.request r node u (s.gateNow c node u)
    .ok (s.endGate c node u g)

/-- ITER's action: with `.cr` it credits its own iteration, and the oldest held request has the room first; then it asks for the next (R159,
R160). -/
def State.iterAct (r : Rec) (s : State) : Eff := do
  let c := s.cur.core
  let (node, u, f, w) ← s.loopRef r
  let g ← creditIf (r.sub.toNat % 2 = 1) (s.gateNow c node u) w f
  if !s.gateFits c node u then .error { cause := .loopGate }
  else
    let (s, g) := s.serveOne c node u g
    let (s, g) := s.request r node u g
    .ok (s.endGate c node u g)

/-- LOOPOUT's action: with `.cr` it credits its iteration; it marks the gate exited and sends its values under the popped tag (R159). -/
def State.loopoutAct (r : Rec) (s : State) : Eff := do
  let c := s.cur.core
  let (node, u, f, w) ← s.loopRef r
  let g ← creditIf (r.sub.toNat % 2 = 1) (s.gateNow c node u) w f
  let (s, g) := s.serveOne c node u { g with exited := true }
  let s := (s.emitA r u s.cur.op0).emitB r u (if r.ari.toNat = 2 then s.cur.op1 else s.cur.op0)
  .ok (s.endGate c node u g)

/-- LOOPCR's action: it credits its iteration and sends $0 on, its tag unchanged (R159). -/
def State.loopcrAct (r : Rec) (s : State) : Eff := do
  let c := s.cur.core
  let (node, u, f, w) ← s.loopRef r
  let g ← creditIf true (s.gateNow c node u) w f
  let (s, g) := s.serveOne c node u g
  let s := s.out r s.cur.tag s.cur.op0
  .ok (s.endGate c node u g)

/-- The gate action of a firing by its opcode. -/
def State.gateAct (s : State) (opc : Nat) (r : Rec) : Eff :=
  match opc with
  | 0x06 => s.loopinAct r
  | 0x07 => s.iterAct r
  | 0x08 => s.loopoutAct r
  | _ => s.loopcrAct r

/-- A gate whose entry or held requests stand in the wings, or which an earlier action still probes for (R160). -/
def Core.gateFar (k : Core) (node : Nat) (u : Word) : Bool :=
  (k.store.any fun e => decide (e.node = node) && decide (e.tag = u) && e.wing.isSome
      && (match e.body with | .gate .. => true | .held .. => true | _ => false))
    || k.probes.any fun x => match x.what with
      | .gate n u' _ => decide (n = node) && decide (u' = u)
      | .arrival _ _ => false

/-- A gate action takes effect at once, or takes a probe slot and takes effect when the probe returns; with all 32 slots busy the firing
stays at the head of its queue (R160). -/
def State.atGate (s : State) (opc : Nat) (r : Rec) (node : Nat) (u : Word) : Eff :=
  let c := s.cur.core
  let k := s.core c
  if k.gateFar node u then
    match leastBelow 32 fun i => k.probes.all fun x => decide (x.slot ≠ i) with
    | some i =>
      .ok ((s.setCore c { k with probes := k.probes ++ [⟨i, setIndex node u, .gate node u s.cur⟩], probe := satInc k.probe }).laterAt
        .wingProbeReturn c i)
    | none => .ok s.retryIssue
  else s.gateAct opc r

/-- LOOPIN makes an admission request under its own tag, which it must be able to push (R158, R159). -/
def execLoopin (r : Rec) (s : State) : Host.Outcome State Fault Refusal :=
  fireRaw Forms.loopin r s fun s =>
    match tagOp s.curAct.plan s.cur.tag 2 0 with
    | none => .error { cause := .tagOverflow }
    | some _ => s.atGate 0x06 r s.cur.node s.cur.tag

/-- ITER credits its own iteration with `.cr`, then asks the gate of its popped tag to admit the next (R158, R159). -/
def execIter (r : Rec) (s : State) : Host.Outcome State Fault Refusal :=
  fireRaw Forms.iter r s fun s => do
    let (node, u, _, _) ← s.loopRef r
    s.atGate 0x07 r node u

/-- LOOPOUT credits its iteration with `.cr`, marks the gate exited and sends its values under the popped tag (R158, R159). -/
def execLoopout (r : Rec) (s : State) : Host.Outcome State Fault Refusal :=
  fireRaw Forms.loopout r s fun s => do
    let (node, u, _, _) ← s.loopRef r
    s.atGate 0x08 r node u

/-- LOOPCR credits its iteration and sends $0 on (R158, R159). -/
def execLoopcr (r : Rec) (s : State) : Host.Outcome State Fault Refusal :=
  fireRaw Forms.loopcr r s fun s => do
    let (node, u, _, _) ← s.loopRef r
    s.atGate 0x09 r node u

/-- What stands behind a probe takes effect: an arrival, or a gate action, whose fault is its firing's (R137, R160). -/
def State.probeEffect (s : State) (c : CoreId) (x : Parked) : State :=
  match x with
  | .arrival t ch => s.probeReturned c t ch
  | .gate _ _ f =>
    let s := { s with cur := f }
    let w := s.recordAt c f.node
    match s.gateAct (opcOfWord w).toNat (recOfWord w) with
    | .ok s => s
    | .error x => s.faultCur x

/-- The tag of what stands behind a probe. -/
def Parked.tag : Parked → Word
  | .arrival t _ => t.tag
  | .gate _ _ f => f.tag

/-- WING_PROBE_RETURN (R137, R160): what stood behind the probe takes effect on the wing path, unless that path is held (R140), then the
arrivals parked behind it. -/
def execWingProbeReturn (s : State) : Host.Outcome State Fault Refusal :=
  let c := s.site.core
  .next (
    match (s.core c).probes.find? fun x => decide (x.slot = s.site.n) with
    | none => s
    | some x =>
      let s := s.newCycle c .wing
      let k := s.core c
      if !s.coreRuns c || !k.holdWing.isEmpty then s.laterAt .wingProbeReturn c x.slot
      else
        let s := s.setCore c { k with probes := k.probes.erase x }
        let s := if s.dying c.dieId x.what.tag then s else s.probeEffect c x.what
        s.unpark c x.set_ k.parked.length)

/-- BACKLOG_REFILL (R142): the slots free at a cycle's start are filled; or a gate's cycle, in which it admits its oldest held request
(R160; log 8). -/
def execBacklogRefill (s : State) : Host.Outcome State Fault Refusal :=
  let x := s.site
  .next (if x.flag then s.serveGate x.core x.n (BitVec.ofNat 64 x.m) else s.refill x.core)

/-! ## Calls (R161, R162) -/

/-- CALL pushes a call-site field set to its immediate and sends $0 to both destinations (R161). -/
def execCall (r : Rec) (s : State) : Host.Outcome State Fault Refusal :=
  fireRaw Forms.call r s fun s =>
    let plan := s.curAct.plan
    match tagOp plan s.cur.tag 2 0 with
    | none => .error { cause := .tagOverflow }
    | some t =>
      .ok (s.out r (setInner plan t ((immSext r).toNat % 2 ^ levelWidth plan (depthOf t))) s.cur.op0)

/-- The destination B of a record that starts an activation, as its child's Parent keeps it; none for null (R162, R165). -/
def State.parentDest (s : State) (r : Rec) : Option Dest :=
  if destClass r.dstB = 0 then none else some ⟨s.cur.core, s.cur.node, r.dstB⟩

/-- The child's first token, to destination A under (new colour, depth 0); the child keeps A as its entry (R162, R165, R417). -/
def State.firstToken (s : State) (r : Rec) (t : Word) (id : Nat) (o : Operand) : State :=
  let s := s.modAct id fun a => { a with entry := ⟨s.cur.core, s.cur.node, r.dstA⟩ }
  s.sendFrom s.cur.core s.cur.node r.dstA t o

/-- Coloured CALL starts its callee as an activation; the return value comes later (R162). -/
def execCallCol (r : Rec) (s : State) : Host.Outcome State Fault Refusal :=
  fireRaw Forms.callCol r s fun s =>
    match s.startChild .call false (s.parentDest r) s.curAct.spec none with
    | none => .error { cause := .colourExhausted }
    | some (t, id, s) => .ok (s.firstToken r t id s.cur.op0)

/-- An activation ends: it is ENDING, with its result word, and its completion token will retire (R169, R426). -/
def State.endAct (s : State) (a : Nat) (w : Word) : State :=
  let s := s.modAct a fun x => { x with life := .ending, endWord := w }
  (s.laterAt .retireDiscard (s.act a).ctl a).laterAt .completionTokenRetire (s.act a).ctl a

/-- A coloured callee's return value: $0 under the caller's tag to the return destination of the caller's record, with the image of a slice
that this core holds, behind the release of RET's own region (R162, R282, R348). -/
def State.returnValue (s : State) (d : Dest) (t : Word) : State :=
  let c := s.cur.core
  match s.tokenFrom c d.core d.node d.dst (d.core ≠ c) t s.cur.op0 with
  | none => s.countNull c
  | some it =>
    match (if destClass d.dst ≤ 1 then none else s.scopeTo c s.cur.node (s.leads d.core d.node d.dst)) with
    | some sc => s.startRelease c (colourOf s.cur.tag) sc false [it]
    | none => s.laterAll [it]

/-- RET: at a depth above 0 it pops the field and sends $0 to the destination that its return table holds for it, under the
popped tag; at depth 0 of a coloured callee it returns to the caller and ends the callee, which then sends no completion
token; at depth 0 elsewhere TAG_OVERFLOW (R161, R162). -/
def execRet (r : Rec) (s : State) : Host.Outcome State Fault Refusal :=
  fireRaw Forms.ret r s fun s =>
    let plan := s.curAct.plan
    match tagOp plan s.cur.tag 3 0 with
    | none =>
      match s.curAct? with
      | some a =>
        if (s.act a).origin ≠ .call then .error { cause := .tagOverflow }
        else if (s.act a).life ≠ .live then .ok (s.countNull s.cur.core)
        else
          let s := match (s.act a).pdest with
            | some d => s.returnValue d (s.act a).ptag
            | none => s.countNull s.cur.core
          .ok ((s.modAct a fun x => { x with pdest := none }).endAct a s.cur.op0.val)
      | none => .error { cause := .tagOverflow }
    | some u =>
      match s.windowWord (litWindow r).1 ((litWindow r).2 + innerOf plan s.cur.tag) with
      | none => .error { cause := .badLiteralKind, info := BitVec.ofNat 64 r.lit.toNat }
      | some w =>
        let dst := BitVec.ofNat 24 w.toNat
        if 2 ^ 24 ≤ w.toNat ∨ s.destBad s.cur.core dst then .error { cause := .illegalRecord }
        else .ok (s.sendFrom s.cur.core s.cur.node dst u s.cur.op0)

/-! ## Tags (R163, R164) -/

/-- Field j of a tag; 0 when j is 0 or above the depth (R163). -/
def fieldOf (plan : List Nat) (t : Word) (j : Nat) : Nat :=
  if j = 0 ∨ depthOf t < j then 0
  else stackOf t / 2 ^ (((plan.take (depthOf t)).drop j).foldl (· + ·) 0) % 2 ^ levelWidth plan j

/-- TAGGET sends one part of its input tag; part 4 takes the level from the immediate, and no other part takes one (R163). -/
def execTagget (r : Rec) (s : State) : Host.Outcome State Fault Refusal :=
  fire Forms.tagget r s fun t s => do
    s.scalars r
    let plan := s.curAct.plan
    let u := s.cur.tag
    let v : Nat := match r.sub.toNat with
      | 0 => u.toNat
      | 1 => (colourOf u).toNat
      | 2 => depthOf u
      | 3 => innerOf plan u
      | _ => if 0 ≤ r.lit.toInt then fieldOf plan u r.lit.toNat else 0
    .ok (s.out r t (plainOp (BitVec.ofNat 64 v)))

/-- TAGSET sends $0 under tag $1 with the firing's own colour (R164). -/
def execTagset (r : Rec) (s : State) : Host.Outcome State Fault Refusal :=
  fire Forms.tagset r s fun _ s =>
    let u := mkTag (colourOf s.cur.tag) (depthOf s.cur.op1.val) (stackOf s.cur.op1.val)
    if tagOk s.curAct.plan u then .ok (s.out r u s.cur.op0) else .error { cause := .tagOverflow }

/-! ## Activations (R165 to R169) -/

/-- SPAWN starts a child activation at destination A; its completion token comes to B later (R165, R167). -/
def execSpawn (r : Rec) (s : State) : Host.Outcome State Fault Refusal :=
  fireRaw Forms.spawn r s fun s => do
    s.scalars r
    match s.startChild .spawn (r.sub.toNat % 2 = 1) (s.parentDest r) s.curAct.spec none with
    | none => .error { cause := .colourExhausted }
    | some (t, id, s) => .ok (s.firstToken r t id (plainOp s.cur.op0.val))

/-- A purge ordered at the admitting control core: a live activation is marked at once, so that its ENDG has no effect, and
COLOUR_PURGE follows; after an ENDG or an earlier purge it has no effect (R168, R415). -/
def State.orderPurge (s : State) (a : Nat) : State :=
  if (s.act a).life ≠ .live then s
  else (s.modAct a fun x => { x with life := .purging }).laterAt .colourPurge (s.act a).ctl a

/-- PURGE starts a colour purge of a live child of the firing's activation and sends 1; it sends 0 where the colour is free
or its ENDG came first; a live colour that is no such child faults PERMISSION (R168). -/
def execPurge (r : Rec) (s : State) : Host.Outcome State Fault Refusal :=
  fire Forms.purge r s fun t s => do
    s.scalars r
    match s.owner? s.cur.core.dieId (BitVec.ofNat 9 s.cur.op0.val.toNat) with
    | none => .ok (s.out r t (plainOp 0))
    | some a =>
      let x := s.act a
      if x.parent.isNone ∨ x.parent ≠ s.curAct? then .error { cause := .permission }
      else match x.life with
        | .ending => .ok (s.out r t (plainOp 0))
        | .purging => .ok (s.out r t (plainOp 1))
        | _ => .ok ((s.orderPurge a).out r t (plainOp 1))

/-- JOIN sends the completion token's value to A for status OK, else to B (R167). -/
def execJoin (r : Rec) (s : State) : Host.Outcome State Fault Refusal :=
  fire Forms.join r s fun t s => do
    s.scalars r
    let o := plainOp s.cur.op0.val
    .ok (if s.cur.op0.val.toNat % 256 = 0 then s.emitA r t o else s.emitB r t o)

/-- ENDG ends its activation with result word $0; a later ENDG of the colour is discarded and counted (R169). After a purge
that reached it first it has no effect (R168). -/
def execEndg (r : Rec) (s : State) : Host.Outcome State Fault Refusal :=
  fire Forms.endg r s fun _ s => do
    s.scalars r
    match s.curAct? with
    | none => .ok (s.countNull s.cur.core)
    | some a =>
      match (s.act a).life with
      | .live => .ok (s.endAct a s.cur.op0.val)
      | .ending => .ok (s.countNull s.cur.core)
      | _ => .ok s

/-! ## Combining, boundaries, voting, draws and events (R170 to R174) -/

/-- CMB sends the combined value once its count is reached (R170). -/
def execCmb (r : Rec) (s : State) : Host.Outcome State Fault Refusal :=
  fire Forms.cmb r s fun t s => do
    s.scalars r
    .ok (s.out r t ⟨holdScalar (elemTy r.typ.toNat) s.cur.op0.val.toNat, otherKind r.typ.toNat⟩)

/-- A destination outside the instance of a scope (R351). -/
def State.outOfScope (s : State) (scope : Nat) (ds : List (BitVec 24)) : Option (BitVec 24) :=
  ds.find? fun d =>
    match s.leads s.cur.core s.cur.node d with
    | some (c, _, _) => !s.covers scope s.cur.core c
    | none => false

/-- Result tokens that a release holds back: the items of those with a destination; a null one is counted at once. `reply` marks those of a
unit (R128). -/
def State.heldTokens (s : State) (r : Rec) (t : Word) (o : Operand) (reply : Bool := false) : List Item × State :=
  [r.dstA, r.dstB].foldl
    (fun x d =>
      match x.2.tokenFrom x.2.cur.core x.2.cur.core x.2.cur.node d reply t o with
      | some it => (x.1 ++ [it], x.2)
      | none => (x.1, x.2.countNull x.2.cur.core)) ([], s)

/-- BNDRY performs a release at SCOPE and sends $0 once it has completed; a destination outside the scope instance faults
SCOPE_CHANNEL (R171, R348, R351). -/
def execBndry (r : Rec) (s : State) : Host.Outcome State Fault Refusal :=
  fire Forms.bndry r s fun t s =>
    let scope := r.sub.toNat / 8
    match s.outOfScope scope [r.dstA, r.dstB] with
    | some d => .error { cause := .scopeChannel, info := BitVec.ofNat 64 d.toNat }
    | none =>
      let (held, s) := s.heldTokens r t s.cur.op0
      .ok (s.startRelease s.cur.core (colourOf t) scope false held)

/-- VOTE sends the majority of its three copies (R172). -/
def execVote (r : Rec) (s : State) : Host.Outcome State Fault Refusal :=
  fire Forms.vote r s fun t s => .ok (s.out r t s.cur.op0)

/-- RNG reserves one draw and sends it raw, or as an FP32 value in [0, 1) (R173). -/
def execRng (r : Rec) (s : State) : Host.Outcome State Fault Refusal :=
  fire Forms.rng r s fun t s => do
    s.scalars r
    let d := mix (s.curAct.rng + 1)
    let s := s.reserve 1
    if r.sub.toNat % 8 = 0 then .ok (s.out r t ⟨d, otherKind 7⟩)
    else
      let bits := (roundVal fp32 0 false 0 (.fin false (d.toNat / 2 ^ 40) (-24) false)).1
      .ok (s.out r t ⟨BitVec.ofNat 64 bits, otherKind 8⟩)

/-- EVPOST posts a USER record to a queue of its cluster and sends 0, or 1 where the queue is full (R174, R431). -/
def execEvpost (r : Rec) (s : State) : Host.Outcome State Fault Refusal :=
  fire Forms.evpost r s fun t s => do
    s.scalars r
    let c := s.cur.core
    let w0 := BitVec.ofNat 64
      (putBits 7 56 + putBits (r.lit.toNat % 65536) 40 + putBits (s.cur.node % 4096) 24 + putBits (coreField c) 16
        + putBits (b2n c.isCtl) 15 + (colourOf s.cur.tag).toNat)
    let (s, ok) := s.board c.cluId (r.sub.toNat % 4) [w0, s.cur.tag, s.cur.op0.val, s.cur.op1.val]
    .ok (s.out r t (plainOp (if ok then 0 else 1)))

end Sys2Proof.Machine
end

