-- ==== Sys2Proof/Machine/Timeline.lean ====
section
/-! DEFINITION. Timeline counters (R43, R352, R382 to R385): numbers taken and completed, held waits, armed sends. -/

namespace Sys2Proof.Machine

open Sys2Proof

/-- Both results of a held request sent, from the record that asked. -/
def State.replyBoth (s : State) (x : ReplyTo) (a b : Operand) : State :=
  (s.returnFrom x.core x.node x.dstA x.tag a).returnFrom x.core x.node x.dstB x.tag b

/-- Who asks: the firing that issues, under a result tag. -/
def State.asker (s : State) (r : Rec) (t : Word) : ReplyTo := ⟨s.cur.core, s.cur.node, t, r.dstA, r.dstB⟩

/-- A counter of a colour in a cluster; both its values zero where nothing took a number (R382). -/
def State.counter (s : State) (k : CluId) (col : BitVec 9) (c : Nat) : Counter :=
  Assoc.getD (s.cluster k).ctrs (col, c) ⟨0, 0, []⟩

/-- A counter replaced. -/
def State.setCounter (s : State) (k : CluId) (col : BitVec 9) (c : Nat) (x : Counter) : State :=
  s.modCluster k fun y => { y with ctrs := Assoc.set y.ctrs (col, c) x }

/-- The next number of a counter taken (R43, R382). -/
def State.takeNumber (s : State) (k : CluId) (col : BitVec 9) (c : Nat) : Nat × State :=
  let x := s.counter k col c
  (x.taken + 1, s.setCounter k col c { x with taken := x.taken + 1 })

/-- DONE raised over the numbers that follow it and have completed (R382). -/
def Counter.settle : Nat → Counter → Counter
  | 0, x => x
  | n + 1, x =>
    if x.doneN + 1 ∈ x.ahead then
      Counter.settle n { x with doneN := x.doneN + 1, ahead := x.ahead.filter fun y => decide (y ≠ x.doneN + 1) }
    else x

/-- An active message on its way to an engine of a cluster. -/
def clusterEngine (kind : EngineKind) (k : CluId) : EngineId := ⟨kind, cluCore0 k⟩

/-- A triggered send leaves for its engine's inbox (R385). -/
def State.sendArmed (s : State) (k : CluId) (x : Armed) : State :=
  s.later (.engineInboxAccept (clusterEngine x.engine k) x.msg)

/-- The first of the unit's 256 held waits that its counter's DONE satisfies (R384). -/
def State.readyWait (s : State) (k : CluId) : Option Wait :=
  ((s.cluster k).waits.take 256).find? fun w => decide (w.thr ≤ (s.counter k w.colour w.ctr).doneN)

/-- Held waits that are satisfied reply; those beyond 256 stood on the network and enter as places free (R384). -/
def State.wakeWaits (s : State) (k : CluId) : Nat → State
  | 0 => s
  | n + 1 =>
    match s.readyWait k with
    | none => s
    | some w =>
      let v := plainOp (BitVec.ofNat 64 (s.counter k w.colour w.ctr).doneN)
      State.wakeWaits ((s.modCluster k fun y => { y with waits := y.waits.erase w }).replyBoth w.who v v) k n

/-- Held waits reply, and armed sends fire in the order they were armed, once their counters reach their thresholds (R384,
R385). -/
def State.wakeTimeline (s : State) (k : CluId) : State :=
  let s := s.wakeWaits k (s.cluster k).waits.length
  let fire (a : Armed) : Bool := decide (a.thr ≤ (s.counter k a.colour a.ctr).doneN)
  let xs := (s.cluster k).armed.filter fire
  xs.foldl (fun s a => s.sendArmed k a) (s.modCluster k fun y => { y with armed := y.armed.filter fun a => !fire a })

/-- A number of a counter completes (R43, R382). -/
def State.completeNumber (s : State) (k : CluId) (col : BitVec 9) (c n : Nat) : State :=
  let x := s.counter k col c
  let x := { x with ahead := x.ahead ++ [n] }
  (s.setCounter k col c (Counter.settle x.ahead.length x)).wakeTimeline k

/-- REMOTE_ADVANCE (R387): an advance takes its number and completes it in the cycle it arrives. An advance for a colour that is
no longer live on the die has no counter to act on. -/
def execRemoteAdvance (k : CluId) (colour : BitVec 9) (ctr : Nat) (s : State) : Host.Outcome State Fault Refusal :=
  .next (
    match s.owner? k.dieId colour with
    | none => s
    | some _ =>
      let (n, s) := s.takeNumber k colour ctr
      s.completeNumber k colour ctr n)

end Sys2Proof.Machine
end

