-- ==== Sys2Proof/Machine/MemUnit.lean ====
section
/-! DEFINITION. The memory unit of a core: addresses and their checks (R229 to R231, R449), the fault modes (R215, R216), wave order
(R232 to R234), requests and how each is performed (R235, R342, R355, R39), releases (R347, R381), merge windows (R209). -/

namespace Sys2Proof.Machine

open Sys2Proof

/-! ## Addresses (R229, R231) -/

/-- A wave annotation word is valid (R231). -/
def waveOk (w : Nat) : Bool :=
  let pred := bitsOf w 23 16
  let own := bitsOf w 15 8
  let succ := bitsOf w 7 0
  decide (1 ≤ own) && decide (own ≤ 63) && (decide (pred = 0xFF) || decide (pred < own)) && (decide (succ = 0xFF) || decide (own < succ))

/-- The displacement of a record and its wave annotation, as region, PRED, OWN, SUCC; an invalid word is ILLEGAL_RECORD (R229,
R231). -/
def State.displacement (s : State) (r : Rec) : Except Flt (Word × Option (Nat × Nat × Nat × Nat)) :=
  match r.lk.toNat with
  | 1 => .ok (immSext r, none)
  | 2 =>
    let w := s.literal r
    if waveOk w.toNat then
      .ok ((w.extractLsb' 32 32).signExtend 64,
        some (bitsOf w.toNat 31 24, bitsOf w.toNat 23 16, bitsOf w.toNat 15 8, bitsOf w.toNat 7 0))
    else .error { cause := .illegalRecord }
  | _ => .ok (0, none)

/-- TRANSLATION of an address for which no walk is made (R402). -/
def addrFault (a : Word) : Flt := { cause := .translation, info := a, detail := 0xFFF }

/-- The virtual address of an operand plus a displacement, or TRANSLATION (R229). -/
def vaAt (base disp : Word) : Except Flt Nat :=
  match vaOf base disp with
  | some va => .ok va
  | none => .error (addrFault (base + disp))

/-- The offset that alignment is taken of: within its level for a near address (log 36). -/
def alignBase (va : Nat) : Nat := if isNear va then nearOff va else va

/-- Check 2 of R230 for an access of n bytes: a near range that R201 refuses, or the near end of a range that begins far (R238). -/
def checkNear (c : CoreId) (va n : Nat) : Except Flt Unit :=
  if isNear va then (if (nearKey c va n).isNone then .error (addrFault (BitVec.ofNat 64 va)) else .ok ())
  else if farLen va n < n ∧ (nearKey c nearFrom (n - farLen va n)).isNone then .error (addrFault (BitVec.ofNat 64 nearFrom))
  else .ok ()

/-- ALIGNMENT unless the address is a multiple of m (R230 check 3). -/
def checkMultiple (va m : Nat) : Except Flt Unit :=
  if alignBase va % m = 0 then .ok () else .error { cause := .alignment, info := BitVec.ofNat 64 va }

/-- ALIGNMENT where an access of n bytes crosses a line (R204). -/
def checkLine (va n : Nat) : Except Flt Unit :=
  if alignBase va / 192 = (alignBase va + (n - 1)) / 192 then .ok () else .error { cause := .alignment, info := BitVec.ofNat 64 va }

/-- PERMISSION on an address (R449, R392, R258). -/
def permAt (va : Nat) : Flt := { cause := .permission, info := BitVec.ofNat 64 va }

/-! ## Translation of an access under the two fault modes (R215, R216) -/

/-- A far range translated page by page in stall mode: what was translated, the rest without a key, and the first failure. -/
def State.stallGo (s : State) (c : CoreId) (node : Nat) (write : Bool) :
    Nat → Nat → Nat → List MemPart → (List MemPart × Option Flt) × State
  | 0, _, _, acc => ((acc, none), s)
  | k + 1, va, n, acc =>
    if n = 0 then ((acc, none), s)
    else if nearFrom ≤ va then ((acc ++ [⟨va, nearKey c va n, n, false⟩], none), s)
    else
      match s.translate c.dieId (some (c, node)) va with
      | (.inr lv, s) =>
        ((acc ++ [⟨va, none, n, false⟩], some { cause := .translation, info := BitVec.ofNat 64 va, detail := lv }), s)
      | (.inl lf, s) =>
        if write && !lf.w then ((acc ++ [⟨va, none, n, false⟩], some (permAt va)), s)
        else
          let run := min (farLen va n) (lf.vbase + lf.size - va)
          State.stallGo s c node write k (va + run) (n - run) (acc ++ [⟨va, some (lf.pbase + (va - lf.vbase)), run, lf.nc⟩])

/-- One range of an access translated: in precise mode a failure is a fault of the firing; in stall mode what failed stays
without a key and the failure stands beside it. -/
def State.coverOne (s : State) (c : CoreId) (node : Nat) (stall write : Bool) (va n : Nat) :
    Except Flt (List MemPart × Option Flt × State) :=
  if stall && !isNear va then
    let ((ps, bad), s) := s.stallGo c node write (n + 1) va n []
    .ok (ps, bad, s)
  else
    match s.footprint c (some (c, node)) write va n with
    | (.ok ps, s) => .ok (ps, none, s)
    | (.error f, _) => .error f

/-- Every range of an access translated in order; once one has failed in stall mode the others keep no key. -/
def State.coverAll (s : State) (c : CoreId) (node : Nat) (stall write : Bool) :
    List (Nat × Nat) → Except Flt (List MemPart × Option Flt × State)
  | [] => .ok ([], none, s)
  | (va, n) :: t => do
    let (ps, bad, s) ← s.coverOne c node stall write va n
    if bad.isSome then .ok (ps ++ t.map (fun p => ⟨p.1, none, p.2, false⟩), bad, s)
    else
      let (qs, bad, s) ← State.coverAll s c node stall write t
      .ok (ps ++ qs, bad, s)

/-! ## Requests (R235) -/

/-- The unit accepts no request while an access of the core is withheld (R216). -/
def Core.unitBusy (k : Core) : Bool :=
  k.reqs.any (·.withheld) || k.waves.any fun w => w.waiting.any (·.withheld)

/-- A firing that needs the memory unit: it waits at the head of the ready queue while the unit accepts nothing (R144, R216). -/
def memFire (f : Form) (r : Rec) (s : State) (eff : Word → State → Eff) : Host.Outcome State Fault Refusal :=
  if (s.core s.cur.core).unitBusy then .next s.retryIssue else fire f r s eff

/-- The bit of the touched mask that a write to a key sets (R347). -/
def State.touchBit (s : State) (c : CoreId) (key : Nat) : Option Nat :=
  if laneKey ≤ key then none
  else match s.physAt key with
    | .hbm _ _ => some (sliceSet (s.die c.dieId).gran (key / 192)).1
    | .chip d _ => some (if d = c.dieId then 48 else if d.pkg = c.pkg then 50 + d.die else 54)
    | .shared k _ => some (if k.dieId = c.dieId then 49 else if k.pkg = c.pkg then 50 + k.die else 54)
    | .nothing => none

/-- The targets that a request's writes touch. -/
def State.touches (s : State) (c : CoreId) (q : MemReq) : List Nat :=
  if q.op.isRead then [] else (q.parts.filterMap fun p => p.pa.bind fun a => s.touchBit c a).dedup

/-- The event that performs a request or answers it. -/
def MemOp.poll (o : MemOp) : Instr := if o.isRead then .loadReply else .writeAcknowledgement

/-- The mask's bits recomputed from the writes that are still to be acknowledged (R347). -/
def State.retouch (s : State) (c : CoreId) : State :=
  s.modCore c fun k => { k with touched := (k.reqs.flatMap fun q => s.touches c q).dedup }

/-- An open merge window on a line of a die (R209). -/
def Die.window? (x : Die) (l : Nat) : Option MergeWin := x.windows.find? fun w => decide (w.line = l)

/-- An MCRD read of a line joins its window, or opens one where its slice has a window free; else it reads alone (R209, R210). -/
def State.joinWindow (s : State) (c : CoreId) (id l : Nat) : State :=
  let d := c.dieId
  let x := s.die d
  match x.window? l with
  | some w =>
    if w.closing then s
    else s.setDie d { x with windows := x.windows.map fun w => if w.line = l then { w with joiners := w.joiners ++ [(c, id)] } else w }
  | none =>
    if (x.windows.filter fun w => decide ((sliceSet x.gran w.line).1 = (sliceSet x.gran l).1)).length < Config.mergeWindows then
      (s.setDie d { x with windows := x.windows ++ [⟨l, [(c, id)], false⟩] }).laterAt .mergeWindowClose (dieCore0 d) l
    else s

/-- A part of an access that no slice serves: lanes, a control core's scratchpad, SRAM, an NC page (R199, R203, R208). -/
def State.direct (s : State) (p : MemPart) (a : Nat) : Bool := decide (laneKey ≤ a) || p.nc || !s.isHbm a

/-- The cached lines that a request reads through slices. -/
def State.slicedLines (s : State) (q : MemReq) : List Nat :=
  (q.parts.flatMap fun p =>
    match p.pa with
    | some a => if s.direct p a ∨ p.len = 0 then [] else (List.range ((a + p.len - 1) / 192 - a / 192 + 1)).map fun i => a / 192 + i
    | none => []).dedup

/-- A request leaves the memory unit (R235), behind its release where one goes before it (R348): a write marks its targets (R347). -/
def State.leaveUnit (s : State) (c : CoreId) (q : MemReq) : State :=
  let s := match q.after with
    | some scope => s.startRelease c q.colour scope false [.event q.op.poll ⟨c, q.id, 0, false⟩]
    | none => s.laterAt q.op.poll c q.id
  let s := s.modCore c fun k => { k with reqs := k.reqs ++ [q] }
  if q.op.isRead then s else s.retouch c

/-- An MCRD reaches its slices, behind nothing of its core: each of its lines asks to be merged, once (R235, R240). -/
def State.askMerge (s : State) (c : CoreId) (q : MemReq) : State :=
  match q.op with
  | .loadVec _ _ true =>
    if q.stage = 0 then
      (s.slicedLines q).foldl (fun s l => s.joinWindow c q.id l)
        (s.modCore c fun k => { k with reqs := k.reqs.map fun x => if x.id = q.id then { x with stage := 1 } else x })
    else s
  | _ => s

/-- An ordered access joins its wave instance, PENDING where its WAVE has not come (R232 to R234). -/
def State.joinWave (s : State) (c : CoreId) (q : MemReq) (w : Nat × Nat × Nat × Nat) : Eff :=
  let k := s.core c
  let (region, _, own, _) := w
  match k.waves.find? fun x => decide (x.tag = q.inTag) && decide (x.region = region) with
  | none =>
    if 16 ≤ k.waves.length then .error { cause := .loopGate }
    else .ok (s.setCore c { k with waves := k.waves ++ [⟨q.inTag, region, false, 0, 0, 0xFF, [], [q]⟩] })
  | some x =>
    if own ∈ x.did ∨ x.waiting.any (fun y => (y.wave.map fun v => v.2.2.1) = some own) then .error { cause := .illegalRecord }
    else if x.opened ∧ x.last < own then .error { cause := .illegalRecord }
    else
      let s := s.setCore c { k with waves := k.waves.map fun y => if y = x then { y with waiting := y.waiting ++ [q] } else y }
      .ok (if x.opened then s.later (.waveAccessPerform c q.inTag region) else s)

/-- The STALL record of a withheld access (R216, R405). -/
def State.stallRecord (s : State) (c : CoreId) (q : MemReq) (f : Flt) : State :=
  s.fault c.cluId .firing true c q.node q.inTag f

/-- Header word i of a token's bytes (R266). -/
def hdr (bs : List Byte) (i : Nat) : Nat := leNat ((bs.drop (8 * i)).take 8)

/-- The core that RET names (R266). -/
def retCore (bs : List Byte) : CoreId :=
  let w := hdr bs 6
  ⟨bitsOf w 47 42, bitsOf w 41 40, bitsOf w 39 37, bitsOf w 36 29⟩

/-- A token that has passed every station and travels to its RET core (R268). -/
def QTok.returning (t : QTok) : Bool := t.route.isEmpty && t.slots.isEmpty && t.buf.isNone

/-- A core's ring buffers are reserved: it is a station, tokens stand in them or wait for one, or a token returns to it (R258, R272). -/
def State.ringCore (s : State) (c : CoreId) : Bool :=
  let x := s.core c
  x.slots.any (·.isSome) || x.rings.any (·.isSome) || !x.ringWait.isEmpty
    || s.qtoks.any fun t => t.returning && decide (retCore t.bytes = c)

/-- A byte, by its key for a core, of reserved ring buffers (R258, R272). -/
def State.ringByte (s : State) (c : CoreId) (key : Nat) : Bool :=
  if padKey ≤ key then decide (0x30000 ≤ key - padKey) && s.ringCore c
  else decide (key < laneKey) && (match s.physAt key with
    | .shared k off =>
      decide (0x30000 ≤ off % Config.padBytes) && s.ringCore ⟨k.pkg, k.die, k.clu, off / Config.padBytes⟩
    | _ => false)

/-- An ordinary store. -/
def MemOp.isStore : MemOp → Bool
  | .store => true
  | .storeVec => true
  | .scatter => true
  | _ => false

/-- The first part of an ordinary store that reaches a reserved ring buffer (R258). -/
def State.ringHit (s : State) (c : CoreId) (op : MemOp) (ps : List MemPart) : Option MemPart :=
  if op.isStore then ps.find? fun p =>
    match p.pa with
    | some a => s.ringByte c a || s.ringByte c (a + (p.len - 1))
    | none => false
  else none

/-- A request of the firing made: translated by its fault mode, then sent, after a release of scope `after` where one precedes it
(R348), or kept in its wave instance, or withheld (R215, R216, R230, R235). -/
def State.makeReq (s : State) (r : Rec) (t : Word) (op : MemOp) (write : Bool) (ranges : List (Nat × Nat)) (data : List Byte)
    (reply : Operand) (wave : Option (Nat × Nat × Nat × Nat)) (pages : List Leaf := []) (after : Option Nat := none) : Eff := do
  let c := s.cur.core
  let (parts, bad, s) ← s.coverAll c s.cur.node s.curAct.stall write ranges
  match s.ringHit c op parts with
  | some p => throw (permAt p.va)
  | none => pure ()
  let (id, s) := s.fresh
  let q : MemReq :=
    { id := id, node := s.cur.node, inTag := s.cur.tag, tag := t, colour := colourOf s.cur.tag, typ := r.typ, op := op,
      parts := parts, got := [], data := data, poison := false, dstA := r.dstA, dstB := r.dstB, reply0 := reply, wave := wave,
      withheld := bad.isSome, done := false, pages := pages, after := after, stage := 0 }
  let s := match bad with
    | some f => s.stallRecord c q f
    | none => s
  match wave with
  | some w => s.joinWave c q w
  | none =>
    if bad.isSome then .ok (s.modCore c fun k => { k with reqs := k.reqs ++ [q] }) else .ok (s.leaveUnit c q)

/-! ## What waits for what -/

/-- The bytes that a request reaches, as first key and length: a maintenance reaches its whole line (R242), a token whose size is not yet
read may reach to the scratchpad's end (R324). -/
def MemReq.reach (q : MemReq) : List (Nat × Nat) :=
  q.parts.filterMap fun p => p.pa.map fun a =>
    match q.op with
    | .writeBack => if a < laneKey then (a / 192 * 192, 192) else (a, p.len)
    | .invalidate _ => if a < laneKey then (a / 192 * 192, 192) else (a, p.len)
    | .restore _ => (a, if q.stage < 2 then Config.padBytes - nearOff p.va else p.len)
    | _ => (a, p.len)

/-- Two requests touch common bytes (R235). -/
def MemReq.conflicts (p q : MemReq) : Bool :=
  p.reach.any fun x => q.reach.any fun y => decide (x.1 < y.1 + y.2) && decide (y.1 < x.1 + x.2)

/-- A coarse-mode write of a request that its home has not applied yet (R370). -/
def State.coarsePending (s : State) (c : CoreId) (q : MemReq) : Bool :=
  (s.slicedLines q).any fun l =>
    s.coarseFor c.dieId l && (match (s.die (homeDie l)).line? l with | some y => !y.pend.isEmpty | none => false)

/-- A request that left its unit waits: behind an earlier request of its core to the same bytes (R235), which for a coarse-mode write ends
only when its home has applied it (R370), or behind a FENCE or ACQ (R381). -/
def State.holdsBack (s : State) (c : CoreId) (q : MemReq) : Bool :=
  let k := s.core c
  k.rels.any (fun x => x.blocks && decide (x.id < q.id))
    || (k.reqs.takeWhile fun p => decide (p.id ≠ q.id)).any fun p => p.conflicts q && (!p.done || s.coarsePending c p)

/-- A request of a core that left its unit. -/
def Core.req? (k : Core) (id : Nat) : Option MemReq := k.reqs.find? fun q => decide (q.id = id) && !q.withheld

/-- The message of the matrix engine for which a request acts (R307). -/
def MemOp.engine? (o : MemOp) : Option Nat :=
  match o with
  | .ckpt m => some m
  | .restore m => some m
  | _ => none

/-- The shard instruction that a request reads for (R329). -/
def MemOp.table? (o : MemOp) : Option Nat :=
  match o with
  | .table n => some n
  | _ => none

/-- Requests of a core gone; a matrix message or shard instruction that still waited for one ends with it, without effect or reply
(R307). -/
def Core.without (k : Core) (gone : MemReq → Bool) : Core :=
  let dead := k.reqs.filter gone
  { k with
    reqs := k.reqs.filter fun q => !gone q
    inbox := k.inbox.filter fun x => !(decide (x.stage = 2) && dead.any fun q => decide (q.op.engine? = some x.id))
    shardReqs := k.shardReqs.filter fun x => !(decide (x.stage = 0) && dead.any fun q => decide (q.op.table? = some x.id)) }

/-- A request ended. -/
def State.dropReq (s : State) (c : CoreId) (id : Nat) : State :=
  (s.modCore c fun k => k.without fun q => decide (q.id = id)).retouch c

/-- A request changed. -/
def State.modReq (s : State) (c : CoreId) (id : Nat) (f : MemReq → MemReq) : State :=
  s.modCore c fun k => { k with reqs := k.reqs.map fun q => if q.id = id then f q else q }

/-- Who waits for a request. -/
def MemReq.who (q : MemReq) (c : CoreId) : ReplyTo := ⟨c, q.node, q.tag, q.dstA, q.dstB⟩

/-- A matrix message's accesses performed: its occupancy ends next, with the bytes it read (R307, R309). -/
def State.engineDone (s : State) (c : CoreId) (m : Nat) (bs : List Byte) : State :=
  (s.modCore c fun k => { k with inbox := k.inbox.map fun x => if x.id = m then { x with stage := 1, src := bs } else x }).laterAt
    .matrixOccupancyEnd c m

/-- A reply on both destinations that ends a request; a matrix message replies itself (R298, R307). -/
def State.finishReq (s : State) (c : CoreId) (q : MemReq) (o : Operand) : State :=
  match q.op.engine? with
  | some m => (s.engineDone c m []).dropReq c q.id
  | none => (s.dropReq c q.id).replyBoth (q.who c) o o

/-- The colour of a request is no longer live: its reply is discarded (R255). -/
def State.orphan (s : State) (c : CoreId) (q : MemReq) : Bool :=
  (s.owner? c.dieId q.colour).isNone || s.dying c.dieId q.inTag

/-- The access needs the directory: its die lacks the permission, and the line is away from home or exported (R362). -/
def State.needsDir (s : State) (d : DieId) (l : Nat) (write : Bool) : Bool :=
  let has := match (s.die d).line? l with
    | some y => !y.away && (if write then decide (y.perm = .m) || decide (y.perm = .e) else decide (y.perm ≠ .i))
    | none => false
  !has && (decide (homeDie l ≠ d) || decide (l ∈ s.exported))

/-- An access that needs a directory it cannot have: that of a LOST region, or of a package of another coherence domain (R107, R376). -/
def State.unreachable (s : State) (d : DieId) (l : Nat) (write : Bool) : Bool :=
  (s.isLost l || !s.joined d.pkg (homeDie l).pkg) && s.needsDir d l write

/-- The first line of a request at which no home can be reached: one that needs its directory, or memory that no slice serves in a package
that is cut off (R372, R376). -/
def State.lostLine (s : State) (c : CoreId) (q : MemReq) (write : Bool) (ls : List Nat) : Option Nat :=
  match ls.find? fun l => s.unreachable c.dieId l write with
  | some l => some l
  | none => q.parts.findSome? fun p => p.pa.bind fun a =>
      if a < laneKey ∧ s.direct p a ∧ !s.joined c.pkg (dieOfPa a).pkg then some (a / 192) else none

/-- HOME_UNREACHABLE on a request: no effect, no reply (R376). -/
def State.failReq (s : State) (c : CoreId) (q : MemReq) (l : Nat) : State :=
  (s.fault c.cluId .firing false c q.node q.inTag { cause := .homeUnreachable, info := BitVec.ofNat 64 (l * 192) }).dropReq c q.id

/-- A firing consumes poisoned data: UNCORRECTABLE is posted and its activation is purged (R227, R402, R415). -/
def State.consumePoison (s : State) (c : CoreId) (node : Nat) (tag : Word) (pa : Nat) : State :=
  let s := s.fault c.cluId .firing false c node tag { cause := .uncorrectable, info := BitVec.ofNat 64 pa, detail := 1 }
  match s.actOf? c.dieId tag with
  | some a => if (s.act a).life = .purging then s else s.orderPurge a
  | none => s

/-! ## Reads (R237 to R240, R343) -/

/-- The bytes of the parts that no slice serves, captured now. -/
def State.captureDirect (s : State) (c : CoreId) (id : Nat) : State :=
  s.modReq c id fun q =>
    q.parts.foldl
      (fun q p =>
        match p.pa with
        | some a =>
          if s.direct p a then
            (List.range p.len).foldl (fun q i => q.capture (a + i) (s.keyByte c (a + i)))
              { q with poison := q.poison || (decide (a < laneKey) && s.poisonedRange c.dieId a p.len) }
          else q
        | none => q) q

/-- The keys that a load still lacks. -/
def MemReq.lacking (q : MemReq) : List Nat := q.keys.filter fun k => (Assoc.get? q.got k).isNone

/-- The bytes a load has read, in order. -/
def MemReq.bytes (q : MemReq) : List Byte := q.keys.map fun k => Assoc.getD q.got k 0

/-- A line that a load reads in a merge window it has joined: its data comes at the window's close (R209). -/
def State.merging (s : State) (c : CoreId) (id l : Nat) : Bool :=
  match (s.die c.dieId).window? l with
  | some w => decide ((c, id) ∈ w.joiners)
  | none => false

/-- A load captures what it can and asks its slices for the rest. -/
def State.readAll (s : State) (c : CoreId) (q : MemReq) : State :=
  let s := s.captureDirect c q.id
  match (s.core c).req? q.id with
  | none => s
  | some q =>
    ((q.lacking.map (· / 192)).dedup.filter fun l => !s.merging c q.id l).foldl
      (fun s l => s.readLine c q.id l ((q.lacking.filter fun k => decide (k / 192 = l)).map (· % 192))) s

/-! ## Writes (R342) -/

/-- Bytes written at a key by a core (R342). -/
def State.keyWrite (s : State) (c : CoreId) (nc : Bool) (key : Nat) (bs : List Byte) (owner : Option (BitVec 9)) : State :=
  if padKey ≤ key then s.modCore c fun k => { k with ctlPad := k.ctlPad.putN (key - padKey) bs }
  else if laneKey ≤ key then s.modCore c fun k => { k with lanes := k.lanes.putN (key - laneKey) bs }
  else s.dieWrite c.dieId nc key bs owner

/-- A request's data written over its parts in order. -/
def State.storeParts (s : State) (c : CoreId) (owner : Option (BitVec 9)) : List MemPart → List Byte → State
  | [], _ => s
  | p :: t, bs =>
    let s := match p.pa with
      | some a => s.keyWrite c p.nc a (bs.take p.len) owner
      | none => s
    State.storeParts s c owner t (bs.drop p.len)

/-- Every part of a store may be written now (R206, R210). -/
def State.storeReady (s : State) (c : CoreId) (q : MemReq) : Bool × State :=
  q.parts.foldl
    (fun x p => match p.pa with
      | some a => if s.direct p a then x else let (ok, s) := x.2.writeReady c.dieId p.nc a p.len; (x.1 && ok, s)
      | none => x) (true, s)

/-! ## Atomics (R355, R392 to R394) -/

/-- The value an atomic writes, and its flags (R393). -/
def atomOp (typ op old arg : Nat) : Nat × Flg :=
  let w := typWidth typ
  match op with
  | 0 => if typ = 8 then faddBits fp32 ⟨0, false, 0⟩ old arg else ((old + arg) % 2 ^ w, 0)
  | 1 => (old &&& arg, 0)
  | 2 => (old ||| arg, 0)
  | 3 => (old ^^^ arg, 0)
  | 4 => if typ = 8 then fminmax fp32 false old arg else (if asInt typ old ≤ asInt typ arg then old else arg, 0)
  | 5 => if typ = 8 then fminmax fp32 true old arg else (if asInt typ arg ≤ asInt typ old then old else arg, 0)
  | _ => (arg, 0)

/-- Whether a home slice holds a line to itself now, every die-performed write of it applied and some sectors filled, and the state with what
it lacks asked for (R198, R355). -/
def State.holdLine (s : State) (h : DieId) (l : Nat) (secs : List Nat) : Bool × State :=
  let (free, s) := s.lineReady h l
  if !free then (false, s)
  else
    let s := s.allocLine h l
    match (s.die h).line? l with
    | none => (false, s)
    | some y =>
      if y.wback ∨ y.locked then (false, s)
      else if !y.pend.isEmpty then (false, s.settle h l)
      else if y.perm ≠ .m ∧ y.perm ≠ .e then (false, s.ask h l .getx)
      else
        let lack := secs.filter fun i => !(y.sector i).valid
        if lack.isEmpty then (true, s) else (false, s.wantSectors h l lack)

/-- Whether an atomic on a line may be performed at its home slice now, and the state with what it lacks asked for: the writes of its own
die applied, and the line held at home (R355, R367). -/
def State.atomReady (s : State) (c : CoreId) (a : Nat) : Bool × State :=
  let l := a / 192
  let h := homeDie l
  let mine : Bool := match (s.die c.dieId).line? l with
    | some y => !y.pend.isEmpty
    | none => false
  if h ≠ c.dieId ∧ mine then (false, s.settle c.dieId l) else s.holdLine h l [sectorOf a]

/-- Bytes written by an atomic at its home slice: applied at once, under the colour its activation has there (R355). -/
def State.homeWrite (s : State) (h : DieId) (a : Nat) (bs : List Byte) (owner : Option (BitVec 9)) : State :=
  let l := a / 192
  (s.closeWindow h l).modLine h l fun y =>
    { y with perm := .m, bytes := y.bytes.putN (a % 192) bs,
             sectors := (List.range 4).map fun i =>
               if i = sectorOf a then { y.sector i with dirty := true, owner := owner } else y.sector i }

/-- An atomic's bytes written at its port or its home slice (R355, R392). -/
def State.atomWrite (s : State) (c : CoreId) (q : MemReq) (p : MemPart) (a : Nat) (bs : List Byte) : State :=
  if s.direct p a then s.keyWrite c p.nc a bs (some q.colour)
  else
    let h := homeDie (a / 192)
    s.homeWrite h a bs ((s.actOf? c.dieId q.inTag).bind fun x => s.colourOn x h)

/-- An atomic performed on the bytes it finds: the reply on A, and on B (R393, R394). -/
def State.atomPerform (s : State) (c : CoreId) (q : MemReq) (p : MemPart) (a : Nat) : State :=
  let typ := q.typ.toNat
  let bs := if s.direct p a then s.keyBytes c a p.len else s.peek (homeDie (a / 192)) a p.len
  let w := typWidth typ / 8
  let old := leNat (bs.take w)
  let o := typedOp typ 0 old
  if decide (a < laneKey) && s.poisonedRange (if s.direct p a then c.dieId else homeDie (a / 192)) a p.len then (s.dropReq c q.id).consumePoison c q.node q.inTag a
  else match q.op with
    | .atom op arg =>
      let (v, fl) := atomOp typ op old (arg.toNat % 2 ^ typWidth typ)
      let s := s.atomWrite c q p a (leBytes w v)
      let s := match s.actOf? c.dieId q.inTag with
        | some x => s.raiseIn x fl
        | none => s
      s.finishReq c q o
    | .cas x16 expected new =>
      let hit := decide (old = expected.toNat % 2 ^ typWidth typ)
      let hi := leNat (bs.drop w)
      let s := if hit then
          s.atomWrite c q p a (leBytes w (new.toNat % 2 ^ typWidth typ) ++ (if x16 then leBytes 8 ((hi + 1) % 2 ^ 64) else []))
        else s
      (s.dropReq c q.id).replyBoth (q.who c) o (plainOp (BitVec.ofNat 64 (b2n hit)))
    | _ => s.dropReq c q.id

/-! ## Presence words (R37 to R39, R353, R391) -/

/-- The control double word of a presence word (R37). -/
structure Presence where
  state   : Nat
  waiters : Nat
  head    : Nat
  tail    : Nat
deriving DecidableEq, Repr

/-- The fields of a control word. -/
def presenceOf (w : Nat) : Presence := ⟨bitsOf w 63 62, bitsOf w 61 48, bitsOf w 47 24, bitsOf w 23 0⟩
/-- A control word of its fields. -/
def Presence.word (x : Presence) : Nat := putBits x.state 62 + putBits x.waiters 48 + putBits x.head 24 + x.tail

/-- The activation whose deferral pool a request's activation uses (R38, R165). -/
def State.poolOf (s : State) (c : CoreId) (q : MemReq) : Option Nat := (s.actOf? c.dieId q.inTag).map fun a => (s.act a).poolAct

/-- The physical address of a pool entry. -/
def Act.poolAt (a : Act) (i : Nat) : Nat := a.defer + 16 * i

/-- The pool that holds entry i of a word's list, and the waiter there. Waiters of several activations may stand on one list, each in its
own pool; where two pools have entry i on it, the oldest waiter is meant, or for the list's tail the newest. A list that a store has
broken is followed in the pool of the activation that acts (R38, R40). -/
def State.waiterAt (s : State) (mine word i : Nat) (tail : Bool) : Nat × Option Waiter :=
  let xs := s.acts.filterMap fun p => match Assoc.get? p.2.pool i with
    | some w => if w.word = word then some (p.1, w) else none
    | none => none
  match sortBy (fun x y => if tail then decide (y.2.order < x.2.order) else decide (x.2.order < y.2.order)) xs with
  | (p, w) :: _ => (p, some w)
  | [] => (mine, Assoc.get? (s.act mine).pool i)

/-- A waiter queued at the tail of a word's list: the word's control fields and the state, none where no entry is free (R38, R39). In a word
that is EMPTY a list begins anew, whatever a store has left in its list bits (R40; log 101). -/
def State.queueWaiter (s : State) (c : CoreId) (q : MemReq) (take : Bool) (word : Nat) (x : Presence) : Option (Presence × State) :=
  match s.poolOf c q with
  | none => none
  | some p =>
    let a := s.act p
    if 16383 ≤ x.waiters then none
    else match leastBelow a.defern fun i => (Assoc.get? a.pool i).isNone with
      | none => none
      | some i =>
        let entry := leBytes 8 (putBits q.dstA.toNat 40 + putBits (b2n take) 38 + 0xFFFFFF) ++ leBytes 8 q.tag.toNat
        let last := (s.waiterAt p word x.tail true).1
        let (n, s) := s.fresh
        let s := s.modAct p fun a => { a with pool := a.pool ++ [(i, ⟨q.who c, classOf q.typ.toNat, word, n⟩)] }
        let s := s.sysWrite c.dieId (a.poolAt i) entry
        if x.state = 2 then
          let old := (s.peekWord c.dieId ((s.act last).poolAt x.tail)).toNat
          let s := s.sysWord c.dieId ((s.act last).poolAt x.tail) (BitVec.ofNat 64 (old / 2 ^ 24 * 2 ^ 24 + i))
          some ({ x with waiters := x.waiters + 1, tail := i }, s)
        else some (⟨2, 1, i, i⟩, s)

/-- The queued waiters of a word served in order with a value, up to the first take or the list's end (R38, R39): how many remain, the
head, whether a take was served. -/
def State.serve (s : State) (c : CoreId) (mine word : Nat) (v : Word) : Nat → Nat → State × Nat × Nat × Bool
  | 0, head => (s, 0, head, false)
  | n + 1, head =>
    if head = 0xFFFFFF then (s, 0, head, false)
    else
    let (p, x) := s.waiterAt mine word head false
    let a := s.act p
    let lo := (s.peekWord c.dieId (a.poolAt head)).toNat
    let tag := s.peekWord c.dieId (a.poolAt head + 8)
    let next := lo % 2 ^ 24
    let dst := BitVec.ofNat 24 (bitsOf lo 63 40)
    let s := s.modAct p fun a => { a with pool := Assoc.erase a.pool head }
    let s := match x with
      | some w => s.returnFrom w.who.core w.who.node dst tag ⟨v, mkKind 0 w.cls 0⟩
      | none => s.returnFrom c 0 dst tag ⟨v, kUnsigned⟩
    if bitsOf lo 39 38 = 1 then (s, n, next, true) else State.serve s c mine word v n next

/-- A presence operation at its word (R39): 0 take, 1 read, 2 put, 3 clear. A clear zeroes all 16 bytes (log 105). -/
def State.presencePerform (s : State) (c : CoreId) (q : MemReq) (p : MemPart) (a k : Nat) (v : Word) : State :=
  let bs := s.keyBytes c a 16
  let val := wordOfBytes (bs.take 8)
  let x := presenceOf (leNat (bs.drop 8))
  let put (s : State) (val : Word) (x : Presence) : State :=
    s.keyWrite c p.nc a (leBytes 8 val.toNat ++ leBytes 8 x.word) (some q.colour)
  let conflict : State :=
    (s.fault c.cluId .firing false c q.node q.inTag
      { cause := .presenceConflict, info := BitVec.ofNat 64 p.va, aux := leNat (bs.drop 12) }).dropReq c q.id
  let value (s : State) (x : Word) : State := (s.dropReq c q.id).returnFrom c q.node q.dstA q.tag ⟨x, mkKind 0 (classOf q.typ.toNat) 0⟩
  if k = 3 then (if x.state = 2 then conflict else (put s 0 ⟨0, 0, 0, 0⟩).finishReq c q (plainOp 0))
  else if x.state = 3 then conflict
  else if k = 2 then
    if x.state = 0 then (put s v ⟨1, 0, 0, 0⟩).finishReq c q (plainOp 0)
    else if x.state = 1 then conflict
    else match s.poolOf c q with
      | none => conflict
      | some pool =>
        let (s, left, head, took) := s.serve c pool a v x.waiters x.head
        let s := if left ≠ 0 then put s val { x with waiters := left, head := head }
          else if took then put s 0 ⟨0, 0, 0, 0⟩ else put s v ⟨1, 0, 0, 0⟩
        s.finishReq c q (plainOp 0)
  else if x.state = 1 then value (if k = 0 then put s 0 ⟨0, 0, 0, 0⟩ else s) val
  else match s.queueWaiter c q (decide (k = 0)) a x with
    | none => conflict
    | some (x, s) => (put s val x).dropReq c q.id

/-! ## Line maintenance (R242) -/

/-- What becomes of an attempt of LWB or LINV at its line: it is done, it waits to act, or it has acted and waits for its write-back. -/
inductive Upkeep where
  | over (s : State)
  | wait (s : State)
  | acted (s : State)

/-- LINV `.discard` acts on its line, once: what the slice holds of it is dropped, the writes that wait there too (R242, R243). -/
def State.discardLine (s : State) (d : DieId) (l : Nat) : State :=
  let s := (s.modLine d l fun y => { y with sectors := List.replicate 4 Sector.none_, pend := [], whole := [], bytes := [] }).lineSettled d l
  match (s.die d).line? l with
  | some y => if y.asked.isSome ∨ y.wback then s else s.writeBack d l false
  | none => s

/-- LWB or LINV before it has acted on its line: it waits for an open merge window and a routine's lock, and to write back also for the
writes that stand in the slice; then it acts once (R242, R243). -/
def State.maintain (s : State) (d : DieId) (l : Nat) (inval discard : Bool) : Upkeep :=
  if ((s.die d).window? l).isSome then .wait s
  else match (s.die d).line? l with
    | none => .over s
    | some y =>
      if y.locked then .wait s
      else if discard then .over (s.discardLine d l)
      else if y.wback ∨ y.asked.isSome then .wait s
      else if !y.pend.isEmpty then .wait (s.settle d l)
      else if y.isDirty then .acted (s.writeBack d l true)
      else .over (if inval then s.writeBack d l false else s)

/-- LWB or LINV once it has acted: its write-back is accepted, and a LINV then invalidates the line unless something has been written
there since (R242, R243, R364). -/
def State.maintained (s : State) (d : DieId) (l : Nat) (inval : Bool) : Upkeep :=
  match (s.die d).line? l with
  | none => .over s
  | some y =>
    if y.wback then .wait s
    else .over (if inval ∧ y.pend.isEmpty ∧ y.asked.isNone ∧ !y.locked ∧ !y.isDirty then s.writeBack d l false else s)

/-! ## Writes performed and acknowledged -/

/-- The line of a maintenance request; none where its address is near or NC (R242). -/
def State.upkeepLine (s : State) (q : MemReq) : Option Nat :=
  match q.parts with
  | p :: _ => match p.pa with
    | some a => if s.direct p a then none else some (a / 192)
    | none => none
  | [] => none

/-- An access whose page, found only now in stall mode, does not permit it: PERMISSION, no effect, no reply (R39, R216, R392). -/
def State.denyReq (s : State) (c : CoreId) (q : MemReq) (p : MemPart) : State :=
  (s.fault c.cluId .firing false c q.node q.inTag (permAt p.va)).dropReq c q.id

/-- An atomic performed at its port or home slice, or tried again later (R355, R392). -/
def State.atomStep (s : State) (c : CoreId) (q : MemReq) (p : MemPart) (a : Nat) : State :=
  if p.nc then s.denyReq c q p
  else if (s.lostLine c q true []).isSome then s.failReq c q (a / 192)
  else if s.direct p a then s.atomPerform c q p a
  else if !s.joined c.pkg (dieOfPa a).pkg then s.failReq c q (a / 192)
  else if s.unreachable (homeDie (a / 192)) (a / 192) true then s.failReq c q (a / 192)
  else
    let (ok, s) := s.atomReady c a
    if ok then s.atomPerform c q p a else s.laterAt .writeAcknowledgement c q.id

/-- A maintenance request goes on: done, it replies (R242). -/
def State.upkeep (s : State) (c : CoreId) (q : MemReq) (inval discard : Bool) : State :=
  match s.upkeepLine q with
  | none => s.finishReq c q (plainOp 0)
  | some l =>
    match (if q.stage = 0 then s.maintain c.dieId l inval discard else s.maintained c.dieId l inval) with
    | .over s => s.finishReq c q (plainOp 0)
    | .wait s => s.laterAt .writeAcknowledgement c q.id
    | .acted s => (s.modReq c q.id fun q => { q with stage := 1 }).laterAt .writeAcknowledgement c q.id

/-- A write request performed where it may be (R342, R355, R39), or tried again later. -/
def State.writeStep (s : State) (c : CoreId) (q : MemReq) : State :=
  let again (s : State) : State := s.laterAt .writeAcknowledgement c q.id
  let lost := s.lostLine c q true (s.slicedLines q)
  match q.op with
  | .writeBack => s.upkeep c q false false
  | .invalidate discard => s.upkeep c q true discard
  | .atom _ _ =>
    match q.parts with
    | [p] =>
      match p.pa with
      | some a => s.atomStep c q p a
      | none => s
    | _ => s.dropReq c q.id
  | .cas _ _ _ =>
    match q.parts with
    | [p] =>
      match p.pa with
      | some a => s.atomStep c q p a
      | none => s
    | _ => s.dropReq c q.id
  | .presence k v =>
    match q.parts with
    | p :: _ =>
      match p.pa with
      | some a =>
        if !(decide (padKey ≤ a) || s.isSram a) then s.denyReq c q p
        else if (s.lostLine c q true []).isSome then s.failReq c q (a / 192)
        else s.presencePerform c q p a k v
      | none => s
    | [] => s.dropReq c q.id
  | _ =>
    match lost with
    | some l => s.failReq c q l
    | none =>
      let (ok, s) := s.storeReady c q
      again (if ok then (s.storeParts c (some q.colour) q.parts q.data).modReq c q.id fun q => { q with done := true } else s)

/-- WRITE_ACKNOWLEDGEMENT (R235, R237, R342): a write request of a core is performed, or, once performed, acknowledged: its touched
bit clears and its reply is sent. -/
def execWriteAcknowledgement (s : State) : Host.Outcome State Fault Refusal :=
  .next (
    let c := s.site.core
    match (s.core c).req? s.site.n with
    | none => s
    | some q =>
      if q.done then
        if s.coarsePending c q then s.laterAt .writeAcknowledgement c q.id
        else if s.orphan c q then s.dropReq c q.id
        else s.finishReq c q (plainOp 0)
      else if s.holdsBack c q then s.laterAt .writeAcknowledgement c q.id
      else s.writeStep c q)

/-! ## Wave order (R233, R234) -/

/-- A waiting access is performed when its predecessor was, or when the last performed names it (R233). -/
def WaveInst.ready (x : WaveInst) (q : MemReq) : Bool :=
  match q.wave with
  | some (_, pred, own, _) => !q.withheld && (if pred ≠ 0xFF then decide (pred = x.lastOwn) else decide (x.lastSucc = own))
  | none => false

/-- WAVE_ACCESS_PERFORM (R233): one ready member of an open instance leaves the unit; with OWN = LAST the instance closes. -/
def execWaveAccessPerform (c : CoreId) (tag : Word) (region : Nat) (s : State) : Host.Outcome State Fault Refusal :=
  .next (
    let k := s.core c
    match k.waves.find? fun x => decide (x.tag = tag) && decide (x.region = region) && x.opened with
    | none => s
    | some x =>
      match x.waiting.find? x.ready with
      | none => s
      | some q =>
        match q.wave with
        | none => s
        | some (_, _, own, succ) =>
          let y := { x with lastOwn := own, lastSucc := succ, did := own :: x.did, waiting := x.waiting.erase q }
          let s := if own = x.last then s.setCore c { k with waves := k.waves.erase x }
            else s.setCore c { k with waves := k.waves.map fun z => if z = x then y else z }
          let s := s.leaveUnit c q
          if own ≠ x.last ∧ y.waiting.any y.ready then s.later (.waveAccessPerform c tag region) else s)

/-! ## Releases (R347, R348, R381) -/

/-- The lines of a die that hold die-performed writes. -/
def Die.pendLines (x : Die) : List Nat := (x.lines.filter fun y => !y.pend.isEmpty).map (·.line)

/-- A token on its way. -/
def Item.isToken : Item → Bool
  | .event (.tokenArrival _ _ _) _ => true
  | .event (.linkTokenCrossing _ _ _ _) _ => true
  | _ => false

/-- RELEASE_COMPLETE (R347): a core's releases complete in the order they issue, each once the requests it waits for have been
answered and, at package or pod scope, once every slice of the die has applied what it held when the probe reached it. Its
counter number then completes (R383), and what it held leaves; a token that a curtain's region is to keep stays (R358). -/
def execReleaseComplete (s : State) : Host.Outcome State Fault Refusal :=
  .next (
    let c := s.site.core
    let k := s.core c
    match k.rels with
    | [] => s
    | x :: t =>
      if x.id ≠ s.site.n then
        (if t.any (fun y => decide (y.id = s.site.n)) then s.laterAt .releaseComplete c s.site.n else s)
      else if (k.reqs ++ k.waves.flatMap (·.waiting)).any (fun q => decide (q.id ∈ x.reqs)) ∨ k.staying.any (fun q => decide (q.id ∈ x.leave)) then
        s.laterAt .releaseComplete c x.id
      else if 4 ≤ x.scope ∧ !x.probed then
        (s.setCore c { k with rels := { x with probed := true, lines := (s.die c.dieId).pendLines } :: t }).laterAt
          .releaseComplete c x.id
      else if !x.lines.isEmpty then s.laterAt .releaseComplete c x.id
      else
        let s := s.setCore c { k with rels := t }
        let s := match x.tlc with
          | some (ctr, n) => if (s.owner? c.dieId x.colour).isSome then s.completeNumber c.cluId x.colour ctr n else s
          | none => s
        let stays (it : Item) : Bool := x.kept && Item.isToken it
        (s.modCore c fun k => { k with kept := k.kept ++ x.held.filter stays }).laterAll (x.held.filter fun it => !stays it))

/-! ## Merge windows (R209) -/

/-- MERGE_WINDOW_CLOSE: the window closes once its line can serve every sector its joiners ask for (R209, R210). -/
def execMergeWindowClose (s : State) : Host.Outcome State Fault Refusal :=
  .next (
    let d := s.site.core.dieId
    let l := s.site.n
    match (s.die d).window? l with
    | none => s
    | some w =>
      if s.windowServes d w ∨ s.unreachable d l false then (s.closeWindow d l).touchLine d l
      else (s.fillFor d l (s.windowOffs w)).laterAt .mergeWindowClose (dieCore0 d) l)

/-! ## Walks (R214, R216, R241) -/

/-- A request translates as a write: it stores, or it discards a line (R230). -/
def MemOp.needsW (o : MemOp) : Bool :=
  match o with
  | .writeBack => false
  | .invalidate d => d
  | o => !o.isRead

/-- The parts of a withheld access translated again, and what still fails. -/
def State.recover (s : State) (c : CoreId) (q : MemReq) : Except Flt (List MemPart × Option Flt × State) :=
  let kept := q.parts.filter fun p => p.pa.isSome
  let rest := (q.parts.filter fun p => p.pa.isNone).map fun p => (p.va, p.len)
  match s.coverAll c q.node true q.op.needsW rest with
  | .ok (ps, bad, s) => .ok (kept ++ ps, bad, s)
  | .error f => .error f

/-- A withheld access retries its walk: it goes on, or a further record is posted (R216, R405); a store that is now found to reach a
ring buffer is PERMISSION, without effect (R258). -/
def State.retryWalk (s : State) (c : CoreId) (id : Nat) : State :=
  let k := s.core c
  match k.reqs.find? fun q => decide (q.id = id) && q.withheld with
  | some q =>
    match s.recover c q with
    | .ok (ps, none, s) =>
      match s.ringHit c q.op ps with
      | some p => s.denyReq c q p
      | none =>
        (s.modCore c fun k => { k with reqs := k.reqs.filter fun x => decide (x.id ≠ id) }).leaveUnit c
          { q with parts := ps, withheld := false }
    | .ok (ps, some f, s) => (s.modReq c id fun q => { q with parts := ps }).stallRecord c q f
    | .error f => s.stallRecord c q f
  | none =>
    match k.waves.findSome? fun x => (x.waiting.find? fun q => decide (q.id = id) && q.withheld).map fun q => (x, q) with
    | some (x, q) =>
      match s.recover c q with
      | .ok (ps, bad, s) =>
        let swap (f : List MemReq → List MemReq) (s : State) : State :=
          s.modCore c fun k => { k with waves := k.waves.map fun y => if y = x then { y with waiting := f y.waiting } else y }
        let q' := { q with parts := ps, withheld := bad.isSome }
        match bad, s.ringHit c q.op ps with
        | some f, _ => (swap (·.map fun z => if z = q then q' else z) s).stallRecord c q f
        | none, some p => swap (·.filter fun z => decide (z ≠ q)) (s.denyReq c q p)
        | none, none => (swap (·.map fun z => if z = q then q' else z) s).later (.waveAccessPerform c x.tag x.region)
      | .error f => s.stallRecord c q f
    | none => s

/-- PAGE_WALK_COMPLETE (R214, R216, R241): a prefetch's walk asks the slice for its sector, or does nothing and is counted; a
withheld access goes on or fails again. -/
def execPageWalkComplete (d : DieId) (w : WalkFor) (s : State) : Host.Outcome State Fault Refusal :=
  .next (
    match w with
    | .prefetch c va =>
      match s.translate d none va with
      | (.inl lf, s) =>
        let pa := lf.pbase + (va - lf.vbase)
        if lf.nc ∨ !s.isHbm pa ∨ s.unreachable d (pa / 192) false ∨ s.coarseFor d (pa / 192) then s.countNull c
        else match (s.die d).line? (pa / 192) with
          | some y => if y.perm ≠ .i ∧ !y.away ∧ (y.sector (sectorOf pa)).valid then s else s.wantSectors d (pa / 192) [sectorOf pa]
          | none =>
            if s.hasRoom d (pa / 192) then s.wantSectors d (pa / 192) [sectorOf pa] else s.later (.pageWalkComplete d (.prefetch c va))
      | (.inr _, s) => s.countNull c
    | .retry c id => s.retryWalk c id)

/-- TLB_ENTRY_DROP (R214): any translation entry of a die may go at any time. -/
def execTlbEntryDrop (s : State) : Host.Outcome State Fault Refusal :=
  .next (s.modDie s.site.core.dieId fun x => { x with tlb := x.tlb.eraseIdx s.site.n })

end Sys2Proof.Machine
end

