-- ==== Sys2Proof/Machine/Streams.lean ====
section
/-! DEFINITION. The stream engines (R217 to R221, R244 to R247): patterns, binding, elements, completion, cancelling; and how an
engine of a cluster translates its addresses (R201, R215, R216). -/

namespace Sys2Proof.Machine

open Sys2Proof

/-! ## Addresses of an engine (R201, R215, R216) -/

/-- A leaf among those found at issue that maps a far address (R215). -/
def leafFor (pages : List Leaf) (va : Nat) : Option Leaf :=
  pages.find? fun lf => decide (lf.vbase ≤ va) && decide (va < lf.vbase + lf.size)

/-- Where an engine's run of bytes begins, and how many of n bytes its page holds: near by R200 without levels 0 and 1 (R201), far
by the translations found at issue, or in stall mode by a translation now (R216). Far bytes end where the near levels begin (R199). -/
def State.engPlace (s : State) (k : CluId) (who : CoreId × Nat) (pages : List Leaf) (stall write : Bool) (va n : Nat) :
    (Except Flt (Nat × Nat × Bool)) × State :=
  if isNear va then
    match nearPaOfCluster k va n with
    | some pa => (.ok (pa, n, false), s)
    | none => (.error (addrFault (BitVec.ofNat 64 va)), s)
  else
    let put (lf : Leaf) : Except Flt (Nat × Nat × Bool) :=
      if write && !lf.w then .error (permAt va)
      else .ok (lf.pbase + (va - lf.vbase), min (farLen va n) (lf.vbase + lf.size - va), lf.nc)
    match (if stall then none else leafFor pages va) with
    | some lf => (put lf, s)
    | none =>
      match s.translate k.dieId (some who) va with
      | (.inl lf, s) => (put lf, s)
      | (.inr lv, s) => (.error { cause := .translation, info := BitVec.ofNat 64 va, detail := lv }, s)

/-- The runs of a range as an engine translates it. -/
def State.engRuns (s : State) (k : CluId) (who : CoreId × Nat) (pages : List Leaf) (stall write : Bool) :
    Nat → Nat → Nat → List MemPart → (Except Flt (List MemPart)) × State
  | 0, _, _, acc => (.ok acc, s)
  | f + 1, va, n, acc =>
    if n = 0 then (.ok acc, s)
    else match s.engPlace k who pages stall write va n with
      | (.error e, s) => (.error e, s)
      | (.ok (pa, run, nc), s) =>
        State.engRuns s k who pages stall write f (va + run) (n - run) (acc ++ [⟨va, some pa, run, nc⟩])

/-- The first byte of runs that carries poison, of their bytes with poison. -/
def poisonIn (ps : List MemPart) (bs : List (Byte × Bool)) : Option Nat :=
  (((runKeys ps).zip bs).find? fun x => x.2.2).map (·.1)

/-- A byte of runs whose home cannot be reached: its line needs a directory that it cannot have, or no slice serves it and its package is
cut off (R107, R376). -/
def State.runsLost (s : State) (d : DieId) (ps : List MemPart) (write : Bool) : Option Nat :=
  ps.findSome? fun p => p.pa.bind fun a =>
    if s.unsliced p then (if s.routed d.pkg (dieOfPa a).pkg then none else some a)
    else (rangeLines a p.len).findSome? fun x => if s.unreachable d x.1 write then some (max a (x.1 * 192)) else none

/-! ## Patterns (R218, R219) -/

/-- A field of a pattern word. -/
def patField (pat : List Word) (i hi lo : Nat) : Nat := bitsOf (pat.getD i 0).toNat hi lo

/-- The element count of a dimension. -/
def patCount (pat : List Word) (j : Nat) : Nat := patField pat (2 + j) 63 40
/-- The signed byte stride of a dimension. -/
def patStride (pat : List Word) (j : Nat) : Int := toSigned 40 (patField pat (2 + j) 39 0)
/-- The slice form. -/
def patSlice (pat : List Word) : Bool := decide (patField pat 1 31 30 = 1)
/-- Bytes of one element token. -/
def patBytes (pat : List Word) : Nat :=
  if patSlice pat then 256 * (patField pat 1 39 32 + 1) else typWidth (patField pat 1 3 0) / 8
/-- The tokens of a stream. -/
def patTotal (pat : List Word) : Nat := patCount pat 0 * patCount pat 1 * patCount pat 2 * patCount pat 3

/-- The indices of the element of an ordinal (R219). -/
def patIndex (pat : List Word) (n j : Nat) : Nat :=
  match j with
  | 0 => n % patCount pat 0
  | 1 => n / patCount pat 0 % patCount pat 1
  | 2 => n / (patCount pat 0 * patCount pat 1) % patCount pat 2
  | _ => n / (patCount pat 0 * patCount pat 1 * patCount pat 2)

/-- The address of the element of an ordinal (R219). -/
def patAddr (pat : List Word) (n : Nat) : Nat :=
  (((patField pat 0 55 0 : Nat) : Int) + (List.range 4).foldl (fun (a : Int) j => a + (patIndex pat n j : Int) * patStride pat j) 0)
    % (2 ^ 56 : Nat) |>.toNat

/-- The END bits of an ordinal (R219). -/
def patEnd (pat : List Word) (n : Nat) : Nat :=
  let last (j : Nat) : Bool := decide (patIndex pat n j + 1 = patCount pat j)
  b2n (last 0) + 2 * b2n (last 0 && last 1) + 4 * b2n (last 0 && last 1 && last 2)

/-- A pattern is valid in itself (R218); a DST of class 0b10 names an ordinary core. -/
def patOk (pat : List Word) : Bool :=
  let cls := patField pat 6 23 22
  decide (patField pat 0 63 56 = 0) && decide (patField pat 1 63 40 = 0) && decide (patField pat 1 31 30 ≤ 1)
    && decide (patField pat 1 29 28 ≤ 1) && decide (patField pat 1 26 24 ≤ 5) && decide (patField pat 1 17 12 = 0)
    && decide (patField pat 6 63 24 = 0) && decide (patField pat 7 63 56 = 0)
    && (List.range 4).all (fun j => decide (patCount pat j ≠ 0))
    && (decide (cls = 0) || (decide (cls = 2) && decide (patField pat 6 21 14 ≤ 191)))
    && (if patSlice pat then decide (patField pat 1 11 4 + patField pat 1 39 32 ≤ 255)
        else decide (patField pat 1 39 32 = 0) && decide (patField pat 1 11 4 = 0) && decide (8 ≤ typWidth (patField pat 1 3 0)))

/-- Elements of TYP that one token carries: the unit of which 32 share a scale (R221; log 45). -/
def patElems (pat : List Word) : Nat := if patSlice pat then 8 * patBytes pat / typWidth (patField pat 1 3 0) else 1

/-- The scales sent before the token of an ordinal: those of the blocks that begin in it (R221). -/
def patScales (pat : List Word) (n : Nat) : List Nat :=
  if patField pat 1 27 27 = 0 then []
  else
    let e := patElems pat
    (List.range (ceilDiv ((n + 1) * e) 32 - ceilDiv (n * e) 32)).map fun i => ceilDiv (n * e) 32 + i

/-- Every run of addresses that a stream reads: its elements and its scales. -/
def patRanges (pat : List Word) : List (Nat × Nat) :=
  (List.range (patTotal pat)).map (fun n => (patAddr pat n, patBytes pat))
    ++ (if patField pat 1 27 27 = 0 then [] else [(patField pat 7 55 0, ceilDiv (patTotal pat * patElems pat) 32)])

/-- The small pages that far ranges touch, ascending (R215). -/
def smallPages (rs : List (Nat × Nat)) : List Nat :=
  sortBy (fun a b => decide (a < b))
    ((rs.filter fun r => !isNear r.1 && decide (r.2 ≠ 0)).flatMap fun r =>
      (List.range ((r.1 + farLen r.1 r.2 - 1) / Config.smallPage - r.1 / Config.smallPage + 1)).map fun i => r.1 / Config.smallPage + i).dedup

/-- The leaves of a footprint, walked in ascending order: the first failure, or STREAM_FOOTPRINT at a 65th page (R215). -/
def State.footLeaves (s : State) (d : DieId) (write : Bool) : List Nat → List Leaf → Except Flt (List Leaf)
  | [], acc => .ok acc
  | g :: t, acc =>
    let va := g * Config.smallPage
    if (leafFor acc va).isSome then State.footLeaves s d write t acc
    else if 64 ≤ acc.length then .error { cause := .streamFootprint, info := BitVec.ofNat 64 (acc.length + 1) }
    else match (s.translate d none va).1 with
      | .inr lv => .error { cause := .translation, info := BitVec.ofNat 64 va, detail := lv }
      | .inl lf => if write && !lf.w then .error (permAt va) else State.footLeaves s d write t (acc ++ [lf])

/-- The near address at which an engine of a cluster cannot go on through a range: one that R201 refuses, or level 0, into which a far range
runs (R199, R201). -/
def engNearBad (k : CluId) (va n : Nat) : Option Nat :=
  if isNear va then (if (nearPaOfCluster k va n).isNone then some va else none)
  else if farLen va n < n then some nearFrom
  else none

/-- The footprint of ranges that an engine of a cluster will read or write (R201, R215). -/
def State.engFoot (s : State) (k : CluId) (write : Bool) (rs : List (Nat × Nat)) : Except Flt (List Leaf) := do
  let ls ← s.footLeaves k.dieId write (smallPages rs) []
  match rs.findSome? fun r => engNearBad k r.1 r.2 with
  | some va => .error (addrFault (BitVec.ofNat 64 va))
  | none => .ok ls

/-- What SBIND finds in a pattern: TAGM needs a field to set, and in precise mode the whole footprint is walked (R218, R244). -/
def State.bindChecks (s : State) (k : CluId) (stall : Bool) (t : Word) (bs : List Byte) : Except Flt (List Leaf) :=
  let pat := (List.range 8).map fun i => wordOfBytes (bs.drop (8 * i))
  if !patOk pat then .ok []
  else if patField pat 1 29 28 = 1 ∧ depthOf t = 0 then .error { cause := .tagOverflow }
  else if stall then .ok []
  else s.engFoot k false (patRanges pat)

/-! ## Ports (R217) -/

/-- A stream port of a cluster. -/
def State.port (s : State) (k : CluId) (n : Nat) : Port := Assoc.getD (s.cluster k).ports n ⟨none, []⟩
/-- A port replaced. -/
def State.setPort (s : State) (k : CluId) (n : Nat) (p : Port) : State :=
  s.modCluster k fun x => { x with ports := Assoc.set x.ports n p }

/-- The image cluster and image of the firing's activation as they stand on a cluster (R113). -/
def State.residentOf (s : State) (k : CluId) (image : Word) : Option Resident :=
  (s.pkg k.pkg).resident.find? fun x => decide (x.image = image) && decide (x.clu = k)

/-- The destination that the activation's image declares for a port (R97, R100, R218). -/
def State.declaredDst (s : State) (k : CluId) (image : Word) (port : Nat) : Option (BitVec 24) :=
  match s.residentOf k image, (s.pkg k.pkg).images.find? fun x => decide (x.id = image) with
  | some x, some im =>
    (im.streams.find? fun y => decide (y.1 = cluCore0 x.from_) && decide (y.2.1 = port)).map fun y => y.2.2
  | _, _ => none

/-- The port's key in the translation entries of its die (R214). -/
def portWho (k : CluId) (port : Nat) : CoreId × Nat := (⟨k.pkg, k.die, k.clu, 255⟩, port)

/-- A pattern that has been read is judged and bound: the status that SBIND sends (R244). Its checks have been made. -/
def State.bindStream (s : State) (c : CoreId) (q : MemReq) (port : Nat) (ctag : Word) (cdst : BitVec 24) (bs : List Byte) :
    Nat × State :=
  let k := c.cluId
  let pat := (List.range 8).map fun i => wordOfBytes (bs.drop (8 * i))
  let image := match s.actOf? c.dieId q.inTag with
    | some a => (s.act a).image
    | none => 0
  let dst : Option (BitVec 24) :=
    if patField pat 6 23 22 = 2 then some (BitVec.ofNat 24 (patField pat 6 23 0))
    else (s.declaredDst k image port).filter fun d => decide (destClass d = 2) && decide (bitsOf d.toNat 21 14 ≤ 191)
  match (if patOk pat then dst else none) with
  | none => (2, s)
  | some dst =>
    let p := s.port k port
    if 4 ≤ (if p.running.isSome then 1 else 0) + p.queued.length then (1, s)
    else
      let tle := decide (patField pat 1 18 18 = 1)
      let (num, s) := if tle then s.takeNumber k q.colour (patField pat 1 23 19) else (0, s)
      let x : Stream :=
        { pat := pat, core := c, node := q.node, btag := q.tag, ctag := ctag, cdst := cdst, dst := dst, num := num, pos := 0,
          sent := 0, status := 0, stall := none, pages := q.pages }
      let s := s.setPort k port { p with queued := p.queued ++ [x] }
      (0, if p.running.isNone ∧ p.queued.isEmpty then s.laterAt .streamStart (cluCore0 k) port else s)

/-- STREAM_START (R217): the oldest bound stream of a port with none running starts. -/
def execStreamStart (s : State) : Host.Outcome State Fault Refusal :=
  .next (
    let k := s.site.core.cluId
    let n := s.site.n
    let p := s.port k n
    match p.running, p.queued with
    | none, x :: t =>
      ((s.dropRead k.dieId (.port k n)).setPort k n { running := some x, queued := t }).laterAt .streamElement (cluCore0 k) n
    | _, _ => s)

/-- The value of a stream's completion token (R245). -/
def Stream.value (x : Stream) : Word := BitVec.ofNat 64 (x.sent % 2 ^ 32 * 2 ^ 32 + x.status)

/-- A stream ends: its counter advances if TLE is 1, and its completion token is sent (R220, R245). -/
def State.endStream (s : State) (k : CluId) (x : Stream) : State :=
  let tle := decide (patField x.pat 1 18 18 = 1)
  let col := colourOf x.btag
  let s := if tle ∧ (s.owner? k.dieId col).isSome then s.completeNumber k col (patField x.pat 1 23 19) x.num else s
  s.replyFrom x.core x.node x.cdst x.ctag (plainOp x.value)

/-- STREAM_COMPLETE (R220, R245): the port's release covers no writes; its stream ends, and the next bound one starts. -/
def execStreamComplete (s : State) : Host.Outcome State Fault Refusal :=
  .next (
    let k := s.site.core.cluId
    let n := s.site.n
    let p := s.port k n
    match p.running with
    | none => s
    | some x =>
      let s := (s.setPort k n { p with running := none }).endStream k x
      if p.queued.isEmpty then s else s.laterAt .streamStart (cluCore0 k) n)

/-- The token of an element (R219). -/
def Stream.token (x : Stream) (plan : List Nat) (bs : List Byte) : Token :=
  let typ := patField x.pat 1 3 0
  let d := x.dst.toNat
  let ends := patEnd x.pat x.pos
  let tag := if patField x.pat 1 29 28 = 1 then setInner plan x.btag x.pos else x.btag
  if patSlice x.pat then
    ⟨bitsOf d 13 2, d % 4, tag,
      ⟨(Slice.mk (patField x.pat 1 11 4) (patField x.pat 1 39 32)).word, mkKind 1 (classOf typ) ends⟩, bs⟩
  else ⟨bitsOf d 13 2, d % 4, tag, ⟨holdScalar (elemTy typ) (leNat bs), mkKind 0 (classOf typ) ends⟩, []⟩

/-- The core that receives a stream's tokens. -/
def Stream.target (x : Stream) (k : CluId) : CoreId := ⟨k.pkg, k.die, k.clu, bitsOf x.dst.toNat 21 14⟩

/-- A fault of a stream port (R401): its record in the cluster of the record that bound the stream, the port as its node. -/
def State.portFault (s : State) (x : Stream) (port : Nat) (stall : Bool) (f : Flt) : State :=
  s.fault x.core.cluId .port stall x.core port x.btag f

/-- A stream stops before its next element with a status, and its completion follows (R245). -/
def State.stopStream (s : State) (k : CluId) (n : Nat) (p : Port) (x : Stream) (status : Nat) : State :=
  (s.setPort k n { p with running := some { x with status := status } }).laterAt .streamComplete (cluCore0 k) n

/-- A stream withheld at an element that fails in stall mode (R216, R405). -/
def State.withholdStream (s : State) (k : CluId) (n : Nat) (p : Port) (x : Stream) (f : Flt) : State :=
  (s.setPort k n { p with running := some { x with stall := some f.info.toNat } }).portFault x n true { f with aux := x.pos }

/-- A scale enters the queue of its core, behind those that the scale network holds for the core (R296). -/
def State.sendScale (s : State) (dst : CoreId) (x : Byte × BitVec 9) : State :=
  if (s.core dst).scaleQ.length < 1024 ∧ (s.die dst.dieId).scaleNet.all (fun y => decide (y.1 ≠ dst)) then
    s.modCore dst fun k => { k with scaleQ := k.scaleQ ++ [x] }
  else s.modDie dst.dieId fun y => { y with scaleNet := y.scaleNet ++ [(dst, x)] }

/-- Scales that the network holds for a core enter its queue as entries free (R16, R296). -/
def State.admitScales (s : State) (c : CoreId) : State :=
  let held := (s.die c.dieId).scaleNet.filter fun y => decide (y.1 = c)
  (held.map (·.2)).foldl (fun s x => s.sendScale c x)
    (s.modDie c.dieId fun y => { y with scaleNet := y.scaleNet.filter fun y => decide (y.1 ≠ c) })

/-- STREAM_ELEMENT (R219, R221, R245): the running stream's next token leaves, its block's scale before it. A stream of a curtained
region stops sending and keeps its position (R407); one that fails in stall mode is withheld (R216); one that meets poison
stops with status 2, and its activation is purged (R245). A full scale queue holds only the scale network (R296). -/
def execStreamElement (s : State) : Host.Outcome State Fault Refusal :=
  .next (
    let k := s.site.core.cluId
    let n := s.site.n
    let p := s.port k n
    match p.running with
    | none => s
    | some x =>
      match s.actOf? k.dieId x.btag with
      | none => s.stopStream k n p x 1
      | some a =>
        let act := s.act a
        if act.curtain ∨ x.status ≠ 0 then s
        else if patTotal x.pat ≤ x.pos then s.laterAt .streamComplete (cluCore0 k) n
        else
          let who := portWho k n
          let va := patAddr x.pat x.pos
          let bytes := patBytes x.pat
          let ids := patScales x.pat x.pos
          let dst := x.target k
          let (elt, s) := s.engRuns k who x.pages act.stall false (bytes + 1) va bytes []
          let (sc, s) := match ids with
            | [] => ((.ok [] : Except Flt (List MemPart)), s)
            | i :: _ => s.engRuns k who x.pages act.stall false (ids.length + 1) (patField x.pat 7 55 0 + i) ids.length []
          match elt, sc with
          | .ok ps, .ok qs =>
            match s.runsLost k.dieId (qs ++ ps) false with
            | some a =>
              (s.portFault x n false { cause := .homeUnreachable, info := BitVec.ofNat 64 a }).stopStream k n p x 1
            | none =>
              match s.drawRuns k.dieId (.port k n) (qs ++ ps) with
              | (none, s) => s.laterAt .streamElement (cluCore0 k) n
              | (some bs, s) =>
                match poisonIn (qs ++ ps) bs with
                | some a' =>
                  let s := s.portFault x n false { cause := .uncorrectable, info := BitVec.ofNat 64 a', detail := 2 }
                  (if act.life = .purging then s else s.orderPurge a).stopStream k n p x 2
                | none =>
                  let s := (bs.take ids.length).foldl (fun s b => s.sendScale dst (b.1, colourOf x.btag)) s
                  let tok := x.token act.plan ((bs.drop ids.length).map (·.1))
                  let s := s.setPort k n { p with running := some { x with pos := x.pos + 1, sent := x.sent + 1, stall := none } }
                  (s.later (.tokenArrival dst .network tok)).laterAt .streamElement (cluCore0 k) n
          | .error f, _ =>
            s.withholdStream k n p x f
          | _, .error f =>
            s.withholdStream k n p x f)

/-- Streams cancelled, in the order they were bound: their completion tokens are sent (R246). -/
def State.cancelStreams (s : State) (k : CluId) (xs : List Stream) : State :=
  xs.foldl (fun s x => s.endStream k { x with status := if x.status ≠ 0 then x.status else if x.stall.isSome then 3 else 1 }) s

end Sys2Proof.Machine
end

