-- ==== Sys2Proof/Machine/Engines.lean ====
section
/-! DEFINITION. Active messages and the copy and link engines (R41 to R43, R222 to R224, R249 to R251, R386, R387, R377 to R379). -/

namespace Sys2Proof.Machine

open Sys2Proof

/-! ## Messages (R41, R249, R386) -/

/-- A field of a message word. -/
def msgField (m : Msg) (i hi lo : Nat) : Nat := bitsOf (m.words.getD i 0).toNat hi lo

/-- The engine opcode. -/
def msgOpc (m : Msg) : Nat := msgField m 0 63 56
/-- The release scope of completion. -/
def msgScope (m : Msg) : Nat := msgField m 0 52 50
/-- The counter index. -/
def msgTlc (m : Msg) : Nat := msgField m 0 49 45
/-- TLE. -/
def msgTle (m : Msg) : Bool := decide (msgField m 0 44 44 = 1)
/-- RDST. -/
def msgRdst (m : Msg) : BitVec 24 := BitVec.ofNat 24 (msgField m 0 23 0)
/-- The STALL bit of a copy or link message. -/
def msgStall (m : Msg) : Bool := decide (msgField m 5 9 9 = 1)
/-- LEN. -/
def msgLen (m : Msg) : Nat := msgField m 4 31 0
/-- The destination address. -/
def msgDst (m : Msg) : Nat := msgField m 2 55 0
/-- The source address. -/
def msgSrc (m : Msg) : Nat := msgField m 3 55 0
/-- COLOUR. -/
def msgColour (m : Msg) : BitVec 9 := BitVec.ofNat 9 (msgField m 5 8 0)

/-- Word 0 of a header (R41). -/
def msgHead (opc beats scope tlc : Nat) (tle : Bool) (rdst : BitVec 24) : Word :=
  BitVec.ofNat 64
    (putBits opc 56 + putBits beats 53 + putBits scope 50 + putBits (tlc % 32) 45 + putBits (b2n tle) 44 + rdst.toNat)

/-- Every field that R41 and R249 reserve in a copy message is zero, and its codes are defined. -/
def copyOk (m : Msg) : Bool :=
  let opc := msgOpc m
  let red := decide (opc = 2) || decide (opc = 4)
  decide (1 ≤ opc) && decide (opc ≤ 4) && decide (m.words.length = 8) && decide (msgField m 0 55 53 = 3)
    && decide (msgScope m ≤ 5) && decide (msgField m 0 43 24 = 0) && decide (msgField m 2 63 56 = 0) && decide (msgField m 3 63 56 = 0)
    && decide (msgField m 4 63 40 = 0) && decide (msgField m 4 33 32 = 0) && decide (msgField m 5 63 10 = 0)
    && decide (msgField m 6 63 0 = 0) && decide (msgField m 7 63 0 = 0) && decide (msgField m 4 39 38 ≤ 2)
    && (if red then decide (msgField m 4 37 34 ∈ [2, 8, 10]) else decide (msgField m 4 37 34 = 0))

/-- Every field that R41 and R386 reserve in a link message is zero. -/
def linkOk (m : Msg) : Bool :=
  decide (msgOpc m = 1) && decide (m.words.length = 8) && decide (msgField m 0 55 53 = 3) && decide (msgScope m ≤ 5)
    && decide (msgField m 0 43 24 = 0) && decide (msgField m 2 63 56 = 0) && decide (msgField m 3 63 56 = 0)
    && decide (msgField m 4 46 32 = 0) && decide (msgField m 5 63 10 = 0) && decide (msgField m 6 63 0 = 0)
    && decide (msgField m 7 63 0 = 0)

/-- A message sent by a record of an ordinary core (R43, R91). -/
def fromOrdinary (m : Msg) : Bool :=
  match m.sender.kind with
  | .host => false
  | _ => !m.sender.core.isCtl

/-- The opcodes of a launch inbox (R108): START, GRAPHREG, REPLAY, PATCH, GRAPHDROP. -/
def launchEvent (c : CoreId) (m : Msg) : Option Instr :=
  match msgOpc m with
  | 0x01 => some (.start c m)
  | 0x02 => some (.graphreg c m)
  | 0x03 => some (.replay c m)
  | 0x04 => some (.patch c m)
  | 0x05 => some (.graphdrop c m)
  | _ => none

/-- A message that a launch inbox accepts: opcode and BEATS as R108 fixes them, no reserved bit, a defined SCOPE, no sender on an
ordinary core, and from the host no reply destination (R43, R108). -/
def launchOk (m : Msg) : Bool :=
  let beats := msgField m 0 55 53
  decide (beats = if msgOpc m = 1 then 6 else 2) && decide (m.words.length = 2 * (beats + 1)) && decide (msgScope m ≤ 5)
    && decide (msgField m 0 43 24 = 0) && !fromOrdinary m
    && (match m.sender.kind with | .host => decide (destClass (msgRdst m) = 0) | _ => true)

/-- INBOX_REJECT names the sending record and the header; DETAIL is the engine (R43, R402). -/
def State.rejectMsg (s : State) (e : EngineId) (m : Msg) : State :=
  let detail := match e.kind with
    | .matrix => 0
    | .copy => 1
    | .link => 2
    | .stream => 3
    | .launch => 4
  s.faultEngine e.at_.cluId m false { cause := .inboxReject, info := m.words.getD 0 0, detail := detail }

/-! ## Accepted messages (R42, R43) -/

/-- The messages that an engine holds. -/
def State.inbox (s : State) (e : EngineId) : List EngMsg :=
  match e.kind with
  | .link => (s.cluster e.at_.cluId).linkIn
  | _ => (s.cluster e.at_.cluId).copyIn

/-- The messages that an engine holds, replaced. -/
def State.setInbox (s : State) (e : EngineId) (xs : List EngMsg) : State :=
  match e.kind with
  | .link => s.modCluster e.at_.cluId fun k => { k with linkIn := xs }
  | _ => s.modCluster e.at_.cluId fun k => { k with copyIn := xs }

/-- A message that an engine holds. -/
def State.engMsg? (s : State) (e : EngineId) (id : Nat) : Option EngMsg := (s.inbox e).find? fun x => decide (x.id = id)

/-- A message of an engine changed. -/
def State.modMsg (s : State) (e : EngineId) (id : Nat) (f : EngMsg → EngMsg) : State :=
  s.setInbox e ((s.inbox e).map fun x => if x.id = id then f x else x)

/-- A message gone from its engine. -/
def State.dropMsg (s : State) (e : EngineId) (id : Nat) : State :=
  (s.setInbox e ((s.inbox e).filter fun x => decide (x.id ≠ id))).dropRead e.at_.dieId (.msg e id)

/-- The activation for which a message acts: the sender's, or that of COLOUR on the engine's die for a host message (R207, R382). -/
def State.msgAct (s : State) (e : EngineId) (m : Msg) : Option Nat :=
  match m.sender.kind with
  | .host => s.owner? e.at_.dieId (msgColour m)
  | _ => s.actOf? m.sender.core.dieId m.sender.tag

/-- The colour whose counters in the engine's cluster a message advances (R382). -/
def State.msgCounter (s : State) (e : EngineId) (m : Msg) : Option (BitVec 9) :=
  (s.msgAct e m).bind fun a => s.colourOn a e.at_.dieId

/-- The event that performs an accepted message. -/
def engineEvent (e : EngineId) (m : Msg) (id : Nat) : Instr :=
  match e.kind with
  | .link => .lcopy e id
  | _ => match msgOpc m with
    | 1 => .copy e id
    | 2 => .copyr e id
    | 3 => .copyp e id
    | _ => .copypr e id

/-- The host writes that a package's adapter has served are visible to every die: none stands unapplied (R106). -/
def State.hostApplied (s : State) (p : Nat) : Bool :=
  (s.pkg p).hostLines.all fun l => match (s.die (homeDie l)).line? l with | some y => y.pend.isEmpty | none => true

/-- The host writes that reached a package's adapter are visible to every die: none is held there, and all are applied (R106). -/
def State.hostSettled (s : State) (p : Nat) : Bool := (s.pkg p).hostQ.isEmpty && s.hostApplied p

/-- A host message that may not be delivered yet: its link is down (R107), or writes that came before it are not visible (R106). -/
def State.hostWaits (s : State) (e : EngineId) (m : Msg) : Bool :=
  decide (m.sender.kind = .host) && (decide ((s.link e.at_.pkg hostLink).ver = 0) || !s.hostSettled e.at_.pkg)

/-- ENGINE_INBOX_ACCEPT (R42, R43): a host message waits for the writes before it (R106); a message is discarded with INBOX_REJECT, or
waits before a full inbox, or is accepted: it takes its number, an armed send's record receives 0 on B (R385), and its work begins. A
launch inbox hands its message on by opcode (R108), once its package is Ready (R103); a matrix engine takes messages only from its
own core's path, and a stream engine defines none (R298). -/
def execEngineInboxAccept (e : EngineId) (m : Msg) (s : State) : Host.Outcome State Fault Refusal :=
  .next (
    if s.hostWaits e m then s.later (.engineInboxAccept e m)
    else match e.kind with
    | .launch =>
      match (if launchOk m then launchEvent e.at_ m else none) with
      | some i => if (s.pkg e.at_.pkg).stage = 5 then s.later i else s.later (.engineInboxAccept e m)
      | none => s.rejectMsg e m
    | .matrix => s.rejectMsg e m
    | .stream => s.rejectMsg e m
    | _ =>
      let ok := match e.kind with
        | .link => linkOk m
        | _ => copyOk m && !(decide (3 ≤ msgOpc m) && fromOrdinary m)
      if !ok then s.rejectMsg e m
      else if 16 ≤ (s.inbox e).length then s.later (.engineInboxAccept e m)
      else
        let (id, s) := s.fresh
        let (num, s) := match (if msgTle m then s.msgCounter e m else none) with
          | some col => s.takeNumber e.at_.cluId col (msgTlc m)
          | none => (0, s)
        let x : EngMsg :=
          { id := id, msg := m, num := num, written := 0, status := 0, noRel := false, stalled := none, begun := false, got := [],
            sent := 0, stood := [], lines := [], probed := false }
        let s := (s.setInbox e (s.inbox e ++ [x])).later (engineEvent e m id)
        if m.sender.kind = .armed then
          let r := recOfWord (s.recordAt m.sender.core m.sender.node)
          s.sendFrom m.sender.core m.sender.node r.dstB m.sender.tag (plainOp 0)
        else s)

/-! ## Ending a message (R42, R250, R379) -/

/-- A message ends with a status and no release: nothing more of it is sent (R250). -/
def State.endMsg (s : State) (e : EngineId) (id status : Nat) : State :=
  (s.modMsg e id fun x => { x with status := status, noRel := true, stalled := none }).later (.engineMessageComplete e id)

/-- A message refused on its way: a fault naming its record; its counter advances without a release, and no reply is sent (R379). -/
def State.refuseMsg (s : State) (e : EngineId) (x : EngMsg) (f : Flt) : State :=
  let s := (s.faultEngine e.at_.cluId x.msg false f).dropMsg e x.id
  match (if msgTle x.msg then s.msgCounter e x.msg else none) with
  | some col => s.completeNumber e.at_.cluId col (msgTlc x.msg) x.num
  | none => s

/-- The core whose destinations a message's RDST is read from: its sender, or for the host the engine's control core 0. -/
def msgReplyCore (m : Msg) (e : EngineId) : CoreId :=
  match m.sender.kind with
  | .host => ⟨e.at_.pkg, e.at_.die, e.at_.clu, 192⟩
  | _ => m.sender.core

/-- The lines that an engine's release still waits for (R347). -/
def State.unsettled (s : State) (ls : List (DieId × Nat)) : List (DieId × Nat) :=
  ls.filter fun p => match (s.die p.1).line? p.2 with | some y => !y.pend.isEmpty | none => false

/-- ENGINE_MESSAGE_COMPLETE (R42): its release at SCOPE completes, its counter number completes, its reply is sent; an LCOPY's remote
advance leaves (R387). A message that ended without its release makes none and advances nothing remotely. Its
place in the inbox is free from now on (log 52). -/
def execEngineMessageComplete (e : EngineId) (id : Nat) (s : State) : Host.Outcome State Fault Refusal :=
  .next (
    match s.engMsg? e id with
    | none => s
    | some x =>
      let m := x.msg
      if !x.noRel ∧ 4 ≤ msgScope m ∧ !x.probed then
        (s.modMsg e id fun x =>
          { x with probed := true, lines := x.lines ++ ((s.die e.at_.dieId).pendLines.map fun l => (e.at_.dieId, l)) }).later
          (.engineMessageComplete e id)
      else if !x.noRel ∧ 4 ≤ msgScope m ∧ !(s.unsettled x.lines).isEmpty then
        (s.modMsg e id fun y => { y with lines := s.unsettled x.lines }).later (.engineMessageComplete e id)
      else
        let s := s.dropMsg e id
        let act := s.msgAct e m
        let s := match (if msgTle m then s.msgCounter e m else none) with
          | some col => s.completeNumber e.at_.cluId col (msgTlc m) x.num
          | none => s
        let s := match e.kind with
          | .link =>
            if msgField m 4 47 47 = 1 ∧ !x.noRel then
              let k : CluId := ⟨msgField m 4 63 58, msgField m 4 57 56, msgField m 4 55 53⟩
              match act.bind fun a => s.colourOn a k.dieId with
              | some col => s.later (.remoteAdvance k col (msgField m 4 52 48))
              | none => s
            else s
          | _ => s
        s.replyFrom (msgReplyCore m e) m.sender.node (msgRdst m) (m.words.getD 1 0) (plainOp (BitVec.ofNat 64 x.status)))

/-! ## Copies (R222, R223, R250) -/

/-- The reduction of a message (R223, R249). -/
def msgRed (m : Msg) : Option (BitVec 2 × BitVec 4) :=
  if msgOpc m % 2 = 0 then some (BitVec.ofNat 2 (msgField m 4 39 38), BitVec.ofNat 4 (msgField m 4 37 34)) else none

/-- A copy or link message whose addresses are physical (R249). -/
def msgPhys (e : EngineId) (m : Msg) : Bool :=
  match e.kind with
  | .link => false
  | _ => decide (3 ≤ msgOpc m)

/-- The engine's key in the translation entries of its die, in stall mode (R214, R216). -/
def engineWho (e : EngineId) : CoreId × Nat :=
  (⟨e.at_.pkg, e.at_.die, e.at_.clu, 254⟩, match e.kind with | .link => 1 | _ => 0)

/-- Where a run of a message's bytes begins, how many of n bytes go on from there, and whether they are NC: physical as it stands, else
translated. -/
def State.msgPlace (s : State) (e : EngineId) (m : Msg) (write : Bool) (a n : Nat) : (Except Flt (Nat × Nat × Bool)) × State :=
  if msgPhys e m then (.ok (a, n, false), s) else s.engPlace e.at_.cluId (engineWho e) m.pages (msgStall m) write a n

/-- A message stops where stall mode's translation fails (R216, R405): its record names the pieces written. -/
def State.stallMsg (s : State) (e : EngineId) (x : EngMsg) (f : Flt) : State :=
  (s.modMsg e x.id fun x => { x with stalled := some f.info.toNat }).faultEngine e.at_.cluId x.msg true { f with aux := x.written }

/-- A translation that fails while a message runs: in stall mode it stops there, else it ends (R216, R222). -/
def State.failMsg (s : State) (e : EngineId) (x : EngMsg) (f : Flt) : State :=
  if msgStall x.msg then s.stallMsg e x f else (s.faultEngine e.at_.cluId x.msg false f).endMsg e x.id 5

/-- The bytes of a message's next piece: as far as its sector reaches (R222). -/
def EngMsg.pieceLen (x : EngMsg) : Nat := min (msgLen x.msg - x.sent) (48 - alignBase (msgDst x.msg + x.sent) % 48)

/-- A message's next piece, at an address (R222, R223). -/
def EngMsg.piece (x : EngMsg) (e : EngineId) (pa : Nat) (nc : Bool) (gen : Option (BitVec 16)) : Piece :=
  let bs := (x.got.drop x.sent).take x.pieceLen
  { engine := e, msg := x.id, pa := pa, bytes := bs.map (·.1), poison := bs.any (·.2),
    red := (match e.kind with | .link => none | _ => msgRed x.msg), nc := nc, gen := gen, taken := false,
    last := decide (msgLen x.msg ≤ x.sent + x.pieceLen) }

/-- The die whose port or slice takes a piece: the die of its address (R224). -/
def pieceDie (p : Piece) : DieId := dieOfPa p.pa

/-- A piece of an older generation than its destination's. -/
def State.pieceMoved (s : State) (p : Piece) : Bool := genMoved p.gen (s.pkg (pieceDie p).pkg).podgen

/-- A write of an engine to a package still stands unanswered under an older generation (R378). -/
def State.olderOut (s : State) (e : EngineId) (q : Nat) : Bool :=
  s.agenda.any fun it =>
    match it with
    | .event (.copyPieceArrival p) _ => decide (p.engine = e) && decide ((pieceDie p).pkg = q) && s.pieceMoved p
    | _ => false

/-- The next piece of a message leaves for its destination, or the message is complete (R222). In stall mode a piece whose
translation fails stops it (R216), and a reduction that maps outside the permitted levels ends it (R250, R251). No piece of a new map generation leaves for a package while an older write of the engine there stands unanswered
(R378). -/
def State.sendPiece (s : State) (e : EngineId) (x : EngMsg) : State :=
  if msgLen x.msg ≤ x.sent then s.later (.engineMessageComplete e x.id)
  else
    match s.msgPlace e x.msg true (msgDst x.msg + x.sent) x.pieceLen with
    | (.error f, s) => s.failMsg e x f
    | (.ok (pa, _, nc), s) =>
      let p := x.piece e pa nc (s.genTo e.at_.pkg (dieOfPa pa).pkg)
      if p.red.isSome ∧ !s.isSram pa then s.endMsg e x.id 3
      else if s.olderOut e (dieOfPa pa).pkg then s.later (engineEvent e x.msg x.id)
      else (s.modMsg e x.id fun y => { y with sent := x.sent + p.bytes.length, stalled := none }).later (.copyPieceArrival p)

/-- How a message's reading of its source stands: read whole, waiting for the slices, failed, or at memory that cannot be reached. -/
inductive Source.Read where
  | whole
  | waits
  | fails (f : Flt)
  | lost (pa : Nat)

/-- A message reads on in its source, line by line, each byte with its poison, until all is read or something is in the way; bytes that its
own pieces have overwritten since it began are read as they stood (R222, R362). -/
def State.readOn (s : State) (e : EngineId) : Nat → EngMsg → Source.Read × EngMsg × State
  | 0, x => (.waits, x, s)
  | f + 1, x =>
    let off := x.got.length
    if msgLen x.msg ≤ off then (.whole, x, s)
    else
      match s.msgPlace e x.msg false (msgSrc x.msg + off) (msgLen x.msg - off) with
      | (.error g, s) => (.fails g, x, s)
      | (.ok (pa, run, nc), s) =>
        let n := if nc ∨ !s.isHbm pa then run else min run (192 - pa % 192)
        let ps : List MemPart := [⟨msgSrc x.msg + off, some pa, n, nc⟩]
        match s.runsLost e.at_.dieId ps false with
        | some a => (.lost a, x, s)
        | none =>
          match s.drawRuns e.at_.dieId (.msg e x.id) ps with
          | (none, s) => (.waits, x, s)
          | (some bs, s) =>
            let bs := bs.mapIdx fun i b => Assoc.getD x.stood (pa + i) b
            State.readOn s e f { x with got := x.got ++ bs, stalled := none }

/-- The checks of a message that no firing's issue checked: physical addresses by R203 in either mode, and in precise mode both footprints
(R222, R250): the status and fault that end it, or the translations found. -/
def State.checkMsg (s : State) (e : EngineId) (m : Msg) : Except (Nat × Option Flt) (List Leaf) :=
  if m.checked then .ok m.pages
  else if msgPhys e m then
    if msgLen m = 0 ∨ (s.rangeOk (msgDst m) (msgLen m) ∧ s.rangeOk (msgSrc m) (msgLen m)) then .ok [] else .error (1, none)
  else if msgStall m then .ok m.pages
  else
    match s.engFoot e.at_.cluId false [(msgSrc m, msgLen m)], s.engFoot e.at_.cluId true [(msgDst m, msgLen m)] with
    | .ok a, .ok b => .ok (b ++ a)
    | .error f, _ => .error (5, some f)
    | _, .error f => .error (5, some f)

/-- The element size of a reduction's type. -/
def redSize (m : Msg) : Nat := typWidth (msgField m 4 37 34) / 8

/-- A reduction whose range is not made of whole elements (R251). -/
def redMisaligned (m : Msg) : Bool :=
  decide (msgOpc m % 2 = 0) &&
    (decide (alignBase (msgDst m) % redSize m ≠ 0) || decide (alignBase (msgSrc m) % redSize m ≠ 0) || decide (msgLen m % redSize m ≠ 0))

/-- An engine goes on with a message whose checks are made: it reads its source, and then sends its pieces one after another in ascending
order; where its source fails in stall mode, the pieces before the failure leave first (R216, R222). -/
def State.goMsg (s : State) (e : EngineId) (x : EngMsg) : State :=
  let (r, y, s) := s.readOn e (msgLen x.msg + 1) x
  let s := s.modMsg e x.id fun _ => y
  match r with
  | .whole => s.sendPiece e y
  | .waits => s.later (engineEvent e y.msg y.id)
  | .lost a => s.refuseMsg e y { cause := .homeUnreachable, info := BitVec.ofNat 64 a }
  | .fails f => if y.sent + y.pieceLen ≤ y.got.length then s.sendPiece e y else s.failMsg e y f

/-- An engine begins a message, or goes on with one: it checks what issue did not, and goes on (R222, R250). -/
def State.runMsg (s : State) (e : EngineId) (id : Nat) : State :=
  match s.engMsg? e id with
  | none => s
  | some x =>
    if x.noRel then s
    else if x.begun then s.goMsg e x
    else match s.checkMsg e x.msg with
      | .error (st, f) =>
        (match f with
          | some f => s.faultEngine e.at_.cluId x.msg false f
          | none => s).endMsg e id st
      | .ok pages =>
        if redMisaligned x.msg then s.endMsg e id 3
        else s.goMsg e { x with msg := { x.msg with pages := pages }, begun := true }

/-- COPY (R250). -/
def execCopy (e : EngineId) (id : Nat) (s : State) : Host.Outcome State Fault Refusal := .next (s.runMsg e id)
/-- COPYR (R250, R251). -/
def execCopyr (e : EngineId) (id : Nat) (s : State) : Host.Outcome State Fault Refusal := .next (s.runMsg e id)
/-- COPYP, with physical addresses (R249). -/
def execCopyp (e : EngineId) (id : Nat) (s : State) : Host.Outcome State Fault Refusal := .next (s.runMsg e id)
/-- COPYPR, a reduction with physical addresses (R249). -/
def execCopypr (e : EngineId) (id : Nat) (s : State) : Host.Outcome State Fault Refusal := .next (s.runMsg e id)
/-- LCOPY, to another die or package (R386, R387). -/
def execLcopy (e : EngineId) (id : Nat) (s : State) : Host.Outcome State Fault Refusal := .next (s.runMsg e id)

/-! ## Pieces (R222, R223, R378, R379) -/

/-- One element reduced (R223). -/
def redElem (typ op a b : Nat) : Nat × Flg :=
  if typ < 8 then
    match op with
    | 0 => ((a + b) % 2 ^ typWidth typ, 0)
    | 1 => (if asInt typ a ≤ asInt typ b then a else b, 0)
    | _ => (if asInt typ b ≤ asInt typ a then a else b, 0)
  else
    match op with
    | 0 => faddBits (fmtOf typ) ⟨0, false, 0⟩ a b
    | 1 => fminmax (fmtOf typ) false a b
    | _ => fminmax (fmtOf typ) true a b

/-- The bytes that a piece leaves: its own, or its elements combined with those resident; and the flags raised (R53, R66, R223). -/
def mergePiece (p : Piece) (old : List Byte) : List Byte × Flg :=
  match p.red with
  | none => (p.bytes, 0)
  | some (op, typ) =>
    let w := typWidth typ.toNat
    let n := 8 * p.bytes.length / w
    let xs := ((unpackElems old w n).zip (unpackElems p.bytes w n)).map fun x => redElem typ.toNat op.toNat x.1 x.2
    (packElems w (xs.map (·.1)), orFlags xs)

/-- Flags raised for a message, in the activation that sent it (R66). -/
def State.raiseMsg (s : State) (e : EngineId) (m : Msg) (fl : Flg) : State :=
  match s.msgAct e m with
  | some a => s.raiseIn a fl
  | none => s

/-- The owner colour of a piece's sectors: its message's activation on the die that takes it, else the system class (R207, R250). -/
def State.pieceOwner (s : State) (p : Piece) (m : Msg) : Option (BitVec 9) :=
  let d := pieceDie p
  if d = p.engine.at_.dieId then some (msgColour m)
  else (s.owner? p.engine.at_.dieId (msgColour m)).bind fun a => s.colourOn a d

/-- Earlier die-performed writes of the engine's die to the piece's line, which the piece must follow in the write order (R349). -/
def State.pieceWaits (s : State) (p : Piece) : Bool :=
  decide (pieceDie p ≠ p.engine.at_.dieId) && !p.nc && s.isHbm p.pa &&
    (match (s.die p.engine.at_.dieId).line? (p.pa / 192) with | some y => !y.pend.isEmpty | none => false)

/-- A piece written or reduced at its destination, as one unit, with its poison (R222, R223, R227); what stood there is kept while its
message's source is not all read. -/
def State.landPiece (s : State) (p : Piece) (x : EngMsg) : State :=
  let e := p.engine
  let d := pieceDie p
  let l := p.pa / 192
  let (bs, fl) := mergePiece p (s.peek d p.pa p.bytes.length)
  let olds := if x.got.length < msgLen x.msg then
      ((List.range p.bytes.length).filter fun i => (Assoc.get? x.stood (p.pa + i)).isNone).map fun i => (p.pa + i, s.markedByte d (p.pa + i))
    else []
  let s := (s.raiseMsg e x.msg fl).dieWrite d p.nc p.pa bs (s.pieceOwner p x.msg)
  let s := if p.poison then s.spoil d p.nc p.pa bs.length else s
  s.modMsg e p.msg fun x =>
    { x with written := x.written + 1, status := if p.poison ∧ x.status = 0 then 2 else x.status, stood := x.stood ++ olds,
             lines := if s.isHbm p.pa ∧ !p.nc ∧ (d, l) ∉ x.lines then x.lines ++ [(d, l)] else x.lines }

/-- COPY_PIECE_ARRIVAL (R222, R223): a piece is written or reduced at its destination, as one unit, and carries its poison (R227); a
piece that arrives under an older map generation is refused (R378, R379), while one accepted before waits for its line and lands under
the old map. The next piece then leaves. -/
def execCopyPieceArrival (p : Piece) (s : State) : Host.Outcome State Fault Refusal :=
  .next (
    let e := p.engine
    match s.engMsg? e p.msg with
    | none => s
    | some x =>
      let d := pieceDie p
      let l := p.pa / 192
      if !p.taken ∧ s.pieceMoved p then
        s.refuseMsg e x { cause := .mapMoved, info := BitVec.ofNat 64 p.pa, aux := x.written }
      else if (!p.taken ∧ !s.routed e.at_.pkg d.pkg) ∨ (s.isHbm p.pa ∧ !p.nc ∧ s.isLost l ∧ s.needsDir d l true) then
        s.refuseMsg e x { cause := .homeUnreachable, info := BitVec.ofNat 64 p.pa }
      else if s.pieceWaits p then (s.settle e.at_.dieId l).later (.copyPieceArrival { p with taken := true })
      else
        let (ok, s) := s.writeReady d p.nc p.pa p.bytes.length
        if !ok then s.later (.copyPieceArrival { p with taken := true }) else (s.landPiece p x).runMsg e p.msg)

/-! ## Retries (R216, R253) -/

/-- A TLBINV of an address, or of every entry, covers the page of a failing address: the page that maps it now, else its small page
(R216). -/
def State.covering (s : State) (d : DieId) (all : Bool) (a va : Nat) : Bool :=
  all || match s.walk d va with
    | .inl lf => decide (lf.vbase ≤ a) && decide (a < lf.vbase + lf.size)
    | .inr _ => decide (a / Config.smallPage = va / Config.smallPage)

/-- Every access of a die that stands withheld on a covered page retries its walk (R216, R253). -/
def State.retryDie (s : State) (d : DieId) (all : Bool) (a : Nat) : State :=
  let s := (s.coresOfDie d).foldl
    (fun s c =>
      let k := s.core c
      ((k.reqs ++ k.waves.flatMap (·.waiting)).filter fun q =>
          q.withheld && q.parts.any fun p => p.pa.isNone && s.covering d all a p.va).foldl
        (fun s q => s.later (.pageWalkComplete d (.retry c q.id))) s) s
  (clustersOf d).foldl
    (fun s k =>
      let s := (s.cluster k).ports.foldl
        (fun s p =>
          match p.2.running.bind (·.stall) with
          | some va => if s.covering d all a va then s.laterAt .streamElement (cluCore0 k) p.1 else s
          | none => s) s
      [EngineKind.copy, .link].foldl
        (fun s kind =>
          let e := clusterEngine kind k
          (s.inbox e).foldl
            (fun s x =>
              match x.stalled with
              | some va => if s.covering d all a va then s.later (engineEvent e x.msg x.id) else s
              | none => s) s) s) s

end Sys2Proof.Machine
end

