-- ==== Sys2Proof/Machine/Memory.lean ====
section
/-! DEFINITION. The memory, stream, copy and translation instructions (R236 to R253), and the replies of loads. -/

namespace Sys2Proof.Machine

open Sys2Proof

/-! ## Scalar loads and stores (R237) -/

/-- The bytes of an element of TYP. -/
def elemSize (r : Rec) : Nat := typWidth r.typ.toNat / 8

/-- LD reads w/8 bytes within one line (R237). -/
def execLd (r : Rec) (s : State) : Host.Outcome State Fault Refusal :=
  memFire Forms.ld r s fun t s => do
    s.scalars r
    let (d, w) ← s.displacement r
    let va ← vaAt s.cur.op0.val d
    checkNear s.cur.core va (elemSize r)
    checkLine va (elemSize r)
    s.makeReq r t .load false [(va, elemSize r)] [] zeroOp w

/-- ST writes the low w/8 bytes of $1 within one line (R237). -/
def execSt (r : Rec) (s : State) : Host.Outcome State Fault Refusal :=
  memFire Forms.st r s fun t s => do
    s.scalars r
    let (d, w) ← s.displacement r
    let va ← vaAt s.cur.op0.val d
    checkNear s.cur.core va (elemSize r)
    checkLine va (elemSize r)
    s.makeReq r t .store true [(va, elemSize r)] (leBytes (elemSize r) (s.elem r 1)) zeroOp w

/-! ## Vector loads and stores (R238 to R240) -/

/-- What LDV, STV and MCRD share: the slice, its address and the wave annotation (R238). -/
def State.vecAccess (s : State) (r : Rec) : Except Flt (Slice × Nat × Option (Nat × Nat × Nat × Nat)) := do
  let base ← s.scalarAt r 0
  let x ← s.sliceAt r 1
  let (d, w) ← s.displacement r
  let va ← vaAt base d
  checkNear s.cur.core va x.size
  checkMultiple va 16
  .ok (x, va, w)

/-- A descriptor as the reply of a vector load (R238). -/
def sliceReply (r : Rec) (x : Slice) : Operand := ⟨x.word, mkKind 1 (classOf r.typ.toNat) 0⟩

/-- LDV (R238). -/
def execLdv (r : Rec) (s : State) : Host.Outcome State Fault Refusal :=
  memFire Forms.ldv r s fun t s => do
    let (x, va, w) ← s.vecAccess r
    s.makeReq r t (.loadVec x.row x.nrow false) false [(va, x.size)] [] (sliceReply r x) w

/-- MCRD: LDV whose lines ask to be merged (R240). -/
def execMcrd (r : Rec) (s : State) : Host.Outcome State Fault Refusal :=
  memFire Forms.mcrd r s fun t s => do
    let (x, va, w) ← s.vecAccess r
    s.makeReq r t (.loadVec x.row x.nrow true) false [(va, x.size)] [] (sliceReply r x) w

/-- STV (R238). -/
def execStv (r : Rec) (s : State) : Host.Outcome State Fault Refusal :=
  memFire Forms.stv r s fun t s => do
    let (x, va, w) ← s.vecAccess r
    s.makeReq r t .storeVec true [(va, x.size)] (s.image x) zeroOp w

/-- Operand n is a descriptor of one word for each lane (R238). -/
def State.oneWord (s : State) (r : Rec) (n : Nat) : Except Flt Slice := do
  let x ← s.sliceAt r n
  if x.nrow = 0 then .ok x else .error (slotFault (s.opnd r n) n)

/-- The word of a lane in an image of one word for each lane. -/
def laneWord (bs : List Byte) (l : Nat) : Nat := leNat ((bs.drop (4 * l)).take 4)

/-- The active lanes of LDG and STS with their addresses, every one checked (R239). -/
def laneAddrs (c : CoreId) (base d : Word) (offs : List Byte) (n : Nat) : Except Flt (List (Nat × Nat)) := do
  let _ ← vaAt base d
  let ls ← ((List.range 64).filter fun l => decide (laneWord offs l ≠ 0x80000000)).mapM fun l => do
    let va ← vaAt (base + d) ((BitVec.ofNat 32 (laneWord offs l)).signExtend 64)
    checkNear c va n
    pure (l, va)
  ls.forM fun x => checkLine x.2 n
  .ok ls

/-- LDG gathers one element for each active lane (R239). -/
def execLdg (r : Rec) (s : State) : Host.Outcome State Fault Refusal :=
  memFire Forms.ldg r s fun t s => do
    let base ← s.scalarAt r 0
    let x ← s.oneWord r 1
    let (d, w) ← s.displacement r
    let n := elemSize r
    let ls ← laneAddrs s.cur.core base d (s.image x) n
    let ls := sortBy (fun a b => decide (a.2 < b.2)) ls
    s.makeReq r t (.gather x.row (ls.map (·.1))) false (ls.map fun p => (p.2, n)) [] (sliceReply r x) w

/-- STS scatters one element for each active lane, in ascending lane order (R239). In precise mode its pages are walked in
ascending order (R215). -/
def execSts (r : Rec) (s : State) : Host.Outcome State Fault Refusal :=
  memFire Forms.sts r s fun t s => do
    let base ← s.scalarAt r 0
    let x ← s.oneWord r 1
    let y ← s.oneWord r 2
    let (d, w) ← s.displacement r
    let n := elemSize r
    let vs := s.image y
    let ls ← laneAddrs s.cur.core base d (s.image x) n
    let up := sortBy (fun (a b : Nat × Nat) => decide (a.2 < b.2)) ls
    let _ ← if s.curAct.stall then .ok ([], none, s)
      else s.coverAll s.cur.core s.cur.node false true (up.map fun p => (p.2, n))
    s.makeReq r t .scatter true (ls.map fun p => (p.2, n)) (ls.flatMap fun p => leBytes n (laneWord vs p.1)) zeroOp w

/-! ## Wave order (R232, R236) -/

/-- MNOP: a member of its wave that touches no memory and sends $0 (R236). -/
def execMnop (r : Rec) (s : State) : Host.Outcome State Fault Refusal :=
  memFire Forms.mnop r s fun t s => do
    let (_, w) ← s.displacement r
    s.makeReq r t .mnop false [] [] s.cur.op0 w

/-- The members that waited for their WAVE beside an instance: those above LAST fault on their own records (R234). -/
def State.rejectAbove (s : State) (c : CoreId) (qs : List MemReq) : State :=
  qs.foldl (fun s q => s.fault c.cluId .firing false c q.node q.inTag { cause := .illegalRecord }) s

/-- WAVE opens the instance of its tag and region (R232). -/
def execWave (r : Rec) (s : State) : Host.Outcome State Fault Refusal :=
  memFire Forms.wave r s fun t s => do
    let c := s.cur.core
    let k := s.core c
    let region := bitsOf r.lit.toNat 13 6
    let last := r.lit.toNat % 64
    match k.waves.find? fun x => decide (x.tag = s.cur.tag) && decide (x.region = region) with
    | none =>
      if 16 ≤ k.waves.length then .error { cause := .loopGate }
      else
        .ok ((s.setCore c { k with waves := k.waves ++ [⟨s.cur.tag, region, true, last, 0, 0xFF, [], []⟩] }).out r t s.cur.op0)
    | some x =>
      if x.opened then .error { cause := .illegalRecord }
      else
        let own (q : MemReq) : Nat := match q.wave with | some v => v.2.2.1 | none => 0
        let y := { x with opened := true, last := last, waiting := x.waiting.filter fun q => decide (own q ≤ last) }
        let s := (s.setCore c { k with waves := k.waves.map fun z => if z = x then y else z }).rejectAbove c
          (x.waiting.filter fun q => decide (last < own q))
        .ok ((s.later (.waveAccessPerform c s.cur.tag region)).out r t s.cur.op0)

/-! ## Prefetch and line maintenance (R241, R242) -/

/-- The address of a record that displaces $0, its near form checked for n bytes (R229, R230). -/
def State.addrOf (s : State) (r : Rec) (n : Nat) : Except Flt Nat := do
  s.scalars r
  let (d, _) ← s.displacement r
  let va ← vaAt s.cur.op0.val d
  checkNear s.cur.core va n
  .ok va

/-- PF asks for a sector and waits for nothing; a near address does nothing and is counted (R241). -/
def execPf (r : Rec) (s : State) : Host.Outcome State Fault Refusal :=
  memFire Forms.pf r s fun t s => do
    let va ← s.addrOf r 1
    let c := s.cur.core
    let s := if isNear va then s.countNull c else s.later (.pageWalkComplete c.dieId (.prefetch c va))
    .ok (s.out r t (plainOp 0))

/-- LWB (R242). -/
def execLwb (r : Rec) (s : State) : Host.Outcome State Fault Refusal :=
  memFire Forms.lwb r s fun t s => do
    let va ← s.addrOf r 1
    s.makeReq r t .writeBack false [(va, 1)] [] zeroOp none

/-- LINV, which with `.discard` requires W = 1 (R230, R242). -/
def execLinv (r : Rec) (s : State) : Host.Outcome State Fault Refusal :=
  memFire Forms.linv r s fun t s => do
    let va ← s.addrOf r 1
    let discard := decide (r.sub.toNat % 2 = 1)
    s.makeReq r t (.invalidate discard) discard [(va, 1)] [] zeroOp none

/-! ## Streams (R244 to R247) -/

/-- A request of a core that is still to write some of the bytes of a range (R235). -/
def State.beforeWrite (s : State) (c : CoreId) (ps : List MemPart) : Bool :=
  let k := s.core c
  (k.reqs ++ k.waves.flatMap (·.waiting)).any fun q =>
    !q.op.isRead && !q.done && q.parts.any fun x => ps.any fun y =>
      match x.pa, y.pa with
      | some a, some b => decide (a < b + y.len) && decide (b < a + x.len)
      | _, _ => true

/-- What SBIND finds at issue: the pattern as its read would find it now, with the translations of its footprint; nothing where an earlier
request of its core is still to write it, or its page is withheld: it is then checked when it has been read (R244). -/
def State.bindLook (s : State) (t : Word) (va : Nat) : Except Flt (List Byte × List Leaf) :=
  let c := s.cur.core
  match s.coverOne c s.cur.node s.curAct.stall false va 64 with
  | .error f => .error f
  | .ok (ps, none, _) =>
    if s.beforeWrite c ps then .ok ([], [])
    else
      let bs := ps.flatMap fun p => match p.pa with | some a => s.keyBytes c a p.len | none => []
      (s.bindChecks c.cluId s.curAct.stall t bs).map fun pages => (bs, pages)
  | .ok (_, some _, _) => .ok ([], [])

/-- SBIND binds the pattern at $0 to a stream port of its cluster (R244). -/
def execSbind (r : Rec) (s : State) : Host.Outcome State Fault Refusal :=
  memFire Forms.sbind r s fun t s => do
    s.scalars r
    let c := s.cur.core
    let dst := BitVec.ofNat 24 s.cur.op2.val.toNat
    let ctag := mkTag (colourOf s.cur.tag) (depthOf s.cur.op1.val) (stackOf s.cur.op1.val)
    if 2 ^ 24 ≤ s.cur.op2.val.toNat ∨ s.destBad c dst then .error { cause := .illegalRecord }
    else if !tagOk s.curAct.plan ctag then .error { cause := .tagOverflow }
    else
      let va ← vaAt s.cur.op0.val 0
      checkNear c va 64
      checkMultiple va 64
      let (bs, pages) ← s.bindLook t va
      s.makeReq r t (.pattern r.lit.toNat ctag dst) false [(va, 64)] bs zeroOp none pages (some 2)

/-- SCANCEL cancels the streams of a port, with `.queued` only those not yet started (R246). -/
def execScancel (r : Rec) (s : State) : Host.Outcome State Fault Refusal :=
  memFire Forms.scancel r s fun t s => do
    s.scalars r
    let k := s.cur.core.cluId
    let n := r.lit.toNat
    let p := s.port k n
    let run := if r.sub.toNat % 2 = 1 then none else p.running
    let xs := run.toList ++ p.queued
    let s := s.setPort k n { running := if run.isSome then none else p.running, queued := [] }
    .ok ((s.cancelStreams k xs).out r t (plainOp (BitVec.ofNat 64 xs.length)))

/-- SSTAT sends the state of a port (R247). -/
def execSstat (r : Rec) (s : State) : Host.Outcome State Fault Refusal :=
  memFire Forms.sstat r s fun t s => do
    s.scalars r
    let p := s.port s.cur.core.cluId r.lit.toNat
    let (sent, stall) := match p.running with
      | some x => (x.sent, x.stall.isSome)
      | none => (0, false)
    let w := putBits (sent % 2 ^ 32) 32 + putBits (p.queued.length % 4) 8 + putBits (b2n p.running.isSome) 7 + putBits (b2n stall) 6
    .ok (s.out r t (plainOp (BitVec.ofNat 64 w)))

/-! ## Copies (R248, R249, R251) -/

/-- The three operands of a copy: addresses and a length below 2^32 (R248). -/
def State.copyOps (s : State) (r : Rec) : Except Flt (Word × Word × Nat) := do
  s.scalars r
  if 2 ^ 32 ≤ s.cur.op2.val.toNat then .error { cause := .illegalRecord }
  else .ok (s.cur.op0.val, s.cur.op1.val, s.cur.op2.val.toNat)

/-- The message of a copy record (R248, R249). -/
def State.copyMsg (s : State) (r : Rec) (t : Word) (opc dst src len op : Nat) (pages : List Leaf) : Msg :=
  let tl := if r.lk.toNat = 1 then r.lit.toNat else 0
  let typ := if opc = 2 then r.typ.toNat else 0
  { words :=
      [msgHead opc 3 (r.sub.toNat / 8) tl (decide (32 ≤ tl)) r.dstA, t, BitVec.ofNat 64 dst, BitVec.ofNat 64 src,
        BitVec.ofNat 64 (putBits op 38 + putBits typ 34 + len),
        BitVec.ofNat 64 (putBits (b2n s.curAct.stall) 9 + (colourOf s.cur.tag).toNat), 0, 0]
    sender := ⟨.firing, s.cur.core, s.cur.node, s.cur.tag⟩
    checked := true
    pages := pages }

/-- A message leaves for the copy engine of the firing's cluster, behind its release (R43, R348). -/
def State.sendCopy (s : State) (m : Msg) : State :=
  let c := s.cur.core
  s.startRelease c (colourOf s.cur.tag) 2 false [.event (.engineInboxAccept (clusterEngine .copy c.cluId) m) Site.zero]

/-- The addresses of a copy's two ranges: a near one that an engine cannot use faults in either mode (R201, R230 check 2). -/
def State.copyNear (s : State) (dst src len : Nat) : Except Flt Unit :=
  match engNearBad s.cur.core.cluId dst len, engNearBad s.cur.core.cluId src len with
  | some a, _ => .error (addrFault (BitVec.ofNat 64 a))
  | none, some a => .error (addrFault (BitVec.ofNat 64 a))
  | none, none => .ok ()

/-- Both ranges of a copy by virtual addresses: in precise mode their pages are walked (R215, R248). -/
def State.copyPages (s : State) (dst src len : Nat) : Except Flt (List Leaf) := do
  let k := s.cur.core.cluId
  if s.curAct.stall then .ok []
  else
    let a ← s.engFoot k false [(src, len)]
    let b ← s.engFoot k true [(dst, len)]
    .ok (b ++ a)

/-- CPY sends a copy to the cluster's copy engine, `.phys` by physical addresses (R248). -/
def execCpy (r : Rec) (s : State) : Host.Outcome State Fault Refusal :=
  memFire Forms.cpy r s fun t s => do
    let (dst, src, len) ← s.copyOps r
    if r.sub.toNat % 2 = 1 then
      if !(len = 0 ∨ s.rangeOk dst.toNat len) then .error (addrFault dst)
      else if !(len = 0 ∨ s.rangeOk src.toNat len) then .error (addrFault src)
      else .ok (s.sendCopy (s.copyMsg r t 3 (dst.toNat % 2 ^ 56) (src.toNat % 2 ^ 56) len 0 []))
    else
      let a ← vaAt dst 0
      let b ← vaAt src 0
      s.copyNear a b len
      let pages ← s.copyPages a b len
      .ok (s.sendCopy (s.copyMsg r t 1 a b len 0 pages))

/-- A reduction's destination lies in the levels that R223 permits. -/
def State.reducible (s : State) (pages : List Leaf) (dst len : Nat) : Bool :=
  match (s.engRuns s.cur.core.cluId (s.cur.core, s.cur.node) pages false true (len + 1) dst len []).1 with
  | .ok ps => ps.all fun p => match p.pa with | some a => s.isSram a && s.rangeOk a p.len | none => false
  | .error _ => true

/-- CPYR sends a reducing copy (R248, R251). -/
def execCpyr (r : Rec) (s : State) : Host.Outcome State Fault Refusal :=
  memFire Forms.cpyr r s fun t s => do
    let (dst, src, len) ← s.copyOps r
    let a ← vaAt dst 0
    let b ← vaAt src 0
    s.copyNear a b len
    checkMultiple a (elemSize r)
    checkMultiple b (elemSize r)
    if len % elemSize r ≠ 0 then .error { cause := .alignment, info := BitVec.ofNat 64 len }
    else
      let pages ← s.copyPages a b len
      if !s.curAct.stall && !s.reducible pages a len then .error (permAt a)
      else .ok (s.sendCopy (s.copyMsg r t 2 a b len (r.sub.toNat % 8) pages))

/-! ## Translation (R252, R253) -/

/-- XLAT's two results for an address: physical address and status (R252). -/
def State.xlat (s : State) (c : CoreId) (a : Word) : (Word × Word) × State :=
  if 2 ^ 56 ≤ a.toNat then ((0, 3), s)
  else if isNear a.toNat then
    match nearKey c a.toNat 1 with
    | some k => (if laneKey ≤ k then (0, 3) else (BitVec.ofNat 64 k, 2), s)
    | none => ((0, 3), s)
  else
    match s.translate c.dieId none a.toNat with
    | (.inl lf, s) => ((BitVec.ofNat 64 (lf.pbase + (a.toNat - lf.vbase)), if lf.w then 0 else 1), s)
    | (.inr _, s) => ((0, 3), s)

/-- XLAT translates without accessing (R252). -/
def execXlat (r : Rec) (s : State) : Host.Outcome State Fault Refusal :=
  memFire Forms.xlat r s fun t s => do
    s.scalars r
    let (d, _) ← s.displacement r
    let ((a, b), s) := s.xlat s.cur.core (s.cur.op0.val + d)
    .ok ((s.emitA r t (plainOp a)).emitB r t (plainOp b))

/-- The dies within a scope of a core (R82). -/
def State.scopeDies (s : State) (scope : Nat) (c : CoreId) : List DieId :=
  if scope ≤ 3 then [c.dieId] else if scope = 4 then diesOf c.pkg else s.allDies

/-- TLBINV removes the entries of a page, or with `.all` every entry, from the dies of its scope; what stands withheld there walks
again (R216, R253). -/
def execTlbinv (r : Rec) (s : State) : Host.Outcome State Fault Refusal :=
  memFire Forms.tlbinv r s fun t s => do
    s.scalars r
    let all := decide (r.sub.toNat % 2 = 1)
    let va ← if all then .ok 0 else vaAt s.cur.op0.val 0
    let ds := s.scopeDies (r.sub.toNat / 8) s.cur.core
    let s := ds.foldl
      (fun s d => (s.modDie d fun x => { x with tlb := x.tlb.filter fun e => !all && !e.holds va }).retryDie d all va) s
    .ok (s.out r t (plainOp 0))

/-! ## Replies of loads (R237 to R240) -/

/-- A word of a lane written. -/
def Core.putLane (k : Core) (row l w : Nat) : Core :=
  { k with lanes := (List.range 4).foldl (fun m i => m.put ((Slice.mk row 0).at_ (4 * l + i)) ((leBytes 4 w).getD i 0)) k.lanes }

/-- The word that LDG leaves of an element (R239). -/
def gatherWord (typ x : Nat) : Nat :=
  match elemTy typ with
  | .int w true => (readInt w true x % (2 ^ 32 : Nat)).toNat
  | _ => x

/-- The gathered elements written to their lanes (R239). -/
def State.putGather (s : State) (c : CoreId) (q : MemReq) (row : Nat) (lanes : List Nat) : State :=
  let n := typWidth q.typ.toNat / 8
  let bs := q.bytes
  s.modCore c fun k =>
    ((List.range lanes.length).foldl
      (fun k i => k.putLane row (lanes.getD i 0) (gatherWord q.typ.toNat (leNat ((bs.drop (n * i)).take n)))) k)

/-- A load that has all its bytes delivers them. -/
def State.finishLoad (s : State) (c : CoreId) (q : MemReq) : State :=
  match q.op with
  | .loadVec row nrow _ => (s.modCore c fun k => k.putImage ⟨row, nrow⟩ q.bytes).finishReq c q q.reply0
  | .gather row lanes => (s.putGather c q row lanes).finishReq c q q.reply0
  | .mnop => s.finishReq c q q.reply0
  | .restore m =>
    if q.stage = 0 then (s.engineDone c m q.bytes).modReq c q.id fun q => { q with stage := 1 }
    else (s.engineDone c m q.bytes).dropReq c q.id
  | .table n =>
    let bs := leBytes 8 ((q.parts.head?.bind (·.pa)).getD 0) ++ q.bytes
    let s := (s.modCore c fun k =>
      { k with shardReqs := k.shardReqs.map fun x => if x.id = n then { x with data := bs, stage := 1 } else x }).dropReq c q.id
    s.laterAt .shardTableTurn c n
  | .pattern port ctag cdst =>
    let stall := match s.actOf? c.dieId q.inTag with
      | some a => (s.act a).stall
      | none => false
    match (if q.bytes = q.data then .ok q.pages else s.bindChecks c.cluId stall q.tag q.bytes) with
    | .error f => (s.fault c.cluId .firing false c q.node q.inTag f).dropReq c q.id
    | .ok pages =>
      let (st, s) := s.bindStream c { q with pages := pages } port ctag cdst q.bytes
      s.finishReq c q (plainOp (BitVec.ofNat 64 st))
  | _ => s.finishReq c q (typedOp q.typ.toNat 0 (leNat q.bytes))

/-- The address that an UNCORRECTABLE record names: the first byte of the request that carries poison. -/
def State.poisonAt (s : State) (q : MemReq) : Nat :=
  ((q.keys.find? fun k => decide (k < laneKey) && s.poisoned k).getD (q.keys.headD 0))

/-- LOAD_REPLY (R235, R237, R343): a read that left its unit takes the bytes that can be served and asks for the rest; with all of
them it replies, or, where they carry poison, purges (R227). A line of a LOST region that needs its directory ends it
(R376). -/
def execLoadReply (s : State) : Host.Outcome State Fault Refusal :=
  .next (
    let c := s.site.core
    let id := s.site.n
    match (s.core c).req? id with
    | none => s
    | some q =>
      if s.orphan c q then s.dropReq c id
      else if s.holdsBack c q then s.laterAt .loadReply c id
      else
        match s.lostLine c q false ((s.slicedLines q).filter fun l => q.lacking.any fun k => decide (k / 192 = l)) with
        | some l => s.failReq c q l
        | none =>
          let s := (s.askMerge c q).readAll c q
          match (s.core c).req? id with
          | none => s
          | some q =>
            if !q.lacking.isEmpty then s.laterAt .loadReply c id
            else if q.poison then (s.dropReq c id).consumePoison c q.node q.inTag (s.poisonAt q)
            else s.finishLoad c q)

end Sys2Proof.Machine
end

