-- ==== Sys2Proof/Machine/Sync.lean ====
section
/-! DEFINITION. The synchronisation instructions: releases and acquires (R381), timeline counters (R382 to R385), link sends (R386),
barriers (R388 to R390), presence words (R391), atomics (R392 to R394), and the opening of speculation (R395). -/

namespace Sys2Proof.Machine

open Sys2Proof

/-! ## Releases and acquires (R381) -/

/-- A release of the firing that holds its result tokens, and completes a counter number where it has one (R347, R381, R383). -/
def State.resultRelease (s : State) (r : Rec) (t : Word) (scope : Option Nat) (loads blocks : Bool) (tlc : Option (Nat × Nat))
    (o : Operand) : State :=
  let sc := s.resultScope r scope
  let (held, s) := s.heldTokens r t o
  s.openRelease s.cur.core (colourOf s.cur.tag) sc loads blocks tlc held

/-- FENCE: a release at SCOPE that waits for the core's earlier reads too and holds its later requests (R381). -/
def execFence (r : Rec) (s : State) : Host.Outcome State Fault Refusal :=
  memFire Forms.fence r s fun t s => .ok (s.resultRelease r t (some (r.sub.toNat / 8)) true true none s.cur.op0)

/-- REL: a release at SCOPE (R381). -/
def execRel (r : Rec) (s : State) : Host.Outcome State Fault Refusal :=
  memFire Forms.rel r s fun t s => .ok (s.resultRelease r t (some (r.sub.toNat / 8)) false false none s.cur.op0)

/-- ACQ: it waits for the core's earlier reads and holds its later requests; it releases nothing (R381). -/
def execAcq (r : Rec) (s : State) : Host.Outcome State Fault Refusal :=
  memFire Forms.acq r s fun t s => .ok (s.resultRelease r t none true true none s.cur.op0)

/-! ## Timeline counters (R382 to R385) -/

/-- TLINC takes a number, releases at SCOPE, completes the number and sends it (R383). -/
def execTlinc (r : Rec) (s : State) : Host.Outcome State Fault Refusal :=
  fire Forms.tlinc r s fun t s => do
    s.scalars r
    let (n, s) := s.takeNumber s.cur.core.cluId (colourOf s.cur.tag) r.lit.toNat
    .ok (s.resultRelease r t (some (r.sub.toNat / 8)) false false (some (r.lit.toNat, n)) (plainOp (BitVec.ofNat 64 n)))

/-- TLWAIT sends DONE once it has reached $0 (R384). -/
def execTlwait (r : Rec) (s : State) : Host.Outcome State Fault Refusal :=
  fire Forms.tlwait r s fun t s => do
    s.scalars r
    let k := s.cur.core.cluId
    let w : Wait := ⟨colourOf s.cur.tag, r.lit.toNat, s.cur.op0.val.toNat, s.asker r t⟩
    .ok ((s.modCluster k fun y => { y with waits := y.waits ++ [w] }).wakeTimeline k)

/-- TLREAD sends DONE and TAKEN (R384). -/
def execTlread (r : Rec) (s : State) : Host.Outcome State Fault Refusal :=
  fire Forms.tlread r s fun t s => do
    s.scalars r
    let x := s.counter s.cur.core.cluId (colourOf s.cur.tag) r.lit.toNat
    .ok ((s.emitA r t (plainOp (BitVec.ofNat 64 x.doneN))).emitB r t (plainOp (BitVec.ofNat 64 x.taken)))

/-- An address of R229 that must lie at near level 1: any other level, and far, is PERMISSION (R449). -/
def State.padAddr (s : State) (a : Word) (n : Nat) : Except Flt Nat := do
  let va ← vaAt a 0
  checkNear s.cur.core va n
  if isNear va && decide (nearLevel va = 1) then .ok va else .error (permAt va)

/-- Bytes at a near address of the firing's core. -/
def State.nearBytes (s : State) (va n : Nat) : List Byte :=
  match nearKey s.cur.core va n with
  | some k => s.keyBytes s.cur.core k n
  | none => []

/-- The words of bytes. -/
def wordsOf (bs : List Byte) : List Word := (List.range (bs.length / 8)).map fun i => wordOfBytes ((bs.drop (8 * i)).take 8)

/-- An active message that stands at near level 1, as its header's BEATS gives its length (R41, R385). -/
def State.messageAt (s : State) (a : Word) : Except Flt (List Word) := do
  let va ← s.padAddr a 16
  checkMultiple va 16
  let n := 16 * (bitsOf (leNat (s.nearBytes va 8)) 55 53 + 1)
  checkNear s.cur.core va n
  .ok (wordsOf (s.nearBytes va n))

/-- TLARM arms a send to the cluster's copy or link engine, or sends at once where its counter has reached the threshold (R385). -/
def execTlarm (r : Rec) (s : State) : Host.Outcome State Fault Refusal :=
  fire Forms.tlarm r s fun t s => do
    s.scalars r
    let ws ← s.messageAt s.cur.op1.val
    let k := s.cur.core.cluId
    let c := r.lit.toNat % 32
    let col := colourOf s.cur.tag
    let m : Msg := ⟨ws, ⟨.armed, s.cur.core, s.cur.node, t⟩, false, []⟩
    let x : Armed := ⟨col, c, s.cur.op0.val.toNat, if r.lit.toNat / 32 = 1 then .link else .copy, m, s.asker r t⟩
    if x.thr ≤ (s.counter k col c).doneN then .ok ((s.sendArmed k x).emitA r t (plainOp 2))
    else if 64 ≤ (s.cluster k).armed.length then .ok (s.emitA r t (plainOp 1))
    else .ok ((s.modCluster k fun y => { y with armed := y.armed ++ [x] }).emitA r t (plainOp 0))

/-! ## Link sends (R386) -/

/-- The destination word that stands for a far-table entry. -/
def farDest (f : Nat) : Nat := putBits 3 22 + putBits f 14

/-- The message of an LSEND to a cluster (R386). -/
def State.linkMsg (s : State) (r : Rec) (t : Word) (k : CluId) (dst src len : Nat) (pages : List Leaf) : Msg :=
  let l := r.lit.toNat
  { words :=
      [msgHead 1 3 (r.sub.toNat / 8) (bitsOf l 16 12) (l.testBit 17) r.dstA, t, BitVec.ofNat 64 dst, BitVec.ofNat 64 src,
        BitVec.ofNat 64
          (putBits (k.pkg % 64) 58 + putBits (k.die % 4) 56 + putBits (k.clu % 8) 53 + putBits (bitsOf l 10 6) 48
            + putBits (bitsOf l 11 11) 47 + len),
        BitVec.ofNat 64 (putBits (b2n s.curAct.stall) 9 + (colourOf s.cur.tag).toNat), 0, 0]
    sender := ⟨.firing, s.cur.core, s.cur.node, s.cur.tag⟩
    checked := true
    pages := pages }

/-- LSEND sends a copy to another die through the cluster's link engine (R386). A near destination is PERMISSION, as R449 gives
for an address at a level that an instruction does not take. -/
def execLsend (r : Rec) (s : State) : Host.Outcome State Fault Refusal :=
  memFire Forms.lsend r s fun t s => do
    let (dst, src, len) ← s.copyOps r
    let c := s.cur.core
    let f := r.lit.toNat % 64
    let e := (Assoc.getD (s.core c).far f 0).toNat
    if !(e.testBit 63) then .error { cause := .illegalRecord }
    else
      let to_ : CoreId := ⟨bitsOf e 52 47, bitsOf e 46 45, bitsOf e 44 42, 0⟩
      if !s.covers (r.sub.toNat / 8) c to_ then .error { cause := .scopeChannel, info := BitVec.ofNat 64 (farDest f) }
      else if (s.curAct?.bind fun a => s.colourOn a to_.dieId).isNone then
        .error { cause := .translation, info := BitVec.ofNat 64 (farDest f), detail := 0xFFF }
      else
        let a ← vaAt dst 0
        let b ← vaAt src 0
        if isNear a then .error (permAt a)
        else
          s.copyNear a b len
          let pages ← s.copyPages a b len
          let m := s.linkMsg r t to_.cluId a b len pages
          .ok (s.startRelease c (colourOf s.cur.tag) 2 false [.event (.engineInboxAccept (clusterEngine .link c.cluId) m) Site.zero])

/-! ## Barriers (R388 to R390) -/

/-- The phase word of a barrier (R389). -/
def Barrier.word (b : Barrier) (freed : Bool) : Word :=
  BitVec.ofNat 64
    (putBits (b.nabs % 256) 24 + putBits (b2n freed) 18 + putBits (b2n b.killed) 17 + putBits (b2n b.absent) 16 + b.phase.toNat)

/-- The held replies of a barrier sent (R389, R390). -/
def State.answerBarrier (s : State) (b : Barrier) (freed : Bool) : State :=
  b.replies.foldl (fun s x => s.replyBoth x.2 (plainOp (b.word freed)) (plainOp (b.word freed))) s

/-- A barrier freed: each held reply is sent with FREED (R390). -/
def State.freeBarrier (s : State) (d : DieId) (i : Nat) (b : Barrier) : State :=
  (s.modDie d fun x => { x with barriers := Assoc.erase x.barriers i }).answerBarrier b true

/-- A barrier as it now stands: freed where no member is present, its phase complete where none is owed (R389, R390). -/
def State.putBarrier (s : State) (d : DieId) (i : Nat) (b : Barrier) : State :=
  if b.members.isEmpty then s.freeBarrier d i b
  else if b.owed.isEmpty then
    (s.modDie d fun x =>
      { x with barriers := Assoc.set x.barriers i
                 { b with phase := b.phase + 1, owed := b.members, replies := [], nabs := 0, absent := false, killed := false } }).answerBarrier
      b false
  else s.modDie d fun x => { x with barriers := Assoc.set x.barriers i b }

/-- A member leaves: by BAREXIT; or by retirement or purge, which count it as an absent arrival where it is owed and discard its
held reply where it has arrived (R390). -/
def Barrier.leave (b : Barrier) (col : BitVec 9) (exit killed : Bool) : Barrier :=
  let owed := decide (col ∈ b.owed)
  let b := { b with members := b.members.filter (fun m => decide (m ≠ col)), owed := b.owed.filter fun m => decide (m ≠ col) }
  if exit then b
  else if owed then { b with nabs := b.nabs + 1, absent := b.absent || !killed, killed := b.killed || killed }
  else { b with replies := b.replies.filter fun x => decide (x.1 ≠ col) }

/-- A colour leaves the barriers of a die, and the barriers it owns are freed (R390). -/
def State.leaveBarriers (s : State) (d : DieId) (col : BitVec 9) (killed : Bool) : State :=
  (s.die d).barriers.foldl
    (fun s p =>
      let b := if col ∈ p.2.members then p.2.leave col false killed else p.2
      if b.owner = col then s.freeBarrier d p.1 b else if col ∈ p.2.members then s.putBarrier d p.1 b else s) s

/-- The barrier that a handle names; PERMISSION for a free index or another instance (R389). -/
def State.barrierOf (s : State) (h : Word) : Except Flt (Nat × Barrier) :=
  let i := h.toNat % 256
  match Assoc.get? (s.die s.cur.core.dieId).barriers i with
  | some b => if h.toNat / 256 = b.inst.toNat then .ok (i, b) else .error { cause := .permission }
  | none => .error { cause := .permission }

/-- The member entries of BARINIT: live colours of the die, none repeated, bits [15:9] zero (R388). -/
def State.membersOk (s : State) (ms : List Nat) : Bool :=
  ms.all (fun m => decide (m < 512) && (s.owner? s.cur.core.dieId (BitVec.ofNat 9 m)).isSome) && decide ms.Nodup

/-- BARINIT takes the lowest free barrier for the members listed at $0 (R388; log 48). -/
def execBarinit (r : Rec) (s : State) : Host.Outcome State Fault Refusal :=
  fire Forms.barinit r s fun t s => do
    s.scalars r
    let n := s.cur.op1.val.toNat
    let range := decide (1 ≤ n) && decide (n ≤ 64)
    let va ← s.padAddr s.cur.op0.val (if range then 2 * n else 2)
    checkMultiple va 2
    let d := s.cur.core.dieId
    let bs := s.nearBytes va (2 * n)
    let ms := if range then (List.range n).map fun i => leNat ((bs.drop (2 * i)).take 2) else []
    let refuse (st : Word) : Eff := .ok ((s.emitA r t (plainOp 0xFFFFFFFF)).emitB r t (plainOp st))
    if !range || !s.membersOk ms then refuse 2
    else match leastBelow 256 fun i => (Assoc.get? (s.die d).barriers i).isNone with
      | none => refuse 1
      | some i =>
        let inst := (s.die d).barInst + 1
        let ms := ms.map (BitVec.ofNat 9)
        let b : Barrier :=
          { inst := inst, owner := colourOf s.cur.tag, phase := 0, members := ms, owed := ms, replies := [], nabs := 0,
            absent := false, killed := false }
        let s := s.modDie d fun x => { x with barInst := inst, barriers := Assoc.set x.barriers i b }
        .ok ((s.emitA r t (plainOp (BitVec.ofNat 64 (inst.toNat * 256 + i)))).emitB r t (plainOp 0))

/-- BARARR records an arrival and holds its reply until the phase completes (R389). -/
def execBararr (r : Rec) (s : State) : Host.Outcome State Fault Refusal :=
  fire Forms.bararr r s fun t s => do
    s.scalars r
    let (i, b) ← s.barrierOf s.cur.op0.val
    let col := colourOf s.cur.tag
    if col ∉ b.members then .error { cause := .permission }
    else if col ∉ b.owed then .error { cause := .illegalRecord }
    else
      .ok (s.putBarrier s.cur.core.dieId i
        { b with owed := b.owed.filter (fun m => decide (m ≠ col)), replies := b.replies ++ [(col, s.asker r t)] })

/-- BAREXIT: the firing's colour is no member any more (R390). -/
def execBarexit (r : Rec) (s : State) : Host.Outcome State Fault Refusal :=
  fire Forms.barexit r s fun t s => do
    s.scalars r
    let (i, b) ← s.barrierOf s.cur.op0.val
    let col := colourOf s.cur.tag
    if col ∉ b.members then .error { cause := .permission }
    else .ok ((s.putBarrier s.cur.core.dieId i (b.leave col true false)).out r t (plainOp 0))

/-! ## Presence words (R39, R391) -/

/-- The address of a presence operation: near level 1 to 3 or far, a multiple of 16, and where it translates at issue in one of the
three permitted levels (R39, R230, R449). Answers the address and, where known, its key. -/
def State.presenceAt (s : State) (r : Rec) : Except Flt (Nat × Option Nat) := do
  s.scalars r
  let (d, _) ← s.displacement r
  let va ← vaAt s.cur.op0.val d
  checkNear s.cur.core va 16
  if isNear va && decide (nearLevel va = 0) then .error (permAt va)
  else
    checkMultiple va 16
    let (ps, _, _) ← s.coverOne s.cur.core s.cur.node s.curAct.stall true va 16
    match (ps.head?).bind (·.pa) with
    | none => .ok (va, none)
    | some a => if decide (padKey ≤ a) || s.isSram a then .ok (va, some a) else .error (permAt va)

/-- The scope of IPUT's release by where its word lies; pod where that is not known yet (R348). -/
def State.putScope (s : State) (c : CoreId) (key : Option Nat) : Nat :=
  match key with
  | none => 5
  | some a =>
    if padKey ≤ a then 1
    else match s.physAt a with
      | .shared k off =>
        if k = c.cluId ∧ off / Config.padBytes = c.core then 1
        else if k.dieId = c.dieId then 2
        else if k.pkg = c.pkg then 4 else 5
      | .chip d _ => if d = c.dieId then 3 else if d.pkg = c.pkg then 4 else 5
      | _ => 5

/-- ITAKE takes the value of a presence word, or waits for it (R39, R391). -/
def execItake (r : Rec) (s : State) : Host.Outcome State Fault Refusal :=
  memFire Forms.itake r s fun t s => do
    let (va, _) ← s.presenceAt r
    s.makeReq r t (.presence 0 0) true [(va, 16)] [] zeroOp none

/-- IREAD reads the value of a presence word, or waits for it (R39, R391). -/
def execIread (r : Rec) (s : State) : Host.Outcome State Fault Refusal :=
  memFire Forms.iread r s fun t s => do
    let (va, _) ← s.presenceAt r
    s.makeReq r t (.presence 1 0) true [(va, 16)] [] zeroOp none

/-- IPUT fills a presence word or serves its waiters, behind its release (R39, R348, R391). -/
def execIput (r : Rec) (s : State) : Host.Outcome State Fault Refusal :=
  memFire Forms.iput r s fun t s => do
    let (va, key) ← s.presenceAt r
    s.makeReq r t (.presence 2 s.cur.op1.val) true [(va, 16)] [] zeroOp none [] (some (s.putScope s.cur.core key))

/-- ICLR empties a presence word (R39, R391). -/
def execIclr (r : Rec) (s : State) : Host.Outcome State Fault Refusal :=
  memFire Forms.iclr r s fun t s => do
    let (va, _) ← s.presenceAt r
    s.makeReq r t (.presence 3 0) true [(va, 16)] [] zeroOp none

/-! ## Atomics (R392 to R394) -/

/-- The address of an atomic of n bytes: no lane slice, naturally aligned, no NC page (R392). -/
def State.atomAt (s : State) (r : Rec) (disp : Nat) (n : Nat) : Except Flt Nat := do
  s.scalars r
  let va ← vaAt s.cur.op0.val ((BitVec.ofNat 16 disp).signExtend 64)
  checkNear s.cur.core va n
  if isNear va && decide (nearLevel va = 0) then .error (permAt va)
  else
    checkMultiple va n
    let (ps, _, _) ← s.coverOne s.cur.core s.cur.node s.curAct.stall true va n
    if ps.any (·.nc) then .error (permAt va) else .ok va

/-- The scope of an atomic's release; none without REL (R392). -/
def relScope (r : Rec) : Option Nat := if r.sub.toNat / 4 % 2 = 1 then some (r.sub.toNat / 8) else none

/-- ATOM replaces the word at its address by an operation on it, and sends the old value (R393). -/
def execAtom (r : Rec) (s : State) : Host.Outcome State Fault Refusal :=
  memFire Forms.atom r s fun t s => do
    let op := bitsOf r.lit.toNat 19 16
    if 7 ≤ op ∨ (r.typ = 8 ∧ op ∈ [1, 2, 3]) then .error { cause := .illegalRecord }
    else
      let va ← s.atomAt r (r.lit.toNat % 65536) (elemSize r)
      s.makeReq r t (.atom op s.cur.op1.val) true [(va, elemSize r)] [] zeroOp none [] (relScope r)

/-- ACAS compares and swaps, with `.x16` beside a count of swaps (R394). -/
def execAcas (r : Rec) (s : State) : Host.Outcome State Fault Refusal :=
  memFire Forms.acas r s fun t s => do
    let n := if x16Of r then 16 else elemSize r
    let va ← s.atomAt r (if r.lk.toNat = 1 then r.lit.toNat % 65536 else 0) n
    s.makeReq r t (.cas (x16Of r) s.cur.op1.val s.cur.op2.val) true [(va, n)] [] zeroOp none [] (relScope r)

/-! ## Speculation (R395) -/

/-- The log of a SPECBEG: a multiple of 16, far or in the chip scratchpad, all of it translated (R395; log 50). -/
def State.specLog (s : State) (a : Word) (n : Nat) : Except Flt (List MemPart) := do
  let va ← vaAt a 0
  checkNear s.cur.core va (16 * n)
  if isNear va && decide (nearLevel va ≠ 3) then .error (permAt va)
  else
    checkMultiple va 16
    let (ps, _, _) ← s.coverOne s.cur.core s.cur.node false true va (16 * n)
    .ok ps

/-- SPECBEG opens a speculative colour: a child that starts as SPAWN's does, with the parent's present RNG counter, under a handle
that keeps that snapshot and the log (R395). -/
def execSpecbeg (r : Rec) (s : State) : Host.Outcome State Fault Refusal :=
  fireRaw Forms.specbeg r s fun s => do
    s.scalars r
    let ps ← s.specLog s.cur.op1.val r.lit.toNat
    let d := s.cur.core.dieId
    let snap := s.curAct.rng
    match s.startChild .spec false (s.parentDest r) true none with
    | none => .error { cause := .colourExhausted }
    | some (t, id, s') =>
      match leastBelow 64 fun i => (Assoc.get? (s.die d).handles i).isNone with
      | none => .error { cause := .specConflict }
      | some h =>
        let s := (s'.modCurAct fun a => { a with rng := snap }).modAct id fun a =>
          { a with rng := snap, rng0 := snap, handle := some (d, h) }
        let s := s.modDie d fun x =>
          { x with handles := Assoc.set x.handles h ⟨s.curAct?.getD 0, id, true, snap, ps, r.lit.toNat, 0⟩ }
        .ok (s.firstToken r t id (plainOp s.cur.op0.val))

end Sys2Proof.Machine
end

