-- ==== Sys2Proof/Machine/Vector.lean ====
section
/-! DEFINITION. The vector, format conversion and selection instructions (R282 to R292, R310, R311). -/

namespace Sys2Proof.Machine

open Sys2Proof

/-! ## Elements of slices (R282, R283) -/

/-- The elements of a slice's image in a width; of 6-bit ones as many as its bits hold, whether or not they fill whole groups of 3 bytes (R49;
log 104). -/
def Slice.count (x : Slice) (w : Nat) : Nat := 8 * x.size / w

/-- The elements of a slice of the firing's core. -/
def State.elems (s : State) (x : Slice) (w : Nat) : List Nat := unpackElems (s.image x) w (x.count w)

/-- Elements written over a slice, with zeros beyond the last (R289, R290). -/
def State.putElems (s : State) (x : Slice) (w : Nat) (es : List Nat) : State :=
  let bs := packElems w es
  s.putImage x (bs ++ List.replicate (x.size - bs.length) 0)

/-- Operand n, a slice of the given NROW or a scalar that stands for every element (R283). -/
def State.spread (s : State) (r : Rec) (n : Nat) (like : Slice) : Except Flt (List Nat) :=
  let w := typWidth r.typ.toNat
  if kindForm (s.opnd r n).kind = 0 then .ok (List.replicate (like.count w) (s.elem r n))
  else do
    let x ← s.sliceAt r n
    if x.nrow ≠ like.nrow then .error (slotFault (s.opnd r n) n) else .ok (s.elems x w)

/-- Operand n, a slice whose rows must number `rows`, or OPERAND_SLOT. -/
def State.sliceRows (s : State) (r : Rec) (n rows : Nat) : Except Flt Slice := do
  let x ← s.sliceAt r n
  if x.nrow + 1 ≠ rows then .error (slotFault (s.opnd r n) n) else .ok x

/-- The descriptor of a written slice, operand n, with a CLASS and the port-0 operand's END (R283). -/
def State.descr (s : State) (r : Rec) (n cls : Nat) : Operand := ⟨s.val r n, mkKind 1 cls s.end0⟩

/-- The rounding of element i of a firing whose draws begin at the counter as it stands, and the state with n draws reserved
where the mode is SR (R64, R283). -/
def State.vecRnd (s : State) (r : Rec) (n : Nat) : (Nat → Rnd) × State :=
  let mode := s.curAct.mode (r.sub.toNat / 8)
  let c := s.curAct.rng
  (fun i => ⟨mode, r.sub.toNat.testBit 2, drawHi c i⟩, if mode = 5 then s.reserve n else s)

/-- The elements of an elementwise result written over $0 and its descriptor sent (R283). -/
def vecOut (r : Rec) (t : Word) (x : Slice) (s : State) (es : List (Nat × Flg)) (cls : Nat) : Eff :=
  let o := s.descr r 0 cls
  .ok (((s.putElems x (typWidth r.typ.toNat) (es.map (·.1))).raise (orFlags es)).out r t o)

/-- `.sat` of layout F (R81). -/
def satF (r : Rec) : Bool := r.sub.toNat.testBit 2

/-- An elementwise instruction of one operand; `draws` where its float results are rounded (R283, R285). -/
def vecUn (f : Form) (draws : Bool) (iop : Nat → Bool → Nat → Nat × Flg) (fop : Fmt → Rnd → Nat → Nat × Flg) (r : Rec)
    (s : State) : Host.Outcome State Fault Refusal :=
  fire f r s fun t s => do
    let typ := r.typ.toNat
    let x ← s.sliceAt r 0
    let es := s.elems x (typWidth typ)
    let (m, s) := s.vecRnd r (if draws && decide (8 ≤ typ) then es.length else 0)
    vecOut r t x s (es.zipIdx.map fun p => if typ < 8 then iop typ (satF r) p.1 else fop (fmtOf typ) (m p.2) p.1)
      (classOf typ)

/-- An elementwise instruction of two operands (R283, R285). -/
def vecBin (f : Form) (draws : Bool) (iop : Nat → Bool → Nat → Nat → Nat × Flg) (fop : Fmt → Rnd → Nat → Nat → Nat × Flg)
    (r : Rec) (s : State) : Host.Outcome State Fault Refusal :=
  fire f r s fun t s => do
    let typ := r.typ.toNat
    let x ← s.sliceAt r 0
    let es := s.elems x (typWidth typ)
    let bs ← s.spread r 1 x
    let (m, s) := s.vecRnd r (if draws && decide (8 ≤ typ) then es.length else 0)
    vecOut r t x s
      ((es.zip bs).zipIdx.map fun p =>
        if typ < 8 then iop typ (satF r) p.1.1 p.1.2 else fop (fmtOf typ) (m p.2) p.1.1 p.1.2)
      (classOf typ)

/-! ## Elementwise arithmetic (R285) -/

/-- VADD. -/
def execVadd (r : Rec) (s : State) : Host.Outcome State Fault Refusal :=
  vecBin Forms.vadd true (fun ty sat a b => intRes ty sat (asInt ty a + asInt ty b)) faddBits r s
/-- VSUB. -/
def execVsub (r : Rec) (s : State) : Host.Outcome State Fault Refusal :=
  vecBin Forms.vsub true (fun ty sat a b => intRes ty sat (asInt ty a - asInt ty b)) fsubBits r s
/-- VMUL. -/
def execVmul (r : Rec) (s : State) : Host.Outcome State Fault Refusal :=
  vecBin Forms.vmul true (fun ty sat a b => intRes ty sat (asInt ty a * asInt ty b)) fmulBits r s
/-- VFMA. -/
def execVfma (r : Rec) (s : State) : Host.Outcome State Fault Refusal :=
  fire Forms.vfma r s fun t s => do
    let typ := r.typ.toNat
    let x ← s.sliceAt r 0
    let es := s.elems x (typWidth typ)
    let bs ← s.spread r 1 x
    let cs ← s.spread r 2 x
    let (m, s) := s.vecRnd r es.length
    vecOut r t x s
      ((es.zip (bs.zip cs)).zipIdx.map fun p => fmaBits (fmtOf typ) (m p.2) p.1.1 p.1.2.1 p.1.2.2) (classOf typ)
/-- VMIN (R176, R185). -/
def execVmin (r : Rec) (s : State) : Host.Outcome State Fault Refusal :=
  vecBin Forms.vmin false (fun ty _ a b => (if asInt ty a ≤ asInt ty b then a else b, 0))
    (fun f _ a b => fminmax f false a b) r s
/-- VMAX (R176, R185). -/
def execVmax (r : Rec) (s : State) : Host.Outcome State Fault Refusal :=
  vecBin Forms.vmax false (fun ty _ a b => (if asInt ty b ≤ asInt ty a then a else b, 0))
    (fun f _ a b => fminmax f true a b) r s
/-- VABS. -/
def execVabs (r : Rec) (s : State) : Host.Outcome State Fault Refusal :=
  vecUn Forms.vabs false (fun ty sat a => intRes ty sat ((asInt ty a).natAbs : Int)) (fun f _ a => (a % 2 ^ f.mbits, 0)) r s
/-- VNEG. -/
def execVneg (r : Rec) (s : State) : Host.Outcome State Fault Refusal :=
  vecUn Forms.vneg false (fun ty sat a => intRes ty sat (-(asInt ty a))) (fun f _ a => (a ^^^ 2 ^ f.mbits, 0)) r s
/-- VEXP2 (R73). -/
def execVexp2 (r : Rec) (s : State) : Host.Outcome State Fault Refusal :=
  vecUn Forms.vexp2 true (fun _ _ a => (a, 0)) fexp2Bits r s
/-- VRCP. -/
def execVrcp (r : Rec) (s : State) : Host.Outcome State Fault Refusal :=
  vecUn Forms.vrcp true (fun _ _ a => (a, 0)) frcpBits r s
/-- VRSQ. -/
def execVrsq (r : Rec) (s : State) : Host.Outcome State Fault Refusal :=
  vecUn Forms.vrsq true (fun _ _ a => (a, 0)) frsqBits r s

/-! ## Bits, shifts, comparison, selection (R286) -/

/-- VAND. -/
def execVand (r : Rec) (s : State) : Host.Outcome State Fault Refusal :=
  vecBin Forms.vand false (fun _ _ a b => (a &&& b, 0)) (fun _ _ a b => (a &&& b, 0)) r s
/-- VOR. -/
def execVor (r : Rec) (s : State) : Host.Outcome State Fault Refusal :=
  vecBin Forms.vor false (fun _ _ a b => (a ||| b, 0)) (fun _ _ a b => (a ||| b, 0)) r s
/-- VXOR. -/
def execVxor (r : Rec) (s : State) : Host.Outcome State Fault Refusal :=
  vecBin Forms.vxor false (fun _ _ a b => (a ^^^ b, 0)) (fun _ _ a b => (a ^^^ b, 0)) r s
/-- VSHL; `.sat` stands in layout I (R177). -/
def execVshl (r : Rec) (s : State) : Host.Outcome State Fault Refusal :=
  vecBin Forms.vshl false (fun ty _ a b => shlBits ty (satI r) a b) (fun _ _ a _ => (a, 0)) r s
/-- VSHR: SHR on an unsigned TYP, SAR on a signed one (R177). -/
def execVshr (r : Rec) (s : State) : Host.Outcome State Fault Refusal :=
  vecBin Forms.vshr false (fun ty _ a b => (if (intTy ty).2 then sarBits ty a b else shrBits ty a b, 0))
    (fun _ _ a _ => (a, 0)) r s

/-- A condition of VCMP on float elements, and NV (R286). -/
def vcmpFlt (f : Fmt) (cond a b : Nat) : Bool × Flg :=
  let x := readFlt f a
  let y := readFlt f b
  let nan := x.isNan || y.isNan
  let quiet := snanFlag [x, y]
  let loud := if nan then fNV else 0
  match cond with
  | 0 => (!nan && decide (x.cmp y = 0), quiet)
  | 1 => (nan || decide (x.cmp y ≠ 0), quiet)
  | 2 => (!nan && decide (x.cmp y < 0), loud)
  | 3 => (!nan && decide (x.cmp y ≤ 0), loud)
  | 4 => (!nan && decide (0 < x.cmp y), loud)
  | 5 => (!nan && decide (0 ≤ x.cmp y), loud)
  | _ => (nan, quiet)

/-- VCMP writes the unsigned integer 1 or 0 for each element (R286). -/
def execVcmp (r : Rec) (s : State) : Host.Outcome State Fault Refusal :=
  fire Forms.vcmp r s fun t s => do
    let typ := r.typ.toNat
    let x ← s.sliceAt r 0
    let bs ← s.spread r 1 x
    let cond := r.sub.toNat % 8
    vecOut r t x s
      (((s.elems x (typWidth typ)).zip bs).map fun p =>
        if typ < 8 then (b2n (cmpCond cond (asInt typ p.1) (asInt typ p.2)), 0)
        else (b2n (vcmpFlt (fmtOf typ) cond p.1 p.2).1, (vcmpFlt (fmtOf typ) cond p.1 p.2).2)) 1

/-- VSEL (R286). -/
def execVsel (r : Rec) (s : State) : Host.Outcome State Fault Refusal :=
  fire Forms.vsel r s fun t s => do
    let typ := r.typ.toNat
    let x ← s.sliceAt r 0
    let bs ← s.spread r 1 x
    let cs ← s.spread r 2 x
    vecOut r t x s
      (((s.elems x (typWidth typ)).zip (bs.zip cs)).map fun p => (if p.1 ≠ 0 then p.2.1 else p.2.2, 0)) (classOf typ)

/-! ## Reductions (R72, R287) -/

/-- One step of VRED and VSCAN (R287). -/
def redStep (typ op : Nat) (m : Rnd) (a b : Nat) : Nat × Flg :=
  if typ < 8 then
    match op with
    | 0 => intRes typ m.sat (asInt typ a + asInt typ b)
    | 1 => (if asInt typ a ≤ asInt typ b then a else b, 0)
    | 2 => (if asInt typ b ≤ asInt typ a then a else b, 0)
    | _ => (a ||| b, 0)
  else
    match op with
    | 0 => faddBits (fmtOf typ) m a b
    | 1 => fminmax (fmtOf typ) false a b
    | _ => fminmax (fmtOf typ) true a b

/-- The running values of a reduction from an accumulator, with the flags so far (R72). -/
def redGo (typ op : Nat) (m : Nat → Rnd) : Nat → Nat → List Nat → List (Nat × Flg)
  | _, _, [] => []
  | i, acc, x :: t =>
    let y := redStep typ op (m i) acc x
    y :: redGo typ op m (i + 1) y.1 t

/-- Every running value of a reduction, the first element as it stands (R72, R287). -/
def redAll (typ op : Nat) (m : Nat → Rnd) : List Nat → List (Nat × Flg)
  | [] => []
  | x :: t => (x, 0) :: redGo typ op m 0 x t

/-- What VRED and VSCAN compute: the slice, the running values, the state with its draws reserved. -/
def State.reduce (s : State) (r : Rec) : Except Flt (Slice × List (Nat × Flg) × State) := do
  let typ := r.typ.toNat
  let op := r.sub.toNat % 4
  let x ← s.sliceAt r 0
  let es := s.elems x (typWidth typ)
  let (m, s) := s.vecRnd r (if op = 0 ∧ 8 ≤ typ then es.length - 1 else 0)
  .ok (x, redAll typ op m es, s)

/-- VRED sends the last value as a scalar of TYP, END zero (R287). -/
def execVred (r : Rec) (s : State) : Host.Outcome State Fault Refusal :=
  fire Forms.vred r s fun t s => do
    let (_, ys, s) ← s.reduce r
    .ok ((s.raise (orFlags ys)).out r t (typedOp r.typ.toNat 0 ((ys.getLast?.map (·.1)).getD 0)))
/-- VSCAN writes every running value (R287). -/
def execVscan (r : Rec) (s : State) : Host.Outcome State Fault Refusal :=
  fire Forms.vscan r s fun t s => do
    let (x, ys, s) ← s.reduce r
    vecOut r t x s ys (classOf r.typ.toNat)

/-! ## Moving and filling (R288) -/

/-- A result of several operand slices: written over operand n, its descriptor sent. -/
def moveOut (r : Rec) (t : Word) (s : State) (n : Nat) (x : Slice) (w : Nat) (es : List Nat) (cls : Nat) : Eff :=
  let o := s.descr r n cls
  .ok ((s.putElems x w es).out r t o)

/-- VPERM. -/
def execVperm (r : Rec) (s : State) : Host.Outcome State Fault Refusal :=
  fire Forms.vperm r s fun t s => do
    let x ← s.sliceAt r 0
    let y ← s.sliceRows r 1 (x.nrow + 1)
    let ws := s.elems x 32
    moveOut r t s 0 x 32
      ((s.elems y 32).zipIdx.map fun p => if p.1.testBit 31 then 0 else ws.getD (p.2 / 64 * 64 + p.1 % 64) 0)
      (classOf r.typ.toNat)
/-- VSPLAT. -/
def execVsplat (r : Rec) (s : State) : Host.Outcome State Fault Refusal :=
  fire Forms.vsplat r s fun t s => do
    let w := typWidth r.typ.toNat
    let x ← s.sliceAt r 0
    let _ ← s.scalarAt r 1
    moveOut r t s 0 x w (List.replicate (x.count w) (s.elem r 1)) (classOf r.typ.toNat)
/-- VIOTA. -/
def execViota (r : Rec) (s : State) : Host.Outcome State Fault Refusal :=
  fire Forms.viota r s fun t s => do
    let w := typWidth r.typ.toNat
    let x ← s.sliceAt r 0
    let _ ← s.scalarAt r 1
    moveOut r t s 0 x w ((List.range (x.count w)).map fun e => (s.elem r 1 + e) % 2 ^ w) (classOf r.typ.toNat)

/-- Two lists taken alternately. -/
def interleave : List Nat → List Nat → List Nat
  | a :: t, b :: u => a :: b :: interleave t u
  | _, _ => []

/-- The elements of even position. -/
def evens : List Nat → List Nat
  | [] => []
  | [a] => [a]
  | a :: _ :: t => a :: evens t

/-- VPACK. -/
def execVpack (r : Rec) (s : State) : Host.Outcome State Fault Refusal :=
  fire Forms.vpack r s fun t s => do
    let w := typWidth r.typ.toNat
    let x ← s.sliceAt r 0
    let y ← s.sliceRows r 1 (x.nrow + 1)
    let z ← s.sliceRows r 2 (2 * (x.nrow + 1))
    moveOut r t s 2 z w (interleave (s.elems x w) (s.elems y w)) (classOf r.typ.toNat)
/-- VUNPK writes both halves; A receives $1's descriptor and B $2's. -/
def execVunpk (r : Rec) (s : State) : Host.Outcome State Fault Refusal :=
  fire Forms.vunpk r s fun t s => do
    let w := typWidth r.typ.toNat
    let x ← s.sliceAt r 0
    let y ← s.sliceAt r 1
    let z ← s.sliceRows r 2 (y.nrow + 1)
    if x.nrow + 1 ≠ 2 * (y.nrow + 1) then .error (slotFault (s.opnd r 1) 1)
    else
      let es := s.elems x w
      let a := s.descr r 1 (classOf r.typ.toNat)
      let b := s.descr r 2 (classOf r.typ.toNat)
      let s := (s.putElems y w (evens es)).putElems z w (evens (es.drop 1))
      .ok ((s.emitA r t a).emitB r t b)
/-- VCPY; the CLASS is that of $0's kind. -/
def execVcpy (r : Rec) (s : State) : Host.Outcome State Fault Refusal :=
  fire Forms.vcpy r s fun t s => do
    let x ← s.sliceAt r 0
    let y ← s.sliceRows r 1 (x.nrow + 1)
    moveOut r t s 1 y 8 (s.elems x 8) (bitsOf s.cur.op0.kind.toNat 4 3)

/-! ## Conversions (R289) -/

/-- A conversion between types saturates: by `.sat`, or by its row of R67. -/
def convSaturates (src dst : ElemTy) (sat : Bool) : Bool :=
  sat || match dst with
    | .tern => true
    | .flt f => decide (f.kind = .finite)
    | .int _ _ => match src with
      | .flt _ => true
      | _ => false

/-- The lane of element e of width w in a slice's image (R282). -/
def laneOf (w e : Nat) : Nat := w * e / 32 % 64

/-- The overflow report of the lowest clamped lane: its lane, the first clamped element there, and whether another lane was
clamped (R68, R282; log 33). -/
def overflowOf (w : Nat) (clamped : List (Nat × Nat)) : Option (Nat × Nat × Bool) :=
  let lanes := clamped.map fun p => laneOf w p.1
  match lanes.foldl (fun m l => some (match m with | some k => min k l | none => l)) none with
  | none => none
  | some lane =>
    match clamped.find? fun p => decide (laneOf w p.1 = lane) with
    | some p => some (lane, p.2, lanes.any fun l => decide (l ≠ lane))
    | none => none

/-- The overflow token sent on B, where there is one (R68). -/
def State.emitOverflow (s : State) (r : Rec) (t : Word) (o : Option (Nat × Nat × Bool)) : State :=
  match o with
  | none => s
  | some (lane, x, more) => s.emitB r t ⟨holdScalar (elemTy r.typ.toNat) x, overflowKind more lane⟩

/-- VCVT. -/
def execVcvt (r : Rec) (s : State) : Host.Outcome State Fault Refusal :=
  fire Forms.vcvt r s fun t s => do
    let src := elemTy r.typ.toNat
    let dt := r.lit.toNat % 16
    let dst := elemTy dt
    let x ← s.sliceAt r 0
    let es := s.elems x src.width
    let y ← s.sliceRows r 1 (ceilDiv (es.length * dst.width) 2048)
    let (m, s) := s.vecRnd r (if convRounds src dst then es.length else 0)
    let ys := es.zipIdx.map fun p => (p, convElem src dst (m p.2).mode (m p.2).sat (m p.2).draw p.1)
    let d := s.descr r 1 (classOf dt)
    let s := (s.putElems y dst.width (ys.map fun p => p.2.1)).raise (orFlags (ys.map fun p => (p.2.1, p.2.2.1)))
    let hit := if convSaturates src dst (satF r) then (ys.filter fun p => p.2.2.2).map fun p => (p.1.2, p.1.1) else []
    .ok ((s.emitA r t d).emitOverflow r t (overflowOf src.width hit))

/-- CVT. -/
def execCvt (r : Rec) (s : State) : Host.Outcome State Fault Refusal :=
  fire Forms.cvt r s fun t s => do
    s.scalars r
    let src := elemTy r.typ.toNat
    let dt := r.lit.toNat % 16
    let dst := elemTy dt
    let x := s.elem r 0
    let (m, s) := s.vecRnd r (if convRounds src dst then 1 else 0)
    let (y, fl, clamped) := convElem src dst (m 0).mode (m 0).sat (m 0).draw x
    let o := typedOp dt s.end0 y
    .ok (((s.raise fl).emitA r t o).emitOverflow r t
      (if clamped && convSaturates src dst (satF r) then some (0, x, false) else none))

/-! ## Block quantisation (R290, R291) -/

/-- floor(log2(maxfinite(F))) (R290). -/
def blockExp (dt : Nat) : Int := if dt = 11 then 8 else if dt = 12 then 15 else if dt = 13 then 4 else 2

/-- The scale code of a block of FP32 elements; none where an element is NaN (R290). -/
def blockScale (dt : Nat) (xs : List Nat) : Option Nat :=
  let vs := xs.map (readFlt fp32)
  if vs.any Val.isNan then none
  else
    let amax := (xs.map (· % 2 ^ 31)).foldl max 0
    match readFlt fp32 amax with
    | .fin _ m e _ =>
      if m = 0 then some 127
      else
        let c := (m.log2 : Int) + e - blockExp dt + 127
        some (if c < 0 then 0 else if 254 < c then 254 else c.toNat)
    | _ => some 254

/-- One element of a block under its scale, clamped to the largest finite value; of the flags only NX and UF stand (R290). -/
def blockElem (f : Fmt) (m : Rnd) (c x : Nat) : Nat × Flg :=
  let v := (readFlt fp32 x).scale (127 - (c : Int))
  let (y, fl) := roundVal f m.mode true m.draw v
  let y := match v with
    | .inf n => f.signed n f.maxBits
    | _ => y
  (y, fl &&& (fNX ||| fUF))

/-- The blocks of 32 elements of a list. -/
def blocks32 : Nat → List Nat → List (List Nat)
  | 0, _ => []
  | n + 1, xs => xs.take 32 :: blocks32 n (xs.drop 32)

/-- Blocks quantised in order: elements with flags, scales, and the draws used (R290). -/
def quantGo (f : Fmt) (dt : Nat) (m : Nat → Rnd) : Nat → List (List Nat) → List (Nat × Flg) × List Nat
  | _, [] => ([], [])
  | i, b :: t =>
    match blockScale dt b with
    | none =>
      let (es, ss) := quantGo f dt m i t
      ((b.map fun _ => (0, fNV)) ++ es, 0xFF :: ss)
    | some c =>
      let (es, ss) := quantGo f dt m (i + b.length) t
      ((b.zipIdx.map fun p => blockElem f (m (i + p.2)) c p.1) ++ es, c :: ss)

/-- QBLK: elements over $1, scales over $2. -/
def execQblk (r : Rec) (s : State) : Host.Outcome State Fault Refusal :=
  fire Forms.qblk r s fun t s => do
    let dt := r.lit.toNat % 16
    let f := fmtOf dt
    let x ← s.sliceAt r 0
    let xs := s.elems x 32
    let y ← s.sliceRows r 1 (ceilDiv (xs.length * f.width) 2048)
    let z ← s.sliceRows r 2 (ceilDiv xs.length 8192)
    let bs := blocks32 (xs.length / 32) xs
    let (m, s') := s.vecRnd r (32 * (bs.filter fun b => (blockScale dt b).isSome).length)
    let (es, ss) := quantGo f dt m 0 bs
    let a := s.descr r 1 (classOf dt)
    let b := s.descr r 2 1
    let s := ((s'.putElems y f.width (es.map (·.1))).putElems z 8 ss).raise (orFlags es)
    .ok ((s.emitA r t a).emitB r t b)

/-- An element under its scale code, as an exact value; NaN under a NaN scale (R59, R60). -/
def scaledVal (v : Val) (c : Nat) : Val := if c = 0xFF then .nan v.isSnan else v.scale ((c : Int) - 127)

/-- NANSCALE_TRAP posted for the firing that consumed a NaN scale where NSTE asks for it, with SOURCE 0 for a matrix message too (log 86); its
results stand (R60, R65). -/
def State.nanScale (s : State) (hit : Bool) : State :=
  if hit then
    let s := s.raise fNANSCALE
    if s.curAct.ctrl.getLsbD 8 then s.faultCur { cause := .nanscaleTrap } else s
  else s

/-- DQBLK. -/
def execDqblk (r : Rec) (s : State) : Host.Outcome State Fault Refusal :=
  fire Forms.dqblk r s fun t s => do
    let dt := r.lit.toNat % 16
    let f := fmtOf dt
    let z ← s.sliceAt r 2
    let n := 64 * (z.nrow + 1)
    let x ← s.sliceRows r 0 (ceilDiv (n * f.width) 2048)
    let y ← s.sliceRows r 1 (ceilDiv n 8192)
    let xs := (s.elems x f.width).take n
    let cs := s.elems y 8
    let (m, s) := s.vecRnd r n
    let es := xs.zipIdx.map fun p =>
      let v := readFlt f p.1
      let (b, fl) := roundVal fp32 (m p.2).mode (m p.2).sat (m p.2).draw (scaledVal v (cs.getD (p.2 / 32) 0))
      (b, fl ||| snanFlag [v])
    let hit := (cs.take (n / 32)).any fun c => decide (c = 0xFF)
    let o := s.descr r 2 (classOf 8)
    let s := (s.putElems z 32 (es.map (·.1))).raise (orFlags es)
    .ok ((s.nanScale hit).out r t o)

/-! ## Ternary packing (R292) -/

/-- The ternary code of an FP32 element under a threshold, with NV for a NaN. -/
def ternOf (t x : Nat) : Nat × Flg :=
  let v := readFlt fp32 x
  let th := (readFlt fp32 t).mag
  if v.isNan ∨ th.isNan then (0, fNV)
  else if 0 < v.cmp th then (1, 0)
  else if v.cmp th.flip < 0 then (3, 0)
  else (0, 0)

/-- TERNPK. -/
def execTernpk (r : Rec) (s : State) : Host.Outcome State Fault Refusal :=
  fire Forms.ternpk r s fun t s => do
    let x ← s.sliceAt r 0
    let xs := s.elems x 32
    let y ← s.sliceRows r 1 (ceilDiv xs.length 1024)
    let _ ← s.scalarAt r 2
    let es := xs.map (ternOf (s.elem r 2))
    let o := s.descr r 1 3
    .ok (((s.putElems y 2 (es.map (·.1))).raise (orFlags es)).out r t o)

/-- TERNPK `.unpk`. -/
def execTernpkUnpk (r : Rec) (s : State) : Host.Outcome State Fault Refusal :=
  fire Forms.ternpkUnpk r s fun t s => do
    let x ← s.sliceAt r 0
    let y ← s.sliceRows r 1 (4 * (x.nrow + 1))
    let es := (s.elems x 2).map fun c => (wrapBits 8 (ternVal c), if c = 2 then fTERNRSV else 0)
    let o := s.descr r 1 0
    .ok (((s.putElems y 8 (es.map (·.1))).raise (orFlags es)).out r t o)

/-! ## Selection (R310, R311) -/

/-- Value key comparison: the first is better (R310). -/
def keyBetter (typ : Nat) (mn : Bool) (a b : Nat) : Bool :=
  if typ = 8 then
    let x := readFlt fp32 a
    let y := readFlt fp32 b
    if x.isNan then false
    else if y.isNan then true
    else if mn then decide (x.cmp y < 0) else decide (0 < x.cmp y)
  else if mn then decide (asInt typ a < asInt typ b) else decide (asInt typ b < asInt typ a)

/-- The first of two entries (value, index) ranks above the second (R310). -/
def ranksAbove (typ : Nat) (mn : Bool) (a b : Nat × Nat) : Bool :=
  let none_ := 2 ^ 32 - 1
  if a.2 = none_ then false
  else if b.2 = none_ then true
  else if keyBetter typ mn a.1 b.1 then true
  else if keyBetter typ mn b.1 a.1 then false
  else decide (a.2 < b.2)

/-- The k highest-ranked entries padded to 64 with empty ones, as 128 words: values, then indices (R311). -/
def topWords (typ : Nat) (mn : Bool) (k : Nat) (es : List (Nat × Nat)) : List Nat :=
  let top := (sortBy (fun x y => ranksAbove typ mn x y) es).take k
  let all := top ++ List.replicate (64 - top.length) (0, 2 ^ 32 - 1)
  all.map (·.1) ++ all.map (·.2)

/-- The k of TOPK and TOPKM, 1 to 64, else OPERAND_SLOT (R311). -/
def topCount (r : Rec) : Except Flt Nat :=
  let k := r.lit.toNat
  if 1 ≤ k ∧ k ≤ 64 then .ok k else .error { cause := .operandSlot, info := BitVec.ofNat 64 k, detail := 3 }

/-- TOPK. -/
def execTopk (r : Rec) (s : State) : Host.Outcome State Fault Refusal :=
  fire Forms.topk r s fun t s => do
    let x ← s.sliceAt r 0
    let b ← s.scalarAt r 1
    let z ← s.sliceRows r 2 2
    let k ← topCount r
    let base := b.toNat % 2 ^ 32
    let xs := s.elems x 32
    if 2 ^ 32 - 1 ≤ base + xs.length - 1 then .error (slotFault (s.opnd r 1) 1)
    else
      moveOut r t s 2 z 32
        (topWords r.typ.toNat (r.sub.toNat.testBit 0) k (xs.zipIdx.map fun p => (p.1, base + p.2))) (classOf r.typ.toNat)

/-- A list in the output form of TOPK, its empty entries left out (R311). -/
def State.topList (s : State) (x : Slice) : List (Nat × Nat) :=
  let ws := s.elems x 32
  ((ws.take 64).zip (ws.drop 64)).filter fun e => decide (e.2 ≠ 2 ^ 32 - 1)

/-- TOPKM. -/
def execTopkm (r : Rec) (s : State) : Host.Outcome State Fault Refusal :=
  fire Forms.topkm r s fun t s => do
    let x ← s.sliceRows r 0 2
    let y ← s.sliceRows r 1 2
    let z ← s.sliceRows r 2 2
    let k ← topCount r
    moveOut r t s 2 z 32 (topWords r.typ.toNat (r.sub.toNat.testBit 0) k (s.topList x ++ s.topList y)) (classOf r.typ.toNat)

end Sys2Proof.Machine
end

