-- ==== Sys2Proof/Machine/Matrix.lean ====
section
/-! DEFINITION. The matrix engine (R294 to R309, R419): its messages from the engine path to their replies, claims, operand slots,
accumulator tiles, multiplies, moves, checkpoints; and the streaming softmax instructions (R314 to R326). -/

namespace Sys2Proof.Machine

open Sys2Proof

/-! ## Slots, scale arrays, tiles, row states (R294, R296, R267) -/

/-- The bytes of an operand slot. -/
def Core.slotBytes (k : Core) (i : Nat) : List Byte := k.opmem.getN (4096 * i) 4096
/-- Bytes written into an operand slot. -/
def Core.putSlot (k : Core) (i off : Nat) (bs : List Byte) : Core := { k with opmem := k.opmem.putN (4096 * i + off) bs }
/-- The codes of a slot's scale array. -/
def Core.slotScales (k : Core) (i : Nat) : List Byte := (k.scales.getN (256 * i) 256).map (· ^^^ 0x7F)
/-- Codes written into a slot's scale array. -/
def Core.putScales (k : Core) (i first : Nat) (cs : List Byte) : Core :=
  { k with scales := k.scales.putN (256 * i + first) (cs.map (· ^^^ 0x7F)) }
/-- The words of a tile. -/
def Core.tileWords (k : Core) (t : Nat) : List Nat :=
  (List.range 2048).map fun w => leNat (k.acc.getN (8192 * t + 4 * w) 4)
/-- The bytes of a tile. -/
def Core.tileBytes (k : Core) (t : Nat) : List Byte := k.acc.getN (8192 * t) 8192
/-- Bytes written over a tile. -/
def Core.putTile (k : Core) (t : Nat) (bs : List Byte) : Core := { k with acc := k.acc.putN (8192 * t) (bs.take 8192) }
/-- Words written over a tile. -/
def Core.putWords (k : Core) (t : Nat) (ws : List Nat) : Core := k.putTile t (ws.flatMap (leBytes 4))
/-- Word n of row i of a tile. -/
def Core.tileWord (k : Core) (t i n : Nat) : Nat := leNat (k.acc.getN (8192 * t + 4 * (32 * i + n)) 4)
/-- The row state of a tile's row. -/
def Core.row (k : Core) (t i : Nat) : RowState := Assoc.getD k.rows (t, i) RowState.init
/-- A row state replaced; a cleared one is not listed. -/
def Core.putRow (k : Core) (t i : Nat) (x : RowState) : Core :=
  { k with rows := if x = RowState.init then Assoc.erase k.rows (t, i) else Assoc.set k.rows (t, i) x }

/-- The bytes of a row state (R267). -/
def RowState.bytes (x : RowState) : List Byte :=
  leBytes 4 x.m.toNat ++ leBytes 4 x.l.toNat ++ leBytes 2 x.e.toNat ++ leBytes 2 x.flush.toNat ++ [x.flags, 0, 0, 0]
/-- A row state of its bytes; none where reserved bytes or bits are set (R307). -/
def rowOfBytes (bs : List Byte) : Option RowState :=
  let n := leNat (bs.take 16)
  if n / 2 ^ 99 = 0 then
    some ⟨BitVec.ofNat 32 n, BitVec.ofNat 32 (n / 2 ^ 32), BitVec.ofNat 16 (n / 2 ^ 64), BitVec.ofNat 16 (n / 2 ^ 80),
      BitVec.ofNat 8 (n / 2 ^ 96)⟩
  else none

/-- A slot cleared and free, as claiming leaves it (R299, R300). -/
def Core.clearSlot (k : Core) (i : Nat) : Core :=
  { (k.putSlot i 0 (List.replicate 4096 0)).putScales i 0 (List.replicate 256 0x7F) with oClaim := setAt k.oClaim i none }
/-- A tile cleared and free. -/
def Core.clearTile (k : Core) (i : Nat) : Core :=
  { k.putTile i (List.replicate 8192 0) with
    rows := k.rows.filter fun x => decide (x.1.1 ≠ i), aClaim := setAt k.aClaim i none }

/-- Every slot and tile of a colour released on a core, with its scales, pairs and counts (R296, R300, R305, R416). -/
def Core.releaseClaims (k : Core) (col : BitVec 9) : Core :=
  let k := (List.range 16).foldl (fun k i => if k.oClaim.getD i none = some col then k.clearSlot i else k) k
  let k := (List.range 8).foldl (fun k i => if k.aClaim.getD i none = some col then k.clearTile i else k) k
  { k with scaleQ := k.scaleQ.filter fun x => decide (x.2 ≠ col)
           mmaxN := k.mmaxN.filter fun x => decide (x.1 ≠ col)
           mmaxBuf := k.mmaxBuf.filter fun x => decide (x.1.1 ≠ col) }

/-! ## Messages (R298) -/

/-- A matrix message changed. -/
def State.modMat (s : State) (c : CoreId) (id : Nat) (f : MatMsg → MatMsg) : State :=
  s.modCore c fun k => { k with inbox := k.inbox.map fun m => if m.id = id then f m else m }

/-- A matrix message gone. -/
def State.dropMat (s : State) (c : CoreId) (id : Nat) : State :=
  s.modCore c fun k => { k with inbox := k.inbox.filter fun m => decide (m.id ≠ id) }

/-- A fault that the engine finds while it performs a message, of the record that sent it (R298, R401; log 86). -/
def State.faultMat (s : State) (f : Flt) : State :=
  s.fault s.cur.core.cluId .engine false s.cur.core s.cur.node s.cur.tag f

/-- Operand n of a message's firing. -/
def MatMsg.op (m : MatMsg) (n : Nat) : Operand :=
  match n with
  | 0 => m.f.op0
  | 1 => m.f.op1
  | _ => m.f.op2

/-- A matrix instruction's firing: its message enters the engine path, or it waits while the path is full (R144, R298). -/
def matFire (f : Form) (r : Rec) (s : State) : Host.Outcome State Fault Refusal :=
  if 16 ≤ (s.core s.cur.core).path.length then .next s.retryIssue
  else fire f r s fun t s =>
    let c := s.cur.core
    let (id, s) := s.fresh
    let m : MatMsg :=
      { id := id, opc := f.opc, r := r, f := s.cur, tag := t, stage := 0, draw := 0, mode := 0, src := [], outA := none,
        outB := none, retried := false, parts := [], num := 0, got := 0 }
    .ok ((s.modCore c fun k => { k with path := k.path ++ [m] }).laterAt .matrixAccept c 0)

/-- OCLM (R299). -/
def execOclm (r : Rec) (s : State) : Host.Outcome State Fault Refusal := matFire Forms.oclm r s
/-- OREL (R300). -/
def execOrel (r : Rec) (s : State) : Host.Outcome State Fault Refusal := matFire Forms.orel r s
/-- OLD (R301). -/
def execOld (r : Rec) (s : State) : Host.Outcome State Fault Refusal := matFire Forms.old r s
/-- OLDS from a slice (R302). -/
def execOlds (r : Rec) (s : State) : Host.Outcome State Fault Refusal := matFire Forms.olds r s
/-- OLDS from the scale queue (R302). -/
def execOldsQ (r : Rec) (s : State) : Host.Outcome State Fault Refusal := matFire Forms.oldsQ r s
/-- MMA (R303). -/
def execMma (r : Rec) (s : State) : Host.Outcome State Fault Refusal := matFire Forms.mma r s
/-- MMAT (R303). -/
def execMmat (r : Rec) (s : State) : Host.Outcome State Fault Refusal := matFire Forms.mmat r s
/-- MMAX (R305). -/
def execMmax (r : Rec) (s : State) : Host.Outcome State Fault Refusal := matFire Forms.mmax r s
/-- ACLR (R306). -/
def execAclr (r : Rec) (s : State) : Host.Outcome State Fault Refusal := matFire Forms.aclr r s
/-- AMOV (R306). -/
def execAmov (r : Rec) (s : State) : Host.Outcome State Fault Refusal := matFire Forms.amov r s
/-- AADD (R306). -/
def execAadd (r : Rec) (s : State) : Host.Outcome State Fault Refusal := matFire Forms.aadd r s
/-- ACVT (R306). -/
def execAcvt (r : Rec) (s : State) : Host.Outcome State Fault Refusal := matFire Forms.acvt r s
/-- ACKPT (R307). -/
def execAckpt (r : Rec) (s : State) : Host.Outcome State Fault Refusal := matFire Forms.ackpt r s
/-- ARST (R307). -/
def execArst (r : Rec) (s : State) : Host.Outcome State Fault Refusal := matFire Forms.arst r s
/-- ASTAT (R308). -/
def execAstat (r : Rec) (s : State) : Host.Outcome State Fault Refusal := matFire Forms.astat r s
/-- SMXI (R315). -/
def execSmxi (r : Rec) (s : State) : Host.Outcome State Fault Refusal := matFire Forms.smxi r s
/-- SMXU (R316 to R320). -/
def execSmxu (r : Rec) (s : State) : Host.Outcome State Fault Refusal := matFire Forms.smxu r s
/-- SMXN (R321). -/
def execSmxn (r : Rec) (s : State) : Host.Outcome State Fault Refusal := matFire Forms.smxn r s
/-- SMXM (R322). -/
def execSmxm (r : Rec) (s : State) : Host.Outcome State Fault Refusal := matFire Forms.smxm r s
/-- SMXR (R324). -/
def execSmxr (r : Rec) (s : State) : Host.Outcome State Fault Refusal := matFire Forms.smxr r s
/-- SMXW (R324). -/
def execSmxw (r : Rec) (s : State) : Host.Outcome State Fault Refusal := matFire Forms.smxw r s
/-- SMXS (R325). -/
def execSmxs (r : Rec) (s : State) : Host.Outcome State Fault Refusal := matFire Forms.smxs r s

/-! ## Acceptance: operand forms, claims, limits (R298, R299) -/

/-- Operand n is a tile reference of a kind, or OPERAND_SLOT (R297). -/
def State.refAt (s : State) (r : Rec) (n : Nat) (acc : Bool) : Except Flt Nat :=
  let o := s.opnd r n
  match (if kindForm o.kind = 2 then tileOf o.val else none) with
  | some (a, i) => if a = acc then .ok i else .error (slotFault o n)
  | none => .error (slotFault o n)

/-- Who claims a slot or tile. -/
def Core.claim (k : Core) (acc : Bool) (i : Nat) : Option (BitVec 9) := (if acc then k.aClaim else k.oClaim).getD i none

/-- Operand n names `count` members from its index upward, all claimed by the firing's colour, or OPERAND_SLOT (R299). -/
def State.owned (s : State) (r : Rec) (n : Nat) (acc : Bool) (count : Nat := 1) : Except Flt Nat := do
  let i ← s.refAt r n acc
  let col := colourOf s.cur.tag
  if i + count ≤ (if acc then 8 else 16) ∧
      (List.range count).all (fun j => decide ((s.core s.cur.core).claim acc (i + j) = some col)) then .ok i
  else .error (slotFault (s.opnd r n) n)

/-- OPERAND_SLOT on operand n unless a condition holds. -/
def State.need (s : State) (r : Rec) (n : Nat) (ok : Bool) : Except Flt Unit :=
  if ok then .ok () else .error (slotFault (s.opnd r n) n)

/-- ILLEGAL_RECORD unless a condition holds. -/
def legal (ok : Bool) : Except Flt Unit := if ok then .ok () else .error { cause := .illegalRecord }

/-- The counts that OCLM and OREL take (R299). -/
def claimCount (acc : Bool) (n : Nat) : Bool := decide (n ∈ (if acc then [1, 2, 4, 8] else [1, 2, 4, 8, 16]))

/-- NT of a softmax record (R313, R321). -/
def groupNt (m : MatMsg) : Nat := (if m.opc = 0xCA then bitsOf m.r.lit.toNat 13 11 else m.r.sub.toNat % 8) + 1

/-- A copy of a core's own accumulator checkpoint or token image translated at acceptance, in precise mode (R215, R307). -/
def State.ckptParts (s : State) (r : Rec) (write : Bool) : Except Flt (List MemPart) := do
  let base ← s.scalarAt r 1
  let (d, _) ← s.displacement r
  let va ← vaAt base d
  checkNear s.cur.core va 9216
  if isNear va && decide (nearLevel va = 0) then .error (addrFault (BitVec.ofNat 64 va))
  else
    checkMultiple va 192
    if s.curAct.stall then .ok [⟨va, none, 9216, false⟩]
    else
      let (ps, _, _) ← s.coverAll s.cur.core s.cur.node false write [(va, 9216)]
      .ok ps

/-- A token image's address at near level 1, a multiple of 64, its header within the scratchpad (R324). -/
def State.imageAddr (s : State) (a : Word) : Except Flt Nat := do
  let va ← s.padAddr a 64
  checkMultiple va 64
  .ok va

/-- The checks of a message at acceptance (R298 step 1), and the translations it found. -/
def State.matCheck (s : State) (m : MatMsg) : Except Flt (List MemPart) := do
  let r := m.r
  let lit := r.lit.toNat
  let none_ : Except Flt (List MemPart) := .ok []
  match m.opc with
  | 0xB0 => do
    legal (claimCount (decide (r.sub.toNat % 2 = 1)) lit)
    none_
  | 0xB1 => do
    let o := s.opnd r 0
    match (if kindForm o.kind = 2 then tileOf o.val else none) with
    | some (a, _) => do
      legal (claimCount a lit)
      let _ ← s.owned r 0 a lit
      none_
    | none => .error (slotFault o 0)
  | 0xB2 => do
    let x ← s.sliceAt r 0
    let _ ← s.owned r 1 false
    s.need r 0 (decide (256 * (lit + x.nrow + 1) ≤ 4096))
    none_
  | 0xB3 => do
    let _ ← s.owned r 0 false
    let count := bitsOf lit 16 8
    legal (decide (1 ≤ count) && decide (lit % 256 + count ≤ 256))
    if r.sub.toNat % 2 = 1 then none_
    else do
      let x ← s.sliceAt r 1
      s.need r 1 (decide (ceilDiv count 256 ≤ x.nrow + 1))
      none_
  | 0xB6 => do
    let a ← s.owned r 0 false 2
    s.need r 0 (decide (a % 2 = 0))
    let _ ← s.owned r 1 false
    let t ← s.owned r 2 true 4
    s.need r 2 (decide (t % 4 = 0))
    none_
  | 0xB7 => do
    let _ ← s.owned r 0 true
    none_
  | 0xB8 => do
    match r.sub.toNat % 4 with
    | 0 => do
      let _ ← s.owned r 0 true
      let _ ← s.sliceRows r 1 32
      none_
    | 1 => do
      let _ ← s.sliceRows r 0 32
      let _ ← s.owned r 1 true
      none_
    | _ => do
      let _ ← s.owned r 0 true
      let _ ← s.owned r 1 true
      none_
  | 0xB9 => do
    let _ ← s.owned r 0 true
    let _ ← s.owned r 1 true
    none_
  | 0xBA => do
    let _ ← s.owned r 0 true
    let _ ← s.sliceRows r 1 (typWidth lit)
    none_
  | 0xBB => do
    let _ ← s.owned r 0 true
    s.ckptParts r true
  | 0xBC => do
    let _ ← s.owned r 0 true
    s.ckptParts r false
  | 0xBD => do
    let o := s.opnd r 0
    s.need r 0 ((if kindForm o.kind = 2 then tileOf o.val else none).isSome)
    none_
  | 0xC8 => do
    let _ ← s.owned r 0 true (groupNt m)
    legal (decide (1 ≤ bitsOf lit 12 6) && decide (lit % 64 + bitsOf lit 12 6 ≤ 64))
    none_
  | 0xC9 => do
    let _ ← s.owned r 0 true
    let _ ← s.owned r 1 true (groupNt m)
    let _ ← s.sliceRows r 2 16
    none_
  | 0xCA => do
    let _ ← s.owned r 0 true (groupNt m)
    let _ ← s.sliceRows r 1 (ceilDiv (bitsOf lit 10 4 * 32 * groupNt m * typWidth (lit % 16)) 2048)
    none_
  | 0xCB => do
    let a ← s.owned r 0 true (groupNt m)
    let b ← s.owned r 1 true (groupNt m)
    s.need r 1 (decide (a + groupNt m ≤ b) || decide (b + groupNt m ≤ a))
    none_
  | 0xCC => do
    let _ ← s.owned r 0 true (groupNt m)
    let _ ← s.imageAddr (← s.scalarAt r 1)
    none_
  | 0xCD => do
    let _ ← s.owned r 0 true (groupNt m)
    let _ ← s.imageAddr (← s.scalarAt r 1)
    none_
  | 0xCE => do
    let _ ← s.owned r 0 true
    none_
  | _ => do
    let a ← s.owned r 0 false (if r.typ = 15 then 2 else 1)
    s.need r 0 (decide (r.typ ≠ 15) || decide (a % 2 = 0))
    let _ ← s.owned r 1 false
    let _ ← s.owned r 2 true
    none_

/-! ## Order (R298 step 2) -/

/-- What a message names, each as a number: slot i as i, tile i as 16 + i, row i of the lane slices as 32 + i; those it reads,
then those it writes. -/
def matNames (m : MatMsg) : List Nat × List Nat :=
  let v (n : Nat) : Nat := (m.op n).val.toNat % 32
  let from_ (a k : Nat) : List Nat := (List.range k).map (a + ·)
  let rows (n : Nat) : List Nat :=
    match sliceOf (m.op n).val with
    | some x => from_ (32 + x.row) (x.nrow + 1)
    | none => []
  let nt := groupNt m
  match m.opc with
  | 0xB0 => ([], [])
  | 0xB1 => ([], from_ (v 0) m.r.lit.toNat)
  | 0xB2 => (rows 0, [v 1])
  | 0xB3 => (if m.r.sub.toNat % 2 = 1 then [] else rows 1, [v 0])
  | 0xB6 => ([v 1], [v 0, v 0 + 1] ++ from_ (v 2) 4)
  | 0xB7 => ([], [v 0])
  | 0xB8 =>
    match m.r.sub.toNat % 4 with
    | 0 => ([v 0], rows 1)
    | 1 => (rows 0, [v 1])
    | _ => ([v 0], [v 1])
  | 0xB9 => ([v 0], [v 1])
  | 0xBA => ([v 0], rows 1)
  | 0xBB => ([v 0], [])
  | 0xBC => ([], [v 0])
  | 0xBD => ([], [])
  | 0xC8 => ([], from_ (v 0) nt)
  | 0xC9 => ([v 0], from_ (v 1) nt ++ rows 2)
  | 0xCA => ([], from_ (v 0) nt ++ rows 1)
  | 0xCB => (from_ (v 0) nt, from_ (v 1) nt)
  | 0xCC => (from_ (v 0) nt, [])
  | 0xCD => ([], from_ (v 0) nt)
  | 0xCE => ([v 0], [])
  | _ => ((if m.r.typ = 15 then [v 0, v 0 + 1] else [v 0]) ++ [v 1], [v 2])

/-- AMOV `.peek`. -/
def MatMsg.isPeek (m : MatMsg) : Bool := decide (m.opc = 0xB8) && m.r.sub.toNat.testBit 2
/-- A message of the array path. -/
def MatMsg.onArray (m : MatMsg) : Bool := decide (m.opc ∈ [0xB4, 0xB5, 0xB6])
/-- Its occupancy has not ended. -/
def MatMsg.pending (m : MatMsg) : Bool := decide (m.stage < 3)

/-- A later message must wait for an earlier one's occupancy: they name a common slot, scale array or tile; SMXU also waits for its
slice; a peek does not wait for writers of its source (R298, R306, R320). -/
def blocks (earlier later_ : MatMsg) : Bool :=
  let e := matNames earlier
  let l := matNames later_
  let mine := (l.1 ++ l.2).filter fun x => decide (x < 32) || decide (later_.opc = 0xC9)
  mine.any fun x =>
    if later_.isPeek && decide (x ∈ l.1) then decide (x ∈ e.1) && decide (x ∉ e.2) else decide (x ∈ e.1) || decide (x ∈ e.2)

/-- The form of an MMAX that its members must share: TYP and VAR (R305). -/
def MatMsg.form (m : MatMsg) : Nat := m.r.typ.toNat * 64 + m.r.sub.toNat

/-- The members of an MMAX on a core, the lowest first (R305). -/
def mmaxGroup (c : CoreId) (r : Rec) : List CoreId :=
  let g := 2 ^ (r.sub.toNat % 8)
  let col := c.core % 16
  (List.range g).map fun i => { c with core := c.core / 16 * 16 + col / g * g + i }

/-- The leader of an MMAX. -/
def mmaxLeader (c : CoreId) (r : Rec) : CoreId := ((mmaxGroup c r).head?).getD c

/-- What a message waits for beside other messages: count scales for OLDS `.q`, or a head scale of another colour, which ends it
(R302); the A copy for a member of an MMAX (R305). -/
def Core.matReady (k : Core) (c : CoreId) (m : MatMsg) : Bool :=
  if m.opc = 0xB3 ∧ m.r.sub.toNat % 2 = 1 then
    let n := bitsOf m.r.lit.toNat 16 8
    decide (n ≤ k.scaleQ.length) || (k.scaleQ.take n).any fun x => decide (x.2 ≠ colourOf m.f.tag)
  else if m.opc = 0xB6 ∧ mmaxLeader c m.r ≠ c then (Assoc.get? k.mmaxBuf (colourOf m.f.tag, m.num)).isSome
  else true

/-- The messages accepted before one. -/
def Core.before (k : Core) (m : MatMsg) : List MatMsg := k.inbox.takeWhile fun x => decide (x.id ≠ m.id)

/-- A message's operands allow it to start (R298 step 2). -/
def Core.clear (k : Core) (c : CoreId) (m : MatMsg) : Bool :=
  !((k.before m).any fun e => e.pending && blocks e m) && k.matReady c m

/-- A message may start: its path is free, and it is its turn there (R298 step 3). The array path takes messages in acceptance order,
the move path in that order among those that are ready. -/
def Core.mayStart (k : Core) (c : CoreId) (m : MatMsg) : Bool :=
  decide (m.stage = 0) && k.clear c m
    && !(k.inbox.any fun e => decide (e.onArray = m.onArray) && (decide (e.stage = 1) || decide (e.stage = 2)))
    && !((k.before m).any fun e => decide (e.stage = 0) && decide (e.onArray = m.onArray) && (m.onArray || k.clear c e))

/-- The lowest aligned block of n free members (R299). -/
def freeBlock (claims : List (Option (BitVec 9))) (n : Nat) : Option Nat :=
  (leastBelow (claims.length / n) fun i => (List.range n).all fun j => (claims.getD (i * n + j) none).isNone).map (· * n)

/-- A reference as a result (R297). -/
def refOp (acc : Bool) (i : Nat) : Operand := ⟨tileWord acc i, mkKind 2 1 0⟩
/-- A reference operand passed on as a result (R297). -/
def MatMsg.refOut (m : MatMsg) (n : Nat) : Operand := ⟨(m.op n).val, mkKind 2 1 0⟩

/-- OCLM at acceptance: the block is claimed, or nothing is (R299). -/
def State.claimBlock (s : State) (m : MatMsg) : MatMsg × State :=
  let c := s.cur.core
  let k := s.core c
  let acc := decide (m.r.sub.toNat % 2 = 1)
  let n := m.r.lit.toNat
  let claims := if acc then k.aClaim else k.oClaim
  match freeBlock claims n with
  | none => ({ m with outA := none, outB := some (plainOp 1) }, s)
  | some i =>
    let claims := (List.range n).foldl (fun cl j => setAt cl (i + j) (some (colourOf s.cur.tag))) claims
    ({ m with outA := some (refOp acc i), outB := some (plainOp 0) },
      s.setCore c (if acc then { k with aClaim := claims } else { k with oClaim := claims }))

/-- ASTAT's word (R308). -/
def State.astatWord (s : State) (m : MatMsg) : Word :=
  let k := s.core s.cur.core
  let v := (m.op 0).val.toNat
  let cl := k.claim (decide (16 ≤ v)) (v % 16)
  let pend := (k.inbox.filter fun e => e.pending && decide (v ∈ (matNames e).1 ++ (matNames e).2)).length
  BitVec.ofNat 64
    (putBits (pend % 65536) 16 + putBits (b2n cl.isSome) 15 + putBits (b2n (decide (cl = some (colourOf s.cur.tag)))) 14
      + (match cl with | some x => x.toNat | none => 0))

/-- MATRIX_ACCEPT (R298): the oldest message of the engine path enters the inbox when a slot is free; its operands are checked; OCLM
and ASTAT act here; every other message waits for its turn. -/
def execMatrixAccept (s : State) : Host.Outcome State Fault Refusal :=
  .next (
    let c := s.site.core
    let k := s.core c
    match k.path with
    | [] => s
    | m :: t =>
      if 16 ≤ (k.inbox.filter fun x => decide (x.stage = 0)).length then s.laterAt .matrixAccept c 0
      else
        let s := { s.setCore c { k with path := t } with cur := m.f }
        match s.matCheck m with
        | .error f => s.faultCur f
        | .ok ps =>
          if m.opc = 0xB0 ∨ m.opc = 0xBD then
            let (m, s) := if m.opc = 0xB0 then s.claimBlock m
              else ({ m with outA := some (plainOp (s.astatWord m)), outB := some (plainOp (s.astatWord m)) }, s)
            (s.modCore c fun k => { k with inbox := k.inbox ++ [{ m with stage := 3 }] }).laterAt .matrixReply c m.id
          else
            let col := colourOf m.f.tag
            let num := if m.opc = 0xB6 then Assoc.getD k.mmaxN col 0 + 1 else 0
            (s.modCore c fun k =>
              { k with inbox := k.inbox ++ [{ m with parts := ps, num := num }],
                       mmaxN := if m.opc = 0xB6 then Assoc.set k.mmaxN col num else k.mmaxN }).laterAt .matrixStart c m.id)

/-! ## Multiplies (R69 to R71, R295, R296, R303 to R305) -/

/-- K of one multiply (R295). -/
def mmaK (typ : Nat) : Nat := if typ = 9 ∨ typ = 10 then 32 else if typ = 14 ∨ typ = 15 then 128 else 64
/-- The elements of a k-group (R69). -/
def mmaGroup (typ : Nat) : Nat := if typ = 9 ∨ typ = 10 then 16 else if typ = 15 then 128 else 32
/-- Float arithmetic. -/
def mmaFloat (typ : Nat) : Bool := decide (typ ≠ 0) && decide (typ ≠ 15)

/-- The rows of A: row i at byte 64i; a ternary multiply's INT8 row over the slot pair (R295). -/
def rowsA (typ : Nat) (a odd : List Byte) : List (List Nat) :=
  (List.range 64).map fun i =>
    if typ = 15 then unpackElems ((a.drop (64 * i)).take 64) 8 64 ++ unpackElems ((odd.drop (64 * i)).take 64) 8 64
    else unpackElems ((a.drop (64 * i)).take (mmaK typ * typWidth typ / 8)) (typWidth typ) (mmaK typ)

/-- The columns of half h of B in the n-major layout (R295). -/
def colsN (typ h : Nat) (b : List Byte) : List (List Nat) :=
  (List.range 32).map fun n =>
    unpackElems ((b.drop (2048 * h + 64 * n)).take (mmaK typ * typWidth typ / 8)) (typWidth typ) (mmaK typ)

/-- The columns of half h of B in the k-major layout (R295). -/
def colsK (typ h : Nat) (b : List Byte) : List (List Nat) :=
  let w := typWidth typ
  let rows := (List.range (mmaK typ)).map fun k => unpackElems ((b.drop (2048 * h + 4 * w * k)).take (4 * w)) w 32
  (List.range 32).map fun n => rows.map fun row => row.getD n 0

/-- The scale codes that line i of an operand uses, one for each block (R296); 0x7F where no scale is used (R59). -/
def blockScales (bs : Bool) (typ : Nat) (codes : List Byte) (i : Nat) : List Nat :=
  (List.range (mmaK typ / 32)).map fun b => if bs then (codes.getD (4 * i + b) 0x7F).toNat else 0x7F

/-- A line's exact values under its scales (R59, R60). -/
def scaledLine (typ : Nat) (es cs : List Nat) : List Val :=
  es.zipIdx.map fun p => scaledVal (readFlt (fmtOf typ) p.1) (cs.getD (p.2 / 32) 0x7F)

/-- A line's integers; a ternary code as −1, 0 or 1 (R58). -/
def intLine (t : ElemTy) (es : List Nat) : List Int := es.map fun e => (readElem t e).1.over 0

/-- The exact sum of a group's products, with its flags (R53, R70). -/
def groupSum (xs : List (Val × Val)) : Val × Flg :=
  let ps := xs.map fun p => p.1.mul p.2
  let fl := orFlags (ps.map fun p => (0, p.2)) ||| snanFlag (xs.flatMap fun p => [p.1, p.2])
  let pos := ps.any fun p => decide (p.1 = .inf false)
  let neg := ps.any fun p => decide (p.1 = .inf true)
  if pos && neg then (.nan false, fl ||| fNV)
  else if ps.any fun p => p.1.isNan then (.nan false, fl)
  else if pos then (.inf false, fl)
  else if neg then (.inf true, fl)
  else (ps.foldl (fun a p => (Val.add false a p.1).1) (.fin false 0 0 false), fl)

/-- A group's sum added to an FP32 element; a zero sum leaves it (R69). -/
def addGroupF (x : Nat) (g : Val × Flg) : Nat × Flg :=
  if g.1.isZero then (x, g.2)
  else
    let (b, fl) := finish fp32 ⟨0, false, 0⟩ (Val.add false (readFlt fp32 x) g.1) [readFlt fp32 x]
    (b, fl ||| g.2)

/-- A group's sum added to an INT32 element with clamping (R71). -/
def addGroupI (x : Nat) (g : Int) : Nat × Flg :=
  let (b, fl) := intResult 32 true true (toSigned 32 x + g)
  (b, if fl = 0 then 0 else fACCSAT)

/-- A list in groups of g. -/
def groupsOf {α : Type} (g : Nat) (xs : List α) : List (List α) :=
  (List.range (xs.length / g)).map fun i => (xs.drop (g * i)).take g

/-- An element after its first groups (R69, R303). -/
def mmaElemF (typ : Nat) (upto : Nat) (a b : List Val) (x : Nat) : Nat × Flg :=
  ((groupsOf (mmaGroup typ) (a.zip b)).take upto).foldl
    (fun acc g => let (y, fl) := addGroupF acc.1 (groupSum g); (y, acc.2 ||| fl)) (x, 0)

/-- An integer element after its first groups (R71, R303). -/
def mmaElemI (typ : Nat) (upto : Nat) (a b : List Int) (x : Nat) : Nat × Flg :=
  ((groupsOf (mmaGroup typ) (a.zip b)).take upto).foldl
    (fun acc g => let (y, fl) := addGroupI acc.1 ((g.map fun p => p.1 * p.2).foldl (· + ·) 0); (y, acc.2 ||| fl)) (x, 0)

/-- What a multiply takes: its form and its operands' lines, with their scale codes. -/
structure MmaIn where
  typ : Nat
  z   : Bool
  as_ : List (List Nat)
  bs_ : List (List Nat)
  sa  : List (List Nat)
  sb  : List (List Nat)

/-- The words of the tile C after a multiply, or after the first groups of each element where `upto` says so, with the flags raised
(R303). -/
def MmaIn.run (x : MmaIn) (upto : Nat → Nat) (c : List Nat) : List (Nat × Flg) :=
  if mmaFloat x.typ then
    let as_ := (x.as_.zip x.sa).map fun p => scaledLine x.typ p.1 p.2
    let bs_ := (x.bs_.zip x.sb).map fun p => scaledLine x.typ p.1 p.2
    ((as_.flatMap fun a => bs_.map fun b => (a, b)).zip c).zipIdx.map fun p =>
      mmaElemF x.typ (upto p.2) p.1.1.1 p.1.1.2 (if x.z then 0 else p.1.2)
  else
    let as_ := x.as_.map (intLine (.int 8 true))
    let bs_ := x.bs_.map (intLine (elemTy x.typ))
    ((as_.flatMap fun a => bs_.map fun b => (a, b)).zip c).zipIdx.map fun p =>
      mmaElemI x.typ (upto p.2) p.1.1.1 p.1.1.2 (if x.z then 0 else p.1.2)

/-- A NaN scale is consumed (R60). -/
def MmaIn.nanScale (x : MmaIn) : Bool := x.sa.any (fun l => l.any fun c => decide (c = 0xFF)) || x.sb.any fun l => l.any fun c => decide (c = 0xFF)

/-- TERNRSV where a reserved ternary code is read (R58). -/
def MmaIn.ternFlag (x : MmaIn) : Flg := if x.typ = 15 ∧ x.bs_.any (fun l => l.any fun e => decide (e % 4 = 2)) then fTERNRSV else 0

/-- The tiles that a multiply writes, each with what it takes (R295, R296, R303, R305). -/
def Core.mmaIns (k : Core) (m : MatMsg) : List (Nat × MmaIn) :=
  let typ := m.r.typ.toNat
  let var := m.r.sub.toNat
  let a := (m.op 0).val.toNat % 16
  let b := (m.op 1).val.toNat % 16
  let t := (m.op 2).val.toNat % 16
  let bb := k.slotBytes b
  if m.opc = 0xB6 then
    let bs := var.testBit 4
    [0, 1].flatMap fun p =>
      [0, 1].map fun h =>
        (t + 2 * p + h,
          { typ := typ, z := var.testBit 3, as_ := rowsA typ (k.slotBytes (a + p)) [], bs_ := colsK typ h bb,
            sa := (List.range 64).map (blockScales bs typ (k.slotScales (a + p))),
            sb := (List.range 32).map fun n => blockScales bs typ (k.slotScales b) (32 * h + n) })
  else
    let h := var % 2
    let bs := var.testBit 2
    [(t,
      { typ := typ, z := var.testBit 1, as_ := rowsA typ (k.slotBytes a) (if typ = 15 then k.slotBytes (a + 1) else []),
        bs_ := if m.opc = 0xB5 then colsN typ h bb else colsK typ h bb,
        sa := (List.range 64).map (blockScales bs typ (k.slotScales a)),
        sb := (List.range 32).map fun n => blockScales bs typ (k.slotScales b) (32 * h + n) })]

/-- A multiply writes its tiles and raises its flags (R60, R66, R303). -/
def State.runMma (s : State) (m : MatMsg) : State :=
  let c := s.cur.core
  let xs := (s.core c).mmaIns m
  let s := xs.foldl
    (fun s x =>
      let es := x.2.run (fun _ => mmaK x.2.typ) ((s.core c).tileWords x.1)
      (s.modCore c fun k => k.putWords x.1 (es.map (·.1))).raise (orFlags es ||| x.2.ternFlag)) s
  s.nanScale (xs.any fun x => x.2.nanScale)

/-- A peek's reading of a tile: each element after a whole number of the groups of the multiply in flight (R306; log 10). -/
def State.peekTile (s : State) (t : Nat) : List Nat :=
  let k := s.core s.cur.core
  let ws := k.tileWords t
  match k.inbox.find? fun m => decide (m.stage = 1) && m.onArray with
  | none => ws
  | some m =>
    match (k.mmaIns m).find? fun x => decide (x.1 = t) with
    | none => ws
    | some x =>
      let n := mmaK x.2.typ / mmaGroup x.2.typ
      let g (e : Nat) : Nat := Config.peekGroups s.free e % (n + 1)
      ((x.2.run g ws).zip ws).zipIdx.map fun p => if g p.2 = 0 then p.1.2 else p.1.1.1

/-! ## Softmax (R314 to R325) -/

/-- The frame of SMXU (R316). -/
structure Frame where
  k : Nat
  row0 : Nat
  col0 : Nat
  lim  : Nat
  nr   : Nat
  nc   : Nat
  mode : Nat
  fp8  : Bool
  mask : List Byte

/-- The frame of its bytes, its mask after them; none where R316 refuses it. -/
def frameOf (bs : List Byte) : Option Frame :=
  let b (i n : Nat) : Nat := leNat ((bs.drop i).take n)
  let bits := (b 18 1).testBit 2
  if 1 ≤ b 16 1 ∧ b 16 1 ≤ 64 ∧ b 17 1 ≤ 32 ∧ b 18 1 < 8 ∧ b 19 1 ≤ 1 ∧ b 24 40 = 0 ∧ (!bits ∨ b 20 4 % 64 = 0) then
    some ⟨b 0 4, b 4 4, b 8 4, b 12 4, b 16 1, b 17 1, b 18 1, decide (b 19 1 = 1), bs.drop 64⟩
  else none

/-- A scratchpad offset of the firing's core as a near address (R200). -/
def padVa (off : Nat) : Nat := 2 ^ 55 + 2 ^ 52 + off

/-- The frame of SMXU and its mask, as the engine reads them at the start of its occupancy; OPERAND_SLOT where R316 refuses them. -/
def State.readFrame (s : State) (m : MatMsg) : Except Flt (List Byte) :=
  let fr := s.nearBytes (padVa (64 * m.r.lit.toNat)) 64
  let bad : Except Flt (List Byte) := .error (slotFault (m.op 0) 0)
  match frameOf fr with
  | none => bad
  | some x =>
    if x.mode.testBit 2 then
      let off := leNat ((fr.drop 20).take 4)
      match nearKey s.cur.core (padVa off) 256 with
      | some _ => if off + 256 ≤ Config.padBytes then .ok (fr ++ s.nearBytes (padVa off) 256) else bad
      | none => bad
    else .ok fr

/-- FP32 bits as an exact value. -/
def v32 (x : Nat) : Val := readFlt fp32 x

/-- An FP32 value times an exact power of two, flushed: bits, flags, and whether it flushed (R317 rescale). -/
def rescale (x : Nat) (e : Int) : Nat × Flg × Bool :=
  match v32 x with
  | .nan sn => (fp32.qnan, if sn then fNV else 0, false)
  | .inf n => (fp32.signed n (fp32.maxBits + 1), 0, false)
  | .fin n m ex c =>
    let y := (Val.fin n m ex c).scale e
    if m = 0 then (x, 0, false)
    else if y.mag.cmp (.fin false 1 (-126) false) < 0 then (0, fUF, true)
    else ((roundVal fp32 0 false 0 y).1, 0, false)

/-- A row state's exponent as an integer. -/
def RowState.exp (x : RowState) : Int := x.e.toInt
/-- e = EMPTY. -/
def RowState.isEmpty (x : RowState) : Bool := decide (x.e = 0x8000#16)
/-- A row state after n flushes (R317). -/
def RowState.flushes (x : RowState) (n : Nat) : RowState :=
  if n = 0 then x else { x with flush := BitVec.ofNat 16 (min (x.flush.toNat + n) 0xFFFF), flags := x.flags ||| 4 }

/-- The larger of two FP32 values. -/
def max32 (a b : Nat) : Nat := if (v32 a).cmp (v32 b) < 0 then b else a

/-- What SMXU computes of one row: the scores, those masked, those bad, and their flags (R317). -/
structure Scores where
  t      : List Nat
  masked : List Bool
  bad    : List Bool
  flags  : Flg

/-- The scores of row i (R317). -/
def scoresOf (fr : Frame) (i : Nat) (row : List Nat) : Scores :=
  let ts := row.map fun x => fmulBits fp32 ⟨0, false, 0⟩ x fr.k
  let masked := (List.range 32).map fun n =>
    decide (fr.nc ≤ n) || (fr.mode.testBit 0 && decide (fr.row0 + i < fr.col0 + n))
      || (fr.mode.testBit 1 && decide (fr.lim ≤ fr.col0 + n))
      || (fr.mode.testBit 2 && ((fr.mask.getD ((32 * i + n) / 8) 0).toNat.testBit ((32 * i + n) % 8)))
  let t := ts.map (·.1)
  { t := t, masked := masked, flags := orFlags ts,
    bad := (t.zip masked).map fun p => !p.2 && ((v32 p.1).isNan || decide (v32 p.1 = .inf false)) }

/-- The largest score that takes part (R317). -/
def Scores.tmax (x : Scores) : Nat :=
  ((x.t.zip (x.masked.zip x.bad)).filter fun p => !p.2.1 && !p.2.2).foldl (fun m p => max32 m p.1) 0xFF800000

/-- Clamped to the exponents of a row state. -/
def clampExp (x : Int) : Int := if x < -32767 then -32767 else if 32767 < x then 32767 else x

/-- The columns of a group's row, in order. -/
def Core.groupRow (k : Core) (g nt i : Nat) : List Nat :=
  (List.range nt).flatMap fun t => (List.range 32).map fun n => k.tileWord (g + t) i n

/-- The columns of a group's row written. -/
def Core.putGroupRow (k : Core) (g nt i : Nat) (ws : List Nat) : Core :=
  (List.range nt).foldl
    (fun k t => { k with acc := k.acc.putN (8192 * (g + t) + 128 * i) (((ws.drop (32 * t)).take 32).flatMap (leBytes 4)) }) k

/-- The row state and accumulator after the new maximum is taken, and the flags (R317). -/
def takeMax (st : RowState) (acc : List Nat) (tmax : Nat) : RowState × List Nat × Flg :=
  if v32 tmax = .inf true then (st, acc, 0)
  else
    let ep := clampExp (roundInt 2 0 (v32 tmax)).1
    let m := BitVec.ofNat 32 (max32 st.m.toNat tmax)
    if st.isEmpty then ({ st with e := BitVec.ofInt 16 ep, m := m }, acc, 0)
    else if (v32 tmax).cmp (.ofInt (st.exp + 8)) > 0 then
      let l := rescale st.l.toNat (st.exp - ep)
      let ys := acc.map fun x => rescale x (st.exp - ep)
      let n := b2n l.2.2 + (ys.filter fun y => y.2.2).length
      ({ st.flushes n with e := BitVec.ofInt 16 ep, m := m, l := BitVec.ofNat 32 l.1 }, ys.map (·.1),
        l.2.1 ||| orFlags (ys.map fun y => (0, y.2.1)))
    else ({ st with m := m }, acc, 0)

/-- The weights of a row under its exponent (R317). -/
def weights (x : Scores) (e : Int) : List (Nat × Flg) :=
  (x.t.zip (x.masked.zip x.bad)).map fun p =>
    if p.2.1 then (0, 0)
    else if p.2.2 then (fp32.qnan, 0)
    else
      let (d, fl) := finish fp32 ⟨0, false, 0⟩ (Val.sub false (v32 p.1) (.ofInt e)) [v32 p.1]
      let (y, fl') := exp2Dev d
      (y, fl ||| fl')

/-- `sat` of R74 for a format that has a NaN: clamped to its finite range with SAT; a NaN is kept. -/
def satFlt (f : Fmt) (v : Val) : Val × Flg :=
  let top := readFlt f f.maxBits
  if v.isNan then (v, 0)
  else if v.cmp top > 0 then (top, fSAT)
  else if v.cmp top.flip < 0 then (top.flip, fSAT)
  else (v, 0)

/-- round(sat(x, F), F, RNE) (R74, R317). -/
def roundSat (f : Fmt) (v : Val) : Nat × Flg :=
  let (x, fl) := satFlt f v
  let (y, fl') := roundVal f 0 false 0 x
  (y, fl ||| fl')

/-- One row of SMXU: the state, the accumulator row, the elements of P, the flags (R317). -/
def smxuRow (fr : Frame) (i : Nat) (st : RowState) (acc row : List Nat) : RowState × List Nat × List Nat × Flg :=
  let x := scoresOf fr i row
  let st := if x.bad.any id then { st with flags := st.flags ||| 2 } else st
  let (st, acc, f1) := takeMax st acc x.tmax
  let ps := weights x st.exp
  let (l, f2) := ps.foldl
    (fun a p => let (y, fl) := faddBits fp32 ⟨0, false, 0⟩ a.1 p.1; (y, a.2 ||| fl)) (st.l.toNat, 0)
  let qs := ps.map fun p => roundSat (if fr.fp8 then e4m3 else bf16) (v32 p.1)
  ({ st with l := BitVec.ofNat 32 l }, acc, qs.map (·.1), x.flags ||| f1 ||| orFlags ps ||| f2 ||| orFlags qs)

/-- The image of P: 64 bytes for each row (R319). -/
def pRow (fp8 : Bool) (qs : List Nat) : List Byte :=
  if fp8 then qs.flatMap (leBytes 1) ++ List.replicate 32 0 else qs.flatMap (leBytes 2)

/-- SMXU's effect on the core, and its flags (R317, R319). -/
def Core.runSmxu (k : Core) (m : MatMsg) (fr : Frame) : Core × List Byte × Flg :=
  let sc := (m.op 0).val.toNat % 16
  let g := (m.op 1).val.toNat % 16
  let nt := groupNt m
  (List.range 64).foldl
    (fun acc i =>
      if i < fr.nr then
        let (k, img, fl) := acc
        let (st, ws, qs, f) := smxuRow fr i (k.row g i) (k.groupRow g nt i) ((List.range 32).map fun n => k.tileWord sc i n)
        ((k.putRow g i st).putGroupRow g nt i ws, img ++ pRow fr.fp8 qs, fl ||| f)
      else (acc.1, acc.2.1 ++ List.replicate 64 0, acc.2.2)) (k, [], 0)

/-- The rows of SMXN whose elements are rounded, so that they take draws under SR (R63, R321). -/
def Core.smxnRounds (k : Core) (g i : Nat) : Bool := !((k.row g i).flags.getLsbD 1) && decide ((k.row g i).l.toNat % 2 ^ 31 ≠ 0)

/-- SMXN's effect: the elements of the slice, the core, the flags (R321). -/
def Core.runSmxn (k : Core) (m : MatMsg) : Core × List Nat × Flg :=
  let g := (m.op 0).val.toNat % 16
  let nt := groupNt m
  let lit := m.r.lit.toNat
  let f := fmtOf (lit % 16)
  let (k, es, fl, _) := (List.range (bitsOf lit 10 4)).foldl
    (fun (acc : Core × List Nat × Flg × Nat) i =>
      let (k, es, fl, d) := acc
      let st := k.row g i
      if st.flags.getLsbD 1 then (k, es ++ List.replicate (32 * nt) f.qnan, fl, d)
      else if !(k.smxnRounds g i) then (k.putRow g i { st with flags := st.flags ||| 1 }, es ++ List.replicate (32 * nt) 0, fl, d)
      else
        let ys := (k.groupRow g nt i).zipIdx.map fun p =>
          finish f ⟨m.mode, satF m.r, drawHi m.draw (d + p.2)⟩ ((v32 p.1).div (v32 st.l.toNat)) [v32 p.1, v32 st.l.toNat]
        (k, es ++ ys.map (·.1), fl ||| orFlags ys, d + 32 * nt)) (k, [], 0, 0)
  (k, es, fl)

/-- One row merged (R322): the state, the words, the flags. -/
def mergeRow (a b : RowState) (xa xb : List Nat) : RowState × List Nat × Flg :=
  let e : Int := if b.isEmpty then a.exp else if a.isEmpty then b.exp else if a.exp ≤ b.exp then b.exp else a.exp
  let sc (st : RowState) (x : Nat) : Nat × Flg × Bool := if st.isEmpty ∨ st.exp = e then (x, 0, false) else rescale x (st.exp - e)
  let one (x y : Nat) : Nat × Flg × Nat :=
    let p := sc a x
    let q := sc b y
    let (z, fl) := faddBits fp32 ⟨0, false, 0⟩ p.1 q.1
    (z, fl ||| p.2.1 ||| q.2.1, b2n p.2.2 + b2n q.2.2)
  let l := one a.l.toNat b.l.toNat
  let ys := (xa.zip xb).map fun p => one p.1 p.2
  let n := l.2.2 + (ys.map fun y => y.2.2).foldl (· + ·) 0
  let st : RowState :=
    { m := BitVec.ofNat 32 (max32 a.m.toNat b.m.toNat), l := BitVec.ofNat 32 l.1, e := BitVec.ofInt 16 e,
      flush := BitVec.ofNat 16 (min (a.flush.toNat + b.flush.toNat) 0xFFFF), flags := a.flags ||| b.flags }
  (st.flushes n, ys.map fun y => y.1, l.2.1 ||| orFlags (ys.map fun y => (0, y.2.1)))

/-- SMXM's effect (R322). -/
def Core.runSmxm (k : Core) (m : MatMsg) : Core × Flg :=
  let a := (m.op 0).val.toNat % 16
  let b := (m.op 1).val.toNat % 16
  let nt := groupNt m
  (List.range m.r.lit.toNat).foldl
    (fun acc i =>
      let (k, fl) := acc
      let (st, ws, f) := mergeRow (k.row a i) (k.row b i) (k.groupRow a nt i) (k.groupRow b nt i)
      ((k.putRow b i st).putGroupRow b nt i ws, fl ||| f)) (k, 0)

/-! ### Token images (R265, R266, R324) -/

/-- The rows of a token. -/
def tokNr (w0 : Nat) : Nat := bitsOf w0 25 22 + 1
/-- The head dimension of a token. -/
def tokDh (w0 : Nat) : Nat := bitsOf w0 21 14 + 1
/-- A number rounded up to a multiple of 64. -/
def ceil64 (n : Nat) : Nat := roundUp n 64
/-- Where a token's row states begin. -/
def tokSoff (w0 : Nat) : Nat := 64 + ceil64 (tokNr w0 * tokDh w0 * (if w0.testBit 13 then 1 else 2))
/-- Where its accumulator rows begin. -/
def tokAoff (w0 : Nat) : Nat := tokSoff w0 + ceil64 (16 * tokNr w0)
/-- A token's size. -/
def tokSize (w0 : Nat) : Nat := tokAoff w0 + 4 * tokNr w0 * tokDh w0

/-- The rows that SMXW loads: states and words padded with zeros; none where a reserved bit is set (R324). -/
def tokRows (nt : Nat) (bs : List Byte) : Option (List (RowState × List Nat)) :=
  let w0 := leNat (bs.take 8)
  (List.range (tokNr w0)).mapM fun i =>
    (rowOfBytes (bs.drop (tokSoff w0 + 16 * i))).map fun st =>
      (st, (List.range (32 * nt)).map fun c =>
        if c < tokDh w0 then leNat ((bs.drop (tokAoff w0 + 4 * (i * tokDh w0 + c))).take 4) else 0)

/-- The bytes that SMXR writes from a group: the row states, then the accumulator rows (R324). -/
def Core.tokBytes (k : Core) (g nt w0 : Nat) : List Byte × List Byte :=
  ((List.range (tokNr w0)).flatMap fun i => (k.row g i).bytes,
    (List.range (tokNr w0)).flatMap fun i => ((k.groupRow g nt i).take (tokDh w0)).flatMap (leBytes 4))

/-! ## Start (R298 steps 2 to 4) -/

/-- The draws that a message takes under SR, one for each element that it rounds (R63, R64). -/
def Core.matDraws (k : Core) (m : MatMsg) : Nat :=
  match m.opc with
  | 0xBA => if convRounds (elemTy m.r.typ.toNat) (elemTy (m.r.lit.toNat % 16)) then 2048 else 0
  | 0xCA =>
    let g := (m.op 0).val.toNat % 16
    32 * groupNt m * ((List.range (bitsOf m.r.lit.toNat 10 4)).filter fun i => k.smxnRounds g i).length
  | _ => 0

/-- ACKPT and ARST make their request of the core's memory unit (R235, R307). -/
def State.ckptReq (s : State) (m : MatMsg) (write : Bool) (data : List Byte) : State :=
  let c := s.cur.core
  let found := match m.parts with
    | [⟨va, none, n, _⟩] => s.stallGo c m.f.node write (n + 1) va n []
    | ps => ((ps, none), s)
  let ((ps, bad), s) := found
  let (id, s) := s.fresh
  let q : MemReq :=
    { id := id, node := m.f.node, inTag := m.f.tag, tag := m.tag, colour := colourOf m.f.tag, typ := 0,
      op := if write then .ckpt m.id else .restore m.id, parts := ps, got := [], data := data, poison := false, dstA := 0, dstB := 0,
      reply0 := zeroOp, wave := none, withheld := bad.isSome, done := false, pages := [], after := none, stage := 2 }
  let s := s.modMat c m.id fun x => { x with stage := 2 }
  match bad with
  | some f => (s.modCore c fun k => { k with reqs := k.reqs ++ [q] }).stallRecord c q f
  | none => s.leaveUnit c q

/-- SMXW and SMXR make their request, which reads the token's header first (R266, R307, R324). -/
def State.tokReq (s : State) (m : MatMsg) : Except Flt State := do
  let c := s.cur.core
  let va ← s.imageAddr (m.op 1).val
  let (id, s) := s.fresh
  let q : MemReq :=
    { id := id, node := m.f.node, inTag := m.f.tag, tag := m.tag, colour := colourOf m.f.tag, typ := 0, op := .restore m.id,
      parts := [⟨va, nearKey c va 64, 64, false⟩], got := [], data := [], poison := false, dstA := 0, dstB := 0,
      reply0 := zeroOp, wave := none, withheld := false, done := false, pages := [], after := none, stage := 0 }
  pure ((s.modMat c m.id fun x => { x with stage := 2 }).leaveUnit c q)

/-- The request of SMXW and SMXR goes on once the header is read: the token must lie within the scratchpad, and NT must cover its head
dimension; then SMXW reads the whole token, and SMXR writes the group's fields into it (R324). -/
def State.tokRest (s : State) (m : MatMsg) : Except Flt State := do
  let c := s.cur.core
  let w0 := leNat (m.src.take 8)
  let va ← s.imageAddr (m.op 1).val
  checkNear c va (tokSize w0)
  if groupNt m < ceilDiv (tokDh w0) 32 then throw (slotFault (m.op 0) 0)
  let part (off n : Nat) : MemPart := ⟨va + off, nearKey c (va + off) n, n, false⟩
  let (a, b) := (s.core c).tokBytes ((m.op 0).val.toNat % 16) (groupNt m) w0
  let go (q : MemReq) : MemReq :=
    if m.opc = 0xCC then
      { q with op := .ckpt m.id, parts := [part (tokSoff w0) a.length, part (tokAoff w0) b.length], data := a ++ b, stage := 2 }
    else { q with parts := [part 0 (tokSize w0)], got := [], stage := 2 }
  match (s.core c).reqs.find? fun q => decide (q.op.engine? = some m.id) with
  | none => pure s
  | some q =>
    let s := (s.modMat c m.id fun x => { x with stage := 2, got := 1 }).modReq c q.id go
    pure ((s.retouch c).laterAt (go q).op.poll c q.id)

/-- A copy of A has come from another leader for an MMAX that its own form makes the leader of its group (R305). -/
def Core.otherLeader (k : Core) (m : MatMsg) : Bool := (Assoc.get? k.mmaxBuf (colourOf m.f.tag, m.num)).isSome

/-- A member of an MMAX takes its copy of A into its own pair, or faults where the forms differ (R305). -/
def State.takeCopy (s : State) (m : MatMsg) : Except Flt State :=
  let c := s.cur.core
  let key := (colourOf m.f.tag, m.num)
  match Assoc.get? (s.core c).mmaxBuf key with
  | none => .ok s
  | some (form, bs, sc) =>
    let s := s.modCore c fun k => { k with mmaxBuf := Assoc.erase k.mmaxBuf key }
    if form ≠ m.form then .error (slotFault (m.op 0) 0)
    else
      let a := (m.op 0).val.toNat % 16
      .ok (s.modCore c fun k =>
        (((k.putSlot a 0 (bs.take 4096)).putSlot (a + 1) 0 (bs.drop 4096)).putScales a 0 (sc.take 256)).putScales (a + 1) 0 (sc.drop 256))

/-- What a message does when its occupancy starts: it reads its sources, reserves its draws, sends or takes A copies, or leaves for
memory. Answers the bytes it read; none where memory will end its occupancy. -/
def State.matBegin (s : State) (m : MatMsg) : Except Flt (Option (List Byte) × State) := do
  let c := s.cur.core
  let r := m.r
  match m.opc with
  | 0xB2 =>
    let x ← s.sliceAt r 0
    .ok (some (s.image x), s)
  | 0xB3 =>
    let n := bitsOf r.lit.toNat 16 8
    if r.sub.toNat % 2 = 1 then
      let xs := (s.core c).scaleQ.take n
      if xs.any fun x => decide (x.2 ≠ colourOf m.f.tag) then .error (slotFault (m.op 0) 0)
      else .ok (some (xs.map (·.1)), (s.modCore c fun k => { k with scaleQ := k.scaleQ.drop n }).admitScales c)
    else
      let x ← s.sliceAt r 1
      .ok (some ((s.image x).take n), s)
  | 0xB6 =>
    if mmaxLeader c r = c then
      if (s.core c).otherLeader m then throw (slotFault (m.op 0) 0)
      .ok (some [], (mmaxGroup c r).foldl (fun s x => if x = c then s else s.later (.mmaxACopy x c m.id)) s)
    else
      let s ← s.takeCopy m
      .ok (some [], s)
  | 0xB8 =>
    if r.sub.toNat % 4 = 1 then
      let x ← s.sliceAt r 0
      .ok (some (s.image x), s)
    else if m.isPeek then
      .ok (some ((s.peekTile ((m.op 0).val.toNat % 16)).flatMap (leBytes 4)), { s with free := s.free + 1 })
    else .ok (some [], s)
  | 0xBB =>
    let k := s.core c
    let t := (m.op 0).val.toNat % 16
    .ok (none, s.ckptReq m true (k.tileBytes t ++ (List.range 64).flatMap fun i => (k.row t i).bytes))
  | 0xBC => .ok (none, s.ckptReq m false [])
  | 0xC9 =>
    let bs ← s.readFrame m
    .ok (some bs, s)
  | 0xCC =>
    let s ← s.tokReq m
    .ok (none, s)
  | 0xCD =>
    let s ← s.tokReq m
    .ok (none, s)
  | _ => .ok (some [], s)

/-- The keys in the core's scratchpad that a message reads at its start carry poison (R227). -/
def State.matPoison (s : State) (m : MatMsg) (n : Nat) : Option Nat :=
  let va := match m.opc with
    | 0xC9 => some (padVa (64 * m.r.lit.toNat))
    | _ => none
  match va.bind fun a => nearKey s.cur.core a n with
  | some k => if k < laneKey ∧ s.poisonedRange s.cur.core.dieId k n then some k else none
  | none => none

/-- MATRIX_START (R298): a message starts on its path when that is free and no earlier message that it must follow is unfinished;
under SR it reserves its draws in one request (R64). A fault found here changes nothing else. -/
def execMatrixStart (s : State) : Host.Outcome State Fault Refusal :=
  .next (
    let c := s.site.core
    let k := s.core c
    match k.inbox.find? fun m => decide (m.id = s.site.n) with
    | none => s
    | some m =>
      if !k.mayStart c m then s.laterAt .matrixStart c m.id
      else
        let s := { s with cur := m.f }
        match s.matBegin m with
        | .error f => (s.dropMat c m.id).faultMat f
        | .ok (none, s) => s
        | .ok (some bs, s) =>
          match s.matPoison m bs.length with
          | some pa => (s.dropMat c m.id).consumePoison c m.f.node m.f.tag pa
          | none =>
            let mode := s.curAct.mode (m.r.sub.toNat / 8)
            let n := if mode = 5 then k.matDraws m else 0
            let s := s.modMat c m.id fun m => { m with stage := 1, src := bs, draw := s.curAct.rng, mode := mode }
            (s.reserve n).laterAt .matrixOccupancyEnd c m.id)

/-- MMAX_A_COPY (R305): the leader's pair, its scale arrays and its form arrive in a member's receive buffer; n names the leader's
message. -/
def execMmaxACopy (c leader : CoreId) (n : Nat) (s : State) : Host.Outcome State Fault Refusal :=
  .next (
    match (s.core leader).inbox.find? fun m => decide (m.id = n) with
    | none => s
    | some m =>
      let k := s.core leader
      let a := (m.op 0).val.toNat % 16
      let s := s.modCore c fun x =>
        { x with mmaxBuf := Assoc.set x.mmaxBuf (colourOf m.f.tag, m.num)
                   (m.form, k.slotBytes a ++ k.slotBytes (a + 1), k.slotScales a ++ k.slotScales (a + 1)) }
      s.modMat leader n fun m => { m with got := m.got + 1 })

/-! ## The end of an occupancy (R298 step 4) -/

/-- A slice operand as a message's descriptor result. -/
def MatMsg.sliceOut (m : MatMsg) (n cls : Nat) : Operand := ⟨(m.op n).val, mkKind 1 cls 0⟩

/-- An image written over the slice that operand n names. -/
def State.putSliceOf (s : State) (m : MatMsg) (n : Nat) (bs : List Byte) : State :=
  match sliceOf (m.op n).val with
  | some x => s.putImage x bs
  | none => s

/-- A message's results reach slots, tiles and slices: the state, and the replies on A and B (R298 step 4). -/
def State.matCommit (s : State) (m : MatMsg) : Except Flt (State × Operand × Operand) := do
  let c := s.cur.core
  let k := s.core c
  let r := m.r
  let lit := r.lit.toNat
  let i (n : Nat) : Nat := (m.op n).val.toNat % 16
  let both (s : State) (o : Operand) : Except Flt (State × Operand × Operand) := .ok (s, o, o)
  let md (f : Core → Core) : State := s.modCore c f
  match m.opc with
  | 0xB1 =>
    let acc := decide (16 ≤ (m.op 0).val.toNat)
    both (md fun k => (List.range lit).foldl (fun k j => if acc then k.clearTile (i 0 + j) else k.clearSlot (i 0 + j)) k) (plainOp 0)
  | 0xB2 => both (md fun k => k.putSlot (i 1) (256 * lit) m.src) (m.refOut 1)
  | 0xB3 => both (md fun k => k.putScales (i 0) (lit % 256) m.src) (m.refOut 0)
  | 0xB7 => both (md fun k => k.putTile (i 0) (List.replicate 8192 0)) (m.refOut 0)
  | 0xB8 =>
    match r.sub.toNat % 4 with
    | 0 => both (s.putSliceOf m 1 (if m.isPeek then m.src else k.tileBytes (i 0))) (m.op 1)
    | 1 => both (md fun k => k.putTile (i 1) m.src) (m.refOut 1)
    | _ =>
      both
        (md fun k =>
          (List.range 64).foldl (fun x j => x.putRow (i 1) j (k.row (i 0) j))
            (k.putTile (i 1) (if m.isPeek then m.src else k.tileBytes (i 0)))) (m.refOut 1)
  | 0xB9 =>
    let es := ((k.tileWords (i 1)).zip (k.tileWords (i 0))).map fun p =>
      if r.typ = 8 then faddBits fp32 ⟨0, false, 0⟩ p.1 p.2
      else intRes 2 (r.sub.toNat.testBit 5) (asInt 2 p.1 + asInt 2 p.2)
    both ((md fun k => k.putWords (i 1) (es.map (·.1))).raise (orFlags es)) (m.refOut 1)
  | 0xBA =>
    let es := (k.tileWords (i 0)).zipIdx.map fun p =>
      let y := convElem (elemTy r.typ.toNat) (elemTy lit) m.mode (satF r) (drawHi m.draw p.2) p.1
      (y.1, y.2.1)
    both ((s.putSliceOf m 1 (packElems (typWidth lit) (es.map (·.1)))).raise (orFlags es)) (m.op 1)
  | 0xBB => both s (plainOp 0)
  | 0xBC =>
    match (List.range 64).mapM fun j => rowOfBytes (m.src.drop (8192 + 16 * j)) with
    | none => .error (slotFault (m.op 0) 0)
    | some rows =>
      both
        (md fun k => rows.zipIdx.foldl (fun k p => k.putRow (i 0) p.2 p.1) (k.putTile (i 0) m.src)) (m.refOut 0)
  | 0xC8 =>
    let nt := groupNt m
    both
      (md fun k =>
        (List.range (bitsOf lit 12 6)).foldl
          (fun k j => (k.putRow (i 0) (lit % 64 + j) RowState.init).putGroupRow (i 0) nt (lit % 64 + j) (List.replicate (32 * nt) 0)) k)
      (m.refOut 0)
  | 0xC9 =>
    match frameOf m.src with
    | none => .error (slotFault (m.op 0) 0)
    | some fr =>
      let (k, img, fl) := k.runSmxu m fr
      both (((s.setCore c k).putSliceOf m 2 img).raise fl) (m.sliceOut 2 (if fr.fp8 then 3 else 2))
  | 0xCA =>
    let (k, es, fl) := k.runSmxn m
    let ty := lit % 16
    both (((s.setCore c k).putSliceOf m 1 (packElems (typWidth ty) es)).raise fl) (m.sliceOut 1 (classOf ty))
  | 0xCB =>
    let (k, fl) := k.runSmxm m
    both ((s.setCore c k).raise fl) (m.refOut 1)
  | 0xCC => both s (plainOp 0)
  | 0xCD =>
    match tokRows (groupNt m) m.src with
    | none => .error (slotFault (m.op 0) 0)
    | some rows =>
      both
        (md fun k => rows.zipIdx.foldl (fun k p => (k.putRow (i 0) p.2 p.1.1).putGroupRow (i 0) (groupNt m) p.2 p.1.2) k)
        (m.refOut 0)
  | 0xCE =>
    let st := k.row (i 0) (lit % 64)
    .ok (s, plainOp (BitVec.ofNat 64 (putBits st.l.toNat 32 + st.m.toNat)),
      plainOp (BitVec.ofNat 64 (putBits (st.flags.toNat % 8) 48 + putBits st.flush.toNat 32 + st.e.toNat)))
  | _ => both (s.runMma m) (m.refOut 2)

/-- A message's occupancy ends with its results written; its reply follows (R298). -/
def State.endMat (s : State) (c : CoreId) (m : MatMsg) : State :=
  match s.matCommit m with
  | .error f => (s.dropMat c m.id).faultMat f
  | .ok (s, a, b) =>
    (s.modMat c m.id fun x => { x with stage := 3, outA := some a, outB := some b }).laterAt .matrixReply c m.id

/-- MATRIX_OCCUPANCY_END (R298, R419): results are written, or, where the residue check of a multiply found a mismatch, the message is
repeated from its unchanged operands. The leader of an MMAX waits until every member has received A (R305); SMXW and SMXR go on once
their token's header is read (R324). -/
def execMatrixOccupancyEnd (s : State) : Host.Outcome State Fault Refusal :=
  .next (
    let c := s.site.core
    match (s.core c).inbox.find? fun m => decide (m.id = s.site.n) && decide (m.stage = 1) with
    | none => s
    | some m =>
      let s := { s with cur := m.f }
      if (m.opc = 0xCC ∨ m.opc = 0xCD) ∧ m.got = 0 then
        match s.tokRest m with
        | .ok s => s
        | .error f =>
          let s := match (s.core c).reqs.find? fun q => decide (q.op.engine? = some m.id) with
            | some q => s.dropReq c q.id
            | none => s
          (s.dropMat c m.id).faultMat f
      else if m.opc = 0xB6 ∧ mmaxLeader c m.r = c ∧ (s.core c).otherLeader m then (s.dropMat c m.id).faultMat (slotFault (m.op 0) 0)
      else if m.opc = 0xB6 ∧ mmaxLeader c m.r = c ∧ m.got + 1 < (mmaxGroup c m.r).length then
        s.laterAt .matrixOccupancyEnd c m.id 0 s.site.flag
      else if s.site.flag ∧ m.onArray then
        (s.modMat c m.id fun x => { x with retried := true }).laterAt .matrixRetry c m.id
      else s.endMat c m)

/-- MATRIX_RETRY (R419): the repeat ends. A clean one writes its result and posts a MATRIX_RETRY record; a second mismatch writes
nothing, posts UNCORRECTABLE with DETAIL 4 and purges the colour. -/
def execMatrixRetry (s : State) : Host.Outcome State Fault Refusal :=
  .next (
    let c := s.site.core
    match (s.core c).inbox.find? fun m => decide (m.id = s.site.n) && decide (m.stage = 1) && m.retried with
    | none => s
    | some m =>
      let s := { s with cur := m.f }
      if s.site.flag then
        let s := (s.dropMat c m.id).faultMat { cause := .uncorrectable, detail := 4 }
        match s.curAct? with
        | some a => if (s.act a).life = .purging then s else s.orderPurge a
        | none => s
      else
        let s := s.endMat c m
        (s.board c.cluId 2
          [faultWord0 3 0 0 false (colourOf m.f.tag).toNat m.f.node (coreField c) c.isCtl 0, m.f.tag, 0, s.timeWord c.pkg 0]).1)

/-- MATRIX_REPLY (R298): the reply tokens are sent under the firing's result tag; those of a purged colour are discarded (R300). -/
def execMatrixReply (s : State) : Host.Outcome State Fault Refusal :=
  .next (
    let c := s.site.core
    match (s.core c).inbox.find? fun m => decide (m.id = s.site.n) && decide (m.stage = 3) with
    | none => s
    | some m =>
      let s := s.dropMat c m.id
      if (s.owner? c.dieId (colourOf m.f.tag)).isNone ∨ s.dying c.dieId m.f.tag then s
      else
        let send (s : State) (dst : BitVec 24) (o : Option Operand) : State :=
          match o with
          | some o => s.sendFrom c m.f.node dst m.tag o
          | none => s
        send (send s m.r.dstA m.outA) m.r.dstB m.outB)

end Sys2Proof.Machine
end

