-- ==== Sys2Proof/Machine/Rings.lean ====
section
/-! DEFINITION. Shard pages, the shard table and query tokens (R256 to R275): page descriptors, lists, the order of circulation,
visits, refills and evictions. -/

namespace Sys2Proof.Machine

open Sys2Proof

/-! ## The shard table (R261 to R264, R329) -/

/-- A word of a package's root block. -/
def State.rootWord (s : State) (d : DieId) (p i : Nat) : Nat := (s.peekWord d ((s.pkg p).shardbase + 8 * i)).toNat

/-- The package of a PID. -/
def pidPkg (pid : Nat) : Nat := bitsOf pid 29 24

/-- A PID that names a page (R329). -/
def State.pidOk (s : State) (d : DieId) (pid : Nat) : Bool :=
  decide (pid < 2 ^ 30) && decide (pidPkg pid < s.podSize) && decide (pid % 2 ^ 24 < s.rootWord d (pidPkg pid) 3 % 2 ^ 24)

/-- The address of a page's descriptor (R261). -/
def State.descAt (s : State) (d : DieId) (pid : Nat) : Nat := s.rootWord d (pidPkg pid) 2 % 2 ^ 52 + 32 * (pid % 2 ^ 24)

/-- A word of a page's descriptor as a die reads it. -/
def State.desc (s : State) (d : DieId) (pid i : Nat) : Nat := (s.peekWord d (s.descAt d pid + 8 * i)).toNat

/-- A page's descriptor read through the slices of a die (R261, R362). -/
def State.readDesc (s : State) (d : DieId) (pid : Nat) : State :=
  if s.pidOk d pid then s.readThrough d (s.descAt d pid) 32 else s

/-- A word of a page's descriptor written by the system class (R330). -/
def State.setDesc (s : State) (d : DieId) (pid i v : Nat) : State := s.sysWord d (s.descAt d pid + 8 * i) (BitVec.ofNat 64 v)

/-- Bits [hi:lo] of a word replaced. -/
def withBits (w hi lo v : Nat) : Nat := w - putBits (bitsOf w hi lo) lo + putBits (v % 2 ^ (hi + 1 - lo)) lo

/-- LOC of a descriptor word 0. -/
def dLoc (w : Nat) : Nat := bitsOf w 63 62
/-- FST. -/
def dFst (w : Nat) : Nat := bitsOf w 61 60
/-- TENT. -/
def dTent (w : Nat) : Bool := w.testBit 59
/-- FILL. -/
def dFill (w : Nat) : Nat := bitsOf w 58 51
/-- CFILL. -/
def dCfill (w : Nat) : Nat := bitsOf w 50 43
/-- REFS. -/
def dRefs (w : Nat) : Nat := w % 65536
/-- The station core. -/
def dCore (w : Nat) : CoreId := ⟨bitsOf w 42 37, bitsOf w 36 35, bitsOf w 34 32, bitsOf w 31 24⟩
/-- The station slot. -/
def dSlot (w : Nat) : Nat := bitsOf w 23 21

/-- A sequence as its entry gives it (R262). -/
structure Seq where
  p     : Nat
  d     : Nat
  b     : Nat
  list  : Nat
  maxpg : Nat
  layer : Nat
  hg    : Nat

/-- The status codes of R329. -/
def stOk : Nat := 0
/-- BADPID. -/
def stBadPid : Nat := 1
/-- BADSEQ. -/
def stBadSeq : Nat := 2
/-- BADINDEX. -/
def stBadIndex : Nat := 3
/-- STATE. -/
def stState : Nat := 4
/-- FULL. -/
def stFull : Nat := 5
/-- MISMATCH. -/
def stMismatch : Nat := 6
/-- BUSY. -/
def stBusy : Nat := 7
/-- NOWHERE. -/
def stNowhere : Nat := 8
/-- BADTAG. -/
def stBadTag : Nat := 9
/-- DUPLICATE. -/
def stDuplicate : Nat := 10
/-- POISONED. -/
def stPoisoned : Nat := 11
/-- DONE. -/
def stDone : Nat := 12

/-- The page list that a sequence, layer and head group name in the table of a die's package, or the status that says why none
(R262, R263, R329). -/
def State.seqOf (s : State) (d : DieId) (seq layer hg : Nat) : Except Nat Seq :=
  if s.rootWord d d.pkg 1 % 2 ^ 24 ≤ seq then .error stBadSeq
  else
    let a := s.rootWord d d.pkg 0 % 2 ^ 52 + 32 * seq
    let w0 := (s.peekWord d a).toNat
    let w1 := (s.peekWord d (a + 8)).toNat
    if !(w0.testBit 63) then .error stBadSeq
    else if bitsOf w0 42 35 < layer ∨ bitsOf w0 34 29 < hg then .error stBadIndex
    else
      let maxpg := bitsOf w0 28 13
      let ls := roundUp (16 + 4 * maxpg) 16
      .ok { p := bitsOf w0 62 55, d := bitsOf w0 54 47 + 1, b := if bitsOf w0 46 43 = 10 then 2 else 1,
            list := w1 % 2 ^ 52 + (layer * (bitsOf w0 34 29 + 1) + hg) * ls, maxpg := maxpg, layer := layer, hg := hg }

/-- The sequence that a sequence word names (R313). -/
def State.seqOfWord (s : State) (d : DieId) (w : Word) : Except Nat Seq :=
  s.seqOf d (bitsOf w.toNat 63 40) (bitsOf w.toNat 39 32) (bitsOf w.toNat 31 26)

/-- The low word of a list's header: the four masks below PODMASK, and NPAGE. -/
def State.listLow (s : State) (d : DieId) (list : Nat) : Nat := (s.peekWord d list).toNat
/-- NPAGE. -/
def State.npage (s : State) (d : DieId) (list : Nat) : Nat := bitsOf (s.listLow d list) 23 8
/-- An entry of a list. -/
def State.entryAt (s : State) (d : DieId) (list i : Nat) : Nat := leNat (s.peek d (list + 16 + 4 * i) 4)
/-- An entry of a list written. -/
def State.setEntry (s : State) (d : DieId) (list i pid : Nat) : State := s.sysWrite d (list + 16 + 4 * i) (leBytes 4 pid)
/-- No page (R263). -/
def noPage : Nat := 0xFFFFFFFF

/-- A station ORed into the five masks of a list, with NPAGE as given (R335, R337). -/
def State.addStation (s : State) (d : DieId) (list : Nat) (c : CoreId) (npage : Nat) : State :=
  let lo := s.listLow d list
  let hi := (s.peekWord d (list + 8)).toNat
  let lo := lo ||| putBits (2 ^ c.die) 60 ||| putBits (2 ^ c.clu) 52 ||| putBits (2 ^ (c.core / 16) % 4096) 40 ||| putBits (2 ^ (c.core % 16)) 24
  let lo := withBits lo 23 8 npage
  (s.sysWord d list (BitVec.ofNat 64 lo)).sysWord d (list + 8) (BitVec.ofNat 64 (hi ||| 2 ^ c.pkg))

/-! ## Slots and ring buffers (R258, R271) -/

/-- A shard slot. -/
def State.slot? (s : State) (c : CoreId) (i : Nat) : Option Slot := (s.core c).slots.getD i none
/-- A shard slot replaced. -/
def State.setSlot (s : State) (c : CoreId) (i : Nat) (x : Option Slot) : State :=
  s.modCore c fun k => { k with slots := setAt k.slots i x }
/-- A shard slot changed where it is valid. -/
def State.modSlot (s : State) (c : CoreId) (i : Nat) (f : Slot → Slot) : State :=
  match s.slot? c i with
  | some x => s.setSlot c i (some (f x))
  | none => s

/-- The slot of a page at the station that its descriptor names, where that slot holds it. -/
def State.stationOf (s : State) (d : DieId) (pid : Nat) : Option (CoreId × Nat × Slot) :=
  let w := s.desc d pid 0
  match s.slot? (dCore w) (dSlot w) with
  | some x => if x.pid = pid ∧ dCore w ∈ (s.cores.map Prod.fst) then some (dCore w, dSlot w, x) else none
  | none => none

/-- The scratchpad position of a page (R257). -/
def posOff (pos : Nat) : Nat := pos * 0xC000
/-- The physical address of a byte of a core's scratchpad (R203). -/
def padPa (c : CoreId) (off : Nat) : Nat := sharedPa c.cluId (c.core * Config.padBytes + off)
/-- The scratchpad offset of a ring buffer (R258). -/
def ringOff (b : Nat) : Nat := 0x30000 + 0x8000 * b
/-- The key of a ring buffer for its core. -/
def ringKey (c : CoreId) (b : Nat) : Nat := if c.isCtl then padKey + ringOff b else padPa c (ringOff b)

/-- A visit is in progress at a slot. -/
def Core.visiting (k : Core) (i : Nat) : Bool :=
  k.rings.any fun x => match x with | some (_, .visit j) => decide (j = i) | _ => false
/-- Tokens wait on a slot's refill. -/
def Core.waitingAt (k : Core) (i : Nat) : Bool :=
  k.rings.any fun x => match x with | some (_, .waiting j _) => decide (j = i) | _ => false

/-- A ring buffer's use replaced. -/
def State.setRing (s : State) (c : CoreId) (b : Nat) (x : Option (Nat × RingUse)) : State :=
  s.modCore c fun k => { k with rings := setAt k.rings b x }

/-! ## Tokens (R265 to R269) -/

/-- A query token. -/
def State.tok? (s : State) (q : Nat) : Option QTok := s.qtoks.find? fun t => decide (t.id = q)
/-- A query token changed. -/
def State.modTok (s : State) (q : Nat) (f : QTok → QTok) : State :=
  { s with qtoks := s.qtoks.map fun t => if t.id = q then f t else t }
/-- A query token gone. -/
def State.dropTok (s : State) (q : Nat) : State := { s with qtoks := s.qtoks.filter fun t => decide (t.id ≠ q) }

/-- Bytes with header word i replaced. -/
def setHdr (bs : List Byte) (i v : Nat) : List Byte := bs.take (8 * i) ++ leBytes 8 v ++ bs.drop (8 * i + 8)
/-- RTAG. -/
def hdrTag (bs : List Byte) : Word := BitVec.ofNat 64 (hdr bs 5)

/-- The station indices of a level from where its walk begins (R268). -/
def ringFrom (n e : Nat) : List Nat := (List.range n).map fun j => (e + j) % n

/-- The stations of a token in the order of R268, by its masks and its start. -/
def circuit (bs : List Byte) : List CoreId :=
  let w2 := hdr bs 2
  let w7 := hdr bs 7
  let pod := hdr bs 1
  let sp := bitsOf w7 31 26
  let sd := bitsOf w7 25 24
  let sk := bitsOf w7 23 21
  let sr := bitsOf w7 20 17
  let sc := bitsOf w7 16 13
  ((ringFrom 64 sp).filter fun p => pod.testBit p).flatMap fun p =>
    let hp := decide (p = sp)
    ((ringFrom 4 (if hp then sd else 0)).filter fun d => (bitsOf w2 63 60).testBit d).flatMap fun d =>
      let hd := hp && decide (d = sd)
      ((ringFrom 8 (if hd then sk else 0)).filter fun k => (bitsOf w2 59 52).testBit k).flatMap fun k =>
        let hk := hd && decide (k = sk)
        ((ringFrom 12 (if hk then sr else 0)).filter fun r => (bitsOf w2 51 40).testBit r).flatMap fun r =>
          let hr := hk && decide (r = sr)
          ((ringFrom 16 (if hr then sc else 0)).filter fun c => (bitsOf w2 39 24).testBit c).map fun c => ⟨p, d, k, 16 * r + c⟩

/-- A core of the pod (R11, R15, R86). -/
def State.isCore (s : State) (c : CoreId) : Bool :=
  decide (c.pkg < s.podSize) && decide (c.die < 4) && decide (c.clu < 8) && decide (c.core < 194)

/-- The first token that waits for a ring buffer of a core tries again (R271). -/
def State.wakeRing (s : State) (c : CoreId) : State :=
  match (s.core c).ringWait with
  | [] => s
  | q :: _ =>
    match s.tok? q with
    | some t => s.laterAt (if t.slots.isEmpty then .tokenReturn else .visitStart) c q
    | none => s.modCore c fun k => { k with ringWait := k.ringWait.drop 1 }

/-- A token waits for a ring buffer of a core no more: the next one may (R271). -/
def State.leaveWait (s : State) (c : CoreId) (q : Nat) : State :=
  if q ∈ (s.core c).ringWait then (s.modCore c fun k => { k with ringWait := k.ringWait.filter fun x => decide (x ≠ q) }).wakeRing c else s

/-- A token leaves a core for its next station, or, with none left, for RET (R268). A station of a package that the pod does not hold is
passed by. -/
def State.moveOn (s : State) (q : Nat) : State :=
  match s.tok? q with
  | none => s
  | some t =>
    let s := s.leaveWait t.at_ q
    match t.route.dropWhile fun c => !s.isCore c with
    | [] => (s.modTok q fun t => { t with route := [], slots := [] }).laterAt .tokenReturn t.at_ q
    | c :: rest => (s.modTok q fun t => { t with at_ := c, route := rest, slots := [] }).laterAt .queryTokenStationArrival c q

/-- A ring buffer frees (R271). -/
def State.freeRing (s : State) (c : CoreId) (b : Nat) : State := (s.setRing c b none).wakeRing c

/-- A free ring buffer for a token whose turn it is; else the token waits on the ring (R271). With the other buffer free too, the next that
waits may take it. -/
def State.takeRing (s : State) (c : CoreId) (q : Nat) : Option Nat × State :=
  let k := s.core c
  let first := decide (k.ringWait.head? = some q) || k.ringWait.isEmpty
  match (if first then leastBelow 2 fun b => (k.rings.getD b none).isNone else none) with
  | some b => (some b, (s.setCore c { k with ringWait := k.ringWait.filter fun x => decide (x ≠ q) }).wakeRing c)
  | none => (none, s.setCore c { k with ringWait := if q ∈ k.ringWait then k.ringWait else k.ringWait ++ [q] })

/-- The activation of a token is gone or being purged: the token is discarded (R269). -/
def State.tokDead (s : State) (t : QTok) : Bool :=
  match Assoc.get? s.acts t.act with
  | some a => decide (a.life = .purging)
  | none => true

/-- A token discarded wherever it stands, with the buffer that holds it (R269). -/
def State.discardTok (s : State) (q : Nat) : State :=
  match s.tok? q with
  | none => s
  | some t =>
    let s := s.dropTok q
    let s := s.modCore t.at_ fun k => { k with ringWait := k.ringWait.filter fun x => decide (x ≠ q) }
    match t.buf with
    | some b => s.freeRing t.at_ b
    | none => s.wakeRing t.at_

/-! ## Refills and evictions (R259, R273, R274) -/

/-- A slot's page copied on the device's own behalf, through the slices of its die and under the system class, once all its bytes are read
and may be written; whether poison came with them (R259, R362). -/
def State.copyPage (s : State) (c : CoreId) (i src dst : Nat) : Option Bool × State :=
  let d := c.dieId
  match s.drawRuns d (.page c i) [⟨src, some src, 49152, false⟩] with
  | (none, s) => (none, s)
  | (some bs, s) =>
    let (ok, s) := s.writeReady d false dst 49152
    if !ok then (none, s)
    else
      let secs := (List.range 1024).filter fun j => ((bs.drop (48 * j)).take 48).any (·.2)
      let s := s.sysWrite d dst (bs.map (·.1))
      (some !secs.isEmpty, secs.foldl (fun s j => s.spoil d false (dst + 48 * j) 48) s)

/-- The place of a slot's page: the scratchpad position that the slot names, else the descriptor's address (R257, R333). -/
def State.pagePlace (s : State) (c : CoreId) (x : Slot) : Nat :=
  match x.pos with
  | some p => padPa c (posOff p)
  | none => s.desc c.dieId x.pid 1 % 2 ^ 52

/-- Both addresses of a page's copy name something (R203). -/
def State.copyable (s : State) (c : CoreId) (x : Slot) : Bool :=
  s.rangeOk (s.pagePlace c x) 49152 && s.rangeOk (s.desc c.dieId x.pid 2 % 2 ^ 52) 49152

/-- LOC written to the page's descriptor and to its slot in one step (R259). -/
def State.setLoc (s : State) (c : CoreId) (i pid loc : Nat) : State :=
  let d := c.dieId
  let s := if s.pidOk d pid then s.setDesc d pid 0 (withBits (s.desc d pid 0) 63 62 loc) else s
  s.modSlot c i fun x => { x with loc := BitVec.ofNat 2 loc }

/-- A station starts the refill of a slot's page where none runs (R259). A PID that fails R329 copies nothing and ends with status
1. -/
def State.startRefill (s : State) (c : CoreId) (i : Nat) : State :=
  match s.slot? c i with
  | none => s
  | some x =>
    if x.refill then s
    else
      let ok := s.pidOk c.dieId x.pid && s.copyable c x
      ((s.setLoc c i x.pid 3).modSlot c i fun x => { x with refill := true }).laterAt .refillComplete c i (if ok then 0 else 1)

/-- The location of a slot's page: its descriptor's, or the slot's where the PID names no page. -/
def State.locOf (s : State) (c : CoreId) (x : Slot) : Nat :=
  if s.pidOk c.dieId x.pid then dLoc (s.desc c.dieId x.pid 0) else x.loc.toNat

/-- The value of a visit token (R271). -/
def visitValue (nfill pidx slot : Nat) (returned : Bool) (b : Nat) : Word :=
  BitVec.ofNat 64 (putBits nfill 40 + putBits pidx 24 + putBits slot 21 + putBits (b2n returned) 20 + b)

/-- Field [hi:lo] of header word 7 of a buffered token raised by 1, stopping at 0xFFFF (R266, R271, R273). -/
def State.bumpHdr (s : State) (c : CoreId) (b hi lo : Nat) : State :=
  let key := ringKey c b + 56
  let w := leNat (s.keyBytes c key 8)
  s.keyWrite c false key (leBytes 8 (withBits w hi lo (min (bitsOf w hi lo + 1) 0xFFFF))) none

/-- A visit begins: the fill count is sampled once, VISITS is raised, and the visit token goes to the slot's ENTRY (R271). -/
def State.beginVisit (s : State) (c : CoreId) (q b i : Nat) (x : Slot) : State :=
  let w := s.desc c.dieId x.pid 0
  let s := s.readDesc c.dieId x.pid
  let spec := (leNat (s.keyBytes c (ringKey c b) 8)).testBit 12
  let n := if spec && dTent w then dFill w else dCfill w
  let s := (s.bumpHdr c b 63 48).setRing c b (some (q, .visit i))
  let plan := match s.actOf? c.dieId x.tag with
    | some a => (s.act a).plan
    | none => []
  let e := x.entry.toNat
  s.later (.tokenArrival c .own ⟨bitsOf e 13 2, e % 4, setInner plan x.tag b, plainOp (visitValue n x.pidx i false b), []⟩)

/-- QUERY_TOKEN_STATION_ARRIVAL (R268 to R270): a token finds the pages of its list that this station holds, by one read of the list
for each slot, and visits them in ascending PIDX; with none it moves on. -/
def execQueryTokenStationArrival (s : State) : Host.Outcome State Fault Refusal :=
  .next (
    let q := s.site.n
    match s.tok? q with
    | none => s
    | some t =>
      if s.tokDead t then s.discardTok q
      else
        let c := t.at_
        let w0 := hdr t.bytes 0
        let list := hdr t.bytes 3 % 2 ^ 52
        let hits := (List.range 8).filterMap fun i =>
          match s.slot? c i with
          | some x =>
            if x.layer = bitsOf w0 39 32 ∧ x.hg = bitsOf w0 31 26 ∧ x.pidx < bitsOf (hdr t.bytes 2) 23 8
                ∧ s.entryAt c.dieId list x.pidx = x.pid then some (x.pidx, (i, x.pid)) else none
          | none => none
        let slots := (sortBy (fun (a b : Nat × (Nat × Nat)) => decide (a.1 < b.1)) hits).map (·.2)
        let s := (slots.filterMap fun x => s.slot? c x.1).foldl (fun s x => s.readThrough c.dieId (list + 16 + 4 * x.pidx / 8 * 8) 8) s
        if slots.isEmpty then s.moveOn q
        else (s.modTok q fun t => { t with slots := slots }).laterAt .visitStart c q)

/-- VISIT_START (R271, R273): a token enters a free ring buffer and visits its next page here, or waits there on the page's refill,
which starts where none runs. A page that is being evicted takes no new visit (R259); one that its slot holds no more is passed by
(R270). -/
def execVisitStart (s : State) : Host.Outcome State Fault Refusal :=
  .next (
    let c := s.site.core
    let q := s.site.n
    match s.tok? q with
    | none => s
    | some t =>
      if s.tokDead t then s.discardTok q
      else if t.buf.isSome ∨ t.at_ ≠ c then s
      else match t.slots with
        | [] => if t.route.isEmpty then s else s.moveOn q
        | (i, pid) :: rest =>
          match (s.slot? c i).filter fun x => decide (x.pid = pid) with
          | none =>
            let s := s.modTok q fun t => { t with slots := rest }
            if rest.isEmpty then s.moveOn q else s.laterAt .visitStart c q
          | some x =>
            if x.evicting then s.laterAt .visitStart c q
            else match s.takeRing c q with
              | (none, s) => s
              | (some b, s) =>
                let s := s.keyWrite c false (ringKey c b) t.bytes none
                let s := s.modTok q fun t => { t with buf := some b }
                if s.locOf c x ≤ 1 then s.beginVisit c q b i x
                else
                  let (n, s) := s.fresh
                  ((s.bumpHdr c b 47 32).setRing c b (some (q, .waiting i n))).startRefill c i)

/-- The tokens that wait on a slot's refill, in the order they came: token and buffer. -/
def Core.waiters (k : Core) (i : Nat) : List (Nat × Nat) :=
  ((sortBy (fun (a b : Nat × (Nat × Nat)) => decide (a.1 < b.1))
    ((List.range 2).filterMap fun b =>
      match k.rings.getD b none with
      | some (q, .waiting j n) => if j = i then some (n, (q, b)) else none
      | _ => none))).map (·.2)

/-- A token whose page cannot be refilled: UNCORRECTABLE names the slot's ENTRY node and the token's RTAG, and its activation is
purged (R274). -/
def State.failRefill (s : State) (c : CoreId) (x : Slot) (q : Nat) : State :=
  match s.tok? q with
  | none => s
  | some t =>
    let s := (s.discardTok q).fault c.cluId .firing false c (bitsOf x.entry.toNat 13 2) (hdrTag t.bytes)
      { cause := .uncorrectable, detail := 3 }
    match Assoc.get? s.acts t.act with
    | some a => if a.life = .purging then s else s.orderPurge t.act
    | none => s

/-- REFILL_COMPLETE (R259, R273, R274): with status 1 the page is EVICTED again and its waiting tokens fail; else the page stands
where its slot names it, and its descriptor's address with it (R333; log 102), poisoned where its copy was, and the tokens that wait
begin their visits in the order they came. -/
def execRefillComplete (s : State) : Host.Outcome State Fault Refusal :=
  .next (
    let c := s.site.core
    let i := s.site.n
    match s.slot? c i with
    | none => s
    | some x =>
      if !x.refill then s
      else if s.site.m = 1 then
        let s := (s.setLoc c i x.pid 2).modSlot c i fun x => { x with refill := false }
        ((s.core c).waiters i).foldl (fun s w => s.failRefill c x w.1) s
      else
        let d := c.dieId
        let to_ := s.pagePlace c x
        match s.copyPage c i (s.desc d x.pid 2 % 2 ^ 52) to_ with
        | (none, s) => s.laterAt .refillComplete c i s.site.m
        | (some bad, s) =>
          let s := if s.desc d x.pid 1 % 2 ^ 52 = to_ then s else s.setDesc d x.pid 1 to_
          let s := (s.setLoc c i x.pid (if x.pos.isSome then 0 else 1)).modSlot c i fun x => { x with refill := false, poisoned := bad }
          ((s.core c).waiters i).foldl
            (fun s w => if (s.tok? w.1).any s.tokDead then s.discardTok w.1 else s.beginVisit c w.1 w.2 i x) s)

/-- TOKEN_RETURN (R272): a token enters a ring buffer of its RET core, which tells RET's node. A token whose RET is no core of the pod
has nowhere to go (log 56). -/
def execTokenReturn (s : State) : Host.Outcome State Fault Refusal :=
  .next (
    let q := s.site.n
    match s.tok? q with
    | none => s
    | some t =>
      let c := retCore t.bytes
      if s.tokDead t ∨ !s.isCore c then s.discardTok q
      else if !t.returning then s
      else match (s.modTok q fun t => { t with at_ := c }).takeRing c q with
        | (none, s) => s
        | (some b, s) =>
          let s := s.keyWrite c false (ringKey c b) t.bytes none
          let s := (s.modTok q fun t => { t with buf := some b }).setRing c b (some (q, .returned))
          let w := hdr t.bytes 6
          s.later (.tokenArrival c .network
            ⟨bitsOf w 28 17, bitsOf w 16 15, hdrTag t.bytes, plainOp (visitValue 0 0 0 true b), []⟩))

end Sys2Proof.Machine
end

