-- ==== Sys2Proof/Machine/Shards.lean ====
section
/-! DEFINITION. The shard instructions (R312, R327 to R339) and the ends of speculation (R396 to R398): those that change a page or a
list wait for their turn at its slice (R330), the others act as they issue. -/

namespace Sys2Proof.Machine

open Sys2Proof

/-! ## Query tokens sent and forwarded (R327, R328) -/

/-- A status on both destinations (R312). -/
def statusOut (r : Rec) (t : Word) (st : Nat) (s : State) : Eff := .ok (s.out r t (plainOp (BitVec.ofNat 64 st)))

/-- A seq operand whose bits [25:0] are zero, or ILLEGAL_RECORD (R313). -/
def seqOperand (w : Word) : Except Flt Unit := if w.toNat % 2 ^ 26 = 0 then .ok () else .error { cause := .illegalRecord }

/-- The token image at an operand: its address, and its bytes, all within the scratchpad (R324). -/
def State.tokenImage (s : State) (a : Word) : Except Flt (Nat × List Byte) := do
  let va ← s.imageAddr a
  let n := tokSize (leNat (s.nearBytes va 8))
  checkNear s.cur.core va n
  .ok (va, s.nearBytes va n)

/-- A header whose reserved bits are zero and whose LIST is not (R266, R327). -/
def headerOk (bs : List Byte) : Bool :=
  decide (hdr bs 0 % 4096 = 0) && decide (hdr bs 2 % 256 = 0) && decide (hdr bs 3 / 2 ^ 52 = 0) && decide (hdr bs 6 % 2 ^ 15 = 0)
    && decide (hdr bs 7 % 2 ^ 13 = 0) && decide (hdr bs 3 % 2 ^ 52 ≠ 0)

/-- The header as QSEND changes it (R327). -/
def sentHeader (bs : List Byte) (c : CoreId) (col : BitVec 9) (spec : Bool) : List Byte :=
  let bs := setHdr bs 0 (withBits (hdr bs 0) 12 12 (b2n spec))
  let bs := setHdr bs 5 (withBits (hdr bs 5) 63 55 col.toNat)
  setHdr bs 7
    (putBits (c.pkg % 64) 26 + putBits (c.die % 4) 24 + putBits (c.clu % 8) 21 + putBits (c.core / 16) 17 + putBits (c.core % 16) 13)

/-- QSEND puts a copy of a token image on the rings at its core's station (R327). -/
def execQsend (r : Rec) (s : State) : Host.Outcome State Fault Refusal :=
  memFire Forms.qsend r s fun t s => do
    s.scalars r
    let (_, bs) ← s.tokenImage s.cur.op0.val
    if !headerOk bs then statusOut r t stMismatch s
    else
      let c := s.cur.core
      let bs := sentHeader bs c (colourOf s.cur.tag) (decide (s.curAct.origin = .spec))
      let (q, s) := s.fresh
      let x : QTok := ⟨q, s.curAct?.getD 0, bs, c, circuit bs, [], none⟩
      statusOut r t stOk (({ s with qtoks := s.qtoks ++ [x] }).moveOn q)

/-- QFWD ends the visit or the return of a ring buffer's token (R328). -/
def execQfwd (r : Rec) (s : State) : Host.Outcome State Fault Refusal :=
  memFire Forms.qfwd r s fun t s => do
    s.scalars r
    let v := s.cur.op0.val.toNat
    if bitsOf v 63 48 ≠ 0 ∨ bitsOf v 19 1 ≠ 0 then .error { cause := .illegalRecord }
    else
      let c := s.cur.core
      let b := v % 2
      let col := colourOf s.cur.tag
      let bad : Eff := .error (slotFault s.cur.op0 0)
      match (s.core c).rings.getD b none with
      | some (q, .visit i) =>
        if v.testBit 20 ∨ ((s.slot? c i).map fun x => colourOf x.tag) ≠ some col then bad
        else
          let bs := s.keyBytes c (ringKey c b) ((s.tok? q).elim 0 fun t => t.bytes.length)
          let s := (s.modTok q fun t => { t with bytes := bs, buf := none, slots := t.slots.drop 1 }).freeRing c b
          let more := (s.tok? q).elim false fun t => !t.slots.isEmpty
          statusOut r t 0 (if more then s.laterAt .visitStart c q else s.moveOn q)
      | some (q, .returned) =>
        if !(v.testBit 20) ∨ ((s.tok? q).map fun t => colourOf (hdrTag t.bytes)) ≠ some col then bad
        else statusOut r t 0 ((s.dropTok q).freeRing c b)
      | _ => bad

/-! ## Lookups (R331, R338, R339) -/

/-- KLOOK's header form writes a token's masks, NPAGE and LIST into its image (R331). -/
def execKlook (r : Rec) (s : State) : Host.Outcome State Fault Refusal :=
  memFire Forms.klook r s fun t s => do
    s.scalars r
    let (va, bs) ← s.tokenImage s.cur.op0.val
    let c := s.cur.core
    let w0 := hdr bs 0
    match s.seqOf c.dieId (bitsOf w0 63 40) (bitsOf w0 39 32) (bitsOf w0 31 26) with
    | .error st => statusOut r t st s
    | .ok x =>
      if bitsOf w0 21 14 + 1 ≠ x.d then statusOut r t stMismatch s
      else match nearKey c (va + 8) 24 with
        | none => .error (addrFault s.cur.op0.val)
        | some k =>
          if s.ringByte c k then .error (permAt va)
          else
            let lo := s.listLow c.dieId x.list
            let hi := (s.peekWord c.dieId (x.list + 8)).toNat
            statusOut r t stOk
              (s.keyWrite c false k (leBytes 8 hi ++ leBytes 8 (withBits lo 7 0 0) ++ leBytes 8 x.list)
                (some (colourOf s.cur.tag)))

/-- KLOOK `.page` sends a listed page's descriptor word 0 and its PID (R331). -/
def execKlookPage (r : Rec) (s : State) : Host.Outcome State Fault Refusal :=
  memFire Forms.klookPage r s fun t s => do
    s.scalars r
    seqOperand s.cur.op0.val
    let d := s.cur.core.dieId
    let send (w pid st : Nat) : Eff :=
      .ok ((s.emitA r t (plainOp (BitVec.ofNat 64 w))).emitB r t (plainOp (BitVec.ofNat 64 (putBits pid 32 + st))))
    match s.seqOfWord d s.cur.op0.val with
    | .error st => send 0 noPage st
    | .ok x =>
      let i := s.cur.op1.val.toNat
      let pid := s.entryAt d x.list i
      if s.npage d x.list ≤ i ∨ pid = noPage then send 0 noPage stBadIndex
      else if !s.pidOk d pid then send 0 noPage stBadPid
      else send (s.desc d pid 0) pid stOk

/-- The hash of identifiers after a parent (R277). -/
def pxhash (ids : List Nat) (parent : Nat) : Nat :=
  ((List.range ids.length).foldl (fun v i => mix (v ^^^ BitVec.ofNat 64 (putBits (ids.getD i 0) 32 + i))) (BitVec.ofNat 64 parent)).toNat
    % 2 ^ 32

/-- A 32-bit word of memory as a die reads it. -/
def State.peek4 (s : State) (d : DieId) (pa : Nat) : Nat := leNat (s.peek d pa 4)

/-- The first set of a hash's chain in the prefix index of a die's package; none where the index is invalid (R276, R338). -/
def State.pxSet (s : State) (d : DieId) (h : Nat) : Option Nat :=
  let n := s.rootWord d d.pkg 5 % 2 ^ 21
  let base := s.rootWord d d.pkg 4 % 2 ^ 52
  if n = 0 ∨ n ≠ 2 ^ Nat.log2 n ∨ base % 256 ≠ 0 then none else some (base + 256 * (h % n))

/-- The identifiers that stand at a physical address. -/
def State.idsAt (s : State) (d : DieId) (pa n : Nat) : List Nat :=
  let bs := s.peek d pa (4 * n)
  (List.range n).map fun i => leNat ((bs.drop (4 * i)).take 4)

/-- What a lookup finds: the page, the collisions, the first free way of the chain (R277, R338). -/
structure PxFound where
  pid   : Option Nat
  colls : Nat
  way   : Option Nat

/-- The ways of one set in ascending order, then the next set of the chain; a chain that never ends is followed for as many sets as
the index can have. -/
def State.pxWalk (s : State) (d : DieId) (ids : List Nat) (parent h : Nat) : Nat → Nat → PxFound → PxFound
  | 0, _, x => x
  | k + 1, set_, x =>
    if set_ = 0 then x
    else
      let x := (List.range 8).foldl (fun x i =>
        let a := set_ + 32 * i
        let pid := s.peek4 d (a + 4)
        if x.pid.isSome then x
        else if pid = noPage then { x with way := x.way.or (some a) }
        else if s.peek4 d a ≠ h ∨ s.peek4 d (a + 8) ≠ parent then x
        else if leNat (s.peek d (a + 12) 2) = ids.length
            ∧ s.idsAt d ((s.peekWord d (a + 16)).toNat % 2 ^ 52) ids.length = ids then { x with pid := some pid }
        else { x with colls := x.colls + 1 }) x
      if x.pid.isSome then x
      else State.pxWalk s d ids parent h k ((s.peekWord d (set_ + 24)).toNat % 2 ^ 52) x

/-- The 32-bit words of bytes. -/
def words32 (bs : List Byte) : List Nat := (List.range (bs.length / 4)).map fun i => leNat ((bs.drop (4 * i)).take 4)

/-- The next tile at or after a sequence and row: its sequence, first row and row count (R280). -/
def tileAt (cu : List Nat) (h : Nat) : Nat → Nat → Nat → Option (Nat × Nat × Nat)
  | 0, _, _ => none
  | k + 1, i, row =>
    if cu.length ≤ i + 1 then none
    else
      let fin := cu.getD (i + 1) 0
      if row < fin then some (i, row, min h (fin - row)) else tileAt cu h k (i + 1) fin

/-- The next tile of a table. -/
def TileSeq.next (x : TileSeq) : Option (Nat × Nat × Nat) := tileAt x.cu x.h (x.cu.length + 1) x.seq x.row

/-- A cumulative-length table that keeps R280. -/
def cuOk (cu : List Nat) : Bool :=
  decide (cu.head? = some 0) && decide (cu.getLastD 0 ≤ 2 ^ 24) && (cu.zip (cu.drop 1)).all fun p => decide (p.1 ≤ p.2)

/-- SEQTBL `.next` gives out the next tile (R280, R339; log 57). -/
def execSeqtblNext (r : Rec) (s : State) : Host.Outcome State Fault Refusal :=
  memFire Forms.seqtblNext r s fun t s => do
    s.scalars r
    let k := s.cur.core.cluId
    match (s.cluster k).seqr with
    | none => statusOut r t stDone s
    | some x =>
      if x.colour ≠ colourOf s.cur.tag then statusOut r t stBusy s
      else match x.next with
        | none => statusOut r t stDone s
        | some (i, row, n) =>
          statusOut r t (putBits row 40 + putBits i 30 + putBits (n - 1) 25)
            (s.modCluster k fun y => { y with seqr := some { x with seq := i, row := row + n } })

/-! ## Turns (R330) -/

/-- A shard instruction asks for its turn. -/
def State.askTurn (s : State) (opc : Nat) (r : Rec) (t : Word) (data : List Byte := []) (stage : Nat := 0) : State :=
  let (id, s) := s.fresh
  (s.modCore s.cur.core fun k => { k with shardReqs := k.shardReqs ++ [⟨id, opc, r, s.cur, t, stage, none, none, none, data⟩] }).laterAt
    .shardTableTurn s.cur.core id

/-- An outstanding shard instruction changed. -/
def State.modShard (s : State) (c : CoreId) (id : Nat) (f : ShardReq → ShardReq) : State :=
  s.modCore c fun k => { k with shardReqs := k.shardReqs.map fun q => if q.id = id then f q else q }

/-- An outstanding shard instruction ended. -/
def State.dropShard (s : State) (c : CoreId) (id : Nat) : State :=
  s.modCore c fun k => { k with shardReqs := k.shardReqs.filter fun q => decide (q.id ≠ id) }

/-- Its reply to both destinations. -/
def State.endShard (s : State) (c : CoreId) (q : ShardReq) (v : Nat) : State :=
  let o := plainOp (BitVec.ofNat 64 v)
  (s.dropShard c q.id).replyBoth (s.asker q.r q.tag) o o

/-- Its fault, precise in effect: nothing written, nothing sent (R332, R336). -/
def State.failShard (s : State) (c : CoreId) (q : ShardReq) (f : Flt) : State := (s.dropShard c q.id).faultCur f

/-- It waits for its turn again. -/
def State.turnAgain (s : State) (c : CoreId) (q : ShardReq) : State := s.laterAt .shardTableTurn c q.id

/-- It goes on to a stage. -/
def State.toStage (s : State) (c : CoreId) (q : ShardReq) (stage : Nat) : State := s.modShard c q.id fun x => { x with stage := stage }

/-- A request reaches the slice that homes a page's descriptor or a list's header, which keeps its place among the requests of the die for
either (R330). -/
def State.reachTurn (s : State) (c : CoreId) (q : ShardReq) (pid list : Option Nat) : ShardReq × State :=
  if q.order.isSome then (q, s)
  else
    let (n, s) := s.fresh
    let q := { q with order := some n, pid := pid, list := list }
    let s := match pid with | some p => s.readDesc c.dieId p | none => s
    let s := match list with | some l => s.readThrough c.dieId l 16 | none => s
    (q, s.modShard c q.id fun x => { x with order := q.order, pid := pid, list := list })

/-- An instruction of the die that reached the page or the list before this one has not ended its turn (R330). -/
def State.turnTaken (s : State) (c : CoreId) (q : ShardReq) : Bool :=
  (s.coresOfDie c.dieId).any fun k =>
    (s.core k).shardReqs.any fun x =>
      (match x.order, q.order with | some m, some n => decide (m < n) | _, _ => false)
        && ((x.pid.isSome && decide (x.pid = q.pid)) || (x.list.isSome && decide (x.list = q.list)))

/-- At its turn for a page, a list or both a shard instruction goes on; before it, it waits (R330). -/
def State.atTurn (s : State) (c : CoreId) (q : ShardReq) (pid list : Option Nat) (go : ShardReq → State → State) : State :=
  let (q, s) := s.reachTurn c q pid list
  if s.turnTaken c q then s.turnAgain c q else go q s

/-- The scope of a shard instruction's release. -/
def ShardReq.scope (q : ShardReq) : Nat := q.r.sub.toNat / 8

/-- Its writes are released at SCOPE, widened to that of its region's tokens, and its reply follows (R330, R348). -/
def State.releaseShard (s : State) (c : CoreId) (q : ShardReq) (scope v : Nat) : State :=
  let sc := s.resultScope q.r (some scope)
  let (held, s) := s.heldTokens q.r q.tag (plainOp (BitVec.ofNat 64 v)) true
  (s.dropShard c q.id).openRelease c (colourOf q.f.tag) sc false false none held

/-- Its writes so far are released at SCOPE before its next stage (R337, R338). -/
def State.stageShard (s : State) (c : CoreId) (q : ShardReq) (stage : Nat) : State :=
  (s.toStage c q stage).openRelease c (colourOf q.f.tag) (some q.scope) false false none
    [.event .shardTableTurn ⟨c, q.id, 0, false⟩]

/-! ## Reads at virtual addresses (R230, R329, R338, R339) -/

/-- A shard instruction reads n bytes at a multiple of m by a request of its core, under the fault mode of its activation (R216, R230,
R329). -/
def State.readTable (s : State) (q : ShardReq) (a : Word) (n m : Nat) : Eff := do
  let va ← vaAt a 0
  checkNear s.cur.core va n
  checkMultiple va m
  s.makeReq q.r q.tag (.table q.id) false [(va, n)] [] zeroOp none

/-- A shard instruction that begins with such a read. -/
def State.askTable (s : State) (opc : Nat) (r : Rec) (t : Word) (a : Word) (n m : Nat) : Eff :=
  let (id, s) := s.fresh
  let q : ShardReq := ⟨id, opc, r, s.cur, t, 0, none, none, none, []⟩
  (s.modCore s.cur.core fun k => { k with shardReqs := k.shardReqs ++ [q] }).readTable q a n m

/-- The number of identifiers that PXLOOK takes is in range (R338). -/
def pxCountOk (f : Firing) : Bool := decide (1 ≤ f.op2.val.toNat) && decide (f.op2.val.toNat ≤ 192)

/-- PXLOOK looks identifiers up in the prefix index (R277, R338). -/
def execPxlook (r : Rec) (s : State) : Host.Outcome State Fault Refusal :=
  memFire Forms.pxlook r s fun t s => do
    s.scalars r
    s.askTable 0xD6 r t s.cur.op0.val (if pxCountOk s.cur then 4 * s.cur.op2.val.toNat else 4) 16

/-- PXLOOK with its identifiers read (R277, R338). -/
def State.pxlookTurn (s : State) (c : CoreId) (q : ShardReq) : State :=
  if q.stage = 0 then s
  else
    let d := c.dieId
    let send (pid colls st : Nat) : State :=
      (s.dropShard c q.id).replyBoth (s.asker q.r q.tag) (plainOp (BitVec.ofNat 64 pid)) (plainOp (BitVec.ofNat 64 (putBits colls 32 + st)))
    let ids := words32 (q.data.drop 8)
    let parent := q.f.op1.val.toNat % 2 ^ 32
    let h := pxhash ids parent
    match (if pxCountOk q.f then s.pxSet d h else none) with
    | none => send noPage 0 stBadIndex
    | some a =>
      let x := s.pxWalk d ids parent h (2 ^ 21) a ⟨none, 0, none⟩
      send (x.pid.getD noPage) x.colls stOk

/-- The number of entries that SEQTBL takes is in range (R280). -/
def seqCountOk (f : Firing) : Bool := decide (1 ≤ f.op1.val.toNat) && decide (f.op1.val.toNat ≤ 1024)

/-- SEQTBL loads its cluster's tile sequencer (R280, R339). -/
def execSeqtbl (r : Rec) (s : State) : Host.Outcome State Fault Refusal :=
  memFire Forms.seqtbl r s fun t s => do
    s.scalars r
    s.askTable 0xDB r t s.cur.op0.val (if seqCountOk s.cur then 4 * (s.cur.op1.val.toNat + 1) else 4) 4

/-- SEQTBL with its table read (R280, R339). -/
def State.seqtblTurn (s : State) (c : CoreId) (q : ShardReq) : State :=
  if q.stage = 0 then s
  else
    let cu := words32 (q.data.drop 8)
    let k := c.cluId
    let col := colourOf q.f.tag
    if !seqCountOk q.f || !cuOk cu then s.endShard c q stBadIndex
    else if (match (s.cluster k).seqr with | some x => decide (x.colour ≠ col) && x.next.isSome | none => false) then s.endShard c q stBusy
    else (s.modCluster k fun y => { y with seqr := some ⟨col, cu, q.r.lit.toNat % 16 + 1, 0, 0⟩ }).endShard c q stOk

/-! ## Residency (R259, R273, R332, R334) -/

/-- What asking a page's station for residency comes to. -/
inductive Residency where
  | here
  | asked
  | nowhere
  | mismatch
deriving DecidableEq, Repr

/-- A page made resident: it is, its station's refill runs or is started, or a refill that was asked for has failed. A station
whose slot does not hold the page gives MISMATCH (log 54). -/
def State.residency (s : State) (d : DieId) (pid : Nat) (asked : Bool) : Residency × State :=
  if dLoc (s.desc d pid 0) ≤ 1 then (.here, s)
  else match s.stationOf d pid with
    | none => (.mismatch, s)
    | some (c, i, x) =>
      if x.refill then (.asked, s)
      else if asked ∧ dLoc (s.desc d pid 0) = 2 then (.nowhere, s)
      else (.asked, s.startRefill c i)

/-! ## Appends (R332, R396) -/

/-- The handle whose log a speculative firing's appends go to: that of its activation or of the nearest one above it. -/
def State.specHandle (s : State) : Nat → Nat → Option (DieId × Nat)
  | 0, _ => none
  | k + 1, a =>
    match Assoc.get? s.acts a with
    | none => none
    | some x => match x.handle with
      | some h => some h
      | none => x.parent.bind fun p => State.specHandle s k p

/-- The key of a byte of a log (R395). -/
def logKey : List MemPart → Nat → Nat
  | [], _ => 0
  | p :: t, o => if o < p.len then p.pa.getD 0 + o else logKey t (o - p.len)

/-- Entry i of a handle's log: PID, START and N (R396). -/
def State.logEntry (s : State) (d : DieId) (h : SpecHandle) (i : Nat) : Nat × Nat × Nat :=
  let k := logKey h.log (16 * i)
  (s.peek4 d (k + 12), s.peek4 d (k + 8), s.peek4 d (k + 4))

/-- Entry i of a handle's log written by the system class. -/
def State.setLogEntry (s : State) (d : DieId) (h : SpecHandle) (i pid start n : Nat) : State :=
  s.sysWrite d (logKey h.log (16 * i)) (leBytes 4 0 ++ leBytes 4 n ++ leBytes 4 start ++ leBytes 4 pid)

/-- The log entry of a speculative append to a page: the one with its PID, or the next free one; none where the log is full. -/
def State.findLog (s : State) (d : DieId) (h : SpecHandle) (pid : Nat) : Option Nat :=
  match (List.range h.used).find? fun i => decide ((s.logEntry d h i).1 = pid) with
  | some i => some i
  | none => if h.used < h.entries then some h.used else none

/-- The log raised for an append at a position (R396). -/
def State.logAppend (s : State) (d : DieId) (hd : DieId × Nat) (h : SpecHandle) (i pid pos : Nat) : State :=
  if i < h.used then
    let (_, st, n) := s.logEntry d h i
    s.setLogEntry d h i pid st (n + 1)
  else
    (s.setLogEntry d h i pid pos 1).modDie hd.1 fun x =>
      { x with handles := Assoc.set x.handles hd.2 { h with used := h.used + 1 } }

/-- The rows of an append written at its place in the page (R256, R332). -/
def State.writeRows (s : State) (c : CoreId) (q : ShardReq) (x : Seq) (addr p : Nat) : State :=
  let n := x.d * x.b
  match sliceOf q.f.op1.val with
  | none => s
  | some sl =>
    let bs := (s.core c).image sl
    let own := some (colourOf q.f.tag)
    (s.dieWrite c.dieId false (addr + p * n) (bs.take n) own).dieWrite c.dieId false (addr + x.p * n + p * n)
      ((bs.drop n).take n) own

/-- The bytes of a range that a die wrote have been applied (R342, R370). -/
def State.settled (s : State) (d : DieId) (pa n : Nat) : Bool :=
  (rangeLines pa n).all fun x =>
    match (s.die (if s.coarseFor d x.1 then homeDie x.1 else d)).line? x.1 with
    | some y => x.2.all fun o => (Assoc.get? y.pend o).isNone
    | none => true

/-- The ranges of an append's two rows in a page (R256). -/
def rowRanges (x : Seq) (addr p : Nat) : List (Nat × Nat) :=
  let n := x.d * x.b
  [(addr + p * n, n), (addr + x.p * n + p * n, n)]

/-- KAPP once its page is resident: the rows and the log's entry are written (R332, R396). -/
def State.append (s : State) (c : CoreId) (q : ShardReq) (x : Seq) (pid : Nat) (log : Option ((DieId × Nat) × SpecHandle × Nat)) :
    State :=
  let d := c.dieId
  let addr := s.desc d pid 1 % 2 ^ 52
  if !s.rangeOk addr 49152 then s.endShard c q stMismatch
  else
    let p := dFill (s.desc d pid 0)
    let (ok, s) := (rowRanges x addr p).foldl (fun y r => let (ok, s) := y.2.writeReady d false r.1 r.2; (y.1 && ok, s)) (true, s)
    if !ok then s.turnAgain c q
    else
      let pos := bitsOf (s.desc d pid 3) 63 32 + p
      let s := s.writeRows c q x addr p
      let s := match log with
        | some (hd, h, i) => s.logAppend d hd h i pid pos
        | none => s
      (s.modShard c q.id fun y => { y with stage := 2, data := [if log.isSome then 1 else 0] }).turnAgain c q

/-- KAPP once its rows are written: the counts follow once the rows are applied, so that no die sees a count without its rows; then its
release and reply (R332, R356). -/
def State.countUp (s : State) (c : CoreId) (q : ShardReq) (x : Seq) (pid : Nat) : State :=
  let d := c.dieId
  let w := s.desc d pid 0
  let p := dFill w
  if !((rowRanges x (s.desc d pid 1 % 2 ^ 52) p).all fun r => s.settled d r.1 r.2) then s.turnAgain c q
  else
    let pos := bitsOf (s.desc d pid 3) 63 32 + p
    let w := withBits w 58 51 (p + 1)
    let w := if q.data = [1] then withBits w 59 59 1 else withBits w 50 43 (p + 1)
    let w := if p + 1 = x.p then withBits w 61 60 1 else w
    (s.setDesc d pid 0 w).releaseShard c q q.scope (putBits (pos % 2 ^ 32) 32 + stOk)

/-- KAPP's turn (R332). -/
def State.kappTurn (s : State) (c : CoreId) (q : ShardReq) : State :=
  let d := c.dieId
  match s.seqOfWord d q.f.op0.val with
  | .error st => s.endShard c q st
  | .ok x =>
    let n := s.npage d x.list
    let pid := match q.pid with
      | some p => p
      | none => s.entryAt d x.list (n - 1)
    if q.order.isNone ∧ n = 0 then s.endShard c q stState
    else if !s.pidOk d pid then s.endShard c q stBadPid
    else s.atTurn c q (some pid) none fun q s =>
      let w := s.desc d pid 0
      let spec := s.curAct.spec
      let log := if spec then
          (s.specHandle 64 (s.curAct?.getD 0)).bind fun hd =>
            (Assoc.get? (s.die hd.1).handles hd.2).bind fun h => (s.findLog d h pid).map fun i => (hd, h, i)
        else none
      if q.stage = 2 then s.countUp c q x pid
      else if dFst w ≠ 0 then s.failShard c q { cause := .permission }
      else if dTent w && !spec then s.failShard c q { cause := .specConflict, info := BitVec.ofNat 64 pid }
      else if spec && log.isNone then s.failShard c q { cause := .specConflict, info := BitVec.ofNat 64 pid }
      else match s.residency d pid (decide (q.stage = 1)) with
        | (.here, s) => s.append c q x pid log
        | (.asked, s) => (s.toStage c q 1).turnAgain c q
        | (.nowhere, s) => s.endShard c q stNowhere
        | (.mismatch, s) => s.endShard c q stMismatch

/-- KAPP appends a position to the last page of a list at its turn; its slice must hold both rows (R332). -/
def execKapp (r : Rec) (s : State) : Host.Outcome State Fault Refusal :=
  memFire Forms.kapp r s fun t s => do
    let _ ← s.scalarAt r 0
    seqOperand s.cur.op0.val
    let sl ← s.sliceAt r 1
    match s.seqOfWord s.cur.core.dieId s.cur.op0.val with
    | .error st => statusOut r t st s
    | .ok x =>
      if sl.nrow + 1 < ceilDiv (2 * x.d * x.b) 256 then .error (slotFault s.cur.op1 1)
      else .ok (s.askTurn 0xD2 r t)

/-! ## Slots (R333) -/

/-- The status of a KPIN of a page into a slot (R333). -/
def State.pinStatus (s : State) (c : CoreId) (i pid : Nat) (pos : Option Nat) (tag : Word) : Nat :=
  let d := c.dieId
  let w := s.desc d pid 0
  let others := (List.range 8).filterMap fun j => if j = i then none else s.slot? c j
  if depthOf tag = 0 then stBadTag
  else if dCore w ≠ c ∨ dSlot w ≠ i ∨ c.isCtl then stMismatch
  else if dLoc w = 0 ∧ pos.map (fun p => padPa c (posOff p)) ≠ some (s.desc d pid 1 % 2 ^ 52) then stMismatch
  else if dLoc w = 1 ∧ pos.isSome then stMismatch
  else if (s.slot? c i).isSome ∨ (pos.isSome ∧ others.any fun x => decide (x.pos = pos)) ∨ others.any fun x => decide (x.pid = pid) then
    stBusy
  else stOk

/-- KPIN writes a shard slot of its core (R258, R333). -/
def execKpin (r : Rec) (s : State) : Host.Outcome State Fault Refusal :=
  memFire Forms.kpin r s fun t s => do
    s.scalars r
    let e := s.cur.op1.val.toNat
    let dst : BitVec 24 := BitVec.ofNat 24 e
    if 2 ^ 24 ≤ e ∨ destClass dst ≠ 1 ∨ !destCanonical dst then .error { cause := .illegalRecord }
    else
      let c := s.cur.core
      let pid := s.cur.op0.val.toNat
      let l := r.lit.toNat
      let i := l % 8
      let pos := if l.testBit 3 then some (bitsOf l 5 4) else none
      let tag : Word := BitVec.ofNat 64 (withBits s.cur.op2.val.toNat 63 55 (colourOf s.cur.tag).toNat)
      if !s.pidOk c.dieId pid then statusOut r t stBadPid s
      else
        let st := s.pinStatus c i pid pos tag
        if st ≠ stOk then statusOut r t st s
        else
          let w3 := s.desc c.dieId pid 3
          statusOut r t stOk
            (s.setSlot c i (some
              { pid := pid, pidx := bitsOf w3 17 2, layer := bitsOf w3 31 24, hg := bitsOf w3 23 18,
                loc := BitVec.ofNat 2 (dLoc (s.desc c.dieId pid 0)), pos := pos, entry := dst, tag := tag, evicting := false,
                refill := false, poisoned := false }))

/-- KPIN `.unpin` at its turn: the slot is invalidated once nothing uses it (R333; log 55). -/
def State.unpinTurn (s : State) (c : CoreId) (q : ShardReq) : State :=
  let i := q.r.lit.toNat % 8
  match s.slot? c i with
  | none => s.endShard c q stState
  | some x =>
    if (s.core c).waitingAt i then s.endShard c q stBusy
    else if (s.core c).visiting i ∨ x.refill ∨ x.evicting then s.turnAgain c q
    else (s.setSlot c i none).endShard c q stOk

/-- KPIN `.unpin` invalidates a slot (R333). -/
def execKpinUnpin (r : Rec) (s : State) : Host.Outcome State Fault Refusal :=
  memFire Forms.kpinUnpin r s fun t s => do
    s.scalars r
    .ok (s.askTurn 0xD3 r t)

/-! ## Eviction and refill (R334) -/

/-- KEVICT's turn: it blocks new visits, waits for those in progress, and has the page copied to BACK (R259, R334). -/
def State.kevictTurn (s : State) (c : CoreId) (q : ShardReq) : State :=
  let d := c.dieId
  let pid := q.f.op0.val.toNat
  if !s.pidOk d pid then s.endShard c q stBadPid
  else s.atTurn c q (some pid) none fun q s =>
    if 3 ≤ q.stage then s.endShard c q (if q.stage = 4 then stNowhere else stOk)
    else if q.stage = 2 then s
    else if 2 ≤ dLoc (s.desc d pid 0) then s.endShard c q stState
    else match s.stationOf d pid with
      | none => s.endShard c q stMismatch
      | some (sc, i, x) =>
        if q.stage = 0 then ((s.toStage c q 1).modSlot sc i fun x => { x with evicting := true }).turnAgain c q
        else if (s.core sc).visiting i then s.turnAgain c q
        else (s.toStage c q 2).laterAt .evictionCopyComplete sc i (if s.copyable sc x then 0 else 1)

/-- KEVICT evicts a page (R334). -/
def execKevict (r : Rec) (s : State) : Host.Outcome State Fault Refusal :=
  memFire Forms.kevict r s fun t s => do
    s.scalars r
    .ok (s.askTurn 0xD4 r t)

/-- EVICTION_COPY_COMPLETE (R259, R334): with status 1 the page stays resident; else it is EVICTED, in its descriptor and its slot.
The KEVICT that waits goes on. -/
def execEvictionCopyComplete (s : State) : Host.Outcome State Fault Refusal :=
  .next (
    let c := s.site.core
    let i := s.site.n
    match s.slot? c i with
    | none => s
    | some x =>
      if !x.evicting then s
      else
        let d := c.dieId
        let bad := decide (s.site.m = 1)
        match (if bad then (some false, s) else s.copyPage c i (s.desc d x.pid 1 % 2 ^ 52) (s.desc d x.pid 2 % 2 ^ 52)) with
        | (none, s) => s.laterAt .evictionCopyComplete c i
        | (some _, s) =>
          let s := if bad then s else s.setLoc c i x.pid 2
          let s := s.modSlot c i fun x => { x with evicting := false }
          (s.cores.map Prod.fst).foldl (fun s k =>
            ((s.core k).shardReqs.filter fun q => decide (q.opc = 0xD4) && decide (q.stage = 2) && decide (q.pid = some x.pid)).foldl
              (fun s q => (s.toStage k q (if bad then 4 else 3)).laterAt .shardTableTurn k q.id) s) s)

/-- KFILL's turn (R334). -/
def State.kfillTurn (s : State) (c : CoreId) (q : ShardReq) : State :=
  let d := c.dieId
  let pid := q.f.op0.val.toNat
  if !s.pidOk d pid then s.endShard c q stBadPid
  else s.atTurn c q (some pid) none fun q s =>
    match s.residency d pid (decide (q.stage = 1)) with
    | (.here, s) =>
      let bad := q.stage = 1 ∧ ((s.stationOf d pid).elim false fun x => x.2.2.poisoned)
      s.endShard c q (if bad then stPoisoned else stOk)
    | (.asked, s) => (s.toStage c q 1).turnAgain c q
    | (.nowhere, s) => s.endShard c q stNowhere
    | (.mismatch, s) => s.endShard c q stMismatch

/-- KFILL replies once its page is resident (R334). -/
def execKfill (r : Rec) (s : State) : Host.Outcome State Fault Refusal :=
  memFire Forms.kfill r s fun t s => do
    s.scalars r
    .ok (s.askTurn 0xD5 r t)

/-! ## The prefix index (R276, R277, R338) -/

/-- The bytes that PXINS reads for n identifiers: those of none stand at an address that is translated all the same (R338). -/
def pxinsBytes (n : Nat) : Nat := if n = 0 then 1 else 4 * n

/-- PXINS with its identifiers read: the checks, then at its turn every field but HASH and PID, a release, and those two in one write
(R338). A page whose FILL has changed since has its identifiers read again. -/
def State.pxinsTurn (s : State) (c : CoreId) (q : ShardReq) : State :=
  let d := c.dieId
  let pid := q.f.op0.val.toNat
  let parent := q.f.op1.val.toNat % 2 ^ 32
  let ids := words32 (q.data.drop 8)
  let h := pxhash ids parent
  if q.stage = 0 then s
  else if q.stage = 2 then
    (s.sysWrite d (q.pid.getD 0) (leBytes 4 h ++ leBytes 4 pid)).releaseShard c q q.scope stOk
  else if !s.pidOk d pid then s.endShard c q stBadPid
  else if dFst (s.desc d pid 0) ≠ 2 then s.endShard c q stState
  else if ids.length ≠ dFill (s.desc d pid 0) then
    match (s.toStage c q 0).readTable q q.f.op2.val (pxinsBytes (dFill (s.desc d pid 0))) 16 with
    | .ok s => s
    | .error f => s.failShard c q f
  else match s.pxSet d h with
    | none => s.endShard c q stBadIndex
    | some a => s.atTurn c q none (some a) fun q s =>
      let x := s.pxWalk d ids parent h (2 ^ 21) a ⟨none, 0, none⟩
      match x.pid, x.way with
      | some old, _ => s.endShard c q (putBits old 32 + stDuplicate)
      | none, none => s.endShard c q stFull
      | none, some w =>
        let s := s.sysWrite d (w + 8)
          (leBytes 4 parent ++ leBytes 2 ids.length ++ leBytes 2 0 ++ q.data.take 8 ++ leBytes 8 (s.peekWord d (w + 24)).toNat)
        (s.modShard c q.id fun y => { y with pid := some w }).stageShard c q 2

/-- PXINS enters a FROZEN page into the prefix index under its FILL identifiers, whose physical address it keeps (R338). A lane
slice has no physical address and is PERMISSION, as R449 gives for a level that an instruction does not take. -/
def execPxins (r : Rec) (s : State) : Host.Outcome State Fault Refusal :=
  memFire Forms.pxins r s fun t s => do
    s.scalars r
    let d := s.cur.core.dieId
    let pid := s.cur.op0.val.toNat
    let n := if s.pidOk d pid then dFill (s.desc d pid 0) else 0
    let va ← vaAt s.cur.op2.val 0
    checkNear s.cur.core va (pxinsBytes n)
    if isNear va && (nearKey s.cur.core va 1).any (fun k => decide (laneKey ≤ k)) then .error (permAt va)
    else s.askTable 0xD7 r t s.cur.op2.val (pxinsBytes n) 16

/-! ## Page lists (R335, R337) -/

/-- REFS of a page raised or lowered by 1 (R335). -/
def State.addRef (s : State) (d : DieId) (pid : Nat) (up : Bool) : State :=
  let w := s.desc d pid 0
  s.setDesc d pid 0 (withBits w 15 0 (if up then dRefs w + 1 else dRefs w - 1))

/-- The status that the pages newly named and no longer named give (R335): BADPID before the rest. The newly named stand with
their indices. -/
def State.refStatus (s : State) (d : DieId) (x : Seq) (named : List (Nat × Nat)) (dropped : List Nat) : Nat :=
  let w3 (pid : Nat) := s.desc d pid 3
  if !(named.all fun p => s.pidOk d p.2) || !(dropped.all fun p => s.pidOk d p) then stBadPid
  else if named.any fun p =>
      decide (bitsOf (w3 p.2) 31 24 ≠ x.layer) || decide (bitsOf (w3 p.2) 23 18 ≠ x.hg) || decide (bitsOf (w3 p.2) 17 2 ≠ p.1) then
    stMismatch
  else stOk

/-- A REFS that would pass 0xFFFF (R335). -/
def State.refsFull (s : State) (d : DieId) (named : List (Nat × Nat)) : Bool :=
  named.any fun p => decide (dRefs (s.desc d p.2 0) = 0xFFFF)

/-- PGMAP's entry form at its turn (R335). -/
def State.pgmapTurn (s : State) (c : CoreId) (q : ShardReq) : State :=
  let d := c.dieId
  let i := q.f.op1.val.toNat
  let pid := q.f.op2.val.toNat
  match s.seqOfWord d q.f.op0.val with
  | .error st => s.endShard c q st
  | .ok x =>
    s.atTurn c q none (some x.list) fun q s =>
      let n := s.npage d x.list
      let old := if i < n then s.entryAt d x.list i else noPage
      let gone := if old = noPage ∨ old = pid then [] else [old]
      if pid = noPage then
        if n = 0 ∨ i ≠ n - 1 then s.endShard c q stBadIndex
        else if !(gone.all fun p => s.pidOk d p) then s.endShard c q stBadPid
        else
          let s := gone.foldl (fun s p => s.addRef d p false) s
          let s := (s.setEntry d x.list i noPage).sysWord d x.list (BitVec.ofNat 64 (withBits (s.listLow d x.list) 23 8 (n - 1)))
          s.releaseShard c q q.scope stOk
      else if n < i ∨ (i = n ∧ x.maxpg ≤ n) then s.endShard c q stBadIndex
      else
        let st := s.refStatus d x [(i, pid)] gone
        if st ≠ stOk then s.endShard c q st
        else if old ≠ pid ∧ s.refsFull d [(i, pid)] then s.endShard c q stFull
        else
          let s := if old = pid then s else gone.foldl (fun s p => s.addRef d p false) (s.addRef d pid true)
          let s := (s.setEntry d x.list i pid).addStation d x.list (dCore (s.desc d pid 0)) (if i = n then n + 1 else n)
          s.releaseShard c q q.scope stOk

/-- The entries in use of a list, with their indices; cleared ones name no page. -/
def State.listPages (s : State) (d : DieId) (list : Nat) : List (Nat × Nat) :=
  ((List.range (s.npage d list)).map fun i => (i, s.entryAt d list i)).filter fun p => decide (p.2 ≠ noPage)

/-- PGMAP `.list` at its turn: the source's header and entries over the destination's (R335). -/
def State.pgmapListTurn (s : State) (c : CoreId) (q : ShardReq) : State :=
  let d := c.dieId
  match s.seqOfWord d q.f.op0.val, s.seqOfWord d q.f.op1.val with
  | .error st, _ => s.endShard c q st
  | _, .error st => s.endShard c q st
  | .ok x, .ok y =>
    s.atTurn c q none (some x.list) fun q s =>
      let old := s.listPages d x.list
      let new_ := s.listPages d y.list
      let named := new_.filter fun p => !(old.any fun o => decide (o.2 = p.2))
      let gone := (old.filter fun p => !(new_.any fun o => decide (o.2 = p.2))).map (·.2)
      let st := s.refStatus d x named gone
      if st ≠ stOk then s.endShard c q st
      else if x.maxpg < s.npage d y.list ∨ s.refsFull d named then s.endShard c q stFull
      else
        let bs := s.peek d y.list (16 + 4 * s.npage d y.list)
        let s := named.foldl (fun s p => s.addRef d p.2 true) s
        let s := gone.foldl (fun s p => s.addRef d p false) s
        (s.sysWrite d x.list bs).releaseShard c q q.scope stOk

/-- PGMAP's entry form (R335). -/
def execPgmap (r : Rec) (s : State) : Host.Outcome State Fault Refusal :=
  memFire Forms.pgmap r s fun t s => do
    s.scalars r
    seqOperand s.cur.op0.val
    .ok (s.askTurn 0xD8 r t)

/-- PGMAP `.list` (R335). -/
def execPgmapList (r : Rec) (s : State) : Host.Outcome State Fault Refusal :=
  memFire Forms.pgmapList r s fun t s => do
    s.scalars r
    seqOperand s.cur.op0.val
    seqOperand s.cur.op1.val
    .ok (s.askTurn 0xD8 r t)

/-- PGFRZ's turn (R260, R336). -/
def State.pgfrzTurn (s : State) (c : CoreId) (q : ShardReq) : State :=
  let d := c.dieId
  let pid := q.f.op0.val.toNat
  if !s.pidOk d pid then s.endShard c q stBadPid
  else s.atTurn c q (some pid) none fun q s =>
    let w := s.desc d pid 0
    if 2 ≤ dFst w then s.endShard c q stState
    else if dTent w then s.failShard c q { cause := .specConflict, info := BitVec.ofNat 64 pid }
    else (s.setDesc d pid 0 (withBits w 61 60 2)).releaseShard c q q.scope stOk

/-- PGFRZ freezes a page (R336). -/
def execPgfrz (r : Rec) (s : State) : Host.Outcome State Fault Refusal :=
  memFire Forms.pgfrz r s fun t s => do
    s.scalars r
    .ok (s.askTurn 0xD9 r t)

/-- The slots that hold a page take the place in its sequence that its descriptor now holds (R258; log 88). -/
def State.placeSlots (s : State) (p pid pidx layer hg : Nat) : State :=
  let base := (s.pkg p).shardbase
  let place (x : Slot) : Slot := if x.pid = pid then { x with pidx := pidx, layer := layer, hg := hg } else x
  { s with cores := s.cores.map fun (k : CoreId × Core) =>
      if (s.pkg k.1.pkg).shardbase = base then (k.1, { k.2 with slots := k.2.slots.map fun o => o.map place }) else k }

/-- PGNEW's turn: the page's descriptor, a release, then the list's entry and header (R337). -/
def State.pgnewTurn (s : State) (c : CoreId) (q : ShardReq) : State :=
  let d := c.dieId
  let pid := q.f.op1.val.toNat
  match s.seqOfWord d q.f.op0.val with
  | .error st => s.endShard c q st
  | .ok x =>
    let n := s.npage d x.list
    if q.stage = 1 then
      ((s.setEntry d x.list n pid).addStation d x.list (dCore (s.desc d pid 0)) (n + 1)).releaseShard c q q.scope stOk
    else if !s.pidOk d pid then s.endShard c q stBadPid
    else s.atTurn c q (some pid) (some x.list) fun q s =>
      let n := s.npage d x.list
      let last := s.entryAt d x.list (n - 1)
      if decide (0 < n) && !s.pidOk d last then s.endShard c q stBadPid
      else
        let w := s.desc d pid 0
        let lw := s.desc d last 0
        if dRefs w ≠ 0 then s.endShard c q stBusy
        else if n = x.maxpg then s.endShard c q stFull
        else if 0 < n ∧ (dFst lw = 0 ∨ dTent lw) then s.endShard c q stState
        else
          let pos0 := if n = 0 then 0 else (bitsOf (s.desc d last 3) 63 32 + dFill lw) % 2 ^ 32
          let w0 := withBits (withBits w 61 43 0) 15 0 1
          let w3 := putBits pos0 32 + putBits x.layer 24 + putBits x.hg 18 + putBits n 2
          (((s.setDesc d pid 0 w0).setDesc d pid 3 w3).placeSlots d.pkg pid n x.layer x.hg).stageShard c q 1

/-- PGNEW starts a page at the end of a list (R337). -/
def execPgnew (r : Rec) (s : State) : Host.Outcome State Fault Refusal :=
  memFire Forms.pgnew r s fun t s => do
    s.scalars r
    seqOperand s.cur.op0.val
    .ok (s.askTurn 0xDA r t)

/-! ## The ends of speculation (R397, R398) -/

/-- The handle that an operand names: opened on the firing's die by the firing's own activation, or PERMISSION (R397). -/
def State.ownHandle (s : State) : Except Flt (Nat × SpecHandle) :=
  let h := s.cur.op0.val.toNat
  match Assoc.get? (s.die s.cur.core.dieId).handles h with
  | some x => if s.curAct? = some x.owner then .ok (h, x) else .error { cause := .permission }
  | none => .error { cause := .permission }

/-- A page's counts after a commit of k tentative positions from START, or after an abort, and its fill state (R260, R397, R398). -/
def truncated (w pos0 start : Nat) (k : Option Nat) : Nat :=
  let cf : Nat := match k with
    | none => dCfill w
    | some k => (max (dCfill w : Int) (min (dFill w : Int) ((start : Int) - (pos0 : Int) + (k : Int)))).toNat
  let full := decide (dFst w = 1) && decide (cf < dFill w)
  let w := withBits (withBits (withBits w 58 51 cf) 50 43 cf) 59 59 0
  if full then withBits w 61 60 0 else w

/-- A handle is busy until it is freed: no other commit or abort acts on it. -/
def State.busyHandle (s : State) (d : DieId) (i : Nat) (h : SpecHandle) : State :=
  s.modDie d fun x => { x with handles := Assoc.set x.handles i { h with live := true } }

/-- A truncation's turns: one log entry at each (R330), then the parent's RNG counter, the handle freed, and the reply once the
writes are applied (R342, R397, R398). -/
def State.specTurn (s : State) (c : CoreId) (q : ShardReq) : State :=
  let d := c.dieId
  let i := q.f.op0.val.toNat
  match Assoc.get? (s.die d).handles i with
  | none => s.failShard c q { cause := .permission }
  | some h =>
    let commit := decide (q.opc = 0xAA)
    if q.stage = 0 then
      if h.live then s.turnAgain c q
      else
        ((s.busyHandle d i h).toStage c q 1).turnAgain c q
    else
      let e := q.stage - 1
      if h.used ≤ e then
        let s := s.modAct h.owner fun a =>
          { a with rng := if commit then h.snap + q.f.op2.val else h.snap }
        let s := s.modDie d fun x => { x with handles := Assoc.erase x.handles i }
        s.releaseShard c q 4 (if q.data.isEmpty then stOk else stBadPid)
      else
        let (pid, start, n) := s.logEntry d h e
        if !s.pidOk d pid then
          (s.modShard c q.id fun x => { x with stage := q.stage + 1, data := [1] }).turnAgain c q
        else s.atTurn c q (some pid) none fun q s =>
          let k := if commit then some (min q.f.op1.val.toNat n) else none
          let s := s.setDesc d pid 0 (truncated (s.desc d pid 0) (bitsOf (s.desc d pid 3) 63 32) start k)
          (s.modShard c q.id fun x => { x with stage := q.stage + 1, pid := none, order := none }).turnAgain c q

/-- SPECCMT commits the first positions of a handle's runs (R397). -/
def execSpeccmt (r : Rec) (s : State) : Host.Outcome State Fault Refusal :=
  fire Forms.speccmt r s fun t s => do
    s.scalars r
    let (i, h) ← s.ownHandle
    if h.live then .error { cause := .specConflict, info := BitVec.ofNat 64 i }
    else .ok ((s.busyHandle s.cur.core.dieId i h).askTurn 0xAA r t [] 1)

/-- SPECABT discards a handle, after a purge of its colour where that is still live (R398). -/
def execSpecabt (r : Rec) (s : State) : Host.Outcome State Fault Refusal :=
  fire Forms.specabt r s fun t s => do
    s.scalars r
    let (i, h) ← s.ownHandle
    if h.live then
      .ok ((match Assoc.get? s.acts h.child with
        | some a => if a.life = Life.live then s.orderPurge h.child else s
        | none => s).askTurn 0xAB r t)
    else .ok ((s.busyHandle s.cur.core.dieId i h).askTurn 0xAB r t [] 1)

/-! ## SHARD_TABLE_TURN (R330) -/

/-- SHARD_TABLE_TURN (R330): an outstanding shard instruction goes on as its turn allows. -/
def execShardTableTurn (s : State) : Host.Outcome State Fault Refusal :=
  .next (
    let c := s.site.core
    match (s.core c).shardReqs.find? fun q => decide (q.id = s.site.n) with
    | none => s
    | some q =>
      let s := { s with cur := q.f }
      match q.opc with
      | 0xD2 => s.kappTurn c q
      | 0xD3 => s.unpinTurn c q
      | 0xD4 => s.kevictTurn c q
      | 0xD5 => s.kfillTurn c q
      | 0xD6 => s.pxlookTurn c q
      | 0xD7 => s.pxinsTurn c q
      | 0xD8 => if q.r.sub.toNat % 8 = 1 then s.pgmapListTurn c q else s.pgmapTurn c q
      | 0xD9 => s.pgfrzTurn c q
      | 0xDA => s.pgnewTurn c q
      | 0xDB => s.seqtblTurn c q
      | _ => s.specTurn c q)

end Sys2Proof.Machine
end

