-- ==== Sys2Proof/Machine/Coherence.lean ====
section
/-! DEFINITION. Coherence across dies (R359 to R371): fills and grants at the slices, the directory's transactions, its mirror,
recalls and coarse mode. Failures and takeovers are in Directory. -/

namespace Sys2Proof.Machine

open Sys2Proof

/-! ## The directory map and the mirror (R360, R371) -/

/-- A word of a package's directory map. -/
def State.dirMapWord (s : State) (p i : Nat) : Nat := (s.peekWord ⟨p, 0⟩ ((s.pkg p).dirmap + 8 * i)).toNat
/-- A word of a package's directory map written by a directory (R360). -/
def State.setDirMap (s : State) (q p i v : Nat) : State := s.sysWord ⟨q, 0⟩ ((s.pkg p).dirmap + 8 * i) (BitVec.ofNat 64 v)
/-- Word j of a region's entry in the map. -/
def regionWord (r j : Nat) : Nat := 8 + 2 * r + j

/-- The lines that a directory's writes of a map stand in until they are applied. -/
def State.mapPending (s : State) (q p : Nat) : List Nat :=
  ((s.die ⟨q, 0⟩).lines.filter fun y => decide ((s.pkg p).dirmap / 192 ≤ y.line) && decide (y.line ≤ ((s.pkg p).dirmap + 8255) / 192)
    && !y.pend.isEmpty).map (·.line)

/-- Records of a directory that wrote a map: posted to queue 3 of every cluster of each package once the release of its writes is
complete (R360, R431). -/
def State.afterMap (s : State) (q p : Nat) (rs : List (Nat × List Word)) : State :=
  let ls := s.mapPending q p
  if ls.isEmpty then rs.foldl (fun s x => s.boardPkg x.1 3 x.2) s
  else s.modPkg q fun x => { x with mapRecs := x.mapRecs ++ [(ls, rs)] }

/-- The mirror of a package's directory: none with NOMIR set, or where the map names no other package that links of version 2.0 reach
(R360, R371). -/
def State.mirrorOf (s : State) (p : Nat) : Option Nat :=
  let w := s.dirMapWord p 0
  let m := bitsOf w 63 58
  if w.testBit 57 ∨ m = p ∨ s.podSize ≤ m ∨ !s.joined p m then none else some m

/-- The mirror that the directory p keeps for a line: a mirror that has taken over has none (R375). -/
def State.mirrorFor (s : State) (p l : Nat) : Option Nat := if (homeDie l).pkg = p then s.mirrorOf p else none

/-! ## Copies at a die (R365, R367) -/

/-- A line without its copy: the writes that stand in it and its requests stay. -/
def Line.emptied (y : Line) : Line :=
  { y with perm := .i, sectors := List.replicate 4 Sector.none_, bytes := [], leaving := false, wsent := [], came := false }

/-- A die loses its copy of a line: writes that are die-performed stay so, and data still on its way is used once (R367). -/
def State.loseCopy (s : State) (d : DieId) (l : Nat) : State :=
  match (s.die d).line? l with
  | none => s
  | some y =>
    if y.pend.isEmpty ∧ !y.wback ∧ y.asked.isNone then s.dropLine d l
    else (s.modLine d l fun y => { y.emptied with dropIt := y.dropIt || decide (y.asked = some .gets) }).settle d l

/-- An invalidation acts on a copy held S; on a line whose GETS is outstanding it makes the data to come used once (R367). A GETX
that is outstanding is served later, with its own data. -/
def State.invalidate (s : State) (d : DieId) (l : Nat) : State :=
  match (s.die d).line? l with
  | none => s
  | some y =>
    if y.perm = .s then s.loseCopy d l
    else if (y.perm = .i ∨ y.away) ∧ y.asked = some .gets then s.modLine d l fun y => { y with dropIt := true }
    else s

/-- A line's sectors filled from data, without a change to those that are valid. -/
def Line.filled (y : Line) (secs : List Nat) (data : LineData) : Line :=
  let new := secs.filter fun i => !(y.sector i).valid
  { y with bytes := new.foldl (fun m i => m.putN (48 * i) ((data.bytes.drop (48 * i)).take 48)) y.bytes,
           sectors := (List.range 4).map fun i =>
             if i ∈ new then { valid := true, dirty := false, poison := decide (i ∈ data.poison), owner := none } else y.sector i }

/-- The sectors that the data of a line's request fills: those that its reads want (R206), and for a GETX those that its waiting writes
cover in part. -/
def Line.fillSecs (y : Line) : List Nat :=
  if y.asked = some .gets then y.want
  else (List.range 4).filter fun i => decide (i ∈ y.want) || (decide (i ∈ y.pendSectors) && decide ((y.pendOf i).length < 48))

/-- The request that a line has outstanding once its GETS is answered (R364). -/
def Line.nextAsk (y : Line) : Option FwdKind := if y.nextX then some .getx else none

/-- SLICE_FILL_ARRIVAL (R206, R365, R367, R370): data used once serves the waiting reads and is not kept; a GETX's data waits for
its GRANT; else the line stands with the permission that came, and its writes and reads go on. -/
def execSliceFillArrival (d : DieId) (l : Nat) (perm : Perm) (keep : Bool) (data : LineData) (s : State) :
    Host.Outcome State Fault Refusal :=
  .next (
    match (s.die d).line? l with
    | none => s
    | some y =>
      match y.asked with
      | none => s
      | some .gets =>
        if !keep ∨ y.dropIt then
          let s := (s.closeWindow d l).captureAll d l
          if y.pend.isEmpty ∧ !y.wback ∧ y.perm = .i ∧ !y.nextX then s.dropLine d l
          else (s.modLine d l fun y => { y with asked := y.nextAsk, nextX := false, dropIt := false, want := [] }).settle d l
        else
          (s.modLine d l fun y =>
            let z := if y.away then y.emptied else y
            { z.filled y.fillSecs data with
              perm := if z.perm = .i then perm else z.perm, asked := y.nextAsk, nextX := false, want := [] }).settle d l
      | some _ =>
        s.modLine d l fun y =>
          let z := if y.away then y.emptied else y
          { z.filled y.fillSecs data with want := [], came := true })

/-- GRANT (R365): once the data is there too, the line is held M, its die-performed writes are applied, and DONE is sent. -/
def execGrant (s : State) : Host.Outcome State Fault Refusal :=
  .next (
    let d := s.site.core.dieId
    let l := s.site.n
    let finish (s : State) : State := s.laterAt .done (pkgCore (s.dirOf l)) l
    match (s.die d).line? l with
    | none => finish s
    | some y =>
      if y.asked = none ∨ y.asked = some .gets then finish s
      else if (y.perm = .i ∨ y.away) ∧ !y.came then s.laterAt .grant s.site.core l
      else
        let s := (s.modLine d l fun y => { y with perm := .m, asked := none, dropIt := false, want := [], came := false }).settle d l
        finish (if y.want.isEmpty then s else s.wantSectors d l y.want))

/-- PUTACK (R242, R364, R367): the write-back was accepted: with KEEP the holder keeps the line with the sectors that it wrote back
clean; without, the line leaves its buffer. Writes and reads that waited go on. -/
def execPutack (s : State) : Host.Outcome State Fault Refusal :=
  .next (
    let d := s.site.core.dieId
    let l := s.site.n
    match (s.die d).line? l with
    | none => s
    | some y =>
      if !y.wback then s
      else if y.leaving then
        if y.pend.isEmpty ∧ y.asked.isNone then s.dropLine d l
        else (s.modLine d l fun y => { y.emptied with wback := false }).settle d l
      else
        (s.modLine d l fun y =>
          let z := y.cleaned y.wsent
          { z with wback := false, wsent := [],
                   perm := if y.wsent.isEmpty ∨ z.isDirty then y.perm
                           else if y.perm = .m then .e else if y.perm = .o then .s else y.perm }).settle d l)

/-! ## Directory entries (R361, R366) -/

/-- A directory's entry of a line. -/
def State.entry? (s : State) (p l : Nat) : Option DirEntry := (s.pkg p).dir.find? fun e => decide (e.line = l)

/-- An entry replaced; it is now its set's most recently used, and the directory has made progress (R372). -/
def State.putEntry (s : State) (p : Nat) (e : DirEntry) : State :=
  s.modPkg p fun x => { x with dir := e :: x.dir.filter (fun y => decide (y.line ≠ e.line)), progress := s.now }

/-- An entry freed. -/
def State.dropEntryOf (s : State) (p l : Nat) : State :=
  s.modPkg p fun x => { x with dir := x.dir.filter (fun y => decide (y.line ≠ l)), progress := s.now }

/-- The set of a line (R361). -/
def dirSet (l : Nat) : Nat :=
  let k := (homeDie l).die * 2 ^ 29 + l * 192 % Config.dieSpan / 192
  (k % 2 ^ 20) ^^^ (k / 2 ^ 20 % 2 ^ 11)

/-- The export bit of a line (R362). -/
def State.export (s : State) (l : Nat) (on : Bool) : State :=
  { s with exported := if on then (if l ∈ s.exported then s.exported else l :: s.exported) else s.exported.filter fun x => decide (x ≠ l) }

/-- A die as a sharer of an entry: a bit of DIES in the home package, of PKGS elsewhere (R361). -/
def DirEntry.share (e : DirEntry) (d : DieId) : DirEntry :=
  if d.pkg = (homeDie e.line).pkg then { e with dies := if d.die ∈ e.dies then e.dies else e.dies ++ [d.die] }
  else { e with pkgs := if d.pkg ∈ e.pkgs then e.pkgs else e.pkgs ++ [d.pkg] }

/-- A requester that still holds the copy that its UPG raises (R365). -/
def State.stillShares (s : State) (d : DieId) (l : Nat) : Bool :=
  match (s.die d).line? l with
  | some y => decide (y.perm = .s) || decide (y.perm = .o)
  | none => false

/-- The invalidations to every sharer die and package but one die (R365). In the requester's own package they go to its other dies,
for a sharer bit of PKGS stands for any of the four (R361). -/
def invItems (p : Nat) (e : DirEntry) (but : Option DieId) : List Item :=
  let home := (homeDie e.line).pkg
  let one (d : DieId) : Item := .event (.invalidation p e.line d false) Site.zero
  ((e.dies.map fun n => (⟨home, n⟩ : DieId)).filter fun d => decide (some d ≠ but)).map one
    ++ e.pkgs.flatMap fun q =>
      match but with
      | some d => if d.pkg = q then ((diesOf q).filter fun x => decide (x ≠ d)).map one
                  else [.event (.invalidation p e.line ⟨q, 0⟩ true) Site.zero]
      | none => [.event (.invalidation p e.line ⟨q, 0⟩ true) Site.zero]

/-- Items placed before everything else, in their order. -/
def State.frontAll (s : State) (is : List Item) : State := { s with agenda := is ++ s.agenda }

/-! ## Recalls (R368, R369) -/

/-- The transactions open in a directory (R363). -/
def Package.openTxns (x : Package) : Nat := (x.dir.filter fun e => e.txn.isSome).length

/-- The mirror is told of a transaction; with none, it counts as acknowledged (R371). -/
def State.openTxn (s : State) (p : Nat) (e : DirEntry) : State :=
  match s.mirrorFor p e.line with
  | some m => (s.putEntry p e).laterAt .mirrorOpenRecord (pkgCore m) e.line p
  | none => (s.putEntry p e).laterAt .mirrorOpenAck (pkgCore p) e.line

/-- An entry whose owner is a die of another package than the home (R369). -/
def DirEntry.ownedAbroad (e : DirEntry) : Bool :=
  decide (e.st ≠ .s) && decide (e.st ≠ .i) && decide (e.owner.pkg ≠ (homeDie e.line).pkg)

/-- An entry that other packages cache: it is recalled from them when its region is in coarse mode (R369). -/
def DirEntry.abroad (e : DirEntry) : Bool := !e.pkgs.isEmpty || e.ownedAbroad

/-- A recall asks the entry's owner for its data: a recall from other packages asks an owner there alone (R368, R369). -/
def DirEntry.recallsOwner (e : DirEntry) (part : Bool) : Bool := if part then e.ownedAbroad else decide (e.st ≠ .s)

/-- What a recall leaves of an entry: nothing, or, of one from other packages, the copies of the home package (R368, R369). -/
def DirEntry.recalled (e : DirEntry) (part : Bool) : DirEntry :=
  if !part then { e with st := .i }
  else
    let st := if e.ownedAbroad then .s else e.st
    if st = .s ∧ e.dies.isEmpty then { e with st := .i }
    else { e with st := if st = .o ∧ e.dies.isEmpty then .m else st, pkgs := [] }

/-- A recall of an entry starts, of every copy or of those of other packages: its S copies are invalidated (R368, R369). -/
def State.startRecall (s : State) (p : Nat) (e : DirEntry) (part : Bool) : State :=
  let inv := invItems p (if part then { e with dies := [] } else e) none
  let own := if e.recallsOwner part then 1 else 0
  let t : Txn := ⟨.recall, ⟨e.line, homeDie e.line, false, (s.pkg p).podgen⟩, inv.length + own, false, false, false, [], part⟩
  (s.openTxn p { e with txn := some t }).laterAll inv

/-- The recalls of a region of a package raised by one (R369). -/
def State.countRecall (s : State) (h r : Nat) : State :=
  s.modPkg h fun x => { x with recalls := Assoc.set x.recalls r (Assoc.getD x.recalls r 0 + 1) }

/-- THRESH of a package's map (R360). -/
def State.thresh (s : State) (p : Nat) : Nat := let t := s.dirMapWord p 0 % 2 ^ 32; if t = 0 then 2048 else t
/-- LEAVE. -/
def State.leaveAfter (s : State) (p : Nat) : Nat := let t := bitsOf (s.dirMapWord p 0) 47 32; if t = 0 then 10 else t

/-- A COARSE_ENTER or COARSE_LEAVE record of a region, for its home package, behind the writes of the map (R360, R369, R431). -/
def State.coarseRecord (s : State) (p h r kind n : Nat) : State :=
  s.afterMap p h
    [(h, [BitVec.ofNat 64 (putBits kind 56 + putBits h 50 + r), 0, BitVec.ofNat 64 (n % 2 ^ 32), s.timeWord h 0])]

/-- A region of the package h enters coarse mode: its mark, the recalls from other packages, its record (R369). -/
def State.enterCoarse (s : State) (p h r : Nat) : State :=
  let s := s.modPkg h fun x => { x with coarse := x.coarse ++ [r], low := Assoc.set x.low r 0 }
  let w := s.dirMapWord h (regionWord r 0)
  let s := s.setDirMap p h (regionWord r 0) (withBits w 63 63 1)
  let s := s.coarseRecord p h r 0x08 (Assoc.getD (s.pkg h).recalls r 0)
  ((s.pkg p).dir.filter fun e => decide (regionOf e.line = r) && decide ((homeDie e.line).pkg = h) && e.abroad && e.txn.isNone).foldl
    (fun s e => (s.countRecall h r).startRecall p e true) s

/-- A recall counted; a count above THRESH brings coarse mode (R369). -/
def State.recallCounted (s : State) (p l : Nat) : State :=
  let h := (homeDie l).pkg
  let r := regionOf l
  let s := s.countRecall h r
  if s.thresh h < Assoc.getD (s.pkg h).recalls r 0 ∧ r ∉ (s.pkg h).coarse then s.enterCoarse p h r else s

/-! ## Requests that wait (R363, R366, R368, R372) -/

/-- The line of a request that a directory holds. -/
def Item.reqLine : Item → Option Nat
  | .event (.gets x) _ => some x.line
  | .event (.getx x) _ => some x.line
  | .event (.upg x) _ => some x.line
  | .event (.putm x _ _ _) _ => some x.line
  | _ => none

/-- Requests wait at the directory. -/
def Package.waiting (x : Package) : Bool := !x.waitQ.isEmpty || x.dir.any fun e => !e.queue.isEmpty

/-- The watchdog of a directory set, where none runs (R372). -/
def State.watch (s : State) (p due : Nat) : State :=
  if s.timers.any fun t => decide (t.instr = .directoryWatchdog) && decide (t.site.core.pkg = p) then s
  else s.at_ due .directoryWatchdog ⟨pkgCore p, 0, 0, false⟩

/-- A first request begins to wait: from now on the watchdog asks for progress (R372). -/
def State.beginWait (s : State) (p : Nat) : State :=
  if (s.pkg p).waiting then s else (s.modPkg p fun x => { x with progress := s.now }).watch p (s.now + 20000)

/-- A request waits for a slot or a way (R363, R368). -/
def State.waitDir (s : State) (p : Nat) (i : Instr) : State :=
  (s.beginWait p).modPkg p fun x => { x with waitQ := x.waitQ ++ [.event i Site.zero] }

/-- A request waits behind the transaction open on its line (R366). -/
def State.waitLine (s : State) (p l : Nat) (i : Instr) : State :=
  (s.beginWait p).modPkg p fun k =>
    { k with dir := k.dir.map fun y => if y.line = l then { y with queue := y.queue ++ [.event i Site.zero] } else y }

/-! ## Transactions (R365, R366, R371) -/

/-- A transaction closes: the entry stands as given, or is freed with the line's export bit; CLOSE goes to the mirror; the requests that
waited are served next, in their order, those that a recall made way for before those of its line (R365, R366, R368, R371). In a
coarse region an entry that other packages cache is recalled from them first (R369). -/
def State.closeTxn (s : State) (p : Nat) (e : DirEntry) : State :=
  let h := (homeDie e.line).pkg
  let s := match s.mirrorFor p e.line with
    | some m => s.later (.mirrorCloseRecord p e.line m e.st e.owner e.dies e.pkgs)
    | none => s
  let waitQ := (s.pkg p).waitQ
  if e.st = .i then
    (((s.dropEntryOf p e.line).export e.line false).modPkg p fun x => { x with waitQ := [] }).frontAll (waitQ ++ e.queue)
  else if regionOf e.line ∈ (s.pkg h).coarse ∧ e.abroad then
    (s.countRecall h (regionOf e.line)).startRecall p { e with txn := none } true
  else ((s.putEntry p { e with txn := none, queue := [] }).modPkg p fun x => { x with waitQ := [] }).frontAll (e.queue ++ waitQ)

/-- Nothing more is awaited: GRANT leaves, or a recall ends and the entry is freed (R365, R368). -/
def State.advanceTxn (s : State) (p l : Nat) : State :=
  match s.entry? p l with
  | none => s
  | some e =>
    match e.txn with
    | none => s
    | some t =>
      if !t.opened ∨ t.acks ≠ 0 then s
      else match t.kind with
        | .getx =>
          if t.granted then s
          else (s.putEntry p { e with txn := some { t with granted := true } }).laterAt .grant (dieCore0 t.req.die) l
        | .recall => s.closeTxn p (e.recalled t.part)
        | _ => s

/-- Data sent by the home or kept current by it (R365). -/
def State.sendData (s : State) (l : Nat) (d : DieId) (perm : Perm) (keep : Bool) : State :=
  s.later (.sliceFillArrival d l perm keep (s.lineData l))

/-- What a home slice holds of a line: a copy, and whether it is dirty (R365). -/
def State.homeHolds (s : State) (l : Nat) : Option Bool :=
  match (s.die (homeDie l)).line? l with
  | some y => if y.perm ≠ .i ∧ (y.sectors.any (·.valid) ∨ !y.pend.isEmpty) then some y.isDirty else none
  | none => none

/-- The permission of the home's copy changed. -/
def State.setHomePerm (s : State) (l : Nat) (perm : Perm) : State := s.modLine (homeDie l) l fun y => { y with perm := perm }

/-- The home's copy leaves: its dirty sectors go to memory first. -/
def State.takeHome (s : State) (l : Nat) : State :=
  let s := match (s.die (homeDie l)).line? l with
    | some y => s.storeHome l y.data y.dirtySectors
    | none => s
  s.loseCopy (homeDie l) l

/-- A GETS goes on once its OPEN is acknowledged (R365). -/
def State.goGets (s : State) (p : Nat) (e : DirEntry) (x : CohReq) : State :=
  let l := e.line
  let h := homeDie l
  let plain := { e with txn := none }
  match e.st with
  | .i =>
    let s := s.export l true
    match s.homeHolds l with
    | some true => ((s.setHomePerm l .o).sendData l x.die .s true).closeTxn p ({ plain with st := .o, owner := h }.share x.die)
    | some false => ((s.setHomePerm l .s).sendData l x.die .s true).closeTxn p (({ plain with st := .s }.share h).share x.die)
    | none =>
      let s := s.loseCopy h l
      (s.sendData l x.die .e true).closeTxn p { plain with st := .e, owner := x.die }
  | .s => (s.sendData l x.die .s (!x.noKeep)).closeTxn p (if x.noKeep then plain else plain.share x.die)
  | _ =>
    if e.owner = x.die then (s.sendData l x.die e.st true).closeTxn p plain
    else s.later (.forward p l .gets e.owner x.die)

/-- A GETX or UPG goes on once its OPEN is acknowledged (R365). -/
def State.goGetx (s : State) (p : Nat) (e : DirEntry) (x : CohReq) : State :=
  let l := e.line
  let s := match e.st with
    | .i => ((s.takeHome l).export l true).sendData l x.die .m true
    | .s => if s.stillShares x.die l then s else s.sendData l x.die .m true
    | _ => if e.owner = x.die then s else s.later (.forward p l .getx e.owner x.die)
  s.advanceTxn p l

/-- The holder of a line keeps other sectors dirty than those that it writes back (R207). -/
def State.keepsOthers (s : State) (d : DieId) (l : Nat) (secs : List Nat) : Bool :=
  match (s.die d).line? l with
  | some y => !(y.cleaned secs).dirtySectors.isEmpty
  | none => false

/-- A PUTM goes on: the home takes the data, PUTACK follows, and the entry stands as before where the holder keeps other sectors dirty,
else with it clean or without it (R364). A PUTM of a die that owns the line no longer changes nothing (R367). -/
def State.goPutm (s : State) (p : Nat) (e : DirEntry) (x : CohReq) (keep : Bool) (data : LineData) (secs : List Nat) : State :=
  let stays := keep && s.keepsOthers x.die e.line secs
  let s := s.laterAt .putack (dieCore0 x.die) e.line
  if e.owner ≠ x.die ∨ e.st = .s ∨ e.st = .i then s.closeTxn p { e with txn := none }
  else
    let s := s.storeHome e.line data secs
    let e := { e with txn := none }
    if stays then s.closeTxn p e
    else if e.st = .o then
      let e := { e with st := .s }
      let e := if keep then e.share x.die else e
      s.closeTxn p (if e.dies.isEmpty ∧ e.pkgs.isEmpty then { e with st := .i } else e)
    else s.closeTxn p { e with st := if keep then .e else .i }

/-- A transaction goes on once the mirror has acknowledged its OPEN (R371). -/
def State.goTxn (s : State) (p : Nat) (e : DirEntry) (t : Txn) : State :=
  let t := { t with opened := true }
  let e := { e with txn := some t }
  let s := s.putEntry p e
  match t.kind with
  | .gets => s.goGets p e t.req
  | .getx => s.goGetx p e t.req
  | .putm =>
    match t.after with
    | [.event (.putm x keep data secs) _] => s.goPutm p e x keep data secs
    | _ => s.closeTxn p { e with txn := none }
  | .recall =>
    (if e.recallsOwner t.part then s.later (.forward p e.line .recall e.owner e.owner) else s).advanceTxn p e.line

/-- MIRROR_OPEN_ACK (R371): the OPEN of a line's transaction has been recorded. -/
def execMirrorOpenAck (s : State) : Host.Outcome State Fault Refusal :=
  .next (
    let p := s.site.core.pkg
    match s.entry? p s.site.n with
    | none => s
    | some e =>
      match e.txn with
      | some t => if t.opened then s else s.goTxn p e t
      | none => s)

/-- MIRROR_OPEN_RECORD (R371): the mirror marks the line OPEN and acknowledges. -/
def execMirrorOpenRecord (s : State) : Host.Outcome State Fault Refusal :=
  .next (
    let m := s.site.core.pkg
    let l := s.site.n
    let old : MirEntry := ((s.pkg m).mirror.find? fun e => decide (e.line = l)).getD ⟨l, .i, homeDie l, [], [], true⟩
    (s.modPkg m fun x => { x with mirror := { old with open_ := true } :: x.mirror.filter fun e => decide (e.line ≠ l) }).laterAt
      .mirrorOpenAck (pkgCore s.site.m) l)

/-- MIRROR_CLOSE_RECORD (R371): the mirror's stable copy is replaced and the OPEN mark cleared. -/
def execMirrorCloseRecord (_p l m : Nat) (st : Perm) (owner : DieId) (dies pkgs : List Nat) (s : State) :
    Host.Outcome State Fault Refusal :=
  .next (s.modPkg m fun x =>
    let rest := x.mirror.filter fun e => decide (e.line ≠ l)
    { x with mirror := if st = .i then rest else ⟨l, st, owner, dies, pkgs, false⟩ :: rest })

/-! ## Requests at the directory (R364 to R370) -/

/-- A request of a LOST region: it is not served, and what its die performed for the line alone is gone (R376). -/
def State.loseLine (s : State) (d : DieId) (l : Nat) : State := ((s.dropLine d l).closeWindow d l).lineSettled d l

/-- The oldest way of a full set whose BUSY is clear (R368). -/
def Package.victim (x : Package) (l : Nat) : Option DirEntry :=
  (x.dir.filter fun e => decide (dirSet e.line = dirSet l) && e.txn.isNone).getLast?

/-- The recall of a victim, unless coarse mode has just begun one (R368). -/
def State.startRecallOf (s : State) (p l : Nat) : State :=
  match s.entry? p l with
  | some e => if e.txn.isSome then s else s.startRecall p e false
  | none => s

/-- A full set makes a way for one more request: one recall for each line that waits for a way of it (R368). -/
def State.makeWay (s : State) (p l : Nat) : State :=
  let x := s.pkg p
  let inSet (k : Nat) : Bool := decide (dirSet k = dirSet l)
  let ahead := ((x.waitQ.filterMap Item.reqLine).filter inSet).dedup.length
  let begun := (x.dir.filter fun e => inSet e.line && (e.txn.any fun t => decide (t.kind = .recall) && !t.part)).length
  if ahead < begun then s
  else match x.victim l with
    | some e => (s.recallCounted p e.line).startRecallOf p e.line
    | none => s

/-- A request of the home die for a line with no entry: the line is cached nowhere else, and the access is served within the die (R361,
R362). -/
def State.homeAlone (s : State) (l : Nat) : State :=
  let h := homeDie l
  match (s.die h).line? l with
  | none => s
  | some y =>
    let s := (s.modLine h l fun y =>
      let z := if y.away then { y.emptied with wback := false } else y
      { z with perm := .m, asked := none, nextX := false, dropIt := false, want := [], came := false }).settle h l
    if y.want.isEmpty then s else s.wantSectors h l y.want

/-- A request at the directory p: it waits where the line is BUSY, every slot is taken, or its set is full and a recall must come first;
one that needs no entry is served at once; else its transaction starts, with the invalidations it brings (R365, R366, R368, R370,
R371). -/
def State.startTxn (s : State) (p : Nat) (i : Instr) (kind : TxnKind) (x : CohReq) : State :=
  let l := x.line
  match s.entry? p l with
  | some e =>
    if e.txn.isSome then s.waitLine p l i
    else if 8192 ≤ (s.pkg p).openTxns then s.waitDir p i
    else
      let inv := if kind = .getx ∧ (e.st = .s ∨ e.st = .o) then invItems p e (some x.die) else []
      let own := if kind = .getx ∧ e.st ≠ .s ∧ e.owner ≠ x.die then 1 else 0
      let after := if kind = .putm then [.event i Site.zero] else []
      (s.openTxn p { e with txn := some ⟨kind, x, inv.length + own, false, false, false, after, false⟩ }).laterAll inv
  | none =>
    if kind = .putm then s.laterAt .putack (dieCore0 x.die) l
    else if (s.pkg p).waitQ.any fun it => decide (Item.reqLine it = some l) then s.waitDir p i
    else if x.die = homeDie l then s.homeAlone l
    else if kind = .gets ∧ x.noKeep then s.sendData l x.die .s false
    else if 8192 ≤ (s.pkg p).openTxns then s.waitDir p i
    else if ((s.pkg p).dir.filter fun e => decide (dirSet e.line = dirSet l)).length < 16 then
      s.openTxn p ⟨l, .i, x.die, [], [], some ⟨kind, x, 0, false, false, false, [], false⟩, []⟩
    else (s.makeWay p l).waitDir p i

/-- A request reaches its directory: under an older generation its sender sends it again (R379); a directory that has failed and is not
yet taken over holds it (R373), and so does a home slice whose prompter holds the line locked (R198); a LOST region serves none (R376). -/
def State.atDirectory (s : State) (x : CohReq) (again : CohReq → Instr) (k : Nat → State → State) : State :=
  let p := s.dirOf x.line
  if s.isLost x.line then s.loseLine x.die x.line
  else if olderGen x.gen (s.pkg p).podgen then s.later (again { x with gen := (s.pkg p).podgen })
  else if !(s.pkg p).dirUp ∨ ((s.die (homeDie x.line)).line? x.line).any (·.locked) then s.later (again x)
  else k p s

/-- GETS (R364, R365, R370): in a coarse region a die of another package is served without a copy to keep. -/
def execGets (x : CohReq) (s : State) : Host.Outcome State Fault Refusal :=
  .next (s.atDirectory x .gets fun p s =>
    let x := { x with noKeep := x.noKeep || s.coarseFor x.die x.line }
    s.startTxn p (.gets x) .gets x)

/-- A die's performed writes of a line go to the home die's slice, and count as performed for every scope (R370). -/
def State.carryHome (s : State) (d : DieId) (l : Nat) : State :=
  match (s.die d).line? l with
  | none => s
  | some y =>
    let s := (s.modLine d l fun y => { y with pend := [], asked := none, nextX := false, want := [] }).loseCopy d l |>.lineSettled d l
    y.pend.foldl (fun s p => s.dieWriteGo (homeDie l) none 2 (l * 192 + p.1) [p.2.1]) s

/-- GETX (R364, R365, R370). -/
def execGetx (x : CohReq) (s : State) : Host.Outcome State Fault Refusal :=
  .next (s.atDirectory x .getx fun p s =>
    if s.coarseFor x.die x.line then s.carryHome x.die x.line else s.startTxn p (.getx x) .getx x)

/-- UPG (R364, R365): one that finds its requester a sharer no longer is served as GETX. -/
def execUpg (x : CohReq) (s : State) : Host.Outcome State Fault Refusal :=
  .next (s.atDirectory x .upg fun p s =>
    if s.coarseFor x.die x.line ∧ !(s.stillShares x.die x.line) then s.carryHome x.die x.line
    else s.startTxn p (.upg x) .getx x)

/-- PUTM (R364, R367): a write-back, with KEEP or without. -/
def execPutm (x : CohReq) (keep : Bool) (data : LineData) (sectors : List Nat) (s : State) : Host.Outcome State Fault Refusal :=
  .next (s.atDirectory x (fun x => .putm x keep data sectors) fun p s =>
    s.startTxn p (.putm x keep data sectors) .putm x)

/-- INVALIDATION (R365, R367): a sharer die, or each die of a sharer package, gives up its copy and one acknowledgement returns. A
prompter's locked line waits (R198). -/
def execInvalidation (p l : Nat) (d : DieId) (wholePkg : Bool) (s : State) : Host.Outcome State Fault Refusal :=
  .next (
    let ds := if wholePkg then diesOf d.pkg else [d]
    if ds.any fun d => ((s.die d).line? l).any (·.locked) then s.later (.invalidation p l d wholePkg)
    else (ds.foldl (fun s d => s.invalidate d l) s).later (.invalidationAck p l d wholePkg))

/-- One acknowledgement less is awaited. -/
def State.ackTxn (s : State) (p l : Nat) : State :=
  match s.entry? p l with
  | none => s
  | some e =>
    match e.txn with
    | none => s
    | some t => (s.putEntry p { e with txn := some { t with acks := t.acks - 1 } }).advanceTxn p l

/-- INVALIDATION_ACK (R365): an acknowledgement reaches the directory. -/
def execInvalidationAck (p l : Nat) (_frm : DieId) (_wholePkg : Bool) (s : State) : Host.Outcome State Fault Refusal :=
  .next (s.ackTxn p l)

/-- FORWARD (R365, R367, R368): an owner sends its data to the requester, leaves the line as the request asks, and sends DONE; the mark
of DONE says that it kept dirty sectors. -/
def execForward (p l : Nat) (k : FwdKind) (owner req : DieId) (s : State) : Host.Outcome State Fault Refusal :=
  .next (
    match ((s.die owner).line? l).filter fun y => decide (y.perm ≠ .i) with
    | none =>
      let s := match k with
        | .gets => s.sendData l req .s (!s.coarseFor req l)
        | .getx => s.sendData l req .m true
        | .recall => s
      s.laterAt .done (pkgCore p) l
    | some y =>
      if y.locked then s.later (.forward p l k owner req)
      else match k with
        | .gets =>
          ((s.sendData l req .s (!s.coarseFor req l)).modLine owner l fun y => { y with perm := if y.isDirty then .o else .s }).laterAt
            .done (pkgCore p) l 0 y.isDirty
        | .getx =>
          let s := s.sendData l req .m true
          ((s.storeHome l y.data y.dirtySectors).loseCopy owner l).laterAt .done (pkgCore p) l
        | .recall => ((s.storeHome l y.data y.dirtySectors).loseCopy owner l).laterAt .done (pkgCore p) l)

/-- DONE (R365, R368): an owner's ends a forwarded GETS, or is one of the acknowledgements that a GETX or a recall awaits; the
requester's, after its GRANT, leaves it the line's owner. -/
def execDone (s : State) : Host.Outcome State Fault Refusal :=
  .next (
    let p := s.site.core.pkg
    let l := s.site.n
    match s.entry? p l with
    | none => s
    | some e =>
      match e.txn with
      | none => s
      | some t =>
        match t.kind with
        | .gets =>
          let e := { e with txn := none, st := if s.site.flag then .o else .s }
          let e := if s.site.flag then e else e.share e.owner
          s.closeTxn p (if t.req.noKeep then e else e.share t.req.die)
        | .getx =>
          if !t.granted then s.ackTxn p l
          else if e.st = .i ∧ t.req.die = homeDie l then s.closeTxn p { e with txn := none }
          else s.closeTxn p { e with txn := none, st := .m, owner := t.req.die, dies := [], pkgs := [] }
        | .recall => s.ackTxn p l
        | .putm => s)

/-- The end of a window for the regions of a package, at the directory p that serves them (R360, R369). -/
def State.closeRecalls (s : State) (p h : Nat) : State :=
  let x := s.pkg h
  let s := s.modPkg h fun x => { x with recalls := [] }
  (List.range 512).foldl
    (fun s r =>
      let n := Assoc.getD x.recalls r 0
      let s := if s.dirMapWord h (regionWord r 1) % 2 ^ 32 = n then s else s.setDirMap p h (regionWord r 1) (n % 2 ^ 32)
      if r ∉ x.coarse then s
      else
        let low := if 4 * n < s.thresh h then Assoc.getD x.low r 0 + 1 else 0
        if s.leaveAfter h ≤ low then
          let s := s.modPkg h fun x => { x with coarse := x.coarse.filter (fun y => decide (y ≠ r)), low := Assoc.erase x.low r }
          (s.setDirMap p h (regionWord r 0) (withBits (s.dirMapWord h (regionWord r 0)) 63 63 0)).coarseRecord p h r 0x09 n
        else s.modPkg h fun x => { x with low := Assoc.set x.low r low }) s

/-- RECALL_WINDOW (R360, R369): at the end of each window of 100 µs the counts of every region that the directory serves go to the map, and
a region in coarse mode that has been quiet for LEAVE windows leaves it. -/
def execRecallWindow (s : State) : Host.Outcome State Fault Refusal :=
  .next (
    let p := s.site.core.pkg
    let served := (if (s.pkg p).dirUp ∧ !(s.pkg p).lost then [p] else []) ++ (s.pkg p).acting
    (served.foldl (fun s h => s.closeRecalls p h) s).at_ (s.now + 100000) .recallWindow s.site)

end Sys2Proof.Machine
end

