-- ==== Sys2Proof/Machine/Directory.lean ====
section
/-! DEFINITION. Failures of a directory, takeover by its mirror, LOST regions, and the retiring of peer channels (R372 to R379). -/

namespace Sys2Proof.Machine

open Sys2Proof

/-! ## What a change of directory drops and sends again (R373, R379) -/

/-- The line that a coherence message concerns, for the messages that a takeover drops; a fill of a line whose die already holds a
permission is no such message. -/
def State.dropsLine (s : State) : Item → Option Nat
  | .event (.gets x) _ => some x.line
  | .event (.getx x) _ => some x.line
  | .event (.upg x) _ => some x.line
  | .event (.invalidation _ l _ _) _ => some l
  | .event (.invalidationAck _ l _ _) _ => some l
  | .event (.forward _ l _ _ _) _ => some l
  | .event (.sliceFillArrival d l _ _ _) _ =>
    match (s.die d).line? l with
    | some y => if y.perm = .i ∨ y.away then some l else none
    | none => some l
  | .event .grant x => some x.n
  | .event .done x => some x.n
  | .event .mirrorOpenAck x => some x.n
  | .event .mirrorOpenRecord x => some x.n
  | .event (.mirrorCloseRecord _ l _ _ _ _ _) _ => some l
  | _ => none

/-- Lines homed in a package. -/
def homedIn (p l : Nat) : Bool := decide ((homeDie l).pkg = p)

/-- A write-back. -/
def Item.isPutm : Item → Bool
  | .event (.putm _ _ _ _) _ => true
  | _ => false

/-- The write-backs that wait in a directory's queues and transactions: they are sent again (R367, R373). -/
def DirEntry.putms (e : DirEntry) : List Item := (e.queue ++ (e.txn.map (·.after)).getD []).filter Item.isPutm

/-- The dies that the state lists, by ascending package, then ascending die (R366). -/
def State.sortedDies (s : State) : List DieId := s.allDies.filter fun d => (Assoc.get? s.dies d).isSome

/-- Every message of the old generation for a package's lines is dropped, each outstanding request is sent again, and the write-backs
that a directory held are sent again (R373 step 2). -/
def State.reissue (s : State) (p : Nat) (puts : List Item) : State :=
  let s := { s with agenda := s.agenda.filter fun it =>
    match s.dropsLine it with
    | some l => !homedIn p l
    | none => true }
  let s := s.laterAll puts
  s.sortedDies.foldl
    (fun s d =>
      ((s.die d).lines.filter fun y =>
        homedIn p y.line && y.asked.isSome && (decide (y.perm = .i) || y.away || y.nextX || decide (y.asked ≠ some .gets))).foldl
        (fun s y =>
          let l := y.line
          let own := decide (y.perm ≠ .i) && !y.away && decide (y.asked = some .gets)
          let s := s.modLine d l fun y =>
            { y with asked := if own then y.asked else none, dropIt := own && y.dropIt, nextX := false, came := false,
                     sectors := if y.perm = .i then List.replicate 4 Sector.none_ else y.sectors }
          let s := if own then s else s.ask d l (y.asked.getD .gets)
          if y.nextX then s.ask d l .getx else s) s) s

/-- The map generation of the coherence domain of a package raised by 1 and sent to every junction die, each of which writes it into the
header of its map, once that is loaded (R360, R373, R377). -/
def State.raiseGen (s : State) (p : Nat) : BitVec 16 × State :=
  let g := (s.pkg p).podgen + 1
  (g, (s.domain p).foldl
    (fun s q =>
      let s := s.modPkg q fun x => { x with podgen := g }
      if (s.pkg q).stage.toNat ∈ [3, 4, 5] ∧ (s.pkg q).dirUp then s.setDirMap q q 1 (withBits (s.dirMapWord q 1) 15 0 g.toNat) else s) s)

/-! ## The sweep (R374) -/

/-- The dies that hold a line dirty. -/
def State.dirtyHolder (s : State) (l : Nat) : Option DieId :=
  (s.dies.find? fun p => match (p.2.line? l).filter (fun y => decide (y.perm ≠ .i)) with | some y => y.isDirty | none => false).map Prod.fst

/-- A line settled by asking every die for its holding (R374). -/
def State.sweepLine (s : State) (q l : Nat) : State :=
  let keep := s.dirtyHolder l
  let s := (s.dies.map Prod.fst).foldl
    (fun s d =>
      if some d = keep then s
      else match (s.die d).line? l with
        | some y => if y.perm = .i ∧ !(y.sectors.any (·.valid)) ∧ !y.came then s else s.loseCopy d l
        | none => s) s
  match keep with
  | some d =>
    ((s.modLine d l fun y => { y with perm := .m }).export l true).putEntry q ⟨l, .m, d, [], [], none, []⟩
  | none => (s.dropEntryOf q l).export l false

/-- A DIR_TAKEOVER record in every cluster of the coherence domain, behind the writes of the map (R360, R373, R431). -/
def State.takeoverRecord (s : State) (failed acting : Nat) (g : BitVec 16) (swept : Nat) : State :=
  s.afterMap acting failed ((s.domain acting).map fun q =>
    (q, [BitVec.ofNat 64 (putBits 0x0A 56 + putBits failed 50 + putBits acting 44 + g.toNat), 0, BitVec.ofNat 64 swept, s.timeWord q 0]))

/-- GEN, ACT and the map's PODGEN written for every region of a package (R360, R373). -/
def State.writeGen (s : State) (q p : Nat) (g : BitVec 16) (act : Bool) : State :=
  let s := s.setDirMap q p 1 (withBits (s.dirMapWord p 1) 15 0 g.toNat)
  (List.range 512).foldl
    (fun s r => s.setDirMap q p (regionWord r 0) (withBits (withBits (s.dirMapWord p (regionWord r 0)) 62 62 (b2n act)) 15 0 g.toNat)) s

/-! ## Failure and takeover (R372 to R375) -/

/-- DIRECTORY_FAILURE (R372, R376): a directory fails, with whatever it held for others as mirror or acting directory; its mirror takes
over, or without one its regions are LOST. The loss of the link-ports island is no failure of the directory: it cuts the package
off, and its regions are LOST. -/
def execDirectoryFailure (p : Nat) (why : DirFail) (s : State) : Host.Outcome State Fault Refusal :=
  .next (
    if why = .linkIsland then s.laterAt .dirLost (pkgCore p) p 0 true
    else if !(s.pkg p).dirUp then s
    else
      let wards := (s.pkg p).acting
      let m := s.mirrorOf p
      let s := s.modPkg p fun x => { x with dirUp := false, mirror := [], acting := [], recalls := [], low := [] }
      let s := wards.foldl (fun s q => s.laterAt .dirLost (pkgCore q) q) s
      match m with
      | some m => if (s.pkg m).dirUp then s.laterAt .dirTakeover (pkgCore m) p else s.laterAt .dirLost (pkgCore p) p
      | none => s.laterAt .dirLost (pkgCore p) p)

/-- DIRECTORY_WATCHDOG (R372): no progress for 20 µs while requests wait is a failure; else the watchdog goes on while requests wait. -/
def execDirectoryWatchdog (s : State) : Host.Outcome State Fault Refusal :=
  .next (
    let p := s.site.core.pkg
    let x := s.pkg p
    if !x.dirUp ∨ !x.waiting then s
    else if x.progress + 20000 ≤ s.now then s.later (.directoryFailure p .watchdog)
    else s.watch p (x.progress + 20000))

/-- DIR_TAKEOVER (R373, R374): the mirror raises the generation, takes its stable copy as its entries, settles the lines it marks OPEN by
a sweep, and every outstanding request is sent again. -/
def execDirTakeover (s : State) : Host.Outcome State Fault Refusal :=
  .next (
    let m := s.site.core.pkg
    let p := s.site.n
    if (s.pkg p).dirUp ∨ (s.pkg p).lost then s
    else if !(s.pkg m).dirUp then s.laterAt .dirLost (pkgCore p) p
    else
      let puts := (s.pkg p).dir.flatMap (·.putms) ++ (s.pkg p).waitQ.filter Item.isPutm
      let copies := (s.pkg m).mirror.filter fun e => homedIn p e.line
      let (g, s) := s.raiseGen p
      let s := s.modPkg p fun x => { x with dir := [], waitQ := [] }
      let s := s.modPkg m fun x =>
        { x with acting := p :: x.acting, mirror := x.mirror.filter (fun e => !homedIn p e.line),
                 dir := (copies.filter (fun e => !e.open_)).map (fun e => ⟨e.line, e.st, e.owner, e.dies, e.pkgs, none, []⟩) ++ x.dir }
      let swept := (copies.filter (·.open_)).map (·.line)
      let s := swept.foldl (fun s l => s.sweepLine m l) s
      let s := s.reissue p puts
      (s.writeGen m p g true).takeoverRecord p m g swept.length)

/-- DIRECTORY_RESTORE (R375): firmware starts a failed directory empty under a new generation, and the regions move back: the restored
directory sweeps every line that the acting mirror lists. -/
def execDirectoryRestore (s : State) : Host.Outcome State Fault Refusal :=
  .next (
    let p := s.site.core.pkg
    if (s.pkg p).dirUp ∨ (s.pkg p).lost then s
    else match s.packages.find? fun x => decide (p ∈ x.2.acting) with
      | none => s
      | some (m, _) =>
        let mine := (s.pkg m).dir.filter fun e => homedIn p e.line
        let (g, s) := s.raiseGen p
        let held (it : Item) : Bool := match Item.reqLine it with | some l => homedIn p l | none => false
        let puts := mine.flatMap (·.putms) ++ (s.pkg m).waitQ.filter fun it => Item.isPutm it && held it
        let s := s.modPkg m fun x =>
          { x with acting := x.acting.filter (fun q => decide (q ≠ p)), dir := x.dir.filter (fun e => !homedIn p e.line),
                   waitQ := x.waitQ.filter fun it => !held it }
        let s := s.modPkg p fun x => { x with dirUp := true, dir := [], waitQ := [] }
        let s := mine.foldl (fun s e => s.sweepLine p e.line) s
        let s := match s.mirrorOf p with
          | some q => s.modPkg q fun x =>
              { x with mirror := (s.pkg p).dir.map (fun (e : DirEntry) => (⟨e.line, e.st, e.owner, e.dies, e.pkgs, false⟩ : MirEntry)) ++ x.mirror }
          | none => s
        let s := s.reissue p puts
        (s.writeGen p p g false).takeoverRecord p p g mine.length)

/-! ## LOST regions (R376) -/

/-- A die's copy of a line of a LOST region goes: its dirty sectors to the home where that can be reached, else they are dropped and
counted. -/
def State.abandonLine (s : State) (d : DieId) (l : Nat) (reach : Bool) : Nat × State :=
  match (s.die d).line? l with
  | none => (0, s)
  | some y =>
    let secs := y.dirtySectors
    let s := if reach then s.storeHome l y.data secs else s
    (if reach then 0 else secs.length, s.loseLine d l)

/-- A link that has gone down. -/
def LinkSt.cut (x : LinkSt) : LinkSt := { x with ver := 0, lanes := 0, closing := false }

/-- Every link of a package down, at both its ends. -/
def State.cutLinks (s : State) (p : Nat) : State :=
  (List.range s.podSize).foldl (fun s q => if q = p then s else (s.modLink p q LinkSt.cut).modLink q p LinkSt.cut) (s.modLink p hostLink LinkSt.cut)

/-- DIR_LOST (R376): the regions of a package are LOST. The mark of the event says that its link-ports island has failed: its home dies
cannot be reached, and its links are down (R372). -/
def execDirLost (s : State) : Host.Outcome State Fault Refusal :=
  .next (
    let p := s.site.core.pkg
    if (s.pkg p).lost then s
    else
      let cut := s.site.flag
      let s := s.modPkg p fun x => { x with lost := true, dir := [], waitQ := [] }
      let s := { s with agenda := s.agenda.filter fun it =>
        match s.dropsLine it with
        | some l => !homedIn p l
        | none => true }
      let held := s.dies.flatMap fun x => (x.2.lines.filter fun y => homedIn p y.line && decide (homeDie y.line ≠ x.1)).map fun y => (x.1, y.line)
      let (dropped, s) := held.foldl (fun acc h => let (n, s) := acc.2.abandonLine h.1 h.2 (!cut); (acc.1 + n, s)) (0, s)
      let waiting := (diesOf p).flatMap fun d =>
        ((s.die d).lines.filter fun y => decide (homeDie y.line = d) && y.asked.isSome && decide (y.perm = .i)).map fun y => (d, y.line)
      let s := waiting.foldl (fun s h => s.loseLine h.1 h.2) s
      let n := if (s.pkg p).rebuild then 480 else 512
      let s := (List.range 512).foldl
        (fun s r => s.setDirMap p p (regionWord r 0) (withBits (s.dirMapWord p (regionWord r 0)) 61 61 1)) s
      let told := s.domain p
      let s := s.afterMap p p (told.map fun q =>
        (q, [BitVec.ofNat 64 (putBits 0x0B 56 + putBits p 50), 0,
          BitVec.ofNat 64 (putBits n 32 + min dropped 0xFFFFFFFF), s.timeWord q 0]))
      if cut then
        s.cutLinks p
      else s)

/-! ## Peer channels (R378) -/

/-- CHANNEL_CLOSING (R378): the generation rises; new traffic takes other channels, and older writes that arrive are refused. -/
def execChannelClosing (s : State) : Host.Outcome State Fault Refusal :=
  .next (
    let p := s.site.core.pkg
    let q := s.site.n
    if (s.link p q).closing ∨ (s.link p q).retired then s
    else
      let (_, s) := s.raiseGen p
      ((s.modLink p q fun x => { x with closing := true }).modLink q p fun x => { x with closing := true }).laterAt
        .channelRetired s.site.core q)

/-- An accepted write of an older generation still waits to land (R378). -/
def State.olderTaken (s : State) : Bool :=
  s.agenda.any fun it =>
    match it with
    | .event (.copyPieceArrival p) _ => p.taken && s.pieceMoved p
    | _ => false

/-- CHANNEL_RETIRED (R378): once every accepted write of an older generation has completed, the channel's links are trained down. -/
def execChannelRetired (s : State) : Host.Outcome State Fault Refusal :=
  .next (
    let p := s.site.core.pkg
    let q := s.site.n
    if !(s.link p q).closing then s
    else if s.olderTaken then s.laterAt .channelRetired s.site.core q
    else
      let off (x : LinkSt) : LinkSt := { x.cut with retired := true }
      (s.modLink p q off).modLink q p off)

end Sys2Proof.Machine
end

