-- ==== Sys2Proof/Machine/Power.lean ====
section
/-! DEFINITION. Quiet hardware, islands, thermal and current limits (R125 to R127, R433 to R438), and what the management port watches: bank
tests, links, the security alarm (R421 to R425). -/

namespace Sys2Proof.Machine

open Sys2Proof

/-! ## Islands (R125 to R127, R197) -/

/-- An island's count brought up to now, before its clock changes; a stopped island counts nothing, and `since` stays when it stopped. -/
def Island.settled (x : Island) (now : Nat) : Island := if x.stopped then x else { x with cycles := x.tenths now, since := now }

/-- An island's new operating point: until its clock has changed it runs at the lower of the two clocks (R127). -/
def State.setPoint (s : State) (p i pt : Nat) : State :=
  if (s.island p i).point = pt then s
  else
    (s.modIsland p i fun x =>
      { x.settled s.now with point := pt, clock := max x.clock pt, changes := satAdd x.changes 1 }).at_ (s.now + 2000) .clockChangeDone
      ⟨pkgCore p, i, 0, false⟩

/-- CLOCK_CHANGE_DONE (R127): the island's clock is that of its point. -/
def execClockChangeDone (s : State) : Host.Outcome State Fault Refusal :=
  .next (s.modIsland s.site.core.pkg s.site.n fun x => { x.settled s.now with clock := x.point })

/-- An island's allowance in hundredths of a watt (R125). -/
def allowance (i : Nat) (temp : Int) (current : Nat) : Nat :=
  let h := min (min 840 (max 0 (840 - temp))).toNat 80
  Config.islandCap i * 100 * min h (8 * (min (100 - current) 10)) / 80

/-- A committed draw at a point, in hundredths of a watt (R126). -/
def drawAt (watts pt : Nat) : Nat := watts * Config.pointScale pt

/-- An island at a refresh: its allowance; the holds and the step down that ended windows asked for; or one point up where its draw fits
(R125, R127, R437). -/
def State.refreshIsland (s : State) (p i : Nat) : State :=
  let x := s.island p i
  let a := allowance i x.temp x.current
  let s := s.modIsland p i fun x =>
    { x with allow := a, current := 0, force5 := false, down1 := false, energy := satAdd x.energy (drawAt x.committed x.point / 10) }
  if x.hot then s
  else if x.down1 then s.setPoint p i (min 5 (x.point + 1))
  else if 0 < x.point ∧ drawAt x.committed (x.point - 1) ≤ a then s.setPoint p i (x.point - 1)
  else s

/-- ALLOWANCE_REFRESH (R125): every 10 µs. -/
def execAllowanceRefresh (s : State) : Host.Outcome State Fault Refusal :=
  .next (
    let p := s.site.core.pkg
    ((List.range 40).foldl (fun s i => s.refreshIsland p i) s).at_ (s.now + 10000) .allowanceRefresh s.site)

/-! ## Droop and current (R437) -/

/-- DROOP_STRETCH (R437): the island's clock stretches; timing only. -/
def execDroopStretch (s : State) : Host.Outcome State Fault Refusal :=
  .next (s.modIsland s.site.core.pkg s.site.n fun x => { x with stretched := true })

/-- SUPPLY_RECOVERY (R437): the stretch ends. -/
def execSupplyRecovery (s : State) : Host.Outcome State Fault Refusal :=
  .next (s.modIsland s.site.core.pkg s.site.n fun x => { x with stretched := false })

/-- CURRENT_PEAK (R125, R437): an island's current sensor measures a peak, in hundredths of the rating, which the next refresh judges; above
110 % for 1 µs the island goes to point 5 until then. -/
def execCurrentPeak (s : State) : Host.Outcome State Fault Refusal :=
  .next (
    let p := s.site.core.pkg
    let i := s.site.n
    let s := s.modIsland p i fun x => { x with current := max x.current s.site.m }
    if 110 < s.site.m then (s.modIsland p i fun x => { x with force5 := true }).setPoint p i 5 else s)

/-- PACKAGE_POWER_WINDOW (R437): a mean draw over 1 ms above the package limit brings every cluster island one point down at the next
refresh. -/
def execPackagePowerWindow (s : State) : Host.Outcome State Fault Refusal :=
  .next (
    if s.site.n ≤ Config.packageLimit then s
    else (List.range 32).foldl (fun s i => s.modIsland s.site.core.pkg i fun x => { x with down1 := true }) s)

/-! ## Temperature (R438) -/

/-- The cluster whose callboard takes an island's THERMAL records (log 72). -/
def islandCluster (p i : Nat) : CluId := if i < 32 then ⟨p, i / 8, i % 8⟩ else if i < 36 then ⟨p, i - 32, 0⟩ else ⟨p, 0, 0⟩

/-- A THERMAL record (R431, R438). -/
def State.thermalRecord (s : State) (p i ev : Nat) (t : Int) : State :=
  (s.board (islandCluster p i) 3
    [BitVec.ofNat 64 (putBits 0x0D 56 + putBits ev 48 + i), 0, BitVec.ofNat 64 (wrapBits 16 t), s.timeWord p 0]).1

/-- A package stopped under EVENT 4: all its work and its links are lost (R438). -/
def State.stopPackage (s : State) (p i : Nat) (t : Int) : State :=
  ((s.thermalRecord p i 4 t).modPkg p fun x => { x with stopped := true }).cutLinks p

/-- A junction temperature outside −20 to 125 °C is a security trigger too (R424, R438). -/
def State.junctionWatch (s : State) (p i : Nat) (t : Int) : State :=
  if (i = 36 ∨ i = 37) ∧ (t < -160 ∨ 1000 < t) then s.laterAt .securityTrigger (pkgCore p) 4 else s

/-- THERMAL (R438): a reading of an island's hottest sensor, in 1/8 °C, acts as its thresholds give. With the mark of its site it is the
end of 10 ms of EVENT 2. -/
def execThermal (p i : Nat) (t : Int) (s : State) : Host.Outcome State Fault Refusal :=
  .next (
    let x := s.island p i
    if s.site.flag then (if x.stopped ∧ x.since = s.site.n then s.stopPackage p i x.temp else s)
    else
      let s := (s.modIsland p i fun x =>
        { x with temp := t, tmax := if x.tmax.toInt < t then BitVec.ofInt 64 t else x.tmax }).junctionWatch p i t
      if 960 ≤ t then s.stopPackage p i t
      else if 880 ≤ t then
        if x.stopped then s
        else
          ((s.modIsland p i fun x => { x.settled s.now with stopped := true, hot := true }).thermalRecord p i 2 t).at_ (s.now + 10000000)
            (.thermal p i t) ⟨pkgCore p, s.now, 0, true⟩
      else if x.stopped then
        if t < 800 then
          ((s.modIsland p i fun x => { x with stopped := false, hot := false, point := 5, clock := 5, since := s.now }).thermalRecord p i 3 t)
        else s
      else if 840 ≤ t then
        if x.hot then s else ((s.modIsland p i fun x => { x with hot := true }).setPoint p i 5).thermalRecord p i 1 t
      else s.modIsland p i fun x => { x with hot := false })

/-! ## Quiet cores and routers (R433, R434, R115) -/

/-- Nothing stands in a core: no entry, firing or request (R433). -/
def Core.idle (k : Core) : Bool :=
  k.store.isEmpty && k.ready.isEmpty && k.comps.isEmpty && k.reqs.isEmpty && k.rels.isEmpty && k.probes.isEmpty && k.parked.isEmpty
    && k.kept.isEmpty && k.holds.isEmpty && k.path.isEmpty && k.inbox.isEmpty && k.shardReqs.isEmpty
    && k.waves.all (·.waiting.isEmpty) && k.rings.all (·.isNone)

/-- CORE_DROWSY (R433): an idle core stops its clock. -/
def execCoreDrowsy (s : State) : Host.Outcome State Fault Refusal :=
  .next (
    let c := s.site.core
    let k := s.core c
    if k.power = .awake ∧ k.idle then s.setCore c { k with power := .drowsy, drowsyAt := s.now } else s)

/-- CORE_WAKE (R433). -/
def execCoreWake (s : State) : Host.Outcome State Fault Refusal :=
  .next (
    let c := s.site.core
    let k := s.core c
    if k.power = .drowsy then
      (s.setCore c { k with power := .awake }).countDrowsy c
        ((s.now - k.drowsyAt) * clockTenths (s.island c.pkg (coreIsland c)).clock / 10)
    else s)

/-- ROUTER_DROWSY (R433, R434): in the cycle in which the idle count is reached the decision is made; in the next, which the mark of the
site names, the router is DROWSY unless a wake came. -/
def execRouterDrowsy (s : State) : Host.Outcome State Fault Refusal :=
  .next (
    let c := s.site.core
    let k := s.core c
    if s.site.flag then
      if k.routerDeciding then s.setCore c { k with router := .drowsy, routerDeciding := false, routerAt := s.now } else s
    else if k.router = .awake then (s.setCore c { k with routerDeciding := true }).laterAt .routerDrowsy c 0 0 true
    else s)

/-- ROUTER_WAKE (R434): a wake in the decision cycle abandons the decision; a later one wakes the router. -/
def execRouterWake (s : State) : Host.Outcome State Fault Refusal :=
  .next (s.wakeRouter s.site.core)

/-- POWER_GATE (R115): an ordinary core that no resident configuration uses is gated with its router once its buffers are empty; it counts
no cycles from then on (R197). -/
def execPowerGate (s : State) : Host.Outcome State Fault Refusal :=
  .next (
    let c := s.site.core
    let k := s.core c
    let bound := s.agenda.any fun it => match it with
      | .event (.tokenArrival x _ _) _ => decide (x = c)
      | _ => false
    if c.isCtl ∨ !k.owner.isEmpty ∨ k.power = .gated then s
    else if !k.idle ∨ bound then s.laterAt .powerGate c 0
    else
      s.setCore c
        { k with power := .gated, router := .gated, routerDeciding := false, gateAt := (s.island c.pkg (coreIsland c)).tenths s.now })

/-- A core and its router woken for an install (R115, R197). -/
def State.wakeCore (s : State) (c : CoreId) : State :=
  let k := s.core c
  if k.power ≠ .gated then s
  else
    s.setCore c
      { k with power := .awake, router := .awake, drowsyAt := s.now, routerAt := s.now,
               lost := k.lost + ((s.island c.pkg (coreIsland c)).tenths s.now - k.gateAt) }

/-! ## HBM4E banks and links (R421 to R423) -/

/-- HBM_BANK_TEST (R421): a clean or repaired bank is copied back; a failing bank without spares stays in the parking area, and a second
one in that stack is reported and not retired. -/
def execHbmBankTest (d : DieId) (stack : Nat) (failing spares : Bool) (s : State) : Host.Outcome State Fault Refusal :=
  .next (
    let used := (s.die d).testing.any fun x => decide (x.1 = stack)
    if !failing then s
    else if used then s.modPkg d.pkg fun x => { x with bankBad := x.bankBad ++ [(d.die, stack)] }
    else if spares then s
    else s.modDie d fun x => { x with testing := x.testing ++ [(stack, 1)] })

/-- LINK_BEAT_CRC_FAIL (R422): the beat is discarded and resent; programs see only the delay. -/
def execLinkBeatCrcFail (p peer : Nat) (_noSlot : Bool) (s : State) : Host.Outcome State Fault Refusal :=
  .next (s.modLink p peer fun x => { x with replays := x.replays + 1 })

/-- AUDIT_BEAT (R423): on a link of version 1.1 or above the sender's window becomes F − ((S − R) mod 2^16); a change counts a repair. -/
def execAuditBeat (p peer : Nat) (free received : BitVec 16) (s : State) : Host.Outcome State Fault Refusal :=
  .next (
    let x := s.link p peer
    if x.ver.toNat < 0x0101 then s
    else
      let w := free.toNat - (x.sent - received).toNat
      s.modLink p peer fun x => { x with window := w, repairs := if w = x.window then x.repairs else x.repairs + 1 })

/-! ## Security (R424, R425) -/

/-- SECURITY_TRIGGER (R424, R425): the alarm register's bit, a record in every cluster, and for triggers 1 to 3 the keys' erasure. -/
def execSecurityTrigger (s : State) : Host.Outcome State Fault Refusal :=
  .next (
    let p := s.site.core.pkg
    let n := s.site.n
    if n = 0 ∨ 7 < n then s
    else
      let s := s.modPkg p fun x => { x with alarm := x.alarm ||| BitVec.ofNat 8 (2 ^ n), keys := x.keys && decide (3 < n) }
      s.boardPkg p 3 [BitVec.ofNat 64 (putBits 0x04 56 + n), 0, 0, s.timeWord p 0])

/-- ATTESTATION_REQUEST (R425): refused once the keys have been erased. -/
def execAttestationRequest (s : State) : Host.Outcome State Fault Refusal :=
  .next (s.modPkg s.site.core.pkg fun x => { x with attest := x.attest ++ [x.keys] })

end Sys2Proof.Machine
end

