-- ==== Sys2Proof/Machine/Loader.lean ====
section
/-! DEFINITION. The loader: an image in package memory is read whole, checked whole, and accepted or refused (R99 to R102, R448). -/

namespace Sys2Proof.Machine

open Sys2Proof

/-! ## Reading (R99 to R101) -/

/-- A field of n bytes at an offset of the image that stands at a physical address. -/
def State.img (s : State) (p pa off n : Nat) : Nat := leNat (s.peek ⟨p, 0⟩ (pa + off) n)

/-- A section entry: type, argument, size, offset (R100). -/
structure Sect where
  typ  : Nat
  arg  : Nat
  size : Nat
  off  : Nat

/-- The core that a block word names, in image coordinates (R101). -/
def blockCore (w : Nat) : CoreId := ⟨bitsOf w 45 40, bitsOf w 39 38, bitsOf w 37 35, bitsOf w 34 27⟩

/-- A block word that keeps R101: its core, first node and count. -/
def blockWord (w : Nat) : Option (CoreId × Nat × Nat) :=
  let n := bitsOf w 26 14
  let first := bitsOf w 13 2
  if bitsOf w 63 46 = 0 ∧ w % 4 = 0 ∧ 1 ≤ n ∧ n ≤ 4096 ∧ first + n ≤ 4096 ∧ (blockCore w).core < 194 then some (blockCore w, first, n)
  else none

/-- The core blocks of a records section. -/
def State.imgBlocks (s : State) (p pa fin sect : Nat) : Nat → Nat → Option (List Block)
  | 0, _ => none
  | k + 1, off =>
    if off = fin then some []
    else if fin < off + 8 then none
    else match blockWord (s.img p pa off 8) with
      | none => none
      | some (c, first, n) =>
        if fin < off + 8 + 12 * n then none
        else
          let recs := (List.range n).map fun i => BitVec.ofNat 96 (s.img p pa (off + 8 + 12 * i) 12)
          (State.imgBlocks s p pa fin sect k (off + 8 + 12 * n)).map fun t => ⟨c, first, recs, sect⟩ :: t

/-- A window section: number, declared size, initial words. -/
def State.imgWindow (s : State) (p pa : Nat) (x : Sect) : Option (Nat × (Nat × List Word)) :=
  let size := s.img p pa x.off 8
  let n := (x.size - 8) / 8
  if x.arg < 8 ∧ 8 ≤ x.size ∧ x.size % 8 = 0 ∧ 1 ≤ size ∧ size ≤ 2 ^ 17 ∧ n ≤ size then
    some (x.arg, (size, (List.range n).map fun i => BitVec.ofNat 64 (s.img p pa (x.off + 8 + 8 * i) 8)))
  else none

/-- A far-table section: 64 entries for each core after its coordinate word, which is laid out as the block word of R101 with COUNT and
FIRST zero (DESIGN CHOICE, log 100). -/
def State.imgFars (s : State) (p pa : Nat) (x : Sect) : Option (List (CoreId × List Word)) :=
  if x.size % 520 ≠ 0 then none
  else (List.range (x.size / 520)).mapM fun j =>
    let o := x.off + 520 * j
    let w := s.img p pa o 8
    if bitsOf w 63 46 = 0 ∧ w % 2 ^ 27 = 0 ∧ (blockCore w).core < 194 then
      some (blockCore w, (List.range 64).map fun i => BitVec.ofNat 64 (s.img p pa (o + 8 + 8 * i) 8))
    else none

/-- A stream-declaration section: cluster, port, destination (R100). -/
def State.imgStreams (s : State) (p pa : Nat) (x : Sect) : Option (List (CoreId × (Nat × BitVec 24))) :=
  if x.size % 16 ≠ 0 then none
  else (List.range (x.size / 16)).mapM fun j =>
    let w := s.img p pa (x.off + 16 * j) 8
    let k := s.img p pa (x.off + 16 * j + 8) 8
    let dst : BitVec 24 := BitVec.ofNat 24 (bitsOf w 55 32)
    if w % 256 < 32 ∧ bitsOf w 15 8 = 0 ∧ bitsOf w 63 56 = 0 ∧ destClass dst = 2 ∧ destCanonical dst ∧ bitsOf k 63 46 = 0
        ∧ k % 2 ^ 35 = 0 then
      some (blockCore k, (w % 256, dst))
    else none

/-- A shard-class section (R98, R100): positions, head dimension, type, whose keys and values fit a page. -/
def State.imgClasses (s : State) (p pa : Nat) (x : Sect) : Option (List (Nat × Nat × Nat)) :=
  if x.size % 16 ≠ 0 then none
  else (List.range (x.size / 16)).mapM fun j =>
    let a := s.img p pa (x.off + 16 * j) 8
    let b := s.img p pa (x.off + 16 * j + 8) 8
    let pos := a % 65536
    let dim := bitsOf a 31 16
    let typ := bitsOf a 39 32
    let sz := if typ = 10 then 2 else 1
    if 16 ≤ pos ∧ pos ≤ 192 ∧ 1 ≤ dim ∧ dim ≤ 256 ∧ (typ = 10 ∨ typ = 11 ∨ typ = 12) ∧ bitsOf a 63 40 = 0 ∧ bitsOf b 63 16 = 0
        ∧ pos * dim * 2 * sz ≤ 49152 then some (pos, dim, typ)
    else none

/-- A regions section (R100): each region's scope and the records it holds. -/
def State.imgRegions (s : State) (p pa fin : Nat) : Nat → Nat → Option (List (Nat × List (CoreId × Nat × Nat)))
  | 0, _ => none
  | k + 1, off =>
    if off = fin then some []
    else if fin < off + 8 then none
    else
      let w := s.img p pa off 8
      let n := bitsOf w 47 32
      if n = 0 ∨ bitsOf w 31 3 ≠ 0 ∨ 5 < w % 8 ∨ fin < off + 8 + 8 * n then none
      else match (List.range n).mapM fun i => blockWord (s.img p pa (off + 8 + 8 * i) 8) with
        | none => none
        | some bs => (State.imgRegions s p pa fin k (off + 8 + 8 * n)).map fun t => (w % 8, bs) :: t

/-- A chorus map (R100; log 73): a block word for the original core and node range, then offset b in [7:0] and c in [15:8]. -/
def State.imgChoruses (s : State) (p pa : Nat) (x : Sect) : Option (List (CoreId × Nat × Nat × Nat × Nat)) :=
  if x.size % 16 ≠ 0 then none
  else (List.range (x.size / 16)).mapM fun j =>
    match blockWord (s.img p pa (x.off + 16 * j) 8) with
    | none => none
    | some (c, first, n) =>
      let w := s.img p pa (x.off + 16 * j + 8) 8
      if w / 65536 = 0 ∧ w % 256 < 192 ∧ w / 256 < 192 then some (c, w % 256, w / 256, first, n) else none

/-- The section table's entries. -/
def State.imgSects (s : State) (p pa n : Nat) : List Sect :=
  (List.range n).map fun i =>
    let o := 64 + 16 * i
    ⟨s.img p pa o 2, s.img p pa (o + 2) 2, s.img p pa (o + 4) 4, s.img p pa (o + 8) 8⟩

/-- A section entry i of a table of n in an image of a size that keeps R100 and lies apart from those before it. -/
def sectOk (xs : List Sect) (size i : Nat) (x : Sect) : Bool :=
  decide (1 ≤ x.typ) && decide (x.typ ≤ 8) && decide (x.off % 8 = 0) && decide (64 + 16 * xs.length ≤ x.off) && decide (x.off + x.size ≤ size)
    && (decide (x.typ = 2) || decide (x.arg = 0))
    && ((xs.take i).all fun y => decide (x.off + x.size ≤ y.off) || decide (y.off + y.size ≤ x.off))

/-- A tag plan that keeps R30: its declared widths. -/
def planOf? (w : Nat) : Option (List Nat) :=
  let n := bitsOf w 37 35
  let ws := (List.range 7).map fun i => w / 2 ^ (5 * i) % 32
  if w / 2 ^ 38 = 0 ∧ (ws.take n).all (fun x => decide (1 ≤ x) && decide (x ≤ 26)) ∧ (ws.drop n).all (fun x => decide (x = 0))
      ∧ (ws.take n).sum ≤ 52 then some (ws.take n)
  else none

/-- What a reading gives, or a report that names a section. -/
def orReport (why : LoadWhy) (sect : Option Nat) (o : Option α) : Except LoadReport α :=
  match o with
  | some a => .ok a
  | none => .error ⟨why, sect, none, none⟩

/-- The sections of a type read in the order of the table (R100). -/
def readSects (xs : List (Sect × Nat)) (t : Nat) (why : LoadWhy) (f : Sect × Nat → Option α) : Except LoadReport (List α) :=
  (xs.filter fun x => decide (x.1.typ = t)).mapM fun x => orReport why (some x.2) (f x)

/-- A header that keeps R99. -/
def State.imgHeaderOk (s : State) (p pa : Nat) : Bool :=
  let nsect := s.img p pa 6 2
  decide (s.img p pa 0 4 = 0x49444541) && decide (s.img p pa 5 1 = 1) && decide (1 ≤ nsect) && decide (nsect ≤ 4096)
    && decide (s.img p pa 24 4 < 8) && decide (s.img p pa 28 4 = 0) && decide (s.img p pa 40 4 < 2 ^ 24) && decide (s.img p pa 48 16 = 0)
    && s.rangeOk pa (s.img p pa 16 8)

/-- The image that stands at an address, its header and layout kept (R99 to R101), or the first reason to refuse it: the header, the tag
plan, the section table, then each type of section in turn. Two window sections of one number break the layout
(DESIGN CHOICE, log 100). -/
def State.readImage? (s : State) (p pa : Nat) : Except LoadReport Image := do
  let flags := s.img p pa 24 4
  let nsect := s.img p pa 6 2
  let size := s.img p pa 16 8
  if s.imgHeaderOk p pa then
    let plan ← orReport .plan none (planOf? (s.img p pa 32 8))
    let ss := s.imgSects p pa nsect
    let xs := ss.zipIdx
    match xs.find? fun x => !sectOk ss size x.2 x.1 with
    | some x => .error ⟨.sections, some x.2, none, none⟩
    | none =>
      let blocks ← readSects xs 1 .record fun x => s.imgBlocks p pa (x.1.off + x.1.size) x.2 (x.1.size + 1) x.1.off
      let windows ← readSects xs 2 .layout fun x => s.imgWindow p pa x.1
      let fars ← readSects xs 3 .layout fun x => s.imgFars p pa x.1
      let streams ← readSects xs 4 .layout fun x => s.imgStreams p pa x.1
      let classes ← readSects xs 5 .shardClass fun x => s.imgClasses p pa x.1
      let regions ← readSects xs 6 .layout fun x => s.imgRegions p pa (x.1.off + x.1.size) (x.1.size + 1) x.1.off
      let choruses ← readSects xs 7 .layout fun x => s.imgChoruses p pa x.1
      match xs.find? fun x => decide (x.1.typ = 2) && (ss.take x.2).any fun y => decide (y.typ = 2) && decide (y.arg = x.1.arg) with
      | some x => .error ⟨.layout, some x.2, none, none⟩
      | none =>
        let y : Image :=
        { id := BitVec.ofNat 64 (s.img p pa 8 8), pa := pa, stall := flags.testBit 0, spec := flags.testBit 1,
          chorus := flags.testBit 2, plan := plan, pool := s.img p pa 40 4, wings := s.img p pa 44 4, blocks := blocks.flatten,
          windows := windows, fars := fars.flatten, streams := streams.flatten, classes := classes.flatten,
          regions := regions.flatten, choruses := choruses.flatten }
        pure y
  else .error ⟨.header, none, none, none⟩

/-! ## The records and their edges (R84, R102, R448) -/

/-- A record of an image: where it is placed, in image coordinates, and what it is. -/
structure ImgRec where
  core : CoreId
  node : Nat
  word : BitVec 96
  sect : Nat

/-- The records of an image. -/
def Image.records (x : Image) : List ImgRec :=
  x.blocks.flatMap fun b => (List.range b.recs.length).map fun i => ⟨b.at_, b.first + i, b.recs.getD i 0, b.sect⟩

/-- The record that an image places at a node of a core. -/
def Image.at? (x : Image) (c : CoreId) (n : Nat) : Option ImgRec :=
  x.blocks.findSome? fun b =>
    if b.at_ = c ∧ b.first ≤ n ∧ n < b.first + b.recs.length then some ⟨c, n, b.recs.getD (n - b.first) 0, b.sect⟩ else none

/-- Its fields and opcode. -/
def ImgRec.rec_ (x : ImgRec) : Rec := recOfWord x.word
/-- Its opcode. -/
def ImgRec.opc (x : ImgRec) : Nat := (opcOfWord x.word).toNat

/-- A far entry of a core of an image. -/
def Image.far (x : Image) (c : CoreId) (f : Nat) : Nat :=
  match x.fars.find? fun e => decide (e.1 = c) with
  | some e => (e.2.getD f 0).toNat
  | none => 0

/-- The record that a destination names, directly or through a far entry; none for the null destination and for one that names
none (R83, R85). -/
def Image.dest (x : Image) (c : CoreId) (dst : BitVec 24) : Option ImgRec :=
  let n := dst.toNat
  match destClass dst with
  | 0 => none
  | 1 => x.at? c (bitsOf n 13 2)
  | 2 => x.at? { c with core := bitsOf n 21 14 } (bitsOf n 13 2)
  | _ =>
    let e := x.far c (bitsOf n 21 14)
    if e.testBit 63 then x.at? ⟨bitsOf e 52 47, bitsOf e 46 45, bitsOf e 44 42, bitsOf e 41 34⟩ (bitsOf e 33 22) else none

/-- A destination that the loader accepts: null, or a record of the image on an ordinary core or the sender's own (R84, R86). -/
def Image.destOk (x : Image) (c : CoreId) (dst : BitVec 24) : Bool := decide (destClass dst = 0) || (x.dest c dst).isSome

/-- A far entry that the loader accepts: its reserved bits are zero, and a valid one names a record on an ordinary core (R85, R86). -/
def farOk (x : Image) (w : Word) : Bool :=
  let e := w.toNat
  decide (bitsOf e 62 53 = 0) && decide (e % 2 ^ 20 = 0) &&
    if e.testBit 63 then
      decide (bitsOf e 41 34 < 192)
      && (x.at? ⟨bitsOf e 52 47, bitsOf e 46 45, bitsOf e 44 42, bitsOf e 41 34⟩ (bitsOf e 33 22)).isSome
  else true

/-- A record that the loader accepts: a defined opcode in a form of its table, and destinations that name records (R75, R76, R84, R102). -/
def Image.recOk (x : Image) (i : ImgRec) : Bool :=
  match decodeWord i.word with
  | none => false
  | some ins =>
    match ins.form with
    | none => false
    | some f => i.rec_.wf f && x.destOk i.core i.rec_.dstA && x.destOk i.core i.rec_.dstB

/-- A window literal lies within its declared window (R80, R102). -/
def Image.windowOk (x : Image) (i : ImgRec) : Bool :=
  decide (i.rec_.lk.toNat ≠ 2) ||
    (match x.windows.find? fun w => decide (w.1 = (litWindow i.rec_).1) with
      | some w => decide ((litWindow i.rec_).2 < w.2.1)
      | none => false)

/-- A SPECBEG record stands only in an image with `.spec` (R102). -/
def Image.specOk (x : Image) (i : ImgRec) : Bool := decide (i.opc ≠ 0xA9) || x.spec

/-- The destinations that a RET's return table holds for a field of w bits, as far as the image holds them (R161, R448). -/
def Image.returns (x : Image) (r : Rec) (w : Nat) : List (BitVec 24) :=
  match x.windows.find? fun v => decide (v.1 = (litWindow r).1) with
  | some v => (((v.2.2.drop (litWindow r).2).take (2 ^ w)).filter fun y => decide (y.toNat < 2 ^ 24)).map fun y => BitVec.ofNat 24 y.toNat
  | none => []

/-- A place in the trace: a record and a depth. -/
structure Traced where
  core  : CoreId
  node  : Nat
  depth : Nat
deriving DecidableEq

/-- The depth at which a record sends, by its tag operation (R448); none for TAGSET and for what starts a colour. -/
def sendDepth (opc tag d : Nat) : Option Nat :=
  if opc = 0x0D then none
  else match tag with
    | 2 => if d < 7 then some (d + 1) else none
    | 3 => if 0 < d then some (d - 1) else none
    | 4 => none
    | _ => some d

/-- Where a traced record sends. -/
def Image.follow (x : Image) (t : Traced) : List Traced :=
  match x.at? t.core t.node with
  | none => []
  | some i =>
    let r := i.rec_
    match sendDepth i.opc r.tag.toNat t.depth with
    | none => []
    | some d =>
      let ds := if i.opc = 0x0B then x.returns r (levelWidth x.plan t.depth) else [r.dstA, r.dstB]
      ds.filterMap fun dst => (x.dest i.core dst).map fun j => ⟨j.core, j.node, d⟩

/-- Where the trace starts (R448). -/
def Image.seeds (x : Image) : List Traced :=
  (x.records.filter fun i => decide (i.rec_.tag.toNat = 4)).flatMap fun i =>
    (if i.opc = 0x0A ∨ i.opc = 0x0E ∨ i.opc = 0xA9 then [i.rec_.dstA] else [i.rec_.dstA, i.rec_.dstB]).filterMap fun dst =>
      (x.dest i.core dst).map fun j => ⟨j.core, j.node, 0⟩

/-- The trace, until no record gains a depth. -/
def Image.trace (x : Image) : Nat → List Traced → List Traced
  | 0, acc => acc
  | k + 1, acc =>
    let more := ((acc.flatMap x.follow).dedup).filter fun t => decide (t ∉ acc)
    if more.isEmpty then acc else Image.trace x k (acc ++ more)

/-- A traced record at a depth that the loader accepts (R448); ITER, LOOPOUT and LOOPCR pop to name their gate (R158). -/
def Image.depthOk (x : Image) (t : Traced) : Bool :=
  match x.at? t.core t.node with
  | none => true
  | some i =>
    let r := i.rec_
    let tag := r.tag.toNat
    (decide (tag ≠ 2) || (decide (t.depth < 7) && decide (t.depth < x.plan.length)))
      && (!(decide (tag ∈ [1, 3, 5, 6]) || decide (i.opc ∈ [0x07, 0x08, 0x09])) || decide (0 < t.depth) || decide (i.opc = 0x0B))

/-- A traced gate whose k fits the level that it pushes (R34, R448). -/
def Image.gateDepthOk (x : Image) (t : Traced) : Bool :=
  match x.at? t.core t.node with
  | none => true
  | some i => decide (i.opc ≠ 0x06) || decide (i.rec_.lit.toNat ≤ 2 ^ levelWidth x.plan (t.depth + 1))

/-- A push in an image whose plan declares no level is refused whatever the trace finds (R448). -/
def Image.depthsOk (x : Image) (i : ImgRec) : Bool := decide (i.rec_.tag.toNat ≠ 2) || !x.plan.isEmpty

/-- A gate whose k fits some declared level, whatever the trace finds (R34, R448). -/
def Image.gateOk (x : Image) (i : ImgRec) : Bool :=
  decide (i.opc ≠ 0x06) || x.plan.any fun w => decide (i.rec_.lit.toNat ≤ 2 ^ w)

/-- A record of a chorus: the original's cores and node range. -/
def inChorus (m : CoreId × Nat × Nat × Nat × Nat) (c : CoreId) (n : Nat) : Bool :=
  let (o, b, k, first, cnt) := m
  decide (c = o ∨ c = { o with core := (o.core + b) % 192 } ∨ c = { o with core := (o.core + k) % 192 })
    && decide (first ≤ n) && decide (n < first + cnt)

/-- A chorus sends outside itself only from VOTE records (R97, R102). -/
def Image.chorusOk (x : Image) (i : ImgRec) : Bool :=
  x.choruses.all fun m =>
    !(inChorus m i.core i.node) || decide (i.opc = 0x14) ||
      ([i.rec_.dstA, i.rec_.dstB].all fun dst => match x.dest i.core dst with
        | some j => inChorus m j.core j.node
        | none => true)

/-- A record of a region. -/
def inRegion (g : Nat × List (CoreId × Nat × Nat)) (c : CoreId) (n : Nat) : Bool :=
  g.2.any fun b => decide (b.1 = c) && decide (b.2.1 ≤ n) && decide (n < b.2.1 + b.2.2)

/-- The region that holds a record. -/
def Image.regionOf (x : Image) (c : CoreId) (n : Nat) : Option (Nat × List (CoreId × Nat × Nat)) :=
  x.regions.find? fun g => inRegion g c n

/-- A core of a region. -/
def regionCore (g : Nat × List (CoreId × Nat × Nat)) : CoreId := (g.2.map (·.1)).headD ⟨0, 0, 0, 0⟩

/-- One region's instance lies within another's, in image coordinates (R350). -/
def includes (a b : Nat × List (CoreId × Nat × Nat)) : Bool := decide (b.1 ≤ a.1) && covers a.1 (regionCore a) (regionCore b)

/-- A BNDRY of a scope on a core may cover a region: two image clusters are never one cluster, and how far apart clusters are placed
the loader cannot know (R171, R350). -/
def mayCover (sc : Nat) (c : CoreId) (g : Nat × List (CoreId × Nat × Nat)) : Bool :=
  decide (g.1 ≤ sc) && (decide (3 ≤ sc) || covers sc c (regionCore g))

/-- The destinations of a record's edges: its own two, and those in its return table at each depth that the trace gives a RET
(R448; log 100). -/
def Image.edges (x : Image) (tr : List Traced) (i : ImgRec) : List (BitVec 24) :=
  [i.rec_.dstA, i.rec_.dstB] ++
    (if i.opc = 0x0B then
      (tr.filter fun t => decide (t.core = i.core) && decide (t.node = i.node) && decide (0 < t.depth)).flatMap fun t =>
        x.returns i.rec_ (levelWidth x.plan t.depth)
     else [])

/-- An edge between two regions, neither of which includes the other, leaves its own region through a BNDRY record, and a BNDRY covers
both regions that its edge joins (R102, R171, R350). -/
def Image.edgeOk (x : Image) (tr : List Traced) (i : ImgRec) : Bool :=
  match x.regionOf i.core i.node with
  | none => true
  | some a => (x.edges tr i).all fun dst =>
    match x.dest i.core dst with
    | none => true
    | some j =>
      match x.regionOf j.core j.node with
      | none => true
      | some b =>
        decide (a = b) ||
          (if i.opc = 0x13 then mayCover (i.rec_.sub.toNat / 8) i.core a && mayCover (i.rec_.sub.toNat / 8) i.core b
           else includes a b || includes b a)

/-- The gate node of ITER, LOOPOUT or LOOPCR is a LOOPIN of its core (R158). -/
def Image.loopOk (x : Image) (i : ImgRec) : Bool :=
  decide (i.opc ≠ 0x07 ∧ i.opc ≠ 0x08 ∧ i.opc ≠ 0x09) ||
    (match x.at? i.core i.rec_.lit.toNat with
     | some j => decide (j.opc = 0x06)
     | none => false)

/-- The records that may name a wave annotation (R228). -/
def ordered (opc : Nat) : Bool := decide (opc ∈ ([0x80, 0x81, 0x82, 0x83, 0x84, 0x85, 0x86, 0x90] : List Nat))

/-- The annotation word that an ordered record names is valid, where the image's window sections hold it (R231). -/
def Image.annotationOk (x : Image) (i : ImgRec) : Bool :=
  !(ordered i.opc && decide (i.rec_.lk.toNat = 2)) ||
    (match x.windows.find? fun w => decide (w.1 = (litWindow i.rec_).1) with
     | some w => (match w.2.2[(litWindow i.rec_).2]? with
       | some y => waveOk y.toNat
       | none => true)
     | none => true)

/-- The first block that gives a node that a block before it gives (R102). -/
def Image.twice (x : Image) : Option (Block × Nat) :=
  x.blocks.zipIdx.find? fun y => (x.blocks.take y.2).any fun a =>
    decide (a.at_ = y.1.at_) && decide (y.1.first < a.first + a.recs.length) && decide (a.first < y.1.first + y.1.recs.length)

/-- The first far-table entry that the loader refuses, and a far table given twice (R85). -/
def Image.farBad (x : Image) : Option CoreId :=
  (x.fars.zipIdx.find? fun e => !(e.1.2.all (farOk x)) || ((x.fars.take e.2).any fun y => decide (y.1 = e.1.1))).map (·.1.1)

/-- The report of the first record that fails a check. -/
def Image.badRec (x : Image) (why : LoadWhy) (ok : ImgRec → Bool) : Option LoadReport :=
  (x.records.find? fun i => !ok i).map fun i => ⟨why, some i.sect, some i.core, some i.node⟩

/-- The first reason for which the loader refuses an image that reads well, in the order of R102's table (R102, R231, R448; log 100). -/
def Image.refusal (x : Image) : Option LoadReport :=
  let tr := x.trace (8 * x.records.length + 1) x.seeds.dedup
  let loops (i : ImgRec) : Bool := x.recOk i && x.loopOk i
  let depths (i : ImgRec) : Bool :=
    x.depthsOk i && tr.all fun t => !(decide (t.core = i.core) && decide (t.node = i.node)) || x.depthOk t
  let gates (i : ImgRec) : Bool :=
    x.gateOk i && tr.all fun t => !(decide (t.core = i.core) && decide (t.node = i.node)) || x.gateDepthOk t
  [x.badRec .record loops, x.twice.map fun y => ⟨.record, some y.1.sect, some y.1.at_, some y.1.first⟩,
    x.farBad.map fun c => ⟨.record, none, some c, none⟩, x.badRec .depth depths, x.badRec .gate gates, x.badRec .window x.windowOk,
    x.badRec .spec x.specOk, x.badRec .chorus x.chorusOk, x.badRec .edge (x.edgeOk tr), x.badRec .wave x.annotationOk].findSome? fun y => y

/-- An image that the loader accepts (R102, R448). -/
def Image.ok (x : Image) : Bool := x.refusal.isNone

/-- What the loader finds at an address: an image that it accepts, or the first reason to refuse it. -/
def State.judgeImage (s : State) (p pa : Nat) : Except LoadReport Image :=
  match s.readImage? p pa with
  | .error e => .error e
  | .ok x =>
    match x.refusal with
    | some e => .error e
    | none => .ok x

/-- The loader: an image is accepted whole, in the place of an accepted one of the same IMAGEID (DESIGN CHOICE, log 100), or nothing of it
is and the reason is reported (R102). -/
def State.load (s : State) (p pa : Nat) : State :=
  match s.judgeImage p pa with
  | .ok x => s.modPkg p fun k => { k with images := k.images.filter (fun y => decide (y.id ≠ x.id)) ++ [x], report := none }
  | .error e => s.modPkg p fun k => { k with report := some e }

/-- An image accepted on a package (R102, R110). -/
def State.imageOf (s : State) (p : Nat) (id : Word) : Option Image := (s.pkg p).images.find? fun x => decide (x.id = id)

end Sys2Proof.Machine
end

