-- ==== Sys2Proof/Machine/Boot.lean ====
section
/-! DEFINITION. Start-up, links, the host adapter, the management port's registers (R103 to R108, R205, R208, R211, R261, R360, R435),
and the system instructions that use no dispatcher (R189 to R194, R197, R198). -/

namespace Sys2Proof.Machine

open Sys2Proof

/-! ## Start-up (R103, R104) -/

/-- The stages of R103. -/
def stRom : BitVec 4 := 0x1
/-- Test. -/
def stTest : BitVec 4 := 0x2
/-- Map. -/
def stMap : BitVec 4 := 0x3
/-- Runtime. -/
def stRuntime : BitVec 4 := 0x4
/-- Ready. -/
def stReady : BitVec 4 := 0x5
/-- Recovery. -/
def stRecovery : BitVec 4 := 0xE

/-- A package fails into Recovery (R103, R104); a signature or digest failure is a security trigger too (R424). -/
def State.bootFail (s : State) (p : Nat) (reason : BitVec 8) : State :=
  let s := s.modPkg p fun x => { x with stage := stRecovery, reason := reason }
  if reason = 1 ∨ reason = 2 then s.laterAt .securityTrigger (pkgCore p) 5 else s

/-- A thing on the agenda that concerns a package. -/
def concerns (p : Nat) : Item → Bool
  | .event i x => decide (x.core.pkg = p) || i.parties.any fun c => decide (c.pkg = p)
  | .issue c => decide (c.pkg = p)

/-- POWER_ON_RESET (R103): the package starts again at stage ROM, its links down, all its work gone and every count at zero; erased keys
stay erased (R425), and the serial flash keeps its bytes. Memory keeps its bytes (log 74). Coherence messages about other packages'
lines run their course; its dies hold none. -/
def execPowerOnReset (s : State) : Host.Outcome State Fault Refusal :=
  .next (
    let p := s.site.core.pkg
    let keys := (s.pkg p).keys
    let flash := (s.pkg p).flash
    let acts := s.acts.filter fun a => decide (a.2.ctl.pkg ≠ p)
    let s := s.cutLinks p
    let dies := s.dies.filter fun (d : DieId × Die) => decide (d.1.pkg ≠ p)
    let s := { s with
      agenda := s.agenda.filter fun it =>
        match s.dropsLine it with
        | some l => !homedIn p l
        | none => !(concerns p it)
      timers := s.timers.filter fun t => !(concerns p (.event t.instr t.site))
      cores := s.cores.filter fun c => decide (c.1.pkg ≠ p)
      clusters := s.clusters.filter fun c => decide (c.1.pkg ≠ p)
      dies := dies.map fun (d : DieId × Die) => (d.1, { d.2 with lines := d.2.lines.filter fun y => !homedIn p y.line })
      exported := s.exported.filter fun l => !homedIn p l
      acts := acts
      qtoks := s.qtoks.filter fun q => decide (q.at_.pkg ≠ p) && acts.any fun a => decide (a.1 = q.act)
      packages := s.packages.map fun (x : Nat × Package) =>
        (x.1, { x.2 with acting := x.2.acting.filter fun h => decide (h ≠ p)
                         dir := x.2.dir.filter fun e => !homedIn p e.line
                         mirror := x.2.mirror.filter fun e => !homedIn p e.line }) }
    s.setPkg p
      { Package.reset with stage := stRom, resetAt := s.now, keys := keys, flash := flash,
                           islands := List.replicate 40 { Island.reset with since := s.now } })

/-- BOOT_TEST (R103): the ROM verifies the first-stage firmware, which trains and tests, and selects rebuild mode (R14). -/
def execBootTest (p : Nat) (sigOk hbmOk sliceOk rebuild : Bool) (s : State) : Host.Outcome State Fault Refusal :=
  .next (
    if (s.pkg p).stage ≠ stRom then s
    else if !sigOk then s.bootFail p 1
    else if !hbmOk then s.bootFail p 3
    else if !sliceOk then s.bootFail p 4
    else s.modPkg p fun x => { x with stage := stTest, rebuild := rebuild })

/-- BOOT_MAP (R103): slice ranges bound, the directory map, with the map generation in its header, and table bases loaded, the prompters'
routines loaded, those whose bits the event's number has set (R198; log 9), links trained; the refresh of allowances and the recall windows begin (R125, R360). -/
def execBootMap (p : Nat) (linksOk : Bool) (gran ptbase shardbase dirmap : Nat) (s : State) : Host.Outcome State Fault Refusal :=
  .next (
    if (s.pkg p).stage ≠ stTest then s
    else if !linksOk then s.bootFail p 5
    else
      let s := (diesOf p).foldl (fun s d => s.modDie d fun x => { x with gran := gran % 2 }) s
      let s := s.modPkg p fun x =>
        { x with stage := stMap, ptbase := ptbase % 2 ^ 52, shardbase := shardbase % 2 ^ 52, dirmap := dirmap % 2 ^ 52,
                 routines := (List.range 256).filter s.site.n.testBit }
      let s := s.modPkg p fun x => { x with podgen := BitVec.ofNat 16 (s.dirMapWord p 1) }
      (s.at_ (s.now + 10000) .allowanceRefresh ⟨pkgCore p, 0, 0, false⟩).at_ (s.now + 100000) .recallWindow ⟨pkgCore p, 0, 0, false⟩)

/-- BOOT_RUNTIME (R103): stage Runtime begins; then the control cores' runtime image is verified and installed, it reserves its task-graph
storage from the event's first number on, as many 8-byte words for each of the package's 64 control cores as its second says (R118; log 70),
and the launch inboxes accept messages. -/
def execBootRuntime (p : Nat) (sigOk digestOk : Bool) (s : State) : Host.Outcome State Fault Refusal :=
  .next (
    if (s.pkg p).stage = stMap then
      (s.modPkg p fun x => { x with stage := stRuntime }).laterAt (.bootRuntime p sigOk digestOk) s.site.core s.site.n s.site.m
    else if (s.pkg p).stage ≠ stRuntime then s
    else if !sigOk then s.bootFail p 1
    else if !digestOk then s.bootFail p 2
    else
      let at_ := (s.site.n + 63) / 64 * 64
      let len := if s.rangeOk at_ (512 * s.site.m) then s.site.m else 0
      s.modPkg p fun x => { x with stage := stReady, storeAt := at_, storeLen := len })

/-- `DEV.BOOT` (R104). -/
def State.devBoot (s : State) (p : Nat) : Nat :=
  let x := s.pkg p
  putBits x.stage.toNat 28 + putBits (b2n x.rebuild) 27 + putBits x.reason.toNat 16 + Config.fwVersion.toNat

/-! ## Links (R105, R107) -/

/-- The highest version that lies in both ranges; 0 where none does (R107). -/
def commonVersion (lo hi : BitVec 16) : BitVec 16 :=
  (([0x0200, 0x0101, 0x0100] : List (BitVec 16)).find? fun v =>
    decide (lo ≤ v) && decide (v ≤ hi) && decide (Config.versions.1 ≤ v.toNat) && decide (v.toNat ≤ Config.versions.2)).getD 0

/-- A package's stage lets its links train: from stage Map on, and in Recovery the host link alone (R103). -/
def State.trains (s : State) (p peer : Nat) : Bool :=
  decide ((s.pkg p).stage ∈ [stMap, stRuntime, stReady]) || (decide ((s.pkg p).stage = stRecovery) && decide (peer = hostLink))

/-- LINK_TRAINING (R103, R105, R107): a link trains at the highest common version on 8 lanes, or 4, or stays down; the host link's failure
on both sets of lanes is REASON 0x05. -/
def execLinkTraining (p peer : Nat) (lo hi : BitVec 16) (lowLanes highLanes : Bool) (s : State) : Host.Outcome State Fault Refusal :=
  .next (
    let lanes := if lowLanes && highLanes then 8 else if lowLanes || highLanes then 4 else 0
    let v := if lanes = 0 then 0 else commonVersion lo hi
    let set_ (x : LinkSt) : LinkSt := { x with ver := v, lanes := if v = 0 then 0 else lanes, retired := false, closing := false }
    if !s.trains p peer then s
    else if peer = hostLink then
      let s := s.modLink p peer set_
      if lanes = 0 then s.bootFail p 5 else s
    else if peer < s.podSize ∧ peer ≠ p ∧ s.trains peer p then (s.modLink p peer set_).modLink peer p set_
    else s)

/-! ## The host adapter and the management port (R103, R104, R106, R208, R435; log 103) -/

/-- What the adapter returns to the host. -/
def State.hostReply (s : State) (r : HostReply) : State := { s with hostOut := s.hostOut ++ [r] }

/-- A host access that ends with an error status: an address that names nothing, a package that no link reaches, a home that a failed
directory has lost (R107, R203, R376). -/
def State.hostBad (s : State) (p pa n : Nat) (write : Bool) : Bool :=
  !s.rangeOk pa n || !s.routed p (dieOfPa pa).pkg
    || (s.isHbm pa && (rangeLines pa n).any fun x => s.unreachable (dieOfPa pa) x.1 write)

/-- The host's access served by the slices of the home die, as a home die's own (R208, R362): whether it is done, and the state. The loader
waits until every host write before it is visible (R106). -/
def State.hostServe (s : State) (p : Nat) (op : HostOp) : Bool × State :=
  match op with
  | .read pa n =>
    if s.hostBad p pa n false then (true, s.hostReply .error)
    else match s.drawRuns (dieOfPa pa) (.host p 0) [⟨0, some pa, n, false⟩] with
      | (some bs, s) => (true, s.hostReply (.data (bs.map Prod.fst) (bs.any Prod.snd)))
      | (none, s) => (false, s)
  | .write pa bs =>
    if s.hostBad p pa bs.length true then (true, s.hostReply .error)
    else match s.writeReady (dieOfPa pa) false pa bs.length with
      | (true, s) =>
        let ls := if s.isHbm pa then (rangeLines pa bs.length).map Prod.fst else []
        let s := (s.sysWrite (dieOfPa pa) pa bs).modPkg p fun x => { x with hostLines := x.hostLines ++ ls }
        let s := s.modPkg p fun x =>
          { x with hostLines := x.hostLines.filter fun l => ((s.die (homeDie l)).line? l).any fun y => !y.pend.isEmpty }
        (true, s.hostReply .done)
      | (false, s) => (false, s)
  | .load pa => if s.hostApplied p then (true, s.load p pa) else (false, s)
  | _ => (true, s)

/-- The adapter goes on with the oldest access that it holds; those that it holds when the link is down or the package fails are lost. -/
def State.hostNext (s : State) (p : Nat) : State :=
  let again (s : State) : State := s.later (.hostAccess p .next)
  if (s.pkg p).stage = stRecovery ∨ (s.link p hostLink).ver = 0 then s.modPkg p fun x => { x with hostQ := [] }
  else match (s.pkg p).hostQ with
    | [] => s
    | op :: rest =>
      match s.hostServe p op with
      | (true, s) =>
        let s := s.modPkg p fun x => { x with hostQ := rest }
        if rest.isEmpty then s else again s
      | (false, s) => again s

/-- HOST_ACCESS (R102 to R104, R106, R203, R208): the adapter takes an access and serves what it holds in arrival order. A read of
`DEV.BOOT` and a firmware write to the flash are served in every stage, in Recovery nothing else; with the host link down nothing is. -/
def execHostAccess (p : Nat) (op : HostOp) (s : State) : Host.Outcome State Fault Refusal :=
  .next (
    match op with
    | .next => s.hostNext p
    | _ =>
      if (s.link p hostLink).ver = 0 then s
      else match op with
        | .devBoot => s.hostReply (.data (leBytes 4 (s.devBoot p)) false)
        | .flash off bs => (s.modPkg p fun x => { x with flash := x.flash.putN off bs }).hostReply .done
        | op =>
          if (s.pkg p).stage = stRecovery then s
          else
            let idle := (s.pkg p).hostQ.isEmpty
            let s := s.modPkg p fun x => { x with hostQ := x.hostQ ++ [op] }
            if idle then s.later (.hostAccess p .next) else s)

/-- REGISTER_WRITE (R205, R211, R261, R360, R435): firmware writes a register at the management port. The slice map is chosen at stage Map,
before a slice holds a line, and holds until reset. -/
def execRegisterWrite (p : Nat) (reg : MgmtReg) (v : Nat) (s : State) : Host.Outcome State Fault Refusal :=
  .next (
    match reg with
    | .ptbase => s.modPkg p fun x => { x with ptbase := v % 2 ^ 52 }
    | .shardbase => s.modPkg p fun x => { x with shardbase := v % 2 ^ 52 }
    | .dirmap => s.modPkg p fun x => { x with dirmap := v % 2 ^ 52 }
    | .slicemap d =>
      if (s.pkg p).stage = stMap ∧ (s.die ⟨p, d % 4⟩).lines.isEmpty then s.modDie ⟨p, d % 4⟩ fun x => { x with gran := v % 2 } else s
    | .islCounter i k =>
      if v ≠ 0 then s
      else s.modIsland p i fun x =>
        match k with
        | 0 => { x with energy := 0 }
        | 1 => { x with abandon := 0 }
        | 2 => { x with drowsy := 0 }
        | 3 => { x with changes := 0 }
        | 4 => { x with tmax := 0 }
        | 5 => { x with retired := 0 }
        | _ => { x with purged := 0 })

/-! ## TRAP and BRK (R190) -/

/-- TRAP raises its fault with $0 and the code (R190, R402). -/
def execTrap (r : Rec) (s : State) : Host.Outcome State Fault Refusal :=
  fire Forms.trap r s fun _ s => do
    s.scalars r
    .error { cause := .trap, info := s.cur.op0.val, aux := r.lit.toNat }

/-- BRK raises its fault with $0 (R190, R402). -/
def execBrk (r : Rec) (s : State) : Host.Outcome State Fault Refusal :=
  fire Forms.brk r s fun _ s => do
    s.scalars r
    .error { cause := .break_, info := s.cur.op0.val }

/-! ## System registers (R191, R192) -/

/-- `CORE.ID` (R192). -/
def coreIdWord (c : CoreId) : Word :=
  BitVec.ofNat 64
    (putBits (b2n c.isCtl) 19 + putBits (c.pkg % 64) 13 + putBits (c.die % 4) 11 + putBits (c.clu % 8) 8 + coreField c % 256)

/-- Word i of a 512-bit mask. -/
def maskWord (m : BitVec 512) (i : Nat) : Word := m.extractLsb' (64 * i) 64
/-- A mask with word i replaced. -/
def setMaskWord (m : BitVec 512) (i : Nat) (w : Word) : BitVec 512 :=
  (m &&& ~~~((0xFFFFFFFFFFFFFFFF#512) <<< (64 * i))) ||| ((w.setWidth 512) <<< (64 * i))

/-- A register of R191 as SYSRD sends it; none for an index outside the table. -/
def State.sysReg (s : State) (i : Nat) : Option Word :=
  let k := s.core s.cur.core
  let a := s.curAct
  if i = 0x000 then some (coreIdWord s.cur.core)
  else if i = 0x001 then some k.phase
  else if 0x002 ≤ i ∧ i ≤ 0x009 then some (maskWord k.phmask0 (i - 2))
  else if 0x00A ≤ i ∧ i ≤ 0x011 then some (maskWord k.phmask1 (i - 10))
  else if i = 0x012 then some k.wingCfg
  else if i = 0x020 then some (k.spill.setWidth 64)
  else if i = 0x021 then some (k.probe.setWidth 64)
  else if i = 0x022 then some (k.backlog.setWidth 64)
  else if i = 0x023 then some ((s.holdCount s.cur.core).setWidth 64)
  else if i = 0x024 then some (k.dup.setWidth 64)
  else if i = 0x025 then some (k.nulls.setWidth 64)
  else if i = 0x026 then some k.vstat
  else if i = 0x040 then some (a.ctrl.setWidth 64)
  else if i = 0x041 then some (a.flags.setWidth 64)
  else if i = 0x042 then some a.rng
  else if i = 0x043 then some ((colourOf s.cur.tag).setWidth 64)
  else if i = 0x080 then some (BitVec.ofNat 64 (s.devBoot s.cur.core.pkg))
  else none

/-- SYSRD sends a register (R191). -/
def execSysrd (r : Rec) (s : State) : Host.Outcome State Fault Refusal :=
  fire Forms.sysrd r s fun t s => do
    s.scalars r
    match s.sysReg r.lit.toNat with
    | some v => .ok (s.out r t (plainOp v))
    | none => .error { cause := .illegalRecord }

/-- A register written (R65, R66, R191); ILLEGAL_RECORD for a read-only one, an index outside the table and a rounding code 6 or 7. A
write that may let firings of the backlog in is followed by a refill (R150). Step 6 of R92 has judged the privilege. -/
def State.setSysReg (s : State) (i : Nat) (v : Word) : Eff :=
  let c := s.cur.core
  let k := s.core c
  if i = 0x001 then .ok ((s.setCore c { k with phase := v &&& 3 }).laterAt .backlogRefill c 0)
  else if 0x002 ≤ i ∧ i ≤ 0x009 then
    .ok ((s.setCore c { k with phmask0 := setMaskWord k.phmask0 (i - 2) v }).laterAt .backlogRefill c 0)
  else if 0x00A ≤ i ∧ i ≤ 0x011 then
    .ok ((s.setCore c { k with phmask1 := setMaskWord k.phmask1 (i - 10) v }).laterAt .backlogRefill c 0)
  else if i = 0x012 then .ok (s.setCore c { k with wingCfg := v &&& 0x7FFFFFFFFFFFFFFF })
  else if i = 0x020 then .ok (s.setCore c { k with spill := 0 })
  else if i = 0x021 then .ok (s.setCore c { k with probe := 0 })
  else if i = 0x022 then .ok (s.setCore c { k with backlog := 0 })
  else if i = 0x023 then .ok (s.setCore c { k with hold := 0, holdAt := k.holdAt.map fun x => (x.1, s.coreCycles c) })
  else if i = 0x024 then .ok (s.setCore c { k with dup := 0 })
  else if i = 0x025 then .ok (s.setCore c { k with nulls := 0 })
  else if i = 0x026 then .ok (s.setCore c { k with vstat := 0 })
  else if i = 0x040 then
    if 6 ≤ v.toNat % 8 then .error { cause := .illegalRecord }
    else .ok (s.modCurAct fun a => { a with ctrl := v.setWidth 32 &&& 0x107 })
  else if i = 0x041 then .ok (s.modCurAct fun a => { a with flags := v.setWidth 32 &&& 0x3FF })
  else if i = 0x042 then .ok (s.modCurAct fun a => { a with rng := v })
  else .error { cause := .illegalRecord }

/-- SYSWR writes a register and sends $0 (R191). -/
def execSyswr (r : Rec) (s : State) : Host.Outcome State Fault Refusal :=
  fire Forms.syswr r s fun t s => do
    s.scalars r
    let s ← s.setSysReg r.lit.toNat s.cur.op0.val
    .ok (s.out r t (plainOp s.cur.op0.val))

/-- TIME sends package time, or the cycles of the core's island while it was not gated (R197). -/
def execTime (r : Rec) (s : State) : Host.Outcome State Fault Refusal :=
  fire Forms.time r s fun t s => do
    s.scalars r
    let c := s.cur.core
    let v := if r.sub.toNat = 0 then s.time c.pkg else s.ownCycles c
    .ok (s.out r t (plainOp (BitVec.ofNat 64 v)))

/-! ## EVGET and LAUNCH (R193, R194) -/

/-- EVGET moves the oldest record of a callboard queue into the scratchpad (R193). -/
def execEvget (r : Rec) (s : State) : Host.Outcome State Fault Refusal :=
  fire Forms.evget r s fun t s => do
    s.scalars r
    let c := s.cur.core
    let va ← s.padAddr s.cur.op0.val 32
    checkMultiple va 32
    let x := s.cluster c.cluId
    match (x.queues.getD r.sub.toNat Queue.reset).take, nearKey c va 32 with
    | some (ws, q), some k =>
      let s := s.setCluster c.cluId { x with queues := setAt x.queues r.sub.toNat q }
      let s := s.keyWrite c false k (ws.flatMap fun w => leBytes 8 w.toNat) (some (colourOf s.cur.tag))
      .ok (s.out r t (plainOp 1))
    | _, _ => .ok (s.out r t (plainOp 0))

/-- The control core that a word laid out as `CORE.ID` with CTL 1 names (R192, R194). -/
def ctlOf (w : Word) : Option CoreId :=
  let n := w.toNat
  if n / 2 ^ 19 = 1 ∧ n % 256 < 2 then some ⟨bitsOf n 18 13, bitsOf n 12 11, bitsOf n 10 8, 192 + n % 256⟩ else none

/-- The engine for which LAUNCH's message is meant: the launch inbox of the control core, or, for a message laid out as a copy message, the
copy engine of its cluster (R194, R249; log 75). -/
def launchTarget (to_ : CoreId) (m : Msg) : EngineId :=
  if copyOk m then clusterEngine .copy to_.cluId else ⟨.launch, to_⟩

/-- LAUNCH sends a message, behind its release; its tokens leave with it (R194, R249, R348). -/
def execLaunch (r : Rec) (s : State) : Host.Outcome State Fault Refusal :=
  fire Forms.launch r s fun t s => do
    s.scalars r
    let ws ← s.messageAt s.cur.op0.val
    match ctlOf s.cur.op1.val with
    | none => .error { cause := .illegalRecord }
    | some to_ =>
      if !s.isCore to_ then .error { cause := .illegalRecord }
      else
        let c := s.cur.core
        let m : Msg := ⟨ws, ⟨.launch, c, s.cur.node, s.cur.tag⟩, false, []⟩
        let (held, s) := s.heldTokens r t (plainOp 0)
        .ok (s.startRelease c (colourOf s.cur.tag) 2 false (.event (.engineInboxAccept (launchTarget to_ m) m) Site.zero :: held))

/-! ## PROMPT (R198) -/

/-- PROMPT starts a routine on the prompter of the slice that homes $0, which holds the line locked (R198). A near address is PERMISSION,
as no slice homes it; a home that cannot be reached is HOME_UNREACHABLE (R376). -/
def execPrompt (r : Rec) (s : State) : Host.Outcome State Fault Refusal :=
  memFire Forms.prompt r s fun t s => do
    s.scalars r
    let va ← vaAt s.cur.op0.val 0
    if isNear va then .error (permAt va)
    else
      let (ps, _, s) ← s.coverOne s.cur.core s.cur.node false true va 1
      match (ps.head?).bind (·.pa) with
      | none => .error (permAt va)
      | some a =>
        let l := a / 192
        let d := homeDie l
        if (ps.any (·.nc)) || !s.isHbm a then .error (permAt va)
        else if s.isLost l || !s.joined s.cur.core.pkg d.pkg then .error { cause := .homeUnreachable, info := BitVec.ofNat 64 (l * 192) }
        else
          let (id, s) := s.fresh
          let x : Prompt := ⟨id, l, r.lit.toNat % 256, s.cur.op1.val, s.asker r t⟩
          let s := s.modDie d fun y => { y with prompts := y.prompts ++ [x] }
          .ok (s.laterAt .promptRoutineEnd (dieCore0 d) id 0 false)

/-- A routine's turn on its slice's prompter: no routine asked earlier stands there (R12, R198). -/
def Die.promptTurn (x : Die) (y : Prompt) : Bool :=
  !((x.prompts.takeWhile fun z => decide (z.id ≠ y.id)).any fun z => decide ((sliceSet x.gran z.line).1 = (sliceSet x.gran y.line).1))

/-- A routine is over: its prompter is free, and its result and status are sent (R198). -/
def State.promptDone (s : State) (d : DieId) (x : Prompt) (status : Nat) : State :=
  let n := s.free
  let s := { s with free := n + 1 }
  (s.modDie d fun y => { y with prompts := y.prompts.filter fun z => decide (z.id ≠ x.id) }).replyBoth x.who
    (plainOp ((Config.promptResult n).setWidth 64)) (plainOp (BitVec.ofNat 64 status))

/-- PROMPT_ROUTINE_END (R198): a routine that was not loaded ends at once. Any other waits for its slice's prompter and for its home slice to
hold the line alone and whole, locks it, and ends, or stops at 16 instructions: which, its result, and what it has written into the
line are free values (log 9). -/
def execPromptRoutineEnd (s : State) : Host.Outcome State Fault Refusal :=
  .next (
    let d := s.site.core.dieId
    let id := s.site.n
    match (s.die d).prompts.find? fun x => decide (x.id = id) with
    | none => s
    | some x =>
      if x.routine ∉ (s.pkg d.pkg).routines then s.promptDone d x 1
      else if !s.site.flag then
        if (s.die d).promptTurn x then
          match s.holdLine d x.line [0, 1, 2, 3] with
          | (true, s) => (s.modLine d x.line fun y => { y with locked := true }).laterAt .promptRoutineEnd (dieCore0 d) id 0 true
          | (false, s) => s.laterAt .promptRoutineEnd (dieCore0 d) id
        else s.laterAt .promptRoutineEnd (dieCore0 d) id
      else
        let n := s.free
        let owner := (s.actOf? x.who.core.dieId x.who.tag).bind fun a => s.colourOn a d
        let s := (s.modLine d x.line fun y => { y with locked := false }).enterLine d x.line 0
          ((List.range 192).map fun i => Config.promptByte n i) owner
        s.promptDone d x (if Config.promptEnds n then 0 else 2))

end Sys2Proof.Machine
end

