-- ==== Sys2Proof/Machine/Region.lean ====
section
/-! DEFINITION. What an activation still has anywhere, what is discarded of it, and how its colours are freed: the parts that retirement, purge
and curtain share (R166, R167, R408, R410, R416, R426 to R430). -/

namespace Sys2Proof.Machine

open Sys2Proof

/-! ## What an activation still has (R408, R410, R416, R426) -/

/-- Where the token or message of an agenda item stands, and its tag. -/
def itemTag : Item → Option (CoreId × Word)
  | .issue _ => none
  | .event i _ =>
    match i with
    | .tokenArrival c _ t => some (c, t.tag)
    | .chainLink c t _ => some (c, t.tag)
    | .linkTokenCrossing c _ _ t => some (c, t.tag)
    | .engineInboxAccept _ m => if m.sender.kind = .host then none else some (m.sender.core, m.sender.tag)
    | .start _ m => if m.sender.kind = .host then none else some (m.sender.core, m.sender.tag)
    | .graphreg _ m => if m.sender.kind = .host then none else some (m.sender.core, m.sender.tag)
    | .replay _ m => if m.sender.kind = .host then none else some (m.sender.core, m.sender.tag)
    | .patch _ m => if m.sender.kind = .host then none else some (m.sender.core, m.sender.tag)
    | .graphdrop _ m => if m.sender.kind = .host then none else some (m.sender.core, m.sender.tag)
    | _ => none

/-- A tag at a core belongs to an activation. -/
def State.isOf (s : State) (a : Nat) (c : CoreId) (t : Word) : Bool := decide (s.actOf? c.dieId t = some a)

/-- A COMPLETE entry. -/
def Entry.isComplete (e : Entry) : Bool := match e.body with | .complete _ => true | _ => false

/-- How strictly an activation must be at rest. `drained`: a curtain's clearing (R408), for which a presence waiter is an outstanding
request. `ended`: retirement and the end of a purge (R416, R426), with no stream left, and waiters discarded later (R427). `frozen`: a full
save (R410), which takes COMPLETE entries, withheld accesses, with the shard instructions that wait for one, and tokens in ring buffers as
they stand (log 80). -/
inductive Rest where
  | drained
  | ended
  | frozen
deriving DecidableEq, Repr

/-- A shard instruction that waits for a withheld read of its table (R216, R329). -/
def Core.stalledShard (k : Core) (q : ShardReq) : Bool :=
  decide (q.stage = 0) && k.reqs.any fun r => r.withheld && decide (r.op.table? = some q.id)

/-- Nothing of a colour moves or is outstanding at a core. -/
def Core.rests (k : Core) (col : BitVec 9) (m : Rest) : Bool :=
  let has (t : Word) : Bool := decide (colourOf t = col)
  !(k.parked.any fun t => has t.1.tag) && !(k.probes.any fun x => has x.what.tag) && !(k.comps.any fun x => has x.2.tag)
    && !(k.holds.any fun e => has e.tag)
    && !(k.reqs.any fun q => decide (q.colour = col) && !(decide (m = .frozen) && q.withheld))
    && !(k.rels.any fun r => decide (r.colour = col))
    && !(k.waves.any fun w => has w.tag && w.opened && w.waiting.any w.ready)
    && !((k.path ++ k.inbox).any fun x => has x.f.tag)
    && !(k.shardReqs.any fun q => has q.f.tag && !(decide (m = .frozen) && k.stalledShard q))
    && (decide (m = .frozen) ||
      (!(k.ready.any fun f => has f.tag) && !(k.store.any fun e => has e.tag && e.isComplete)
        && !((List.range 8).any fun i => k.visiting i && (match k.slots.getD i none with | some x => has x.tag | none => false))))

/-- No engine message of an activation is outstanding in a cluster, and no stream of it is about to end; for `ended`, none is bound. -/
def State.cluRests (s : State) (a : Nat) (k : CluId) (m : Rest) : Bool :=
  let x := s.cluster k
  let mine (y : Stream) : Bool := s.isOf a (cluCore0 k) y.btag
  let ending (n : Nat) : Bool := s.agenda.any fun it => match it with
    | .event .streamComplete site => decide (site.core.cluId = k) && decide (site.n = n)
    | _ => false
  !(x.copyIn.any fun y => decide (s.msgAct (clusterEngine .copy k) y.msg = some a))
    && !(x.linkIn.any fun y => decide (s.msgAct (clusterEngine .link k) y.msg = some a))
    && !(x.ports.any fun p => (match p.2.running with
          | some y => mine y && (decide (m = .ended) || decide (y.status ≠ 0) || ending p.1)
          | none => false)
        || (decide (m = .ended) && p.2.queued.any mine))

/-- The pool entries that hold waiters of an activation on a die (R38). -/
def State.waiters (s : State) (a : Nat) (d : DieId) (col : BitVec 9) : List Nat :=
  ((s.act (s.act a).poolAct).pool.filter fun p =>
    decide (p.2.who.core.dieId = d) && decide (colourOf p.2.who.tag = col)).map Prod.fst

/-- An activation is at rest everywhere. -/
def State.rests (s : State) (a : Nat) (m : Rest) : Bool :=
  !(s.agenda.any fun it => match itemTag it with | some (c, t) => s.isOf a c t | none => false)
    && !(s.qtoks.any fun q => decide (q.act = a) && !(decide (m = .frozen) && q.buf.isSome))
    && !(s.dies.any fun d => d.2.prompts.any fun x => s.isOf a x.who.core x.who.tag)
    && !(s.packages.any fun p => p.2.cfgs.any fun x => s.isOf a x.2.core x.2.tag)
    && (s.act a).map.all fun p =>
      (s.coresOfDie p.1).all (fun c => (s.core c).rests p.2 m)
        && (clustersOf p.1).all (fun k => s.cluRests a k m)
        && (decide (m ≠ .drained) || (s.waiters a p.1 p.2).isEmpty)

/-! ## Discarding (R416, R427) -/

/-- The store and wing entries of a colour removed on a die, each counted in NULLS where retirement discards it (R416, R427). -/
def State.dropEntries (s : State) (d : DieId) (col : BitVec 9) (count : Bool) : State :=
  (s.coresOfDie d).foldl
    (fun s c => ((s.core c).store.filter fun e => decide (colourOf e.tag = col)).foldl
      (fun s e => (if count then s.modCore c fun k => { k with nulls := satInc k.nulls } else s).freeEntry c e) s) s

/-- The wave instances of a colour freed on a die (R416, R427). -/
def State.dropWaves (s : State) (d : DieId) (col : BitVec 9) : State :=
  (s.coresOfDie d).foldl
    (fun s c => s.modCore c fun k => { k with waves := k.waves.filter fun w => decide (colourOf w.tag ≠ col) }) s

/-- The waiters of a colour in the deferral pool rewritten with DST 0 and KIND 0b00 (R416, R427). -/
def State.dropWaiters (s : State) (a : Nat) (d : DieId) (col : BitVec 9) : State :=
  let pool := s.act (s.act a).poolAct
  (s.waiters a d col).foldl
    (fun s i => s.sysWord d (pool.poolAt i) (BitVec.ofNat 64 ((s.peekWord d (pool.poolAt i)).toNat % 2 ^ 38))) s

/-- The colour's tile-sequencer table dropped (R339). -/
def State.dropTable (s : State) (d : DieId) (col : BitVec 9) : State :=
  (clustersOf d).foldl
    (fun s k => if (s.cluster k).seqr.any (fun q => decide (q.colour = col)) then s.modCluster k fun x => { x with seqr := none } else s) s

/-- The colour's counter sets, waits and armed sends freed (R399). -/
def State.dropTimeline (s : State) (d : DieId) (col : BitVec 9) : State :=
  (clustersOf d).foldl
    (fun s k =>
      let s := s.modCluster k fun x =>
        { x with ctrs := x.ctrs.filter fun y => decide (y.1.1 ≠ col)
                 waits := x.waits.filter fun w => decide (w.colour ≠ col)
                 armed := x.armed.filter fun y => decide (y.colour ≠ col) }
      s.wakeTimeline k) s

/-- The colour's matrix claims released on a die (R300). -/
def State.dropClaims (s : State) (d : DieId) (col : BitVec 9) : State :=
  (s.coresOfDie d).foldl (fun s c => s.modCore c fun k => k.releaseClaims col) s

/-! ## Write-back (R207, R411, R416, R426) -/

/-- The dirty sectors of a line that a colour owns. -/
def Line.ownedBy (y : Line) (col : BitVec 9) : List Nat := y.dirtySectors.filter fun i => decide ((y.sector i).owner = some col)

/-- The lines of a die that hold dirty bytes of a colour, or unapplied ones of it or of the system class, among which may be the colour's
writes to tables (R207, R330, R348). -/
def State.colourLines (s : State) (d : DieId) (col : BitVec 9) : List Nat :=
  ((s.die d).lines.filter fun y =>
    !(y.ownedBy col).isEmpty || (y.pend.any fun p => decide (p.2.2 = some col) || p.2.2.isNone)).map (·.line)

/-- An activation has written bytes that are not applied, or not written back, on some die of its map. -/
def State.unwritten (s : State) (a : Nat) : Bool := (s.act a).map.any fun p => !(s.colourLines p.1 p.2).isEmpty

/-- The activation's writes applied, and the dirty sectors that it owns written back, on every die of its map; for a line homed on another die by PUTM
with KEEP (R207, R364). -/
def State.writeBackOf (s : State) (a : Nat) : State :=
  (s.act a).map.foldl
    (fun s p => (s.colourLines p.1 p.2).foldl
      (fun s l =>
        let s := s.settle p.1 l
        match (s.die p.1).line? l with
        | some y => if (y.ownedBy p.2).isEmpty then s else s.writeBackSome p.1 l true (y.ownedBy p.2)
        | none => s) s) s

/-! ## Freeing (R25, R127, R428) -/

/-- The energy charge of an activation removed from the islands of its placement (R127). -/
def State.uncharge (s : State) (a : Nat) : State :=
  let x := s.act a
  if !x.charged then s
  else
    (x.clus.foldl (fun s k => s.modIsland k.pkg (8 * k.die + k.clu) fun i => { i with committed := i.committed - 4 * x.eclass }) s).modAct a
      fun x => { x with charged := false }

/-- The handle under which a speculative child was opened stands for commit or abort once the child has ended (R395). -/
def State.leaveHandle (s : State) (a : Nat) : State :=
  match (s.act a).handle with
  | none => s
  | some (d, i) =>
    match Assoc.get? (s.die d).handles i with
    | some h => if h.child = a then s.modDie d fun x => { x with handles := Assoc.set x.handles i { h with live := false } } else s
    | none => s

/-- The colours of an activation freed on every die, with their phase bits (R25, R149). -/
def State.freeColours (s : State) (a : Nat) : State :=
  (s.act a).map.foldl
    (fun s p =>
      (s.modDie p.1 fun x => { x with colours := x.colours.filter fun y => !(decide (y.1 = p.2) && decide (y.2 = a)) }).clearPhase p.1 p.2) s

/-- An activation gone. -/
def State.forget (s : State) (a : Nat) : State := { s with acts := Assoc.erase s.acts a }

/-! ## Completion tokens and records (R167, R395, R429, R430) -/

/-- The completion token of a child: status, its colour, and its handle where SPECBEG started it (R167, R395). -/
def State.parentToken (s : State) (a : Nat) (status : Nat) : State :=
  let x := s.act a
  match x.parent, x.pdest with
  | some _, some p =>
    let col := match x.map with | y :: _ => y.2.toNat | [] => 0
    let h := match x.handle with | some y => y.2 | none => 0
    s.replyFrom p.core p.node p.dst x.ptag (plainOp (BitVec.ofNat 64 (status + putBits col 8 + putBits h 17)))
  | _, _ => s

/-- A field of a START (R109); word 0 is the header's first. -/
def startField (ws : List Word) (i hi lo : Nat) : Nat := bitsOf (ws.getD i 0).toNat hi lo
/-- TGID. -/
def startTgid (ws : List Word) : Nat := startField ws 11 15 0
/-- TGNODE. -/
def startNode (ws : List Word) : Nat := startField ws 11 27 16
/-- NOTIFY. -/
def startNotify (ws : List Word) : Nat := startField ws 10 51 0

/-- A completion record (R431). -/
def State.completion (s : State) (p : Nat) (ws : List Word) (status col : Nat) (w : Word) (replay : Nat) : List Word :=
  [BitVec.ofNat 64 (putBits 0x05 56 + putBits status 48 + putBits (startNode ws) 36 + putBits col 27 + startTgid ws),
   if status = 0 then w else 0, ws.getD 2 0, s.timeWord p replay]

/-- A copy of a record written to NOTIFY, word 0 last (R430); 0 asks for none. -/
def State.notify (s : State) (a : Nat) (r : List Word) : State :=
  if a = 0 ∨ a % 32 ≠ 0 ∨ !s.rangeOk a 32 then s
  else
    let d := dieOfPa a
    let s := [1, 2, 3].foldl (fun s i => s.sysWord d (a + 8 * i) (r.getD i 0)) s
    s.sysWord d a (r.getD 0 0)

/-- A completion record posted to queue 0 of a control core's cluster, and its copy written (R429, R430). -/
def State.postCompletion (s : State) (c : CoreId) (ws : List Word) (status col : Nat) (w : Word) (replay : Nat) : State :=
  let r := s.completion c.pkg ws status col w replay
  (s.board c.cluId 0 r).1.notify (startNotify ws) r

/-! ## The nodes of a replay (R119) -/

/-- A task graph of a control core. -/
def State.graph? (s : State) (c : CoreId) (tgid : Nat) : Option TaskGraph :=
  (s.cluster c.cluId).graphs.find? fun g => decide (g.ctl = c.core) && decide (g.tgid = tgid)

/-- A task graph changed. -/
def State.modGraph (s : State) (c : CoreId) (tgid : Nat) (f : TaskGraph → TaskGraph) : State :=
  s.modCluster c.cluId fun x => { x with graphs := x.graphs.map fun g => if g.ctl = c.core ∧ g.tgid = tgid then f g else g }

/-- The predecessors of a node. -/
def TaskGraph.preds (g : TaskGraph) (n : Nat) : List Nat :=
  (List.range g.succs.length).filter fun i => decide (n ∈ g.succs.getD i [])

/-- The nodes that a set of nodes leads to. -/
def TaskGraph.reach (g : TaskGraph) : Nat → List Nat → List Nat
  | 0, acc => acc
  | k + 1, acc =>
    let more := (acc.flatMap fun n => g.succs.getD n []).filter fun n => decide (n ∉ acc)
    if more.isEmpty then acc else TaskGraph.reach g k (acc ++ more.eraseDups)

/-- A node of a replay may be dispatched: it stands undispatched, and each predecessor has retired with OK (R119). -/
def TaskGraph.ready (g : TaskGraph) (x : Replay) (n : Nat) : Bool :=
  decide (n ∈ x.todo) && (g.preds n).all fun p => decide (p ∈ x.okNodes)

/-- A replay changed. -/
def TaskGraph.modReplay (g : TaskGraph) (num : Nat) (f : Replay → Replay) : TaskGraph :=
  { g with live := g.live.map fun x => if x.num = num then f x else x }

/-- A START body of a replay's node as a START message: an empty header, the body, the graph's and the node's names (R119). -/
def nodeStart (body : List Word) (tgid node : Nat) : List Word :=
  let ws : List Word := [0, 0] ++ body
  setAt ws 11 (BitVec.ofNat 64 (putBits node 16 + tgid))

/-- A node of a replay has ended: after OK its successors may be dispatched; else it and all its descendants stay undispatched, each with a
SKIPPED record. The replay ends once nothing of it remains (R119). -/
def State.nodeEnded (s : State) (c : CoreId) (tgid num node : Nat) (ok : Bool) : State :=
  match s.graph? c tgid with
  | none => s
  | some g =>
    match g.live.find? fun x => decide (x.num = num) with
    | none => s
    | some x =>
      let x := { x with running := x.running.filter fun n => decide (n ≠ node)
                        okNodes := if ok then x.okNodes ++ [node] else x.okNodes }
      let skip := if ok then [] else ((g.reach g.succs.length [node]).filter fun n => decide (n ∈ x.todo))
      let x := { x with todo := x.todo.filter fun n => decide (n ∉ skip), skipped := x.skipped ++ skip }
      let s := s.modGraph c tgid fun g => g.modReplay num fun _ => x
      let s := skip.foldl (fun s n => s.postCompletion c (nodeStart (x.bodies.getD n []) tgid n) 7 0 0 num) s
      let s := if ok then ((g.succs.getD node []).filter fun n => g.ready x n).foldl
          (fun s n => s.later (.taskgraphNodeDispatch c tgid num n)) s
        else s
      if x.todo.isEmpty ∧ x.running.isEmpty then
        (s.modGraph c tgid fun g => { g with live := g.live.filter fun y => decide (y.num ≠ num) }).laterAt .replayRelease c tgid
      else s

/-- The end of a launched activation or of a refused START: its completion record, and its node's end where it is one (R119, R429). -/
def State.launchEnded (s : State) (c : CoreId) (ws : List Word) (status col : Nat) (w : Word) (replay : Nat) : State :=
  let s := s.postCompletion c ws status col w replay
  if replay = 0 then s else s.nodeEnded c (startTgid ws) replay (startNode ws) (decide (status = 0))

end Sys2Proof.Machine
end

