-- ==== Sys2Proof/Machine/Saves.lean ====
section
/-! DEFINITION. The save area: what a save holds, how it is laid out, and how a restore writes it back (R409 to R414). -/

namespace Sys2Proof.Machine

open Sys2Proof

/-! ## The region (R406, R409) -/

/-- The cores of a region: those that hold records of its image on the clusters that it spans. -/
def State.regionCores (s : State) (a : Nat) : List CoreId :=
  let x := s.act a
  x.clus.flatMap fun k => (s.coresOfClu k).filter fun c => (s.core c).owner.any fun p => decide (p.2 = x.image)

/-- The bytes that a save area must hold at least (R409). -/
def State.saveBound (s : State) (a : Nat) : Nat :=
  4096 + 8192 * (s.family a).length + 65536 * (s.act a).clus.length
    + ((s.regionCores a).map fun c => 262144 + 48 * (8192 + 1024 * (s.core c).wps)).sum

/-- The region index of a tag's activation at a core (R413). -/
def State.indexAt (s : State) (reg : List Nat) (c : CoreId) (t : Word) : Option Nat :=
  match s.actOf? c.dieId t with
  | some a => leastBelow reg.length fun i => decide (reg.getD i 0 = a)
  | none => none

/-- A tag with its activation's region index in place of its colour (R412). -/
def State.indexTag (s : State) (reg : List Nat) (c : CoreId) (t : Word) : Word :=
  match s.indexAt reg c t with
  | some i => mkTag (BitVec.ofNat 9 i) (depthOf t) (stackOf t)
  | none => t

/-! ## What a save holds (R412) -/

/-- A tag belongs to the region. -/
def State.inReg (s : State) (reg : List Nat) (c : CoreId) (t : Word) : Bool := (s.indexAt reg c t).isSome

/-- The colours of a region on a die. -/
def State.regColours (s : State) (reg : List Nat) (d : DieId) : List (BitVec 9) := reg.filterMap fun a => s.colourOn a d

/-- The dies that a region spans. -/
def State.regDies (s : State) (reg : List Nat) : List DieId := (reg.flatMap fun a => (s.act a).map.map Prod.fst).eraseDups

/-- A core's matrix engine for a region, where it claims anything. -/
def State.savedMat (s : State) (reg : List Nat) (c : CoreId) : Option SavedMat :=
  let k := s.core c
  let cols := s.regColours reg c.dieId
  let mine (xs : List (Option (BitVec 9))) : List (Nat × BitVec 9) :=
    (List.range xs.length).filterMap fun i => match xs.getD i none with | some x => if x ∈ cols then some (i, x) else none | none => none
  let o := mine k.oClaim
  let a := mine k.aClaim
  if o.isEmpty ∧ a.isEmpty then none
  else some ⟨c, o, a, k.opmem, k.scales, k.acc, k.rows⟩

/-- A query token with its bytes as the ring buffer holds them (R271). -/
def State.savedTok (s : State) (q : QTok) : QTok × Option (Nat × RingUse) :=
  match q.buf with
  | some b => ({ q with bytes := s.keyBytes q.at_ (ringKey q.at_ b) q.bytes.length }, (s.core q.at_).rings.getD b none)
  | none => (q, none)

/-- All that a save of a region holds (R358, R410, R412). -/
def State.saved (s : State) (id area : Nat) (reg : List Nat) : Saved :=
  let dies := s.regDies reg
  let cores := dies.flatMap s.coresOfDie
  let clus := dies.flatMap clustersOf
  let has (d : DieId) (col : BitVec 9) : Bool := decide (col ∈ s.regColours reg d)
  { id := id
    area := area
    chunks := []
    heads := []
    acts := reg.map fun a => (a, s.act a)
    entries := cores.flatMap fun c => ((s.core c).store.filter fun e => s.inReg reg c e.tag).map fun e => (c, e)
    waves := cores.flatMap fun c => ((s.core c).waves.filter fun w => s.inReg reg c w.tag).map fun w => (c, w)
    mats := cores.filterMap (s.savedMat reg)
    ctrs := clus.flatMap fun k => ((s.cluster k).ctrs.filter fun x => has k.dieId x.1.1).map fun x => (k, x)
    waits := clus.flatMap fun k => ((s.cluster k).waits.filter fun w => has k.dieId w.colour).map fun w => (k, w)
    armed := clus.flatMap fun k => ((s.cluster k).armed.filter fun w => has k.dieId w.colour).map fun w => (k, w)
    bars := dies.flatMap fun d =>
      ((s.die d).barriers.filter fun b => has d b.2.owner || b.2.members.any (has d)).map fun b => (d, b)
    streams := clus.flatMap fun k => (s.cluster k).ports.flatMap fun x =>
      ((x.2.running.toList ++ x.2.queued).filter fun y => s.inReg reg (cluCore0 k) y.btag).map fun y => (k, x.1, y)
    qtoks := (s.qtoks.filter fun q => decide (q.act ∈ reg)).map s.savedTok
    reqs := cores.flatMap fun c => ((s.core c).reqs.filter fun q => has c.dieId q.colour).map fun q => (c, q)
    hnds := dies.flatMap fun d => ((s.die d).handles.filter fun h => decide (h.2.owner ∈ reg)).map fun h => (d, h)
    slots := cores.flatMap fun c => (List.range 8).filterMap fun i =>
      match (s.core c).slots.getD i none with
      | some x => if s.inReg reg c x.tag then some (c, i, x) else none
      | none => none
    kept := cores.flatMap fun c => ((s.core c).kept.filter fun it =>
      match itemTag it with | some (k, t) => s.inReg reg k t | none => false).map fun it => (c, it)
    shards := cores.flatMap fun c => ((s.core c).shardReqs.filter fun q => s.inReg reg c q.f.tag).map fun q => (c, q) }

/-! ## Its bytes (R412, R413) -/

/-- A section: type, location word, bytes. -/
structure Section where
  typ   : Nat
  loc   : Word
  bytes : List Byte

/-- A TYPE 1 section (R413). -/
def State.actSection (s : State) (reg : List Nat) (i a : Nat) : Section :=
  let x := s.act a
  let up := match x.parent with
    | some p => (leastBelow reg.length fun j => decide (reg.getD j 0 = p)).getD 0xFFFFFFFF
    | none => 0xFFFFFFFF
  let hs := (s.regDies reg).flatMap fun d => (s.die d).handles.filter fun h => decide (h.2.owner = a)
  let mode := b2n x.stall + putBits (b2n x.grant) 1 + putBits (b2n x.reissue) 2 + putBits (b2n x.spec) 3 + putBits x.eclass 4
    + putBits x.phase 8 + putBits x.reissues 10
  let pdst := match x.parent, x.pdest with | some _, some p => p.dst.toNat | _, _ => 0
  let ptag := match x.parent, x.pdest with
    | some _, some p => (s.indexTag reg p.core x.ptag).toNat
    | some _, none => (s.indexTag reg x.ctl x.ptag).toNat
    | none, _ => 0
  let head := leBytes 4 i ++ leBytes 4 up ++ leBytes 2 x.map.length ++ leBytes 2 hs.length ++ leBytes 4 0
    ++ leBytes 4 x.ctrl.toNat ++ leBytes 4 x.flags.toNat ++ leBytes 8 x.rng.toNat
    ++ ((List.range 8).flatMap fun j => leBytes 8 (x.windows.getD j 0)) ++ leBytes 8 x.defer ++ leBytes 4 x.defern ++ leBytes 4 mode
    ++ leBytes 8 ptag ++ leBytes 4 pdst ++ leBytes 4 0
  let map := x.map.flatMap fun p => leBytes 8 (putBits p.1.pkg 58 + putBits p.1.die 56 + p.2.toNat)
  let hnd := hs.flatMap fun h =>
    let kid := if h.2.live then (leastBelow reg.length fun j => decide (reg.getD j 0 = h.2.child)).getD 0xFFFFFFFF else 0xFFFFFFFF
    let log := match h.2.log with | p :: _ => p.va | [] => 0
    leBytes 8 (h.1 + putBits kid 32) ++ leBytes 8 h.2.snap.toNat ++ leBytes 8 log ++ leBytes 8 h.2.entries
  ⟨1, coreIdWord x.ctl, head ++ map ++ hnd⟩

/-- A gate state (R412). -/
def gateBytes (t : Word) (node next base : Nat) (mask : Word) (k : Nat) (exited : Bool) : List Byte :=
  leBytes 8 t.toNat ++ leBytes 8 (putBits node 52 + putBits (b2n exited) 51 + putBits (next - base) 44 + putBits (k - 1) 38) ++ leBytes 8 base
    ++ leBytes 8 mask.toNat

/-- The entries of a core in a save: TYPE 2 (R135, R412). -/
def State.entrySection (s : State) (reg : List Nat) (v : Saved) (c : CoreId) : List Section :=
  let bs := v.entries.flatMap fun p =>
    if p.1 = c then
      match p.2.body with
      | .gate .. => []
      | _ => s.wingImage c { p.2 with tag := s.indexTag reg c p.2.tag }
    else []
  if bs.isEmpty then [] else [⟨2, coreIdWord c, bs⟩]

/-- The gates of a core in a save: TYPE 3 (R412). -/
def State.gateSection (s : State) (reg : List Nat) (v : Saved) (c : CoreId) : List Section :=
  let bs := v.entries.flatMap fun p =>
    if p.1 = c then
      match p.2.body with
      | .gate n b m k x => gateBytes (s.indexTag reg c p.2.tag) p.2.node n b m k x
      | _ => []
    else []
  if bs.isEmpty then [] else [⟨3, coreIdWord c, bs⟩]

/-- The matrix state of a core in a save: TYPE 5 (R307, R412). -/
def State.matSection (s : State) (x : SavedMat) : Section :=
  let k := s.core x.core
  let claim := (x.slots.map fun p => 2 ^ p.1).sum + (x.tiles.map fun p => 2 ^ (16 + p.1)).sum
  ⟨5, coreIdWord x.core,
    leBytes 8 claim ++ (x.slots.flatMap fun p => k.slotBytes p.1 ++ k.slotScales p.1)
      ++ (x.tiles.flatMap fun p => k.tileBytes p.1 ++ (List.range 64).flatMap fun i => (k.row p.1 i).bytes)⟩

/-- A section whose layout the manual leaves open: free bytes, fewer than 4,096 (log 79). -/
def freeSection (x : List Section × Nat) (y : Nat × CoreId) : List Section × Nat :=
  (x.1 ++ [⟨y.1, coreIdWord y.2, (List.range (Config.sectionSize x.2 % 4096)).map (Config.sectionByte x.2)⟩], x.2 + 1)

/-- The sections of a save, and the free draws that follow them. -/
def State.sections (s : State) (reg : List Nat) (v : Saved) : List Section × Nat :=
  let dies := s.regDies reg
  let cores := dies.flatMap s.coresOfDie
  let clus := dies.flatMap clustersOf
  let known := ((List.range reg.length).map fun i => s.actSection reg i (reg.getD i 0)) ++ cores.flatMap (s.entrySection reg v)
    ++ cores.flatMap (s.gateSection reg v) ++ v.mats.map s.matSection
  let loose : List (Nat × CoreId) :=
    ((cores.filter fun c => v.waves.any fun w => decide (w.1 = c)).map fun c => (4, c))
      ++ ((clus.filter fun k => (v.ctrs.any fun x => decide (x.1 = k)) || (v.waits.any fun x => decide (x.1 = k))
            || (v.armed.any fun x => decide (x.1 = k))).map fun k => (6, cluCore0 k))
      ++ ((dies.filter fun d => v.bars.any fun b => decide (b.1 = d)).map fun d => (7, dieCore0 d))
      ++ ((clus.filter fun k => v.streams.any fun x => decide (x.1 = k)).map fun k => (8, cluCore0 k))
      ++ ((cores.filter fun c => v.qtoks.any fun q => decide (q.1.at_ = c)).map fun c => (9, c))
      ++ ((cores.filter fun c => v.reqs.any fun q => decide (q.1 = c)).map fun c => (10, c))
  loose.foldl freeSection (known, s.free)

/-- Sections at their offsets, each aligned to 64 bytes, and where the last one ends (R412). -/
def layOut : Nat → List Section → List (Nat × Section) × Nat
  | off, [] => ([], off)
  | off, x :: t =>
    let o := (off + 63) / 64 * 64
    let (ys, fin) := layOut (o + x.bytes.length) t
    ((o, x) :: ys, fin)

/-- What the device writes of a save area before VALID, by offset (R412): header fields, section entries, sections. -/
def Saved.chunksOf (v : Saved) (full : Bool) (start : Word) (xs : List Section) : List (Nat × List Byte) :=
  let (ys, used) := layOut (256 + 16 * xs.length) xs
  [(6, leBytes 1 (b2n full)), (16, leBytes 8 used), (28, leBytes 4 xs.length),
    (32, leBytes 8 (match v.acts with | x :: _ => x.2.image.toNat | [] => 0)), (40, leBytes 8 start.toNat), (48, leBytes 4 v.acts.length)]
    ++ ys.zipIdx.flatMap fun y =>
      [(256 + 16 * y.2, leBytes 2 y.1.2.typ ++ leBytes 2 0 ++ leBytes 4 y.1.2.bytes.length ++ leBytes 8 y.1.2.loc.toNat), (y.1.1, y.1.2.bytes)]

/-- A save with the bytes that it writes. -/
def Saved.laid (v : Saved) (full : Bool) (start : Word) (xs : List Section) : Saved :=
  { v with chunks := v.chunksOf full start xs
           heads := ((layOut (256 + 16 * xs.length) xs).1.filter fun y => decide (y.2.typ = 1)).map Prod.fst }

/-- A save's bytes written to its area (R412). -/
def State.writeSave (s : State) (d : DieId) (v : Saved) : State := v.chunks.foldl (fun s x => s.sysWrite d (v.area + x.1) x.2) s

/-! ## Finding a save again (R414) -/

/-- The bytes of a save stand at an address. -/
def State.standsAt (s : State) (a : Nat) (v : Saved) : Bool := v.chunks.all fun x => decide (s.peek (dieOfPa a) (a + x.1) x.2.length = x.2)

/-- An activation's state as a TYPE 1 section at an address gives it now (R413). -/
def State.reread (s : State) (a : Nat) (x : Act) : Act :=
  let f (o n : Nat) : Nat := leNat (s.peek (dieOfPa a) (a + o) n)
  let mode := f 108 4
  { x with
    ctrl := BitVec.ofNat 32 (f 16 4), flags := BitVec.ofNat 32 (f 20 4), rng := BitVec.ofNat 64 (f 24 8)
    windows := (List.range 8).map fun i => f (32 + 8 * i) 8
    defer := f 96 8, defern := f 104 4
    stall := mode.testBit 0, grant := mode.testBit 1, reissue := mode.testBit 2, spec := mode.testBit 3
    eclass := bitsOf mode 7 4, phase := bitsOf mode 9 8, reissues := bitsOf mode 11 10 }

/-- The save at an address: the one whose bytes stand there, wherever it was written first, else the last that was written there; its
activations' state is read from the bytes (R412 to R414; log 17). -/
def State.saveOf (s : State) (a : Nat) : Option Saved :=
  let vs := s.saves.reverse
  match (match vs.find? (s.standsAt a) with
    | some v => some v
    | none => vs.find? fun v => decide (v.area = a)) with
  | none => none
  | some v =>
    some { v with acts := v.acts.zipIdx.map fun x =>
      match v.heads[x.2]? with
      | some o => (x.1.1, s.reread (a + o) x.1.2)
      | none => x.1 }

/-! ## Taking a saved region off the machine (R411) -/

/-- The barriers of a die once a region's colours there are saved: the replies held for them stand in the save, and a barrier that is theirs
alone is in the save only (R412). -/
def Die.withoutBars (x : Die) (cols : List (BitVec 9)) : Die :=
  { x with barriers := x.barriers.filterMap fun b =>
      if b.2.owner ∈ cols ∧ b.2.members.all (fun m => decide (m ∈ cols)) then none
      else some (b.1, { b.2 with replies := b.2.replies.filter fun r => decide (r.1 ∉ cols) }) }

/-- A region's state at rest removed: it stands in the save. -/
def State.detach (s : State) (reg : List Nat) (v : Saved) : State :=
  let s := v.qtoks.foldl (fun s q => s.discardTok q.1.id) s
  let s := v.reqs.foldl (fun s q => s.modCore q.1 fun k => k.without fun x => decide (x.id = q.2.id)) s
  let s := v.kept.foldl (fun s x => s.modCore x.1 fun k => { k with kept := k.kept.filter fun it => decide (it ≠ x.2) }) s
  let s := v.streams.foldl
    (fun s x => s.modCluster x.1 fun k =>
      { k with ports := k.ports.map fun p =>
          if p.1 = x.2.1 then
            (p.1, { running := if p.2.running = some x.2.2 then none else p.2.running
                    queued := p.2.queued.filter fun y => decide (y ≠ x.2.2) })
          else p }) s
  let s := (s.regDies reg).foldl
    (fun s d =>
      let cols := s.regColours reg d
      s.modDie d fun x => { x.withoutBars cols with handles := x.handles.filter fun h => decide (h.2.owner ∉ reg) }) s
  reg.foldl
    (fun s a => (s.act a).map.foldl
      (fun s p => (((s.dropEntries p.1 p.2 false).dropWaves p.1 p.2).dropTimeline p.1 p.2)) s) s

/-- The ports that a save emptied start what waits behind (R217). -/
def State.startPorts (s : State) (d : DieId) : State :=
  (clustersOf d).foldl
    (fun s k => (s.cluster k).ports.foldl
      (fun s p => if p.2.running.isNone ∧ !p.2.queued.isEmpty then s.laterAt .streamStart (cluCore0 k) p.1 else s) s) s

/-! ## Restore (R414) -/

/-- A restore's translation: for each saved activation its old name and colour map, its new name and colour map. -/
structure Renaming where
  old  : Nat
  omap : List (DieId × BitVec 9)
  new  : Nat
  nmap : List (DieId × BitVec 9)

/-- The new colour for an old one on a die. -/
def recolour (rs : List Renaming) (d : DieId) (col : BitVec 9) : BitVec 9 :=
  match rs.find? fun r => decide (Assoc.get? r.omap d = some col) with
  | some r => Assoc.getD r.nmap d col
  | none => col

/-- A tag under its new colour. -/
def retag (rs : List Renaming) (d : DieId) (t : Word) : Word := mkTag (recolour rs d (colourOf t)) (depthOf t) (stackOf t)

/-- An activation's new name. -/
def rename (rs : List Renaming) (a : Nat) : Nat :=
  match rs.find? fun r => decide (r.old = a) with
  | some r => r.new
  | none => a

/-- A request under its new colour. -/
def retagReq (rs : List Renaming) (c : CoreId) (id : Nat) (q : MemReq) : MemReq :=
  { q with id := id, inTag := retag rs c.dieId q.inTag, tag := retag rs c.dieId q.tag, colour := recolour rs c.dieId q.colour }

/-- Who asked, under the new colour. -/
def retagWho (rs : List Renaming) (x : ReplyTo) : ReplyTo := { x with tag := retag rs x.core.dieId x.tag }

/-- Section 1: an activation again live, its waiters in the pool rewritten. -/
def State.restoreAct (s : State) (rs : List Renaming) (c : CoreId) (r : Renaming) (x : Act) : State :=
  let pool := x.pool.map fun p => (p.1, { p.2 with who := retagWho rs p.2.who })
  let y : Act :=
    { x with map := r.nmap, parent := x.parent.map (rename rs), poolAct := rename rs x.poolAct, pool := pool, ctl := if x.parent.isNone then c else x.ctl
             ptag := match x.pdest with | some p => retag rs p.core.dieId x.ptag | none => x.ptag
             handle := none, curtain := false, heldBy := false, charged := false }
  let s := { s with acts := s.acts ++ [(r.new, y)] }
  let s := r.nmap.foldl (fun s p => (s.bindColour p.1 p.2 r.new).setPhase p.1 x.image x.clus p.2 x.phase) s
  pool.foldl (fun s p => s.sysWord p.2.who.core.dieId (x.defer + 16 * p.1 + 8) p.2.who.tag) s

/-- A handle reopened under its number, or the lowest free one (R413). -/
def State.restoreHandle (s : State) (rs : List Renaming) (d : DieId) (i : Nat) (h : SpecHandle) : State :=
  let free (n : Nat) : Bool := (Assoc.get? (s.die d).handles n).isNone
  match (if free i then some i else leastBelow 64 free) with
  | none => s
  | some n =>
    let h' := { h with owner := rename rs h.owner, child := rename rs h.child }
    let s := s.modDie d fun x => { x with handles := Assoc.set x.handles n h' }
    if h.live then s.modAct h'.child fun a => { a with handle := some (d, n) } else s

/-- Sections 2 and 3: an entry or gate back in its core; a COMPLETE entry takes the next SEQ, in saved order. -/
def State.restoreEntry (s : State) (rs : List Renaming) (c : CoreId) (e : Entry) : State :=
  let t := retag rs c.dieId e.tag
  match e.body with
  | .complete f =>
    let n := (s.core c).nextSeq
    let f' := { f with tag := retag rs c.dieId f.tag, seq := n }
    (s.modCore c fun k => { k with nextSeq := n + 1 }).putEntryBack c { e with tag := t, body := .complete f', wing := none }
  | _ => s.putEntryBack c { e with tag := t, wing := none }

/-- The saved entries in the order of their restore: COMPLETE entries by SEQ after the others (R414). -/
def Saved.order (v : Saved) : List (CoreId × Entry) :=
  let seqOf (e : Entry) : Nat := match e.body with | .complete f => f.seq.toNat | _ => 0
  (v.entries.filter fun p => !p.2.isComplete)
    ++ sortBy (fun x y => decide (seqOf x.2 < seqOf y.2)) (v.entries.filter fun p => p.2.isComplete)

/-- A withheld access tries its translation again (R216). -/
def State.retryLater (s : State) (c : CoreId) (id : Nat) : State := s.later (.pageWalkComplete c.dieId (.retry c id))

/-- Section 4: a wave instance with its waiting accesses: those that are ready leave, those withheld try again (R216, R233, R255). -/
def State.restoreWave (s : State) (rs : List Renaming) (c : CoreId) (w : WaveInst) : State :=
  let (s, qs) := w.waiting.foldl
    (fun (x : State × List MemReq) q =>
      let (id, s) := x.1.fresh
      (s, x.2 ++ [retagReq rs c id q])) (s, [])
  let t := retag rs c.dieId w.tag
  let s := s.modCore c fun k => { k with waves := k.waves ++ [{ w with tag := t, waiting := qs }] }
  let s := (qs.filter (·.withheld)).foldl (fun s q => s.retryLater c q.id) s
  if w.opened then s.later (.waveAccessPerform c t w.region) else s

/-- Section 5: the claimed slots and tiles of a core. -/
def State.restoreMat (s : State) (rs : List Renaming) (x : SavedMat) : State :=
  let src : Core := { Core.reset with opmem := x.opmem, scales := x.scales, acc := x.acc, rows := x.rows }
  s.modCore x.core fun k =>
    let k := x.slots.foldl
      (fun k p => { (k.putSlot p.1 0 (src.slotBytes p.1)).putScales p.1 0 (src.slotScales p.1) with
                    oClaim := setAt k.oClaim p.1 (some (recolour rs x.core.dieId p.2)) }) k
    x.tiles.foldl
      (fun k p =>
        let k' := (List.range 64).foldl (fun k i => k.putRow p.1 i (src.row p.1 i)) (k.putTile p.1 (src.tileBytes p.1))
        { k' with aClaim := setAt k.aClaim p.1 (some (recolour rs x.core.dieId p.2)) }) k

/-- Section 7: a barrier that a member of the region owned is made again under its handle where that is free, with the region's members; in
another's, they stand again, as long as it is the same barrier (log 82). -/
def State.restoreBarrier (s : State) (rs : List Renaming) (d : DieId) (i : Nat) (b : Barrier) : State :=
  let re (c : BitVec 9) : BitVec 9 := recolour rs d c
  let mine (c : BitVec 9) : Bool := rs.any fun r => decide (Assoc.get? r.omap d = some c)
  let who (xs : List (BitVec 9 × ReplyTo)) : List (BitVec 9 × ReplyTo) := xs.map fun x => (re x.1, retagWho rs x.2)
  match Assoc.get? (s.die d).barriers i with
  | none =>
    let b' := { b with owner := re b.owner, members := (b.members.filter mine).map re, owed := (b.owed.filter mine).map re,
                       replies := who (b.replies.filter fun r => mine r.1) }
    if mine b.owner then s.putBarrier d i b' else s
  | some y =>
    let y' := { y with members := y.members ++ (b.members.filter mine).map re, owed := y.owed ++ (b.owed.filter mine).map re
                       replies := y.replies ++ who (b.replies.filter fun r => mine r.1) }
    if y.inst = b.inst then s.putBarrier d i y' else s

/-- Section 8: a stream bound again at its port, at its next element. -/
def State.restoreStream (s : State) (rs : List Renaming) (k : CluId) (n : Nat) (x : Stream) : State :=
  let d := k.dieId
  let x := { x with btag := retag rs d x.btag, ctag := retag rs x.core.dieId x.ctag, stall := none }
  let p := s.port k n
  match p.running with
  | none => if x.pos = 0 ∧ x.sent = 0 then s.setPort k n { p with queued := p.queued ++ [x] } else s.setPort k n { p with running := some x }
  | some _ => s.setPort k n { p with queued := p.queued ++ [x] }

/-- Section 9: a query token in its ring buffer, or behind it where that is taken; its RTAG is a tag on the die it returns to. -/
def State.restoreTok (s : State) (rs : List Renaming) (q : QTok) (use : Option (Nat × RingUse)) : State :=
  let (id, s) := s.fresh
  let c := q.at_
  let bs := setHdr q.bytes 5 (retag rs (retCore q.bytes).dieId (hdrTag q.bytes)).toNat
  let q := { q with id := id, act := rename rs q.act, bytes := bs }
  match q.buf, use with
  | some b, some (_, u) =>
    if ((s.core c).rings.getD b none).isNone then
      ({ s with qtoks := s.qtoks ++ [q] }.setRing c b (some (id, u))).keyWrite c false (ringKey c b) bs none
    else { s with qtoks := s.qtoks ++ [{ q with buf := none }] }.laterAt .queryTokenStationArrival c id
  | _, _ => { s with qtoks := s.qtoks ++ [{ q with buf := none }] }.laterAt .queryTokenStationArrival c id

/-- A shard instruction under its new colour and name. -/
def retagShard (rs : List Renaming) (c : CoreId) (id : Nat) (q : ShardReq) : ShardReq :=
  { q with id := id, tag := retag rs c.dieId q.tag, f := { q.f with tag := retag rs c.dieId q.f.tag } }

/-- Section 10: a withheld access, which tries its translation again, with the shard instruction that waits for it (R216, R329). -/
def State.restoreReq (s : State) (rs : List Renaming) (shards : List (CoreId × ShardReq)) (c : CoreId) (q : MemReq) : State :=
  let (id, s) := s.fresh
  let q := retagReq rs c id q
  let (q, s) := match shards.find? fun x => decide (x.1 = c) && decide (q.op.table? = some x.2.id) with
    | some x =>
      let (n, s) := s.fresh
      ({ q with op := .table n }, s.modCore c fun k => { k with shardReqs := k.shardReqs ++ [retagShard rs c n x.2] })
    | none => (q, s)
  (s.modCore c fun k => { k with reqs := k.reqs ++ [q] }).retryLater c id

/-- A kept token under its new colour (R358). -/
def retagItem (rs : List Renaming) : Item → Item
  | .event (.tokenArrival c p t) x => .event (.tokenArrival c p { t with tag := retag rs c.dieId t.tag }) x
  | .event (.linkTokenCrossing c n d t) x => .event (.linkTokenCrossing c n d { t with tag := retag rs c.dieId t.tag }) x
  | it => it

/-- The gates of a colour at which a core holds requests, by key (R160). -/
def Core.gateKeys (k : Core) (col : BitVec 9) : List (Nat × Word) :=
  (k.entries.filterMap fun e => match e.body with
    | .held .. => if colourOf e.tag = col then some (e.node, e.tag) else none
    | _ => none).eraseDups

/-- The kept tokens of some activations are sent (R358). -/
def State.sendKept (s : State) (reg : List Nat) : State :=
  let mine (it : Item) : Bool := match itemTag it with | some (c, t) => reg.any fun a => s.isOf a c t | none => false
  (s.cores.map Prod.fst).foldl
    (fun s c =>
      let its := (s.core c).kept.filter mine
      if its.isEmpty then s else (s.modCore c fun k => { k with kept := k.kept.filter fun it => !mine it }).laterAll its) s

/-- A region runs again: its gates and streams reopen, held requests that have room enter (R35, R414), its backlog may enter, its armed sends
fire (R414 step 5), and the tokens kept of its releases leave (R358). -/
def State.reopen (s : State) (reg : List Nat) : State :=
  let s := reg.foldl (fun s a => s.modAct a fun x => { x with curtain := false, heldBy := false }) s
  let s := s.sendKept reg
  reg.foldl
    (fun s a => (s.act a).map.foldl
      (fun s p =>
        let s := (s.coresOfDie p.1).foldl
          (fun s c =>
            let s := ((s.core c).gateKeys p.2).foldl (fun s g => s.serveGate c g.1 g.2) s
            (s.laterAt .backlogRefill c 0).issueLater c) s
        (clustersOf p.1).foldl
          (fun s k =>
            let s := (s.cluster k).ports.foldl
              (fun s x => match x.2.running with
                | some y => if s.isOf a (cluCore0 k) y.btag then s.laterAt .streamElement (cluCore0 k) x.1 else s
                | none => if x.2.queued.isEmpty then s else s.laterAt .streamStart (cluCore0 k) x.1) s
            s.wakeTimeline k) s) s) s

/-- A save written back under new colours (R414 steps 3 to 5), by a control core that becomes the admitting one. -/
def State.restore (s : State) (c : CoreId) (v : Saved) (rs : List Renaming) : State :=
  let s := (List.range v.acts.length).foldl
    (fun s i => match v.acts[i]?, rs[i]? with | some x, some r => s.restoreAct rs c r x.2 | _, _ => s) s
  let s := v.hnds.foldl (fun s h => s.restoreHandle rs h.1 h.2.1 h.2.2) s
  let s := v.mats.foldl (fun s m => s.restoreMat rs m) s
  let s := v.waves.foldl (fun s w => s.restoreWave rs w.1 w.2) s
  let s := v.ctrs.foldl (fun s x => s.setCounter x.1 (recolour rs x.1.dieId x.2.1.1) x.2.1.2 x.2.2) s
  let s := v.waits.foldl
    (fun s x => s.modCluster x.1 fun k =>
      { k with waits := k.waits ++ [{ x.2 with colour := recolour rs x.1.dieId x.2.colour, who := retagWho rs x.2.who }] }) s
  let s := v.armed.foldl
    (fun s x => s.modCluster x.1 fun k =>
      { k with armed := k.armed ++ [{ x.2 with
          colour := recolour rs x.1.dieId x.2.colour
          who := retagWho rs x.2.who
          msg := { x.2.msg with
            words := setAt x.2.msg.words 1 (retag rs x.2.msg.sender.core.dieId (x.2.msg.words.getD 1 0))
            sender := { x.2.msg.sender with tag := retag rs x.2.msg.sender.core.dieId x.2.msg.sender.tag } } }] }) s
  let s := v.bars.foldl (fun s b => s.restoreBarrier rs b.1 b.2.1 b.2.2) s
  let s := v.streams.foldl (fun s x => s.restoreStream rs x.1 x.2.1 x.2.2) s
  let s := v.slots.foldl
    (fun s x => match s.slot? x.1 x.2.1 with
      | some y => if y.pid = x.2.2.pid ∧ y.tag = x.2.2.tag then s.modSlot x.1 x.2.1 fun z => { z with tag := retag rs x.1.dieId z.tag } else s
      | none => s) s
  let s := v.order.foldl (fun s p => s.restoreEntry rs p.1 p.2) s
  let s := v.qtoks.foldl (fun s q => s.restoreTok rs q.1 q.2) s
  let s := v.reqs.foldl (fun s q => s.restoreReq rs v.shards q.1 q.2) s
  let s := s.laterAll (v.kept.map fun x => retagItem rs x.2)
  let s := rs.foldl (fun s r => if (s.act r.new).life = .ending then
      (s.laterAt .retireDiscard (s.act r.new).ctl r.new).laterAt .completionTokenRetire (s.act r.new).ctl r.new else s) s
  s.reopen (rs.map (·.new))

/-- A renaming's colours can all be bound on a die: as many are free as the region needs there. -/
def State.fillable (s : State) (v : Saved) : Bool :=
  let dies := (v.acts.flatMap fun x => x.2.map.map Prod.fst).eraseDups
  dies.all fun d =>
    decide ((v.acts.filter fun x => x.2.map.any fun p => decide (p.1 = d)).length ≤ 512 - (s.die d).colours.length)

/-- The slots and tiles that the save holds are free (log 82). -/
def State.claimable (s : State) (v : Saved) : Bool :=
  v.mats.all fun m =>
    (m.slots.all fun p => ((s.core m.core).oClaim.getD p.1 none).isNone) && (m.tiles.all fun p => ((s.core m.core).aClaim.getD p.1 none).isNone)

/-- New names and colours for the saved activations, in order of region index: the launched one takes a given colour on a given die, every
other the lowest free one (R25, R414). -/
def State.renamings (s : State) (d0 : DieId) (col0 : BitVec 9) (v : Saved) : List Renaming × State :=
  let pick (taken : List (DieId × BitVec 9)) (d : DieId) : BitVec 9 :=
    BitVec.ofNat 9 ((leastBelow 512 fun n =>
      (Assoc.get? (s.die d).colours (BitVec.ofNat 9 n)).isNone && decide ((d, BitVec.ofNat 9 n) ∉ taken)).getD 0)
  let go := v.acts.foldl
    (fun (x : List Renaming × List (DieId × BitVec 9) × State) y =>
      let (id, s') := x.2.2.fresh
      let root := y.2.parent.isNone
      let (m, taken) := y.2.map.foldl
        (fun (z : List (DieId × BitVec 9) × List (DieId × BitVec 9)) p =>
          let col := if root ∧ p.1 = d0 then col0 else pick z.2 p.1
          (z.1 ++ [(p.1, col)], z.2 ++ [(p.1, col)])) ([], x.2.1)
      (x.1 ++ [⟨y.1, y.2.map, id, m⟩], taken, s')) ([], [(d0, col0)], s)
  (go.1, go.2.2)

end Sys2Proof.Machine
end

