-- ==== Sys2Proof/Machine/Launch.lean ====
section
/-! DEFINITION. START, installation, admission and what holds a launch (R109 to R117, R124 to R127, R134, R149, R195, R414, R417). -/

namespace Sys2Proof.Machine

open Sys2Proof

/-! ## The checks of a START (R109 to R112) -/

/-- Order 1 of R110: reserved bits, ranges, alignment. TGNODE and TGID are a task graph's to fill (R109, R119). -/
def startOk (ws : List Word) : Bool :=
  let f := startField ws
  let ctrl := f 5 31 0
  decide (1 ≤ f 3 63 52) && decide (f 3 63 52 ≤ 2048) && decide (f 3 51 0 % 8 = 0)
    && decide (8 ≤ f 4 63 52) && decide (f 4 51 0 % 64 = 0)
    && decide (f 5 63 40 = 0) && decide (f 5 39 38 ≠ 3) && decide (ctrl &&& 0x107 = ctrl) && decide (ctrl % 8 ≤ 5)
    && decide (f 7 63 52 = 0) && decide (f 7 51 0 % 16 = 0)
    && decide (f 8 63 52 = 0) && decide (f 8 51 0 % 49152 = 0)
    && decide (f 9 62 53 = 0) && decide (f 9 41 34 < 194) && decide (f 9 19 0 = 0)
    && decide (f 10 63 52 = 0) && decide (f 10 51 0 % 32 = 0)
    && decide (f 11 63 28 = 0) && decide (f 12 63 0 = 0) && decide (f 13 63 0 = 0)

/-- The image cluster of a placement entry (R111). -/
def imgClu (e : Word) : CluId := ⟨bitsOf e.toNat 35 30, bitsOf e.toNat 29 28, bitsOf e.toNat 27 25⟩
/-- Its physical cluster. -/
def physClu (e : Word) : CluId := ⟨bitsOf e.toNat 24 19, bitsOf e.toNat 18 17, bitsOf e.toNat 16 14⟩

/-- The valid entries of a START's placement table, in order (R111). -/
def State.placement (s : State) (ws : List Word) : List Word :=
  let a := startField ws 3 51 0
  ((List.range (startField ws 3 63 52)).map fun i => s.peekWord (dieOfPa (a + 8 * i)) (a + 8 * i)).filter fun e => e.getLsbD 63

/-- The physical cluster of an image cluster. -/
def physOf (es : List Word) (k : CluId) : Option CluId := (es.find? fun e => decide (imgClu e = k)).map physClu

/-- The image clusters that hold records. -/
def Image.clus (x : Image) : List CluId := (x.blocks.map fun b => b.at_.cluId).eraseDups

/-- A placement is valid (R112). -/
def State.placeOk (s : State) (c : CoreId) (x : Image) (es : List Word) : Bool :=
  let phys := es.map physClu
  (es.all fun e => decide (bitsOf e.toNat 62 36 = 0) && decide (e.toNat % 2 ^ 14 = 0))
    && (x.clus.all fun k => decide ((es.filter fun e => decide (imgClu e = k)).length = 1))
    && decide phys.Nodup
    && (phys.all fun k => decide (k.pkg < s.podSize) && s.joined c.pkg k.pkg)
    && decide (c.cluId ∈ phys)

/-- The eight window bases at the head of a parameter block; an ill-formed one leaves its window unbound (R110). -/
def State.paramWindows (s : State) (a : Nat) : List Nat :=
  (List.range 8).map fun n =>
    let w := (s.peekWord (dieOfPa (a + 8 * n)) (a + 8 * n)).toNat
    if w < 2 ^ 52 ∧ w % 8 = 0 then w else 0

/-- The record that ENTRY names, in image coordinates. -/
def startEntry (ws : List Word) : CoreId × Nat × Nat :=
  let f := startField ws 9
  (⟨f 52 47, f 46 45, f 44 42, f 41 34⟩, f 33 22, f 21 20)

/-- The status of a START: the first check of R110 that fails, with the placement and window bases that the checks read. One that is no
node of a replay has TGID and TGNODE zero (R109). -/
def State.startStatus (s : State) (c : CoreId) (ws : List Word) (replay : Nat) (windows : List Nat) : Nat × List Word :=
  if !startOk ws ∨ (replay = 0 ∧ startField ws 11 27 0 ≠ 0) then (1, [])
  else match s.imageOf c.pkg (ws.getD 2 0) with
    | none => (2, [])
    | some x =>
      let es := s.placement ws
      let (k, n, _) := startEntry ws
      if !s.placeOk c x es then (3, es)
      else if x.windows.any fun w => decide (windows.getD w.1 0 = 0) then (4, es)
      else if startField ws 5 37 37 = 1 ∧ !x.spec then (5, es)
      else if startField ws 9 63 63 = 0 ∨ (x.at? k n).isNone then (6, es)
      else (0, es)

/-! ## Held launches (R114, R126) -/

/-- The held launches of a control core, in the order of their acceptance. -/
def State.launches (s : State) (c : CoreId) : List Launch := Assoc.getD (s.cluster c.cluId).launches (c.core - 192) []

/-- They, replaced. -/
def State.setLaunches (s : State) (c : CoreId) (xs : List Launch) : State :=
  s.modCluster c.cluId fun k => { k with launches := Assoc.set k.launches (c.core - 192) xs }

/-- A held launch. -/
def State.launch? (s : State) (c : CoreId) (id : Nat) : Option Launch := (s.launches c).find? fun y => decide (y.id = id)

/-- A held launch changed. -/
def State.modLaunch (s : State) (c : CoreId) (id : Nat) (f : Launch → Launch) : State :=
  s.setLaunches c ((s.launches c).map fun y => if y.id = id then f y else y)

/-- A launch held no longer. -/
def State.dropLaunch (s : State) (c : CoreId) (id : Nat) : State :=
  s.setLaunches c ((s.launches c).filter fun y => decide (y.id ≠ id))

/-- A launch joins its control core's held launches, and its installation begins. -/
def State.hold (s : State) (c : CoreId) (y : Launch) : State :=
  let (id, s) := s.fresh
  (s.setLaunches c (s.launches c ++ [{ y with id := id }])).laterAt .install c id

/-- The launch inbox of a control core. -/
def launchEngine (c : CoreId) : EngineId := ⟨.launch, c⟩

/-- The colour whose counter a launch message advances: none for the host, who has no colour (R43, R382). -/
def State.launchCounter (s : State) (c : CoreId) (m : Msg) : Option (BitVec 9) :=
  if msgTle m ∧ m.sender.kind ≠ .host then s.msgCounter (launchEngine c) m else none

/-- A launch message takes its number (R43). -/
def State.takeLaunch (s : State) (c : CoreId) (m : Msg) : Nat × State :=
  match s.launchCounter c m with
  | some col => s.takeNumber c.cluId col (msgTlc m)
  | none => (0, s)

/-- A launch message completes: its number, and its reply with a status (R42, R109, R123). -/
def State.endLaunch (s : State) (c : CoreId) (m : Msg) (num status : Nat) : State :=
  let s := match s.launchCounter c m with
    | some col => s.completeNumber c.cluId col (msgTlc m) num
    | none => s
  match m.sender.kind with
  | .host => s
  | _ => s.replyFrom m.sender.core m.sender.node (msgRdst m) (m.words.getD 1 0) (plainOp (BitVec.ofNat 64 status))

/-- A START checked, and refused or held (R109, R110); `windows` are the window bases of its parameter block. -/
def State.acceptStart (s : State) (c : CoreId) (m : Msg) (replay : Nat) (windows : List Nat) : State :=
  let (num, s) := s.takeLaunch c m
  let (status, es) := s.startStatus c m.words replay windows
  if status ≠ 0 then (s.launchEnded c m.words status 0 0 replay).endLaunch c m num status
  else s.hold c
    { id := 0, words := m.words, sender := m.sender, num := num, since := none, ready := false, blocking := false, replay := replay,
      reissues := 0, windows := windows, place := es, of_ := none, restore := none }

/-- START (R109): one activation is launched, or refused with a completion record. -/
def execStart (c : CoreId) (m : Msg) (s : State) : Host.Outcome State Fault Refusal :=
  .next (s.acceptStart c m 0 (s.paramWindows (startField m.words 4 51 0)))

/-! ## Installing (R113 to R115, R134) -/

/-- The image is resident on a physical cluster under a placement (R113). -/
def State.residentAt (s : State) (x : Word) (es : List Word) (e : Word) : Bool :=
  (s.pkg (physClu e).pkg).resident.any fun r =>
    decide (r.image = x) && decide (r.clu = physClu e) && decide (r.from_ = imgClu e) && decide (r.place = es)

/-- And its installation is complete (R115, R116). -/
def State.installedAt (s : State) (x : Word) (es : List Word) (e : Word) : Bool :=
  (s.pkg (physClu e).pkg).resident.any fun r =>
    decide (r.image = x) && decide (r.clu = physClu e) && decide (r.from_ = imgClu e) && decide (r.place = es) && decide (r.due ≤ s.now)

/-- An install of an image cluster would write a record that a live activation uses (R21, R114). -/
def State.inUse (s : State) (x : Image) (e : Word) : Bool :=
  let k := physClu e
  let live := (s.acts.filter fun a => decide (k ∈ a.2.clus) && decide (a.2.life ≠ .saved)).map fun a => a.2.image
  x.blocks.any fun b =>
    decide (b.at_.cluId = imgClu e) &&
      ((s.core ⟨k.pkg, k.die, k.clu, b.at_.core⟩).owner.any fun p =>
        decide (b.first ≤ p.1) && decide (p.1 < b.first + b.recs.length) && decide (p.2 ∈ live))

/-- A far entry with its coordinates resolved through a placement; one whose cluster has no entry names nothing (R85, R112). -/
def resolveFar (es : List Word) (w : Word) : Word :=
  let n := w.toNat
  if !w.getLsbD 63 then 0
  else match physOf es ⟨bitsOf n 52 47, bitsOf n 46 45, bitsOf n 44 42⟩ with
    | some k => BitVec.ofNat 64 (putBits 1 63 + putBits k.pkg 47 + putBits k.die 45 + putBits k.clu 42 + n % 2 ^ 42)
    | none => 0

/-- The wing capacity of an image's cores (R134). -/
def Image.wingCap (x : Image) : Nat := min (max ((if x.wings = 0 then 65536 else x.wings) / 1024 * 1024) 1024) 1048576

/-- The region of a record, and the scope it has (R100, R350). -/
def Image.regionAt (x : Image) (c : CoreId) (n : Nat) : Option (Nat × Nat) :=
  (leastBelow x.regions.length fun i => inRegion (x.regions.getD i (0, [])) c n).map fun i => (i, (x.regions.getD i (0, [])).1)

/-- The copy of a chorus that a record is, and the core of the original (R97, R172). -/
def Image.copyAt (x : Image) (c : CoreId) (n : Nat) : Option (Nat × Nat) :=
  x.choruses.findSome? fun m =>
    let k := m.1.core
    if m.1.cluId = c.cluId ∧ m.2.2.2.1 ≤ n ∧ n < m.2.2.2.1 + m.2.2.2.2 then
      if c.core = k then some (0, k)
      else if c.core = (k + m.2.1) % 192 then some (1, k)
      else if c.core = (k + m.2.2.1) % 192 then some (2, k)
      else none
    else none

/-- A key's value set, or its entry removed. -/
def assocPut {α : Type} (m : List (Nat × α)) (n : Nat) : Option α → List (Nat × α)
  | some v => Assoc.set m n v
  | none => Assoc.erase m n

/-- The records of a block written on a core, with their owner, region and chorus copy (R113). -/
def Core.putBlock (k : Core) (x : Image) (b : Block) : Core :=
  (List.range b.recs.length).foldl
    (fun k i =>
      let n := b.first + i
      { k with elem := Assoc.set k.elem n (b.recs.getD i 0)
               owner := Assoc.set k.owner n x.id
               regions := assocPut k.regions n (x.regionAt b.at_ n)
               chorus := assocPut k.chorus n (x.copyAt b.at_ n) }) k

/-- The core of a placed image gets its records, the far table that the image has for it, and its wing area unless it holds one (R113,
R134). -/
def Core.install (k : Core) (x : Image) (es : List Word) (b : Block) (wing : Nat) : Core :=
  let k := k.putBlock x b
  let w := x.wingCap
  { k with far := if x.fars.any fun f => decide (f.1 = b.at_) then
             (List.range 64).map fun i => (i, resolveFar es (BitVec.ofNat 64 (x.far b.at_ i))) else k.far
           wingCfg := if k.wingCfg = 0 then BitVec.ofNat 64 (putBits (w / 1024) 52 + (wing + b.at_.core * w * 48) % 2 ^ 52) else k.wingCfg }

/-- A core's records without those of images that are resident no longer (R113). -/
def Core.disown (k : Core) (gone : List Word) : Core :=
  let lost := (k.owner.filter fun p => decide (p.2 ∈ gone)).map Prod.fst
  { k with owner := k.owner.filter fun p => decide (p.2 ∉ gone)
           regions := k.regions.filter fun p => decide (p.1 ∉ lost)
           chorus := k.chorus.filter fun p => decide (p.1 ∉ lost) }

/-- Images lose their residency of a cluster; an ordinary core that no configuration uses then is gated (R113, R115). -/
def State.displace (s : State) (k : CluId) (gone : List Word) : State :=
  (s.coresOfClu k).foldl
    (fun s c =>
      if (s.core c).owner.any (fun p => decide (p.2 ∈ gone)) then
        let s := s.modCore c fun y => y.disown gone
        if c.isCtl ∨ !(s.core c).owner.isEmpty then s else s.laterAt .powerGate c 0
      else s) s

/-- An image cluster installed on its physical cluster, complete at `due`; images whose records it replaces are resident there no longer
(R113). `wing` is where the wing areas of the cluster's cores begin. -/
def State.installClu (s : State) (x : Image) (es : List Word) (e : Word) (wing due : Nat) : State :=
  let k := physClu e
  let mine := x.blocks.filter fun b => decide (b.at_.cluId = imgClu e)
  let at_ (b : Block) : CoreId := ⟨k.pkg, k.die, k.clu, b.at_.core⟩
  let gone := x.id :: mine.flatMap fun b =>
    ((s.core (at_ b)).owner.filter fun p => decide (b.first ≤ p.1) && decide (p.1 < b.first + b.recs.length)).map fun p => p.2
  let s := s.displace k gone
  let s := mine.foldl (fun s b => (s.wakeCore (at_ b)).modCore (at_ b) fun c => c.install x es b wing) s
  s.modPkg k.pkg fun p =>
    { p with resident := (p.resident.filter fun r => !(decide (r.clu = k) && decide (r.image ∈ gone))) ++ [⟨x.id, k, imgClu e, es, due⟩] }

/-- How long an install of a cluster takes, in nanoseconds: the gated rows' wake and the record transfer (R115). -/
def State.installTime (s : State) (x : Image) (e : Word) : Nat :=
  let k := physClu e
  let mine := x.blocks.filter fun b => decide (b.at_.cluId = imgClu e)
  let gated := (mine.filter fun b =>
    decide (b.at_.core < 192) && decide ((s.core ⟨k.pkg, k.die, k.clu, b.at_.core⟩).power = .gated)).map fun b => b.at_.core / 16
  let rows := gated.eraseDups.length
  (if rows = 0 then 0 else (rows - 1) * 250 + 800) + ((mine.map fun b => b.recs.length).sum + 1) / 2

/-- Every cluster of a launch's placement that its image has records for. -/
def Launch.needed (y : Launch) (x : Image) : List Word := y.place.filter fun e => decide (imgClu e ∈ x.clus)

/-- The image of a launch, where it is accepted on the control core's package. -/
def State.launchImage (s : State) (c : CoreId) (y : Launch) : Option Image := s.imageOf c.pkg (y.words.getD 2 0)

/-- A launch is installed on every physical cluster (R116); a reissued child has nothing to install. -/
def State.installed (s : State) (c : CoreId) (y : Launch) : Bool :=
  y.of_.isSome || (match s.launchImage c y with
    | some x => (y.needed x).all fun e => s.installedAt x.id y.place e
    | none => false)

/-- A CFGINST whose wake and transfer time has passed sends its status (R195). -/
def State.endCfginst (s : State) (p id : Nat) : State :=
  match Assoc.get? (s.pkg p).cfgs id with
  | none => s
  | some who => (s.modPkg p fun x => { x with cfgs := Assoc.erase x.cfgs id }).replyBoth who (plainOp 0) (plainOp 0)

/-- INSTALL (R113 to R115, R195): the image of a held launch is installed where it is not resident, and its admission is considered when the
wake and transfer time has passed; the launch waits while a live activation uses records that this would write. With the mark of its
site a CFGINST ends. -/
def execInstall (s : State) : Host.Outcome State Fault Refusal :=
  .next (
    let c := s.site.core
    let l := s.site.n
    if s.site.flag then s.endCfginst c.pkg l
    else match s.launch? c l with
    | none => s
    | some y =>
      if s.installed c y then (s.modLaunch c l fun y => { y with ready := true }).laterAt .admission c l
      else match s.launchImage c y with
        | none => s.laterAt .install c l
        | some x =>
          let todo := (y.needed x).filter fun e => !s.residentAt x.id y.place e
          if todo.isEmpty ∨ todo.any (fun e => s.inUse x e) then s.laterAt .install c l
          else
            let wait := (todo.map fun e => s.installTime x e).foldl max 0
            let wing := startField y.words 8 51 0
            let s := todo.foldl
              (fun s e =>
                let k := (leastBelow y.place.length fun i => decide (y.place.getD i 0 = e)).getD 0
                s.installClu x y.place e (wing + k * 194 * x.wingCap * 48) (s.now + wait)) s
            s.at_ (s.now + wait) .admission ⟨c, l, 0, true⟩)

/-- CFGINST (R195) installs the image at $0 for the image cluster that placement entry $1 maps to this cluster, and sends 0 when the wake and
transfer time of R115 has passed. Other clusters' entries are those under which the image is resident elsewhere on the package (log
77). -/
def execCfginst (r : Rec) (s : State) : Host.Outcome State Fault Refusal :=
  fire Forms.cfginst r s fun t s => do
    s.scalars r
    let c := s.cur.core
    let e := s.cur.op1.val
    let answer (n : Nat) (s : State) : Eff := .ok (s.out r t (plainOp (BitVec.ofNat 64 n)))
    match (s.pkg c.pkg).images.find? fun x => decide (x.pa = s.cur.op0.val.toNat) with
    | none => answer 2 s
    | some x =>
      if !e.getLsbD 63 ∨ physClu e ≠ c.cluId then answer 3 s
      else if s.inUse x e then answer 1 s
      else
        let es := [e] ++ ((s.pkg c.pkg).resident.filter fun y => decide (y.image = x.id)).flatMap fun y =>
          y.place.filter fun w => decide (imgClu w ≠ imgClu e)
        let n := s.free
        let due := s.now + s.installTime x e
        let (id, s) := { s with free := n + 1 }.fresh
        let who := s.asker r t
        let s := (s.installClu x es e (49152 * Config.wingAt n) due).modPkg c.pkg fun p => { p with cfgs := p.cfgs ++ [(id, who)] }
        .ok (s.at_ due .install ⟨c, id, 0, true⟩)

/-! ## Admission (R116, R117, R124 to R127, R149) -/

/-- The physical clusters that a launch covers. -/
def Launch.clus (s : State) (y : Launch) : List CluId :=
  match y.of_ with
  | some a => (s.act a).clus
  | none => y.place.map physClu

/-- The dies that it covers. -/
def Launch.dies (s : State) (y : Launch) : List DieId :=
  match y.of_ with
  | some a => (s.act a).map.map Prod.fst
  | none => ((Launch.clus s y).map (·.dieId)).eraseDups

/-- The watts that a launch charges to each cluster island (R124); a reissued child charges none. -/
def Launch.watts (y : Launch) : Nat := if y.of_.isSome then 0 else 4 * startField y.words 5 35 32

/-- The lowest point, no lower than the present one, at which an island carries a launch as well (R127). -/
def Island.pointFor (x : Island) (w : Nat) : Option Nat :=
  (List.range 6).find? fun p => decide (x.point ≤ p) && decide (drawAt (x.committed + w) p ≤ x.allow)

/-- The island of a cluster (R436). -/
def State.cluIsland (s : State) (k : CluId) : Island := s.island k.pkg (8 * k.die + k.clu)

/-- What the dispatcher finds for a launch. -/
inductive Judged where
  | granted
  | noPoint
  | wait
deriving DecidableEq, Repr

/-- A launch judged by R116 and R127: installed, no island too hot, a colour free on every die, a point for every island. A class of 0 is
never held for allowance (R124). -/
def State.judge (s : State) (c : CoreId) (y : Launch) : Judged :=
  let ks := Launch.clus s y
  let colours := match y.restore with
    | some (area, col, _) =>
      match s.saveOf area with
      | some v => s.fillable v && (Assoc.get? (s.die c.dieId).colours col).isNone && s.claimable v
      | none => true
    | none => (Launch.dies s y).all fun d => (s.freeColour d).isSome
  if !y.ready ∨ !s.installed c y then .wait
  else if ks.any fun k => (s.cluIsland k).hot then .noPoint
  else if y.watts ≠ 0 ∧ ks.any fun k => ((s.cluIsland k).pointFor y.watts).isNone then .noPoint
  else if !colours then .wait
  else .granted

/-- The islands move to their points, and the charge is committed (R127). An island at which a class of 0 finds no point keeps its own. -/
def State.charge (s : State) (y : Launch) : State :=
  if y.of_.isSome then s
  else (Launch.clus s y).foldl
    (fun s k =>
      let i := 8 * k.die + k.clu
      let p := ((s.cluIsland k).pointFor y.watts).getD (s.cluIsland k).point
      (s.setPoint k.pkg i p).modIsland k.pkg i fun x => { x with committed := x.committed + y.watts }) s

/-- A colour on each die, the lowest free one (R25, R116). -/
def State.coloursFor (s : State) (ds : List DieId) : List (DieId × BitVec 9) := ds.map fun d => (d, (s.freeColour d).getD 0)

/-- An activation's colours bound, with its phase bits (R25, R149). -/
def State.bindAll (s : State) (a : Nat) : State :=
  let x := s.act a
  x.map.foldl (fun s p => (s.bindColour p.1 p.2 a).setPhase p.1 x.image x.clus p.2 x.phase) s

/-- A START admitted (R117): its state recorded, its first token sent, its message completed. -/
def State.admitStart (s : State) (c : CoreId) (y : Launch) (x : Image) : State :=
  let ws := y.words
  let f := startField ws
  let (a, s) := s.fresh
  let (k, n, port) := startEntry ws
  let clu := (physOf y.place k.cluId).getD c.cluId
  let at_ : CoreId := ⟨clu.pkg, clu.die, clu.clu, k.core⟩
  let act : Act :=
    { Act.reset with
      map := s.coloursFor (Launch.dies s y)
      ctrl := BitVec.ofNat 32 (f 5 31 0)
      rng := ws.getD 6 0
      windows := y.windows
      wsizes := x.windows.map fun w => (w.1, w.2.1)
      plan := x.plan
      defer := f 7 51 0
      defern := x.pool
      poolAct := a
      stall := x.stall
      grant := decide (f 5 37 37 = 1)
      reissue := decide (f 5 36 36 = 1)
      eclass := f 5 35 32
      phase := f 5 39 38
      origin := .launch
      ctl := c
      image := x.id
      start := ws
      entry := ⟨at_, 0, BitVec.ofNat 24 (putBits 1 22 + putBits n 2 + port)⟩
      arg0 := BitVec.ofNat 64 (f 4 51 0)
      rng0 := ws.getD 6 0
      reissues := y.reissues
      replay := y.replay
      clus := y.place.map physClu
      place := y.place
      charged := decide (y.watts ≠ 0) }
  let s := ({ s with acts := s.acts ++ [(a, act)] }.bindAll a)
  let t := mkTag ((s.colourOn a at_.dieId).getD 0) 0 0
  let path : Path := if at_ = c then .own else .network
  s.later (.tokenArrival at_ path ⟨n, port, t, plainOp (BitVec.ofNat 64 (f 4 51 0)), []⟩)

/-- A reissued child restarts at its entry destination under a fresh colour (R417). -/
def State.readmitChild (s : State) (old : Nat) : State :=
  let x := s.act old
  let (a, s) := s.fresh
  let y : Act :=
    { x with map := s.coloursFor (x.map.map Prod.fst), flags := 0, rng := x.rng0, life := .live, endWord := 0, discarded := false, reached := [],
             reissues := x.reissues + 1, curtain := false, heldBy := false }
  let s := ({ s with acts := Assoc.erase s.acts old ++ [(a, y)] }.bindAll a)
  s.replyFrom x.entry.core x.entry.node x.entry.dst (mkTag ((s.colourOn a x.entry.core.dieId).getD 0) 0 0) (plainOp x.arg0)

/-- A held launch admitted (R117): a START, a reissue (R417) or a restore (R414). -/
def State.admitLaunch (s : State) (c : CoreId) (y : Launch) : State :=
  let s := (s.charge y).dropLaunch c y.id
  match y.of_, y.restore with
  | some a, _ => s.readmitChild a
  | none, some (area, col, who) =>
    match s.saveOf area with
    | none => s.replyBoth who (plainOp 4) (plainOp 4)
    | some v =>
      let (rs, s) := s.renamings c.dieId col v
      let s := s.restore c v rs
      let s := match rs with
        | r :: _ => s.modAct r.new fun x => { x with charged := decide (y.watts ≠ 0) }
        | [] => s
      s.replyBoth who (plainOp 0) (plainOp 0)
  | none, none =>
    match s.launchImage c y with
    | none => s
    | some x =>
      let s := s.admitStart c y x
      if y.reissues = 0 then s.endLaunch c ⟨y.words, y.sender, false, []⟩ y.num 0 else s

/-- A launch accepted before, at any control core, blocks an island of this one: names are given in the order of acceptance (R127). -/
def State.blockedOut (s : State) (y : Launch) : Bool :=
  let ks := Launch.clus s y
  s.clusters.any fun k => k.2.launches.any fun l => l.2.any fun z =>
    z.blocking && decide (z.id < y.id) && (Launch.clus s z).any fun x => decide (x ∈ ks)

/-- The dispatcher considers its held launches in order and admits the first that may be admitted; none that shares an island with a
blocking launch accepted before it (R127). -/
def State.consider (s : State) (c : CoreId) : List Launch → State
  | [] => s
  | y :: ys =>
    if s.blockedOut y then State.consider s c ys
    else match s.judge c y with
      | .granted => s.admitLaunch c y
      | .wait => State.consider s c ys
      | .noPoint =>
        let s := match y.since with
          | some _ => s
          | none => (s.modLaunch c y.id fun y => { y with since := some s.now }).at_ (s.now + 1000000) .launchBlocking ⟨c, y.id, 0, false⟩
        State.consider s c ys

/-- ADMISSION (R116, R117, R127): the dispatcher of a control core considers its held launches. A launch that stays held is considered again;
one whose image is resident no longer is installed again. -/
def execAdmission (s : State) : Host.Outcome State Fault Refusal :=
  .next (
    let c := s.site.core
    let l := s.site.n
    let s := if s.site.flag then s.modLaunch c l fun y => { y with ready := true } else s
    let s := s.consider c (s.launches c)
    match s.launch? c l with
    | none => s
    | some y =>
      if y.ready ∧ !s.installed c y then (s.modLaunch c l fun y => { y with ready := false }).laterAt .install c l
      else s.laterAt .admission c l)

/-- LAUNCH_BLOCKING (R127): a launch held for 1 ms becomes blocking. -/
def execLaunchBlocking (s : State) : Host.Outcome State Fault Refusal :=
  .next (s.modLaunch s.site.core s.site.n fun y => { y with blocking := true })

end Sys2Proof.Machine
end

