-- ==== Sys2Proof/Machine/Graphs.lean ====
section
/-! DEFINITION. Task graphs: registration, replays, patches, node dispatch (R118 to R123). -/

namespace Sys2Proof.Machine

open Sys2Proof

/-! ## Records (R123, R431) -/

/-- A task-graph message completes: its number and reply, one TASKGRAPH record to queue 0, and a copy to NOTIFY (R123, R431). -/
def State.endGraphMsg (s : State) (c : CoreId) (m : Msg) (num status tgid node replay : Nat) : State :=
  let r : List Word :=
    [BitVec.ofNat 64 (putBits 0x0E 56 + putBits status 48 + putBits (msgOpc m) 40 + putBits node 16 + tgid), BitVec.ofNat 64 (replay % 2 ^ 32), 0,
      s.timeWord c.pkg 0]
  (((s.board c.cluId 0 r).1.notify (msgField m 4 51 0) r)).endLaunch c m num status

/-- What REPLAY and GRAPHDROP reserve is zero, and NOTIFY is aligned; TGID is checked where GRAPHREG needs it (R122). -/
def graphMsgOk (m : Msg) : Bool :=
  decide (msgField m 4 63 52 = 0) && decide (msgField m 4 51 0 % 32 = 0) && decide (msgField m 5 63 0 = 0)

/-! ## GRAPHREG (R118) -/

/-- A node as the graph table gives it: offset and length of its record, START body, predecessor count, successors. -/
structure NodeRec where
  off   : Nat
  len   : Nat
  body  : List Word
  npred : Nat
  succs : List Nat

/-- Words of memory, from a physical address. -/
def State.wordsAt (s : State) (a n : Nat) : List Word := (List.range n).map fun i => s.peekWord (dieOfPa (a + 8 * i)) (a + 8 * i)

/-- A START body of a task-graph table: as a START's, with TGID and TGNODE zero (R118). -/
def bodyOk (body : List Word) : Bool := startOk ([0, 0] ++ body) && decide (startField ([0, 0] ++ body) 11 27 0 = 0)

/-- A node's record read; none where its own fields break R118. -/
def State.nodeRec (s : State) (table n i : Nat) : Option NodeRec :=
  let w := (s.peekWord (dieOfPa (table + 8 * i)) (table + 8 * i)).toNat
  if 2 ^ 32 ≤ w ∨ w % 8 ≠ 0 then none
  else
    let a := table + w
    let body := s.wordsAt a 12
    let h := (s.peekWord (dieOfPa (a + 96)) (a + 96)).toNat
    let k := bitsOf h 23 12
    let padded := (k + 3) / 4 * 4
    let succs := (List.range padded).map fun j => leNat (s.peek (dieOfPa (a + 104 + 2 * j)) (a + 104 + 2 * j) 2)
    if 2 ^ 24 ≤ h ∨ !bodyOk body ∨ (succs.drop k).any (fun x => decide (x ≠ 0)) then none
    else if (succs.take k).any (fun x => decide (n ≤ x)) ∨ !decide (succs.take k).Nodup then none
    else some ⟨w, 104 + 2 * padded, body, h % 4096, succs.take k⟩

/-- No two records of a table overlap. -/
def apartRecs (xs : List NodeRec) : Bool :=
  (List.range xs.length).all fun i => (List.range i).all fun j =>
    match xs[i]?, xs[j]? with
    | some x, some y => decide (x.off + x.len ≤ y.off) || decide (y.off + y.len ≤ x.off)
    | _, _ => true

/-- The nodes left once those with no predecessor among them have gone, as often as it takes. -/
def peel (succs : List (List Nat)) : Nat → List Nat → List Nat
  | 0, left => left
  | k + 1, left =>
    let next := left.filter fun n => left.any fun p => decide (n ∈ succs.getD p [])
    if next.length = left.length then left else peel succs k next

/-- The graph table at an address, as GRAPHREG copies it; none for the cases of R118 that are BADMSG. -/
def State.readGraph (s : State) (table n : Nat) : Option (List NodeRec) :=
  match (List.range n).mapM fun i => s.nodeRec table n i with
  | none => none
  | some xs =>
    let succs := xs.map (·.succs)
    let counted (i : Nat) : Nat := (succs.filter fun t => decide (i ∈ t)).length
    if apartRecs xs ∧ (List.range n).all (fun i => match xs[i]? with | some x => decide (x.npred = counted i) | none => false)
        ∧ (peel succs n (List.range n)).isEmpty then some xs
    else none

/-- PSIZE of a START body. -/
def bodyPsize (b : List Word) : Nat := bitsOf (b.getD 2 0).toNat 63 52

/-- A number of words made up to 64 bytes. -/
def upTo8 (n : Nat) : Nat := (n + 7) / 8 * 8

/-- The words that the copy of a graph's table takes (R118; log 70). -/
def TaskGraph.tableWords (g : TaskGraph) : Nat := upTo8 (g.succs.map fun t => 14 + (t.length + 3) / 4).sum

/-- The words that the copies of some nodes' bodies and parameter blocks take, each at a multiple of 64 bytes (log 70). -/
def copyWords (psizes : List Nat) : Nat := (psizes.map fun p => upTo8 12 + upTo8 p).sum

/-- The words of storage that a graph takes: its table, and room for four copies of each body and parameter block (R118). -/
def TaskGraph.space (g : TaskGraph) : Nat := g.tableWords + 4 * copyWords g.psizes

/-- Where a place of a graph's storage holds a node's parameter block: behind its body (R120; log 76). -/
def TaskGraph.blockAt (g : TaskGraph) (slot node : Nat) : Nat :=
  g.base + 8 * (g.tableWords + slot * copyWords g.psizes + copyWords (g.psizes.take node) + upTo8 12)

/-- Where a control core's task-graph storage begins (R118). -/
def State.storeOf (s : State) (c : CoreId) : Nat :=
  (s.pkg c.pkg).storeAt + 8 * (s.pkg c.pkg).storeLen * (2 * coreIsland c + (c.core - 192))

/-- The lowest place for n bytes between two addresses that lies apart from what is used; none where it does not fit. -/
def firstFit (used : List (Nat × Nat)) (lo hi n : Nat) : Option Nat :=
  ((lo :: used.map fun u => u.1 + u.2).filter fun a =>
    decide (a + n ≤ hi) && used.all fun u => decide (a + n ≤ u.1) || decide (u.1 + u.2 ≤ a)).foldl
    (fun m a => match m with | some b => some (min a b) | none => some a) none

/-- Where a graph's copy fits in its control core's storage (R118). -/
def State.storePlace (s : State) (c : CoreId) (g : TaskGraph) : Option Nat :=
  let used := ((s.cluster c.cluId).graphs.filter fun y => decide (y.ctl = c.core)).map fun y => (y.base, 8 * y.space)
  firstFit used (s.storeOf c) (s.storeOf c + 8 * (s.pkg c.pkg).storeLen) (8 * g.space)

/-- GRAPHREG (R118, R122, R123): a task graph is registered. -/
def execGraphreg (c : CoreId) (m : Msg) (s : State) : Host.Outcome State Fault Refusal :=
  .next (
    let (num, s) := s.takeLaunch c m
    let tgid := msgField m 3 15 0
    let table := msgField m 2 51 0
    let answer (s : State) (status : Nat) : State := s.endGraphMsg c m num status tgid 0 0
    if !graphMsgOk m ∨ msgField m 3 63 16 ≠ 0 ∨ table % 8 ≠ 0 ∨ tgid = 0 ∨ (s.graph? c tgid).isSome then answer s 1
    else match s.readGraph table (msgField m 2 63 52 + 1) with
      | none => answer s 1
      | some xs =>
        let g : TaskGraph :=
          { ctl := c.core, tgid := tgid, base := 0, psizes := xs.map fun x => bodyPsize x.body, bodies := xs.map (·.body), succs := xs.map (·.succs)
            nextNum := 1, live := [], heldQ := [], dropped := false }
        match s.storePlace c g with
        | none => answer s 0x0A
        | some a => answer (s.modCluster c.cluId fun k => { k with graphs := k.graphs ++ [{ g with base := a }] }) 0)

/-! ## REPLAY (R119, R120) -/

/-- A node's body and parameter block copied for a replay: the block to its place a in the graph's storage, which the body then names (R120;
log 76). -/
def State.snapshot (s : State) (body : List Word) (a : Nat) : (List Word × List Word) × State :=
  let w := (body.getD 2 0).toNat
  let block := s.wordsAt (w % 2 ^ 52) (bodyPsize body)
  ((setAt body 2 (BitVec.ofNat 64 (putBits (bodyPsize body) 52 + a)), block), s.sysWrite (dieOfPa a) a (block.flatMap fun x => leBytes 8 x.toNat))

/-- A replay accepted: the copies of R120 made, its number given, its first nodes to be dispatched; its message completes. -/
def State.acceptReplay (s : State) (c : CoreId) (m : Msg) (num : Nat) (g : TaskGraph) : State :=
  let slot := (leastBelow 4 fun i => !(g.live.any fun x => decide (x.slot = i))).getD 0
  let (copies, s) := g.bodies.zipIdx.foldl
    (fun (x : List (List Word × List Word) × State) b =>
      let (y, s) := x.2.snapshot b.1 (g.blockAt slot b.2)
      (x.1 ++ [y], s)) ([], s)
  let r : Replay :=
    { num := g.nextNum, slot := slot, bodies := copies.map (·.1), params := copies.map (·.2), todo := List.range g.bodies.length, running := [], okNodes := [],
      skipped := [] }
  let s := s.modGraph c g.tgid fun y => { y with nextNum := y.nextNum + 1, live := y.live ++ [r] }
  let s := ((List.range g.bodies.length).filter fun n => (g.preds n).isEmpty).foldl
    (fun s n => s.later (.taskgraphNodeDispatch c g.tgid r.num n)) s
  s.endGraphMsg c m num 0 g.tgid 0 r.num

/-- REPLAY (R119, R120): one replay of a graph is submitted; a fifth is held. -/
def execReplay (c : CoreId) (m : Msg) (s : State) : Host.Outcome State Fault Refusal :=
  .next (
    let (num, s) := s.takeLaunch c m
    let tgid := msgField m 2 15 0
    if !graphMsgOk m ∨ msgField m 2 63 16 ≠ 0 ∨ msgField m 3 63 0 ≠ 0 then s.endGraphMsg c m num 1 tgid 0 0
    else match s.graph? c tgid with
      | none => s.endGraphMsg c m num 9 tgid 0 0
      | some g =>
        if g.dropped then s.endGraphMsg c m num 9 tgid 0 0
        else if 4 ≤ g.live.length ∨ !g.heldQ.isEmpty then s.modGraph c tgid fun y => { y with heldQ := y.heldQ ++ [(m, num)] }
        else s.acceptReplay c m num g)

/-- A dropped graph's storage is freed once no replay of it is live or held (R121). -/
def State.freeGraph (s : State) (c : CoreId) (tgid : Nat) : State :=
  s.modCluster c.cluId fun k =>
    { k with graphs := k.graphs.filter fun g =>
        !(decide (g.ctl = c.core) && decide (g.tgid = tgid) && g.dropped && g.live.isEmpty && g.heldQ.isEmpty) }

/-- REPLAY_RELEASE (R119): a replay has ended, and the oldest held one is accepted: its copies are made now, so a PATCH that came while it
was held acts on it (R123; DESIGN CHOICE, log 35). -/
def execReplayRelease (s : State) : Host.Outcome State Fault Refusal :=
  .next (
    let c := s.site.core
    let tgid := s.site.n
    match s.graph? c tgid with
    | none => s
    | some g =>
      match g.heldQ with
      | (m, num) :: rest =>
        if 4 ≤ g.live.length then s
        else
          let s := s.modGraph c tgid fun y => { y with heldQ := rest }
          s.acceptReplay c m num { g with heldQ := rest }
      | [] => s.freeGraph c tgid)

/-! ## PATCH and GRAPHDROP (R121) -/

/-- PATCH (R121): a node's body is replaced, for every replay accepted later. -/
def execPatch (c : CoreId) (m : Msg) (s : State) : Host.Outcome State Fault Refusal :=
  .next (
    let (num, s) := s.takeLaunch c m
    let tgid := msgField m 2 15 0
    let node := msgField m 2 27 16
    let a := msgField m 3 51 0
    let answer (s : State) (status : Nat) : State := s.endGraphMsg c m num status tgid node 0
    if !graphMsgOk m ∨ msgField m 2 63 28 ≠ 0 ∨ msgField m 3 63 52 ≠ 0 ∨ a % 8 ≠ 0 then answer s 1
    else match s.graph? c tgid with
      | none => answer s 9
      | some g =>
        let body := s.wordsAt a 12
        if g.dropped then answer s 9
        else if g.bodies.length ≤ node ∨ !bodyOk body then answer s 1
        else if g.psizes.getD node 0 < bodyPsize body then answer s 0x0A
        else answer (s.modGraph c tgid fun y => { y with bodies := setAt y.bodies node body }) 0)

/-- GRAPHDROP (R121): further REPLAY and PATCH messages for the graph are refused, and its storage is freed when its last replay ends. -/
def execGraphdrop (c : CoreId) (m : Msg) (s : State) : Host.Outcome State Fault Refusal :=
  .next (
    let (num, s) := s.takeLaunch c m
    let tgid := msgField m 2 15 0
    let answer (s : State) (status : Nat) : State := s.endGraphMsg c m num status tgid 0 0
    if !graphMsgOk m ∨ msgField m 2 63 16 ≠ 0 ∨ msgField m 3 63 0 ≠ 0 then answer s 1
    else match s.graph? c tgid with
      | none => answer s 9
      | some g =>
        if g.dropped then answer s 9
        else answer ((s.modGraph c tgid fun y => { y with dropped := true }).freeGraph c tgid) 0)

/-! ## Node dispatch (R119, R407) -/

/-- A curtain closes a cluster that a placement names to the dispatcher (R407; log 83). -/
def State.curtainOn (s : State) (ks : List CluId) : Bool := s.acts.any fun a => a.2.curtain && a.2.clus.any fun k => decide (k ∈ ks)

/-- The copy of a node's parameter block is not yet visible to every die (R120). -/
def State.copying (s : State) (g : TaskGraph) (x : Replay) (node : Nat) : Bool :=
  (rangeLines (g.blockAt x.slot node) (8 * g.psizes.getD node 0)).any fun y => ((s.die (homeDie y.1)).line? y.1).any fun z => !z.pend.isEmpty

/-- TASKGRAPH_NODE_DISPATCH (R119, R120): a node is launched as a START once every predecessor in its replay has retired with OK, and its
copy is made. -/
def execTaskgraphNodeDispatch (c : CoreId) (tg replay node : Nat) (s : State) : Host.Outcome State Fault Refusal :=
  .next (
    match (s.graph? c tg).bind fun g => (g.live.find? fun x => decide (x.num = replay)).map fun x => (g, x) with
    | none => s
    | some (g, x) =>
      if !g.ready x node then s
      else
        let ws := nodeStart (x.bodies.getD node []) tg node
        if s.copying g x node ∨ s.curtainOn ((s.placement ws).map physClu) then s.later (.taskgraphNodeDispatch c tg replay node)
        else
          let s := s.modGraph c tg fun g => g.modReplay replay fun x =>
            { x with todo := x.todo.filter fun n => decide (n ≠ node), running := x.running ++ [node] }
          let windows := (List.range 8).map fun i =>
            let w := ((x.params.getD node []).getD i 0).toNat
            if w < 2 ^ 52 ∧ w % 8 = 0 then w else 0
          s.acceptStart c ⟨ws, ⟨.host, c, 0, 0⟩, false, []⟩ replay windows)

end Sys2Proof.Machine
end

