-- ==== Sys2Proof/Machine/Retire.lean ====
section
/-! DEFINITION. How an activation ends: retirement and the colour purge (R415 to R417, R426 to R430). -/

namespace Sys2Proof.Machine

open Sys2Proof

/-! ## Retirement (R426 to R428) -/

/-- An activation has children that have not retired (R426). -/
def State.hasChildren (s : State) (a : Nat) : Bool := s.acts.any fun p => decide (p.2.parent = some a)

/-- The first two conditions of R426 hold. -/
def State.mayEnd (s : State) (a : Nat) : Bool := !s.hasChildren a && s.rests a .ended

/-- RETIRE_DISCARD (R427): what remains of the colour is discarded, and its write-back begins. An activation behind a curtain waits. -/
def execRetireDiscard (s : State) : Host.Outcome State Fault Refusal :=
  .next (
    let a := s.site.n
    match Assoc.get? s.acts a with
    | none => s
    | some x =>
      if x.life ≠ .ending ∨ x.discarded then s
      else if x.curtain ∨ !s.mayEnd a then s.laterAt .retireDiscard s.site.core a
      else
        let s := x.map.foldl
          (fun s p => ((s.dropEntries p.1 p.2 true).dropWaves p.1 p.2).dropWaiters a p.1 p.2) s
        (s.modAct a fun x => { x with discarded := true }).writeBackOf a)

/-- A counter of the island of the admitting control core's cluster raised (R435). -/
def State.countIsland (s : State) (c : CoreId) (f : Island → Island) : State := s.modIsland c.pkg (8 * c.die + c.clu) f

/-- The colour of an activation on the die of its admitting control core. -/
def State.homeColour (s : State) (a : Nat) : Nat := ((s.colourOn a (s.act a).ctl.dieId).getD 0).toNat

/-- What the retirement of a completion token does, in the order of R428. -/
def State.retire (s : State) (a : Nat) (x : Act) : State :=
  let s := s.uncharge a
  let s := x.map.foldl (fun s p => ((s.dropClaims p.1 p.2).dropTimeline p.1 p.2).dropTable p.1 p.2) s
  let s := x.map.foldl (fun s p => s.leaveBarriers p.1 p.2 false) s
  let s := (s.parentToken a 0).leaveHandle a
  let col := s.homeColour a
  let s := ((s.freeColours a).forget a).countIsland x.ctl fun i => { i with retired := satAdd i.retired 1 }
  if x.start.isEmpty then s else s.launchEnded x.ctl x.start 0 col x.endWord x.replay

/-- COMPLETION_TOKEN_RETIRE (R426, R428): once nothing of the colour remains and its writes are written back, its completion token
retires. -/
def execCompletionTokenRetire (s : State) : Host.Outcome State Fault Refusal :=
  .next (
    let a := s.site.n
    match Assoc.get? s.acts a with
    | none => s
    | some x =>
      if x.life ≠ .ending then s
      else if !x.discarded ∨ x.curtain ∨ !s.mayEnd a then s.laterAt .completionTokenRetire s.site.core a
      else if s.unwritten a then (s.writeBackOf a).laterAt .completionTokenRetire s.site.core a
      else s.retire a x)

/-! ## The colour purge (R415 to R417) -/

/-- A curtain over a region ends by a purge in it: CURTAIN sends status 2, and what is not purged runs on (R411). A region that is held
stays held, unless the purge names its launched activation. -/
def State.purgeCurtain (s : State) (a : Nat) (dead : List Nat) (x : Curtain) : State :=
  let reg := s.family x.root
  if a ∉ reg ∨ (x.held ∧ a ≠ x.root) then s
  else
    let s := s.modPkg x.core.pkg fun p => { p with curtains := p.curtains.filter fun y => decide (y.id ≠ x.id) }
    let s := if x.held then s else s.replyBoth x.who (plainOp 2) (plainOp 2)
    s.reopen (reg.filter fun m => decide (m ∉ dead))

/-- The curtains of all packages. -/
def State.curtains (s : State) : List Curtain := s.packages.flatMap fun p => p.2.curtains

/-- A member of a purged family is being purged: on every die of its map, as a descendant without token or reissue (R415). -/
def State.startPurge (s : State) (root m : Nat) : State :=
  let x := s.act m
  let s := s.modAct m fun y =>
    { y with life := .purging, curtain := false, heldBy := false, pdest := if m = root then y.pdest else none
             reissue := y.reissue && decide (m = root) }
  (x.map.foldl (fun s p => s.later (.purgeArriveDie m p.1)) s).laterAt .purgeEnd x.ctl m

/-- A cluster's held launches without those that restart an activation. -/
def Cluster.dropReissues (k : Cluster) (m : Nat) : Cluster :=
  { k with launches := k.launches.map fun (l : Nat × List Launch) => (l.1, l.2.filter fun y => decide (y.of_ ≠ some m)) }

/-- A child that waits to be reissued is gone with its ancestor. -/
def State.dropReissue (s : State) (m : Nat) : State :=
  { s with clusters := s.clusters.map fun (k : CluId × Cluster) => (k.1, k.2.dropReissues m) }.forget m

/-- COLOUR_PURGE (R415): the purge reaches the admitting control core, ends a curtain there, and goes to every die of the activation and
of its live descendants. -/
def execColourPurge (s : State) : Host.Outcome State Fault Refusal :=
  .next (
    let a := s.site.n
    match Assoc.get? s.acts a with
    | none => s
    | some x =>
      if x.life ≠ .purging ∨ !x.reached.isEmpty then s
      else
        let fam := s.family a
        let s := s.curtains.foldl (fun s y => s.purgeCurtain a fam y) s
        fam.foldl
          (fun s m =>
            match (s.act m).life with
            | .saved => s.dropReissue m
            | .purging => if m = a then s.startPurge a m else s.modAct m fun y => { y with pdest := none, reissue := false }
            | _ => s.startPurge a m) s)

/-- The visits at slots whose TAG carries the colour are over: their tokens are discarded, and the activations of their RTAG purged (R416). -/
def State.dropVisits (s : State) (d : DieId) (col : BitVec 9) : State :=
  (s.coresOfDie d).foldl
    (fun s c => (s.core c).rings.foldl
      (fun s r => match r with
        | some (q, .visit i) =>
          match s.slot? c i, s.tok? q with
          | some x, some t => if colourOf x.tag = col then (s.discardTok q).orderPurge t.act else s
          | _, _ => s
        | _ => s) s) s

/-- A held token of a release that belongs to a colour. -/
def heldToken (d : DieId) (col : BitVec 9) (it : Item) : Bool :=
  Item.isToken it && (match itemTag it with
    | some (c, t) => decide (c.dieId = d) && decide (colourOf t = col)
    | none => false)

/-- A core's part of a purge: firings, parked tokens, held entries, withheld accesses, held tokens of releases, and matrix messages that
wait for what no one supplies (R46, R300, R416). -/
def Core.purge (k : Core) (c : CoreId) (col : BitVec 9) : Core :=
  let keep (t : Word) : Bool := decide (colourOf t ≠ col)
  let hold (es : List Entry) : List Entry := es.filter fun e => keep e.tag
  { k.without fun q => decide (q.colour = col) && q.withheld with
    parked := k.parked.filter fun t => keep t.1.tag
    kept := k.kept.filter fun it => !heldToken c.dieId col it
    holdNet := hold k.holdNet
    holdOwn := hold k.holdOwn
    holdWing := hold k.holdWing
    comps := k.comps.filter fun x => keep x.2.tag
    ready := k.ready.filter fun f => keep f.tag
    rels := k.rels.map fun r => if r.colour = col then { r with held := r.held.filter fun it => !heldToken c.dieId col it } else r
    path := k.path.filter fun m => keep m.f.tag
    inbox := (k.without fun q => decide (q.colour = col) && q.withheld).inbox.filter fun m => keep m.f.tag || decide (m.stage ≠ 0) || k.matReady c m }

/-- The streams of an activation on a die end, cancelled (R245, R416). -/
def State.dropStreams (s : State) (a : Nat) (d : DieId) : State :=
  (clustersOf d).foldl
    (fun s k =>
      let mine (y : Stream) : Bool := s.isOf a (cluCore0 k) y.btag
      let all := (s.cluster k).ports.flatMap fun p => (p.2.running.toList ++ p.2.queued).filter mine
      let s := s.modCluster k fun x =>
        { x with ports := x.ports.map fun p => (p.1, { running := p.2.running.filter fun y => !mine y, queued := p.2.queued.filter fun y => !mine y }) }
      s.cancelStreams k all) s

/-- The stalled copies and link messages of an activation in the clusters of a die end with STALLFAULT (R250). -/
def State.endStalled (s : State) (a : Nat) (d : DieId) : State :=
  (clustersOf d).foldl
    (fun s k => ([.copy, .link] : List EngineKind).foldl
      (fun s kind =>
        let e := clusterEngine kind k
        ((s.inbox e).filter fun x => x.stalled.isSome && decide (s.msgAct e x.msg = some a)).foldl (fun s x => s.endMsg e x.id 4) s) s) s

/-- PURGE_ARRIVE_DIE (R269, R416): from now on the colour's tokens are discarded on the die, and what it holds there is dropped; its query
tokens on dies that its map does not name go too. -/
def execPurgeArriveDie (act : Nat) (d : DieId) (s : State) : Host.Outcome State Fault Refusal :=
  .next (
    match Assoc.get? s.acts act with
    | none => s
    | some x =>
      match Assoc.get? x.map d with
      | none => s
      | some col =>
        if x.life ≠ .purging ∨ d ∈ x.reached then s
        else
          let s := s.modAct act fun y => { y with reached := y.reached ++ [d] }
          let s := (s.coresOfDie d).foldl
            (fun s c => [Path.network, .own, .wing].foldl (fun s p => s.pathFree c p) (s.modCore c fun k => k.purge c col)) s
          let s := (s.dropEntries d col false).dropWaves d col
          let here (q : QTok) : Bool := decide (q.at_.dieId = d) || (Assoc.get? x.map q.at_.dieId).isNone
          let s := (s.qtoks.filter fun q => decide (q.act = act) && here q).foldl (fun s q => s.discardTok q.id) s
          let s := s.dropVisits d col
          let s := (s.dropStreams act d).startPorts d
          let s := s.endStalled act d
          let s := (s.dropTimeline d col).leaveBarriers d col true
          (s.dropWaiters act d col).writeBackOf act)

/-- A handle discarded as SPECABT discards it: every logged page is cut back to its committed fill (R398, R415). -/
def State.abandonHandle (s : State) (d : DieId) (i : Nat) (h : SpecHandle) : State :=
  let s := (List.range h.used).foldl
    (fun s e =>
      let (pid, start, _) := s.logEntry d h e
      if s.pidOk d pid then s.setDesc d pid 0 (truncated (s.desc d pid 0) (bitsOf (s.desc d pid 3) 63 32) start none) else s) s
  s.modDie d fun x => { x with handles := Assoc.erase x.handles i }

/-- A handle of an activation whose discarding must wait: an instruction on a page that it logs has its turn or waits for it (R330). -/
def State.abandonWaits (s : State) (a : Nat) : Bool :=
  (s.act a).map.any fun p => ((s.die p.1).handles.filter fun h => decide (h.2.owner = a)).any fun h =>
    (List.range h.2.used).any fun e =>
      (s.coresOfDie p.1).any fun c => (s.core c).shardReqs.any fun q => q.order.isSome && decide (q.pid = some (s.logEntry p.1 h.2 e).1)

/-- The handles that an activation opened, discarded (R415). -/
def State.abandonHandles (s : State) (a : Nat) : State :=
  (s.act a).map.foldl
    (fun s p => ((s.die p.1).handles.filter fun h => decide (h.2.owner = a)).foldl (fun s h => s.abandonHandle p.1 h.1 h.2) s) s

/-- What follows a purge (R417): a reissue under a fresh colour, or the end, told to the Parent and on the callboard. -/
def State.afterPurge (s : State) (a : Nat) (x : Act) : State :=
  let again := x.reissue && decide (x.reissues < 3) && (x.parent.isNone || (x.parent.any fun p => (Assoc.get? s.acts p).isSome))
  let held : Launch :=
    { id := 0, words := x.start, sender := ⟨.host, x.ctl, 0, 0⟩, num := 0, since := none, ready := false, blocking := false, replay := x.replay
      reissues := x.reissues + 1, windows := x.windows, place := x.place, of_ := none, restore := none }
  if again ∧ !x.start.isEmpty then ((s.freeColours a).forget a).hold x.ctl held
  else if again then
    ((s.freeColours a).modAct a fun y => { y with life := .saved }).hold x.ctl { held with of_ := some a }
  else
    let col := s.homeColour a
    let s := (((s.parentToken a 1).leaveHandle a).freeColours a).forget a
    if x.start.isEmpty then s else s.launchEnded x.ctl x.start 8 col 0 x.replay

/-- PURGE_END (R416, R417): once the purge has reached every die and nothing of the colour remains anywhere, the colour is freed. -/
def execPurgeEnd (s : State) : Host.Outcome State Fault Refusal :=
  .next (
    let a := s.site.n
    match Assoc.get? s.acts a with
    | none => s
    | some x =>
      if x.life ≠ .purging then s
      else if !(x.map.all fun p => decide (p.1 ∈ x.reached)) ∨ !s.mayEnd a then s.laterAt .purgeEnd s.site.core a
      else if s.unwritten a then (s.writeBackOf a).laterAt .purgeEnd s.site.core a
      else if s.abandonWaits a then s.laterAt .purgeEnd s.site.core a
      else
        let s := (s.uncharge a).abandonHandles a
        let s := x.map.foldl (fun s p => (s.dropClaims p.1 p.2).dropTable p.1 p.2) s
        (s.countIsland x.ctl fun i => { i with purged := satAdd i.purged 1 }).afterPurge a x)

end Sys2Proof.Machine
end

