-- ==== Sys2Proof/Machine/Curtain.lean ====
section
/-! DEFINITION. The curtain: draining, holding, saving and restoring an activation's region (R196, R406 to R414). -/

namespace Sys2Proof.Machine

open Sys2Proof

/-! ## Curtains (R406, R407) -/

/-- A curtain of a package. -/
def State.curtain? (s : State) (p id : Nat) : Option Curtain := (s.pkg p).curtains.find? fun x => decide (x.id = id)

/-- A curtain changed. -/
def State.modCurtain (s : State) (p id : Nat) (f : Curtain → Curtain) : State :=
  s.modPkg p fun x => { x with curtains := x.curtains.map fun y => if y.id = id then f y else y }

/-- A curtain gone. -/
def State.dropCurtain (s : State) (p id : Nat) : State :=
  s.modPkg p fun x => { x with curtains := x.curtains.filter fun y => decide (y.id ≠ id) }

/-- The curtain that closes or holds an activation's region. -/
def State.curtainOf (s : State) (a : Nat) : Option Curtain := s.curtains.find? fun x => decide (x.root = a)

/-- A restore of a colour on a die is waiting (R196). -/
def State.restoring (s : State) (c : CoreId) (col : BitVec 9) : Bool :=
  (s.coresOfDie c.dieId).any fun k => k.isCtl && (s.launches k).any fun y =>
    match y.restore with
    | some (_, q, _) => decide (q = col)
    | none => false

/-- The address of a save area: ALIGNMENT where it is no multiple of 192, PERMISSION where it does not lie in HBM4E (R406). -/
def State.areaAt (s : State) (w : Word) : Except Flt Nat :=
  let a := w.toNat
  if a % 192 ≠ 0 then .error { cause := .alignment, info := w }
  else if 2 ^ 52 ≤ a ∨ !s.isHbm a ∨ !s.rangeOk a 256 then .error { cause := .permission, info := w }
  else .ok a

/-- A field of a save area's header. -/
def State.areaField (s : State) (a off n : Nat) : Nat := leNat (s.peek (dieOfPa a) (a + off) n)

/-- CURTAIN's checks of its save area; 0 asks for none (R406, R409). -/
def State.curtainArea (s : State) (root : Nat) (w : Word) : Except Flt Nat := do
  if w = 0 then .ok 0
  else
    let a ← s.areaAt w
    if s.areaField a 8 8 < s.saveBound root then .error { cause := .permission, info := w }
    else .ok a

/-- The releases of an activation that a curtain reaches keep their tokens when they complete (R358). -/
def State.keepReleases (s : State) (a : Nat) : State :=
  (s.act a).map.foldl
    (fun s p => (s.coresOfDie p.1).foldl
      (fun s c => if (s.core c).rels.any (fun r => decide (r.colour = p.2)) then
          s.modCore c fun k => { k with rels := k.rels.map fun r => if r.colour = p.2 then { r with kept := true } else r }
        else s) s) s

/-- CURTAIN drains the region of colour $0 and saves it at $1 (R196, R406, R407). A region already closed or held is BUSY (log 84). -/
def execCurtain (r : Rec) (s : State) : Host.Outcome State Fault Refusal :=
  fire Forms.curtain r s fun t s => do
    s.scalars r
    let c := s.cur.core
    let col := BitVec.ofNat 9 s.cur.op0.val.toNat
    match s.owner? c.dieId col with
    | none => if s.restoring c col then .ok (s.out r t (plainOp 3)) else .ok (s.out r t (plainOp 2))
    | some a =>
      let x := s.act a
      if x.parent.isSome then .error { cause := .permission }
      else
        let area ← s.curtainArea a s.cur.op1.val
        if x.life ≠ .live then .ok (s.out r t (plainOp 2))
        else if (s.curtainOf a).isSome then .ok (s.out r t (plainOp 3))
        else
          let (id, s) := s.fresh
          let y : Curtain :=
            { id := id, root := a, core := c, who := s.asker r t, area := area, held := false, clear := false, full := false, saving := false
              ctxsv := false }
          let s := s.modPkg c.pkg fun p => { p with curtains := p.curtains ++ [y] }
          let s := (s.family a).foldl (fun s m => (s.modAct m fun x => { x with curtain := true }).keepReleases m) s
          let s := s.laterAt .curtainClear c id
          let limit := s.areaField area 24 4
          .ok (if area = 0 then s
               else s.at_ (s.now + 1000 * (if limit = 0 then 200 else limit)) .fullSave ⟨c, id, 0, false⟩)

/-! ## Clearing and the full save (R408 to R410) -/

/-- A region held: nothing of it fires (R408, R410). -/
def State.holdRegion (s : State) (root : Nat) : State :=
  (s.family root).foldl (fun s m => s.modAct m fun x => { x with curtain := true, heldBy := true }) s

/-- A region at rest. -/
def State.regionRests (s : State) (root : Nat) (m : Rest) : Bool := (s.family root).all fun a => s.rests a m

/-- CURTAIN_CLEAR (R408): the first cycle in which the region is at rest. Without a save area it is held from then on, and CURTAIN sends 0. -/
def execCurtainClear (s : State) : Host.Outcome State Fault Refusal :=
  .next (
    let c := s.site.core
    let id := s.site.n
    match s.curtain? c.pkg id with
    | none => s
    | some x =>
      if x.held ∨ x.full ∨ x.saving then s
      else if !s.regionRests x.root .drained then s.laterAt .curtainClear c id
      else
        let s := s.holdRegion x.root
        if x.area = 0 then
          (s.modCurtain c.pkg id fun y => { y with clear := true, held := true }).replyBoth x.who (plainOp 0) (plainOp 0)
        else (s.modCurtain c.pkg id fun y => { y with clear := true, saving := true }).laterAt .saveWhole c id)

/-- The region's firings in the ready queues move to the backlog, in SEQ order (R410 step 1). -/
def State.backlogRegion (s : State) (root : Nat) : State :=
  (s.family root).foldl
    (fun s a => (s.act a).map.foldl
      (fun s p => (s.coresOfDie p.1).foldl
        (fun s c =>
          let out := (s.core c).ready.filter fun f => decide (colourOf f.tag = p.2)
          let s := s.modCore c fun k => { k with ready := k.ready.filter fun f => decide (colourOf f.tag ≠ p.2) }
          out.foldl (fun s f => (s.modCore c fun k => { k with backlog := satInc k.backlog }).putEntryBack c ⟨f.node, f.tag, .complete f, none⟩) s) s)
      s) s

/-- The entries of the region that stand held on a path are taken in, so that the path resumes (R140, R410). -/
def State.takeHolds (s : State) (root : Nat) : State :=
  (s.family root).foldl
    (fun s a => (s.act a).map.foldl
      (fun s p => (s.coresOfDie p.1).foldl
        (fun s c => [Path.network, .own, .wing].foldl
          (fun s q =>
            let mine := ((s.core c).pathHold q).filter fun e => decide (colourOf e.tag = p.2)
            if mine.isEmpty then s
            else
              let s := s.modCore c fun k => k.setHold q ((k.pathHold q).filter fun e => decide (colourOf e.tag ≠ p.2))
              (mine.foldl (fun s e => s.putEntryBack c e) s).pathFree c q) s) s)
      s) s

/-- FULL_SAVE (R410): TIMEOUT has passed before the curtain cleared. The region stops firing, stalled copies end, and once nothing of it moves it
is saved. -/
def execFullSave (s : State) : Host.Outcome State Fault Refusal :=
  .next (
    let c := s.site.core
    let id := s.site.n
    match s.curtain? c.pkg id with
    | none => s
    | some x =>
      if x.held ∨ x.saving then s
      else
        let s := if x.full then s
          else
            let s := (s.modCurtain c.pkg id fun y => { y with full := true }).holdRegion x.root
            let s := (s.backlogRegion x.root).takeHolds x.root
            (s.family x.root).foldl (fun s a => (s.act a).map.foldl (fun s p => s.endStalled a p.1) s) s
        if s.regionRests x.root .frozen then
          (s.modCurtain c.pkg id fun y => { y with saving := true }).laterAt .saveWhole c id
        else s.laterAt .fullSave c id)

/-! ## The save (R409 to R412) -/

/-- The status that the asker of a save receives (R196, R410). -/
def Curtain.status (x : Curtain) : Nat := if x.ctxsv ∨ x.clear then 0 else 1

/-- A save that would exceed SIZE is not made: USED says what it needs, and the region stays held (R409). -/
def State.noRoom (s : State) (x : Curtain) (used : Nat) : State :=
  let s := s.sysWrite (dieOfPa x.area) (x.area + 16) (leBytes 8 used)
  (s.modCurtain x.core.pkg x.id fun y => { y with held := true, saving := false }).replyBoth x.who (plainOp 5) (plainOp 5)

/-- The region is written to its area and taken off the machine; its write-back begins (R410, R411). -/
def State.makeSave (s : State) (x : Curtain) : State :=
  let reg := s.family x.root
  let (id, s) := s.fresh
  let v := s.saved id x.area reg
  let (xs, free) := s.sections reg v
  let used := (layOut (256 + 16 * xs.length) xs).2
  if s.areaField x.area 8 8 < used then ({ s with free := free }).noRoom x used
  else
    let start := Config.startAt free
    let v := v.laid (!x.clear) start xs
    let s := { s with free := free + 1, saves := s.saves ++ [v] }
    let s := (s.writeSave (dieOfPa x.area) v).detach reg v
    let s := (s.regDies reg).foldl (fun s d => s.startPorts d) s
    (reg.foldl (fun s a => (s.modAct a fun y => { y with life := .saved }).writeBackOf a) s).laterAt .saveWhole x.core x.id 0 true

/-- The colours of a saved region are freed as retirement frees them; VALID is set, and CURTAIN or CTXSV answered (R411). -/
def State.endSave (s : State) (x : Curtain) : State :=
  let reg := s.family x.root
  let s := reg.foldl
    (fun s a =>
      let m := (s.act a).map
      let s := s.uncharge a
      let s := m.foldl (fun s p => ((s.dropClaims p.1 p.2).dropTable p.1 p.2).leaveBarriers p.1 p.2 false) s
      (s.leaveHandle a).freeColours a) s
  let s := reg.foldl (fun s a => s.forget a) s
  let s := s.sysWrite (dieOfPa x.area) (x.area + 7) [1]
  let st := plainOp (BitVec.ofNat 64 x.status)
  (s.dropCurtain x.core.pkg x.id).replyBoth x.who st st

/-- SAVE_WHOLE (R410, R411): the save is made; once the region's writes are written back its colours are freed. -/
def execSaveWhole (s : State) : Host.Outcome State Fault Refusal :=
  .next (
    let c := s.site.core
    let id := s.site.n
    match s.curtain? c.pkg id with
    | none => s
    | some x =>
      if !x.saving then s
      else if !s.site.flag then s.makeSave x
      else if (s.family x.root).any fun a => s.unwritten a then
        ((s.family x.root).foldl (fun s a => s.writeBackOf a) s).laterAt .saveWhole c id 0 true
      else s.endSave x)

/-! ## CTXSV and CTXLD (R196, R410, R414) -/

/-- CTXSV saves a region that a curtain holds (R196, R410). -/
def execCtxsv (r : Rec) (s : State) : Host.Outcome State Fault Refusal :=
  fire Forms.ctxsv r s fun t s => do
    s.scalars r
    let c := s.cur.core
    let col := BitVec.ofNat 9 s.cur.op0.val.toNat
    match s.owner? c.dieId col with
    | none => if s.restoring c col then .ok (s.out r t (plainOp 3)) else .ok (s.out r t (plainOp 2))
    | some a =>
      let area ← s.areaAt s.cur.op1.val
      match s.curtainOf a with
      | none => .ok (s.out r t (plainOp 2))
      | some x =>
        if !x.held then .ok (s.out r t (plainOp 3))
        else
          let who := s.asker r t
          let s := s.modCurtain x.core.pkg x.id fun y => { y with who := who, area := area, held := false, saving := true, ctxsv := true }
          .ok (s.laterAt .saveWhole x.core x.id)

/-- A save area that holds a whole save (R412, R414). -/
def State.saveAt (s : State) (w : Word) : Option Saved :=
  match s.areaAt w with
  | .error _ => none
  | .ok a =>
    if s.areaField a 0 4 = 0x56415341 ∧ s.areaField a 5 1 = 1 ∧ s.areaField a 7 1 = 1 then
      s.saveOf a
    else none

/-- A saved colour map that no die could ever fill (log 85). -/
def State.unfillable (s : State) (v : Saved) : Bool :=
  v.acts.any fun x => x.2.map.any fun p =>
    decide (s.podSize ≤ p.1.pkg) || decide (512 < (v.acts.filter fun y => y.2.map.any fun q => decide (q.1 = p.1)).length)

/-- CTXLD restores the region saved at $1 under colour $0, or with $1 = 0 resumes one that a curtain holds (R196, R414). -/
def execCtxld (r : Rec) (s : State) : Host.Outcome State Fault Refusal :=
  fire Forms.ctxld r s fun t s => do
    s.scalars r
    let c := s.cur.core
    let w0 := s.cur.op0.val
    let col := BitVec.ofNat 9 w0.toNat
    let answer (n : Nat) (s : State) : Eff := .ok (s.out r t (plainOp (BitVec.ofNat 64 n)))
    if s.cur.op1.val = 0 then
      match (s.owner? c.dieId col).bind s.curtainOf with
      | none => answer 2 s
      | some x =>
        if !x.held then answer 3 s
        else
          let reg := s.family x.root
          answer 0 ((s.dropCurtain x.core.pkg x.id).reopen reg)
    else match s.saveAt s.cur.op1.val with
      | none => answer 4 s
      | some v =>
        if s.restoring c col then answer 3 s
        else if (s.owner? c.dieId col).isSome ∨ s.unfillable v then .error { cause := .colourExhausted }
        else
          match v.acts with
          | [] => answer 4 s
          | x :: _ =>
            .ok (s.hold c
              { id := 0, words := x.2.start, sender := ⟨.host, c, 0, 0⟩, num := 0, since := none, ready := false, blocking := false
                replay := x.2.replay, reissues := x.2.reissues, windows := x.2.windows, place := x.2.place, of_ := none
                restore := some (s.cur.op1.val.toNat, (col, s.asker r t)) })

end Sys2Proof.Machine
end

