-- ==== Sys2Proof/Machine/Dispatch.lean ====
section
/-! DEFINITION. The dispatch of every instruction to its meaning. -/

namespace Sys2Proof.Machine

open Sys2Proof

def exec (i : Instr) (s : State) : Host.Outcome State Fault Refusal :=
  match i with
  | .sink r => Sys2Proof.Machine.execSink r s
  | .dup r => Sys2Proof.Machine.execDup r s
  | .const r => Sys2Proof.Machine.execConst r s
  | .steer r => Sys2Proof.Machine.execSteer r s
  | .gate r => Sys2Proof.Machine.execGate r s
  | .loopin r => Sys2Proof.Machine.execLoopin r s
  | .iter r => Sys2Proof.Machine.execIter r s
  | .loopout r => Sys2Proof.Machine.execLoopout r s
  | .loopcr r => Sys2Proof.Machine.execLoopcr r s
  | .call r => Sys2Proof.Machine.execCall r s
  | .callCol r => Sys2Proof.Machine.execCallCol r s
  | .ret r => Sys2Proof.Machine.execRet r s
  | .tagget r => Sys2Proof.Machine.execTagget r s
  | .tagset r => Sys2Proof.Machine.execTagset r s
  | .spawn r => Sys2Proof.Machine.execSpawn r s
  | .purge r => Sys2Proof.Machine.execPurge r s
  | .join r => Sys2Proof.Machine.execJoin r s
  | .cmb r => Sys2Proof.Machine.execCmb r s
  | .dends r => Sys2Proof.Machine.execDends r s
  | .bndry r => Sys2Proof.Machine.execBndry r s
  | .vote r => Sys2Proof.Machine.execVote r s
  | .rng r => Sys2Proof.Machine.execRng r s
  | .evpost r => Sys2Proof.Machine.execEvpost r s
  | .endg r => Sys2Proof.Machine.execEndg r s
  | .add r => Sys2Proof.Machine.execAdd r s
  | .sub r => Sys2Proof.Machine.execSub r s
  | .mul r => Sys2Proof.Machine.execMul r s
  | .mulh r => Sys2Proof.Machine.execMulh r s
  | .div r => Sys2Proof.Machine.execDiv r s
  | .rem r => Sys2Proof.Machine.execRem r s
  | .neg r => Sys2Proof.Machine.execNeg r s
  | .abs r => Sys2Proof.Machine.execAbs r s
  | .min r => Sys2Proof.Machine.execMin r s
  | .max r => Sys2Proof.Machine.execMax r s
  | .and r => Sys2Proof.Machine.execAnd r s
  | .or r => Sys2Proof.Machine.execOr r s
  | .xor r => Sys2Proof.Machine.execXor r s
  | .andn r => Sys2Proof.Machine.execAndn r s
  | .shl r => Sys2Proof.Machine.execShl r s
  | .shr r => Sys2Proof.Machine.execShr r s
  | .sar r => Sys2Proof.Machine.execSar r s
  | .rotl r => Sys2Proof.Machine.execRotl r s
  | .clz r => Sys2Proof.Machine.execClz r s
  | .ctz r => Sys2Proof.Machine.execCtz r s
  | .popc r => Sys2Proof.Machine.execPopc r s
  | .brev r => Sys2Proof.Machine.execBrev r s
  | .bext r => Sys2Proof.Machine.execBext r s
  | .bins r => Sys2Proof.Machine.execBins r s
  | .cmp r => Sys2Proof.Machine.execCmp r s
  | .sel r => Sys2Proof.Machine.execSel r s
  | .madd r => Sys2Proof.Machine.execMadd r s
  | .lea r => Sys2Proof.Machine.execLea r s
  | .line r => Sys2Proof.Machine.execLine r s
  | .fadd r => Sys2Proof.Machine.execFadd r s
  | .fsub r => Sys2Proof.Machine.execFsub r s
  | .fmul r => Sys2Proof.Machine.execFmul r s
  | .fma r => Sys2Proof.Machine.execFma r s
  | .fdiv r => Sys2Proof.Machine.execFdiv r s
  | .fsqrt r => Sys2Proof.Machine.execFsqrt r s
  | .fmin r => Sys2Proof.Machine.execFmin r s
  | .fmax r => Sys2Proof.Machine.execFmax r s
  | .fabs r => Sys2Proof.Machine.execFabs r s
  | .fneg r => Sys2Proof.Machine.execFneg r s
  | .fcmp r => Sys2Proof.Machine.execFcmp r s
  | .fcvt r => Sys2Proof.Machine.execFcvt r s
  | .frnd r => Sys2Proof.Machine.execFrnd r s
  | .fexp2 r => Sys2Proof.Machine.execFexp2 r s
  | .flog2 r => Sys2Proof.Machine.execFlog2 r s
  | .frcp r => Sys2Proof.Machine.execFrcp r s
  | .frsq r => Sys2Proof.Machine.execFrsq r s
  | .vadd r => Sys2Proof.Machine.execVadd r s
  | .vsub r => Sys2Proof.Machine.execVsub r s
  | .vmul r => Sys2Proof.Machine.execVmul r s
  | .vfma r => Sys2Proof.Machine.execVfma r s
  | .vmin r => Sys2Proof.Machine.execVmin r s
  | .vmax r => Sys2Proof.Machine.execVmax r s
  | .vabs r => Sys2Proof.Machine.execVabs r s
  | .vneg r => Sys2Proof.Machine.execVneg r s
  | .vand r => Sys2Proof.Machine.execVand r s
  | .vor r => Sys2Proof.Machine.execVor r s
  | .vxor r => Sys2Proof.Machine.execVxor r s
  | .vshl r => Sys2Proof.Machine.execVshl r s
  | .vshr r => Sys2Proof.Machine.execVshr r s
  | .vcmp r => Sys2Proof.Machine.execVcmp r s
  | .vsel r => Sys2Proof.Machine.execVsel r s
  | .vred r => Sys2Proof.Machine.execVred r s
  | .vscan r => Sys2Proof.Machine.execVscan r s
  | .vexp2 r => Sys2Proof.Machine.execVexp2 r s
  | .vrcp r => Sys2Proof.Machine.execVrcp r s
  | .vrsq r => Sys2Proof.Machine.execVrsq r s
  | .vcvt r => Sys2Proof.Machine.execVcvt r s
  | .vperm r => Sys2Proof.Machine.execVperm r s
  | .vsplat r => Sys2Proof.Machine.execVsplat r s
  | .viota r => Sys2Proof.Machine.execViota r s
  | .vpack r => Sys2Proof.Machine.execVpack r s
  | .vunpk r => Sys2Proof.Machine.execVunpk r s
  | .vcpy r => Sys2Proof.Machine.execVcpy r s
  | .cvt r => Sys2Proof.Machine.execCvt r s
  | .qblk r => Sys2Proof.Machine.execQblk r s
  | .dqblk r => Sys2Proof.Machine.execDqblk r s
  | .ternpk r => Sys2Proof.Machine.execTernpk r s
  | .ternpkUnpk r => Sys2Proof.Machine.execTernpkUnpk r s
  | .ld r => Sys2Proof.Machine.execLd r s
  | .st r => Sys2Proof.Machine.execSt r s
  | .ldv r => Sys2Proof.Machine.execLdv r s
  | .stv r => Sys2Proof.Machine.execStv r s
  | .ldg r => Sys2Proof.Machine.execLdg r s
  | .sts r => Sys2Proof.Machine.execSts r s
  | .mnop r => Sys2Proof.Machine.execMnop r s
  | .wave r => Sys2Proof.Machine.execWave r s
  | .pf r => Sys2Proof.Machine.execPf r s
  | .lwb r => Sys2Proof.Machine.execLwb r s
  | .linv r => Sys2Proof.Machine.execLinv r s
  | .sbind r => Sys2Proof.Machine.execSbind r s
  | .scancel r => Sys2Proof.Machine.execScancel r s
  | .sstat r => Sys2Proof.Machine.execSstat r s
  | .cpy r => Sys2Proof.Machine.execCpy r s
  | .cpyr r => Sys2Proof.Machine.execCpyr r s
  | .mcrd r => Sys2Proof.Machine.execMcrd r s
  | .xlat r => Sys2Proof.Machine.execXlat r s
  | .tlbinv r => Sys2Proof.Machine.execTlbinv r s
  | .fence r => Sys2Proof.Machine.execFence r s
  | .rel r => Sys2Proof.Machine.execRel r s
  | .acq r => Sys2Proof.Machine.execAcq r s
  | .tlinc r => Sys2Proof.Machine.execTlinc r s
  | .tlwait r => Sys2Proof.Machine.execTlwait r s
  | .tlarm r => Sys2Proof.Machine.execTlarm r s
  | .tlread r => Sys2Proof.Machine.execTlread r s
  | .barinit r => Sys2Proof.Machine.execBarinit r s
  | .bararr r => Sys2Proof.Machine.execBararr r s
  | .barexit r => Sys2Proof.Machine.execBarexit r s
  | .itake r => Sys2Proof.Machine.execItake r s
  | .iput r => Sys2Proof.Machine.execIput r s
  | .iread r => Sys2Proof.Machine.execIread r s
  | .iclr r => Sys2Proof.Machine.execIclr r s
  | .atom r => Sys2Proof.Machine.execAtom r s
  | .acas r => Sys2Proof.Machine.execAcas r s
  | .lsend r => Sys2Proof.Machine.execLsend r s
  | .specbeg r => Sys2Proof.Machine.execSpecbeg r s
  | .speccmt r => Sys2Proof.Machine.execSpeccmt r s
  | .specabt r => Sys2Proof.Machine.execSpecabt r s
  | .oclm r => Sys2Proof.Machine.execOclm r s
  | .orel r => Sys2Proof.Machine.execOrel r s
  | .old r => Sys2Proof.Machine.execOld r s
  | .olds r => Sys2Proof.Machine.execOlds r s
  | .oldsQ r => Sys2Proof.Machine.execOldsQ r s
  | .mma r => Sys2Proof.Machine.execMma r s
  | .mmat r => Sys2Proof.Machine.execMmat r s
  | .mmax r => Sys2Proof.Machine.execMmax r s
  | .aclr r => Sys2Proof.Machine.execAclr r s
  | .amov r => Sys2Proof.Machine.execAmov r s
  | .aadd r => Sys2Proof.Machine.execAadd r s
  | .acvt r => Sys2Proof.Machine.execAcvt r s
  | .ackpt r => Sys2Proof.Machine.execAckpt r s
  | .arst r => Sys2Proof.Machine.execArst r s
  | .astat r => Sys2Proof.Machine.execAstat r s
  | .topk r => Sys2Proof.Machine.execTopk r s
  | .topkm r => Sys2Proof.Machine.execTopkm r s
  | .smxi r => Sys2Proof.Machine.execSmxi r s
  | .smxu r => Sys2Proof.Machine.execSmxu r s
  | .smxn r => Sys2Proof.Machine.execSmxn r s
  | .smxm r => Sys2Proof.Machine.execSmxm r s
  | .smxr r => Sys2Proof.Machine.execSmxr r s
  | .smxw r => Sys2Proof.Machine.execSmxw r s
  | .smxs r => Sys2Proof.Machine.execSmxs r s
  | .qsend r => Sys2Proof.Machine.execQsend r s
  | .qfwd r => Sys2Proof.Machine.execQfwd r s
  | .klook r => Sys2Proof.Machine.execKlook r s
  | .klookPage r => Sys2Proof.Machine.execKlookPage r s
  | .kapp r => Sys2Proof.Machine.execKapp r s
  | .kpin r => Sys2Proof.Machine.execKpin r s
  | .kpinUnpin r => Sys2Proof.Machine.execKpinUnpin r s
  | .kevict r => Sys2Proof.Machine.execKevict r s
  | .kfill r => Sys2Proof.Machine.execKfill r s
  | .pxlook r => Sys2Proof.Machine.execPxlook r s
  | .pxins r => Sys2Proof.Machine.execPxins r s
  | .pgmap r => Sys2Proof.Machine.execPgmap r s
  | .pgmapList r => Sys2Proof.Machine.execPgmapList r s
  | .pgfrz r => Sys2Proof.Machine.execPgfrz r s
  | .pgnew r => Sys2Proof.Machine.execPgnew r s
  | .seqtbl r => Sys2Proof.Machine.execSeqtbl r s
  | .seqtblNext r => Sys2Proof.Machine.execSeqtblNext r s
  | .trap r => Sys2Proof.Machine.execTrap r s
  | .brk r => Sys2Proof.Machine.execBrk r s
  | .sysrd r => Sys2Proof.Machine.execSysrd r s
  | .syswr r => Sys2Proof.Machine.execSyswr r s
  | .evget r => Sys2Proof.Machine.execEvget r s
  | .launch r => Sys2Proof.Machine.execLaunch r s
  | .cfginst r => Sys2Proof.Machine.execCfginst r s
  | .curtain r => Sys2Proof.Machine.execCurtain r s
  | .ctxsv r => Sys2Proof.Machine.execCtxsv r s
  | .ctxld r => Sys2Proof.Machine.execCtxld r s
  | .time r => Sys2Proof.Machine.execTime r s
  | .prompt r => Sys2Proof.Machine.execPrompt r s
  | .bootTest p sigOk hbmOk sliceOk rebuild => Sys2Proof.Machine.execBootTest p sigOk hbmOk sliceOk rebuild s
  | .bootMap p linksOk gran ptbase shardbase dirmap => Sys2Proof.Machine.execBootMap p linksOk gran ptbase shardbase dirmap s
  | .bootRuntime p sigOk digestOk => Sys2Proof.Machine.execBootRuntime p sigOk digestOk s
  | .linkTraining p peer lo hi lowLanes highLanes => Sys2Proof.Machine.execLinkTraining p peer lo hi lowLanes highLanes s
  | .hostAccess p op => Sys2Proof.Machine.execHostAccess p op s
  | .registerWrite p reg v => Sys2Proof.Machine.execRegisterWrite p reg v s
  | .start c m => Sys2Proof.Machine.execStart c m s
  | .graphreg c m => Sys2Proof.Machine.execGraphreg c m s
  | .replay c m => Sys2Proof.Machine.execReplay c m s
  | .patch c m => Sys2Proof.Machine.execPatch c m s
  | .graphdrop c m => Sys2Proof.Machine.execGraphdrop c m s
  | .taskgraphNodeDispatch c tg replay node => Sys2Proof.Machine.execTaskgraphNodeDispatch c tg replay node s
  | .tokenArrival c path t => Sys2Proof.Machine.execTokenArrival c path t s
  | .wingsHoldRelease c path => Sys2Proof.Machine.execWingsHoldRelease c path s
  | .chainLink c t n => Sys2Proof.Machine.execChainLink c t n s
  | .linkTokenCrossing src node dst t => Sys2Proof.Machine.execLinkTokenCrossing src node dst t s
  | .engineInboxAccept e m => Sys2Proof.Machine.execEngineInboxAccept e m s
  | .engineMessageComplete e id => Sys2Proof.Machine.execEngineMessageComplete e id s
  | .copy e id => Sys2Proof.Machine.execCopy e id s
  | .copyr e id => Sys2Proof.Machine.execCopyr e id s
  | .copyp e id => Sys2Proof.Machine.execCopyp e id s
  | .copypr e id => Sys2Proof.Machine.execCopypr e id s
  | .lcopy e id => Sys2Proof.Machine.execLcopy e id s
  | .copyPieceArrival p => Sys2Proof.Machine.execCopyPieceArrival p s
  | .remoteAdvance k colour ctr => Sys2Proof.Machine.execRemoteAdvance k colour ctr s
  | .waveAccessPerform c tag region => Sys2Proof.Machine.execWaveAccessPerform c tag region s
  | .sliceFillArrival d line perm keep data => Sys2Proof.Machine.execSliceFillArrival d line perm keep data s
  | .pageWalkComplete d w => Sys2Proof.Machine.execPageWalkComplete d w s
  | .mmaxACopy c leader n => Sys2Proof.Machine.execMmaxACopy c leader n s
  | .gets x => Sys2Proof.Machine.execGets x s
  | .getx x => Sys2Proof.Machine.execGetx x s
  | .upg x => Sys2Proof.Machine.execUpg x s
  | .putm x keep data sectors => Sys2Proof.Machine.execPutm x keep data sectors s
  | .invalidation p line d wholePkg => Sys2Proof.Machine.execInvalidation p line d wholePkg s
  | .invalidationAck p line frm wholePkg => Sys2Proof.Machine.execInvalidationAck p line frm wholePkg s
  | .forward p line k owner req => Sys2Proof.Machine.execForward p line k owner req s
  | .directoryFailure p why => Sys2Proof.Machine.execDirectoryFailure p why s
  | .purgeArriveDie act d => Sys2Proof.Machine.execPurgeArriveDie act d s
  | .hbmBankTest d stack failing spares => Sys2Proof.Machine.execHbmBankTest d stack failing spares s
  | .linkBeatCrcFail p peer noSlot => Sys2Proof.Machine.execLinkBeatCrcFail p peer noSlot s
  | .auditBeat p peer free received => Sys2Proof.Machine.execAuditBeat p peer free received s
  | .thermal p island t => Sys2Proof.Machine.execThermal p island t s
  | .mirrorCloseRecord p line m st owner dies pkgs => Sys2Proof.Machine.execMirrorCloseRecord p line m st owner dies pkgs s
  | .powerOnReset => Sys2Proof.Machine.execPowerOnReset s
  | .replayRelease => Sys2Proof.Machine.execReplayRelease s
  | .install => Sys2Proof.Machine.execInstall s
  | .admission => Sys2Proof.Machine.execAdmission s
  | .allowanceRefresh => Sys2Proof.Machine.execAllowanceRefresh s
  | .launchBlocking => Sys2Proof.Machine.execLaunchBlocking s
  | .clockChangeDone => Sys2Proof.Machine.execClockChangeDone s
  | .wingProbeReturn => Sys2Proof.Machine.execWingProbeReturn s
  | .backlogRefill => Sys2Proof.Machine.execBacklogRefill s
  | .streamStart => Sys2Proof.Machine.execStreamStart s
  | .streamElement => Sys2Proof.Machine.execStreamElement s
  | .streamComplete => Sys2Proof.Machine.execStreamComplete s
  | .loadReply => Sys2Proof.Machine.execLoadReply s
  | .releaseComplete => Sys2Proof.Machine.execReleaseComplete s
  | .mergeWindowClose => Sys2Proof.Machine.execMergeWindowClose s
  | .tlbEntryDrop => Sys2Proof.Machine.execTlbEntryDrop s
  | .queryTokenStationArrival => Sys2Proof.Machine.execQueryTokenStationArrival s
  | .visitStart => Sys2Proof.Machine.execVisitStart s
  | .refillComplete => Sys2Proof.Machine.execRefillComplete s
  | .evictionCopyComplete => Sys2Proof.Machine.execEvictionCopyComplete s
  | .tokenReturn => Sys2Proof.Machine.execTokenReturn s
  | .shardTableTurn => Sys2Proof.Machine.execShardTableTurn s
  | .matrixAccept => Sys2Proof.Machine.execMatrixAccept s
  | .matrixStart => Sys2Proof.Machine.execMatrixStart s
  | .matrixOccupancyEnd => Sys2Proof.Machine.execMatrixOccupancyEnd s
  | .matrixRetry => Sys2Proof.Machine.execMatrixRetry s
  | .matrixReply => Sys2Proof.Machine.execMatrixReply s
  | .grant => Sys2Proof.Machine.execGrant s
  | .done => Sys2Proof.Machine.execDone s
  | .putack => Sys2Proof.Machine.execPutack s
  | .mirrorOpenAck => Sys2Proof.Machine.execMirrorOpenAck s
  | .recallWindow => Sys2Proof.Machine.execRecallWindow s
  | .directoryWatchdog => Sys2Proof.Machine.execDirectoryWatchdog s
  | .dirTakeover => Sys2Proof.Machine.execDirTakeover s
  | .dirLost => Sys2Proof.Machine.execDirLost s
  | .channelClosing => Sys2Proof.Machine.execChannelClosing s
  | .channelRetired => Sys2Proof.Machine.execChannelRetired s
  | .curtainClear => Sys2Proof.Machine.execCurtainClear s
  | .fullSave => Sys2Proof.Machine.execFullSave s
  | .saveWhole => Sys2Proof.Machine.execSaveWhole s
  | .colourPurge => Sys2Proof.Machine.execColourPurge s
  | .purgeEnd => Sys2Proof.Machine.execPurgeEnd s
  | .securityTrigger => Sys2Proof.Machine.execSecurityTrigger s
  | .retireDiscard => Sys2Proof.Machine.execRetireDiscard s
  | .completionTokenRetire => Sys2Proof.Machine.execCompletionTokenRetire s
  | .promptRoutineEnd => Sys2Proof.Machine.execPromptRoutineEnd s
  | .coreDrowsy => Sys2Proof.Machine.execCoreDrowsy s
  | .routerDrowsy => Sys2Proof.Machine.execRouterDrowsy s
  | .routerWake => Sys2Proof.Machine.execRouterWake s
  | .coreWake => Sys2Proof.Machine.execCoreWake s
  | .powerGate => Sys2Proof.Machine.execPowerGate s
  | .droopStretch => Sys2Proof.Machine.execDroopStretch s
  | .currentPeak => Sys2Proof.Machine.execCurrentPeak s
  | .packagePowerWindow => Sys2Proof.Machine.execPackagePowerWindow s
  | .mirrorOpenRecord => Sys2Proof.Machine.execMirrorOpenRecord s
  | .writeAcknowledgement => Sys2Proof.Machine.execWriteAcknowledgement s
  | .directoryRestore => Sys2Proof.Machine.execDirectoryRestore s
  | .attestationRequest => Sys2Proof.Machine.execAttestationRequest s
  | .supplyRecovery => Sys2Proof.Machine.execSupplyRecovery s

end Sys2Proof.Machine
end

