-- ==== Sys2Proof/Machine/Step.lean ====
section
/-! DEFINITION. One step of the pod: time passes; a due timer's event, or the first thing on the agenda, happens. -/

namespace Sys2Proof.Machine

open Sys2Proof

/-- The issue of the firing at the head of a core's ready queue (R144, R145). An opcode that decodes to nothing is ILLEGAL_RECORD, as on
arrival (R92). -/
def issue (c : CoreId) (s : State) : Host.Outcome State Fault Refusal :=
  match s.fetch c with
  | none => .next s
  | some (none, s) => .next (s.faultCur { cause := .illegalRecord })
  | some (some i, s) => exec i s

/-- A thing on the agenda happens; what was to happen in a package that EVENT 4 has stopped is lost (R438). -/
def happen (it : Item) (s : State) : Host.Outcome State Fault Refusal :=
  if it.partiesOk s.podSize then
    if s.lostItem it then .next s
    else match it with
      | .event i x => exec i { s with site := x }
      | .issue c => issue c s
  else .fault (.noParty it)

/-- One step: the first timer that is due, or else the first thing on the agenda, in an island that runs (R19). -/
def step (s : State) : Host.Outcome State Fault Refusal :=
  let s := s.tick
  match s.dueTimer s.timers with
  | some (t, ts) => happen (.event t.instr t.site) { s with timers := ts }
  | none =>
    match s.nextItem s.agenda with
    | none => .next s
    | some (it, rest) => happen it { s with agenda := rest }

/-- The state in which the record of bits w, numbered from the least significant of its first byte, is the next thing that
`step` fetches and runs; bits above nbits are 0. -/
def State.withFetchWord (s : State) (nbits w : Nat) : State := s.placeRecord (BitVec.ofNat 96 (w % 2 ^ (min nbits 96)))

end Sys2Proof.Machine
end

