-- ==== Sys2Proof/Safety.lean ====
section
/-! DEFINITION. What counts as a safe run: every memory keeps its canonical form, and the machine does not stop. -/

namespace Sys2Proof.Machine

open Sys2Proof

/-- Every memory that the state holds has the canonical form: physical memory, each core's own, the bytes of each slice line, each package's
flash, and what a save keeps of a matrix engine. -/
def State.memOk (s : State) : Bool :=
  s.mem.wf
    && (s.cores.all fun p => p.2.lanes.wf && p.2.ctlPad.wf && p.2.opmem.wf && p.2.scales.wf && p.2.acc.wf)
    && (s.dies.all fun p => p.2.lines.all fun y => y.bytes.wf)
    && (s.packages.all fun p => p.2.flash.wf)
    && (s.saves.all fun v => v.mats.all fun x => x.opmem.wf && x.scales.wf && x.acc.wf)

/-- Every thing that waits to happen is between parties of the pod, so that no step stops with `Fault.noParty`. -/
def State.partiesOk (s : State) : Bool :=
  s.agenda.all (Item.partiesOk s.podSize) && s.timers.all fun t => (Item.event t.instr t.site).partiesOk s.podSize

/-- A state from which one step goes on. -/
def State.goesOn (s : State) : Prop := ∃ s', step s = .next s'

/-! ## Terms that claims use -/

/-- The record r of form f passes every check of R92 in s that does not depend on its own operation; its tag operation gives the
result tag t and leaves s₁ (s itself, unless the operation is new colour, which starts an activation: R31, R92, R166). -/
structure Fires (f : Form) (r : Rec) (s : State) (t : Word) (s₁ : State) : Prop where
  checks : s.check f r = none
  range  : s.check7 f r = none
  tag    : s.outTag r = .ok (t, s₁)

/-- The record r of form f passes those checks in s (R92). -/
structure Passes (f : Form) (r : Rec) (s : State) : Prop where
  checks : s.check f r = none
  range  : s.check7 f r = none

/-- From s to s' nothing changed but what sending tokens, raising sticky flags and drawing random numbers may change: the agenda, the
names given, the discard count and the releases of the core c, and the flags (none cleared) and counter of activations. -/
structure State.OnlySends (c : CoreId) (s s' : State) : Prop where
  mem      : s'.mem = s.mem
  poison   : s'.poison = s.poison
  exported : s'.exported = s.exported
  clusters : s'.clusters = s.clusters
  dies     : s'.dies = s.dies
  packages : s'.packages = s.packages
  timers   : s'.timers = s.timers
  qtoks    : s'.qtoks = s.qtoks
  saves    : s'.saves = s.saves
  hostOut  : s'.hostOut = s.hostOut
  clock    : s'.now = s.now ∧ s'.elapse = s.elapse ∧ s'.errs = s.errs ∧ s'.podSize = s.podSize ∧ s'.free = s.free
  own      : s'.core c = { s.core c with nulls := (s'.core c).nulls, rels := (s'.core c).rels }
  others   : ∀ k : CoreId, k ≠ c → s'.core k = s.core k
  acts     : ∀ a : Nat, s'.act a = { s.act a with flags := (s'.act a).flags, rng := (s'.act a).rng }
  flags    : ∀ a : Nat, (s.act a).flags &&& (s'.act a).flags = (s.act a).flags

/-- The memory unit and the matrix engine's path of the firing's core can accept what it issues; a firing whose unit cannot accept it
waits at the head of the ready queue (R144, R235, R298). -/
structure State.UnitsFree (s : State) : Prop where
  memory : (s.core s.cur.core).unitBusy = false
  matrix : (s.core s.cur.core).path.length < 16

/-- The integer operand n of a record as its TYP reads it (R48). -/
def State.intOperand (s : State) (r : Rec) (n : Nat) : Int := readInt (intTy r.typ.toNat).1 (intTy r.typ.toNat).2 (s.elem r n)

/-- Every token operand of the firing that issues is a scalar (R88, R152). -/
def State.AllScalar (s : State) (r : Rec) : Prop := ∀ n < r.ari.toNat, kindForm (s.tokenOp n).kind = 0

/-- The memory request that the firing makes: what R235 keeps of it until its reply. -/
def State.reqOf (s : State) (r : Rec) (t : Word) (op : MemOp) (parts : List MemPart) (data : List Byte) (reply : Operand)
    (wave : Option (Nat × Nat × Nat × Nat)) (pages : List Leaf := []) (after : Option Nat := none) : MemReq :=
  { id := s.uid, node := s.cur.node, inTag := s.cur.tag, tag := t, colour := colourOf s.cur.tag, typ := r.typ, op := op,
    parts := parts, got := [], data := data, poison := false, dstA := r.dstA, dstB := r.dstB, reply0 := reply, wave := wave,
    withheld := false, done := false, pages := pages, after := after, stage := 0 }

/-- A request handed over: to its wave instance where it is ordered, else out of the unit (R232, R235). -/
def State.handsOver (s : State) (q : MemReq) : Eff :=
  match q.wave with
  | some w => s.fresh.2.joinWave s.cur.core q w
  | none => .ok (s.fresh.2.leaveUnit s.cur.core q)

/-- The matrix message that the firing makes (R298). -/
def State.matOf (s : State) (f : Form) (r : Rec) (t : Word) : MatMsg :=
  { id := s.uid, opc := f.opc, r := r, f := s.cur, tag := t, stage := 0, draw := 0, mode := 0, src := [], outA := none, outB := none,
    retried := false, parts := [], num := 0, got := 0 }

end Sys2Proof.Machine
end

