-- ==== Sys2Proof/Certificates/Slice0/Obligations.lean ====
section
/-! DEFINITION. The statements for the provers: what the numbered rules of the manual say of the machine. -/

open Sys2Proof Sys2Proof.Machine

/-! ## Records (R75, R84, R90) -/

/-- R75: for every well-formed record instruction, whatever its fields, decoding its word, or its 12 bytes, least significant first,
whatever follows them, gives it back. -/
def Obligations.DecodeOfEncode : Prop :=
  ∀ (n : Nat) (i : Instr), i.wf n = true →
    (∀ w : BitVec 96, encode i = some w → decodeWord w = some i) ∧
    (∀ bs rest : List Byte, encodeBytes i = some bs → bs.length = 12 ∧ decode (bs ++ rest) = some (i, rest))

/-- R75, the other direction: a word that decodes is the word of what it decodes to, so that no bit of a record is dropped; and R90: the
words that do not decode are those whose opcode is a reserved cell of its table, row by row. -/
def Obligations.EncodeOfDecode : Prop :=
  (∀ (w : BitVec 96) (i : Instr), decodeWord w = some i → encode i = some w) ∧
  (∀ w : BitVec 96, decodeWord w = none ↔
    (opcOfWord w).toNat ∈ [0x00, 0x18, 0x19, 0x1A, 0x1B, 0x1C, 0x1D, 0x1E, 0x1F, 0x3D, 0x3E, 0x3F, 0x51, 0x52, 0x53, 0x54, 0x55,
      0x56, 0x57, 0x77, 0x78, 0x79, 0x7A, 0x7B, 0x7C, 0x7D, 0x7E, 0x7F, 0x93, 0x94, 0x95, 0x96, 0x97, 0xAC, 0xAD, 0xAE, 0xAF,
      0xC0, 0xC1, 0xC2, 0xC3, 0xC4, 0xC5, 0xC6, 0xC7, 0xDC, 0xDD, 0xDE, 0xDF, 0xE0, 0xE1, 0xE2, 0xE3, 0xE4, 0xE5, 0xE6, 0xE7,
      0xE8, 0xE9, 0xEA, 0xEB, 0xEC, 0xED, 0xEE, 0xEF, 0xFC, 0xFD, 0xFE, 0xFF])

/-- Words written out from the manual's own encodings decode to what they stand for (R75; the worked encodings of the manual). -/
def Obligations.WordsDecode : Prop :=
  decodeWord 0x2000_9040_0005_4000_0484_40A1#96 = some (.add ⟨0, 2, 1, 0, 1, 0, 5, 0x400004, 0x8440A1⟩) ∧
  decodeWord 0x2280_9084_0001_0000_00C0_C000#96 = some (.mul ⟨0x20, 2, 1, 0, 2, 0, 0x40001, 0, 0xC0C000⟩) ∧
  decodeWord 0x0600_1240_0001_4000_0800_0000#96 = some (.loopin ⟨0, 0, 1, 2, 1, 0, 1, 0x400008, 0⟩) ∧
  decodeWord 0xB402_F000_0000_4000_2400_0000#96 = some (.mma ⟨0, 0xB, 3, 0, 0, 0, 0, 0x400024, 0⟩)

/-! ## Steps -/

/-- A step issues the firing at the head of a core's ready queue: the instruction that its record decodes to runs with that firing
taken from the queue, its free slot to be filled from the backlog and its window word read (R142, R144, R145), and one entry taken from the
agenda, the time passed (the agenda is the model's, log 89). A record whose opcode is reserved ends its firing with ILLEGAL_RECORD (R92).
Where no firing is the next to issue, a step performs a due timer's event, else the next event of the agenda, at its site. What is next is
the first whose island stands not still (R19); what was to happen in a package that EVENT 4 stopped is lost (R438); with nothing next a step
only lets time pass. -/
def Obligations.StepRuns : Prop :=
  (∀ (s : State) (c : CoreId) (rest : List Item) (f : Firing) (q : List Firing),
     let t := s.tick
     t.dueTimer t.timers = none → t.nextItem t.agenda = some (.issue c, rest) → c.exists_ s.podSize = true → (s.pkg c.pkg).stopped = false →
     (s.core c).ready = f :: q →
     let w := s.recordAt c f.node
     let s₁ : State :=
       ({ (({ t with agenda := rest }.modCore c fun k => { k with ready := q }).refillSoon c) with cur := f }).constRead w
     (∀ i : Instr, decodeWord w = some i → step s = exec i s₁) ∧
     (decodeWord w = none → step s = .next (s₁.faultCur { cause := .illegalRecord }))) ∧
  (∀ (s : State) (i : Instr) (x : Site),
     let t := s.tick
     i.partiesOk s.podSize = true → x.core.exists_ s.podSize = true →
     let does (s₁ : State) : Prop :=
       (t.lostItem (.event i x) = false → step s = exec i { s₁ with site := x }) ∧ (t.lostItem (.event i x) = true → step s = .next s₁)
     (∀ (due : Nat) (ts : List Timer), t.dueTimer t.timers = some (⟨due, i, x⟩, ts) → does { t with timers := ts }) ∧
     (∀ rest : List Item, t.dueTimer t.timers = none → t.nextItem t.agenda = some (.event i x, rest) → does { t with agenda := rest })) ∧
  (∀ s : State, s.tick.dueTimer s.timers = none → s.tick.nextItem s.agenda = none → step s = .next s.tick) ∧
  (∀ (s : State) (its : List Item) (ts : List Timer),
     (∀ (pre post : List Item) (it : Item), its = pre ++ it :: post → (∀ y ∈ pre, s.halted y = true) → s.halted it = false →
       s.nextItem its = some (it, pre ++ post)) ∧
     ((∀ y ∈ its, s.halted y = true) → s.nextItem its = none) ∧
     (let ready (y : Timer) : Prop := y.due ≤ s.now ∧ s.halted (.event y.instr y.site) = false
      (∀ (pre post : List Timer) (y : Timer), ts = pre ++ y :: post → (∀ z ∈ pre, ¬ ready z) → ready y →
        s.dueTimer ts = some (y, pre ++ post)) ∧
      ((∀ y ∈ ts, ¬ ready y) → s.dueTimer ts = none)) ∧
     (∀ (it : Item) (p i : Nat), s.itemIsland it = some (p, i) →
       (s.lostItem it = true ↔ (s.pkg p).stopped = true) ∧
       ((s.pkg p).stopped = false → (s.island p i).stopped = true → s.halted it = true) ∧
       ((s.pkg p).stopped = false → (s.island p i).stopped = false → (∀ c : CoreId, it = .issue c → (s.core c).power ≠ .gated) →
         s.halted it = false)))

/-- Every instruction of the table, in every state, gives a next state: no instruction is refused, none stops the machine; faults of
the architecture are records and next states (R401, R404). -/
def Obligations.NothingStops : Prop := ∀ (i : Instr) (s : State), ∃ s' : State, exec i s = .next s'

/-! ## Faults (R91, R92, R401, R432) -/

/-- R92: the first of steps 3 to 6 that fails gives the fault, whatever the instruction, and the fault is precise: the state is the one
before the firing with the fault posted. -/
def Obligations.FailedCheckFaults : Prop :=
  ∀ (i : Instr) (f : Form) (r : Rec) (s : State) (x : Flt),
    i.form = some f → i.record = some r → s.UnitsFree → s.check f r = some x → exec i s = .next (s.faultCur x)

/-- R92, steps 3 to 6 in their order: what each refuses and the fault it gives. R91: a privileged record fired on an ordinary core, a SYSWR
there to a register R191 marks privileged, and SPECBEG without the speculation grant fault PERMISSION when steps 3 to 5 pass; the privileged
forms are those R91 names. R152: an
instruction refuses a token operand that is no scalar, with OPERAND_SLOT on the first such operand. -/
def Obligations.CheckOrder : Prop :=
  (∀ (f : Form) (r : Rec) (s : State),
     (s.check3 f r = false → s.check f r = some { cause := .illegalRecord }) ∧
     (s.check3 f r = true → check4 f r = false → s.check f r = some { cause := .reservedOpcode }) ∧
     (s.check3 f r = true → check4 f r = true →
       r.lk.toNat = 3 ∨ (r.lk.toNat = 2 ∧ s.windowWord (litWindow r).1 (litWindow r).2 = none) →
       s.check f r = some { cause := .badLiteralKind, info := BitVec.ofNat 64 r.lit.toNat }) ∧
     (s.check3 f r = true → check4 f r = true → s.check5 r = true → s.check6 f r = true → s.check f r = none) ∧
     (r.rsv ≠ 0 → s.check3 f r = false) ∧ (6 < r.tag.toNat → s.check3 f r = false)) ∧
  (∀ (i : Instr) (f : Form), i.form = some f →
    (f.priv = true ↔ f.opc ∈ [0xF4, 0xF5, 0xF6, 0xF7, 0xF8, 0xF9, 0xFB, 0x92, 0xD4, 0xA9])) ∧
  (∀ (i : Instr) (f : Form) (r : Rec) (s : State),
    i.form = some f → i.record = some r → s.UnitsFree →
    s.check3 f r = true → check4 f r = true → s.check5 r = true →
    let v := s.cur.op0.val
    let phase := (s.core s.cur.core).phase
    (f.priv = true ∧ s.cur.core.core < 192) ∨ (f.opc = 0xA9 ∧ s.curAct.grant = false) ∨
      (f.opc = 0xF3 ∧ s.cur.core.core < 192 ∧
        ((0x002 ≤ r.lit.toNat ∧ r.lit.toNat ≤ 0x012) ∨ (r.lit.toNat = 0x001 ∧ v.getLsbD 1 ≠ phase.getLsbD 1))) →
    exec i s = .next (s.faultCur { cause := .permission })) ∧
  (∀ (r : Rec) (s s₁ : State) (t : Word) (n : Nat),
     n < r.ari.toNat → kindForm (s.tokenOp n).kind ≠ 0 → (∀ m < n, kindForm (s.tokenOp m).kind = 0) →
     ∀ p ∈ [(Instr.sink r, Forms.sink), (.const r, Forms.const), (.join r, Forms.join), (.cmb r, Forms.cmb), (.rng r, Forms.rng),
       (.evpost r, Forms.evpost), (.endg r, Forms.endg), (.add r, Forms.add), (.div r, Forms.div), (.shl r, Forms.shl),
       (.popc r, Forms.popc), (.cmp r, Forms.cmp), (.sel r, Forms.sel), (.lea r, Forms.lea), (.line r, Forms.line),
       (.fadd r, Forms.fadd), (.fma r, Forms.fma), (.fcmp r, Forms.fcmp), (.fcvt r, Forms.fcvt), (.cvt r, Forms.cvt)],
     Fires p.2 r s t s₁ →
     exec p.1 s = .next (s.faultCur { cause := .operandSlot, info := (s.tokenOp n).val, detail := n }))

/-- R401: a fault of a firing posts one record to queue 1 of its core's cluster, where the queue has room, and changes nothing else: KIND
1, CAUSE, SOURCE, STALL, COLOUR, NODE, CORE, CTL and DETAIL in word 0, TAG, INFO, and AUX above the low half of package time. R432: a queue of 1,024
records keeps its last place for a LOST record: with room a record enters behind the others; when 1,023 stand there it is lost, a LOST
record takes the last place, and further losses raise its count. EVGET takes the oldest. -/
def Obligations.FaultRecord : Prop :=
  (∀ (s : State) (x : Flt),
     let k := s.cur.core.cluId
     let q := (s.cluster k).queues.getD 1 Queue.reset
     q.recs.length < 1023 → (s.cluster k).queues.length = 4 → s.cur.node < 4096 → s.cur.core.core < 194 → x.detail < 4096 →
     ∃ w0 w3 : Word,
       s.faultCur x =
         s.setCluster k { s.cluster k with
           queues := setAt (s.cluster k).queues 1 { q with recs := q.recs ++ [[w0, s.cur.tag, x.info, w3]] } } ∧
       (w0.extractLsb' 56 8).toNat = 0x01 ∧ (w0.extractLsb' 48 8).toNat = x.cause.code ∧ (w0.extractLsb' 46 2).toNat = 0 ∧
       (w0.extractLsb' 45 1).toNat = 0 ∧ w0.extractLsb' 36 9 = s.cur.tag.extractLsb' 55 9 ∧
       (w0.extractLsb' 24 12).toNat = s.cur.node ∧
       (w0.extractLsb' 16 8).toNat = (if s.cur.core.core < 192 then s.cur.core.core else s.cur.core.core - 192) ∧
       (w0.extractLsb' 15 1).toNat = (if s.cur.core.core < 192 then 0 else 1) ∧ (w0.extractLsb' 0 12).toNat = x.detail ∧
       (w3.extractLsb' 32 32).toNat = x.aux % 2 ^ 32 ∧ (w3.extractLsb' 0 32).toNat = s.time k.pkg % 2 ^ 32) ∧
  (∀ (q : Queue) (r : List Word) (time : Word),
     (q.recs.length < 1023 → q.post r time = ({ q with recs := q.recs ++ [r] }, true)) ∧
     (q.recs.length = 1023 → q.lost = 0 →
       q.post r time = ({ recs := q.recs ++ [[0x0C00000000000000#64, 0, 1, time]], lost := 1 }, false)) ∧
     (1023 ≤ q.recs.length → q.lost ≠ 0 → (q.post r time).2 = false ∧ (q.post r time).1.lost = q.lost + 1 ∧
       (q.post r time).1.recs.length = q.recs.length) ∧
     (∀ (x : List Word) (rest : List (List Word)), q.recs = x :: rest → (q.take.map Prod.fst) = some x ∧
       (q.take.map fun p => p.2.recs) = some rest))

/-! ## Tags and result tokens (R23, R31, R83, R146, R151) -/

/-- R31: what each tag operation makes of a tag of depth d whose innermost field has w bits: keep, iterate, push, pop, set field, clear
iteration; the colour stays. Where the depth or the plan gives no such field the operation is TAG_OVERFLOW (R32). -/
def Obligations.TagOperations : Prop :=
  ∀ (plan : List Nat) (t v : Word),
    plan.length ≤ 7 → (∀ w ∈ plan, w ≤ 26) → plan.sum ≤ 52 → tagOk plan t = true →
    let d := depthOf t
    let w := levelWidth plan d
    tagOp plan t 0 v = some t ∧
    (d = 0 → ∀ n ∈ [1, 3, 5, 6], tagOp plan t n v = none) ∧
    (d = 7 ∨ levelWidth plan (d + 1) = 0 → tagOp plan t 2 v = none) ∧
    (d ≠ 7 → levelWidth plan (d + 1) ≠ 0 → ∃ u : Word, tagOp plan t 2 v = some u ∧ colourOf u = colourOf t ∧ depthOf u = d + 1 ∧
      stackOf u = stackOf t * 2 ^ levelWidth plan (d + 1)) ∧
    (d ≠ 0 → ∃ u : Word, tagOp plan t 3 v = some u ∧ colourOf u = colourOf t ∧ depthOf u = d - 1 ∧
      stackOf u = stackOf t / 2 ^ w) ∧
    (d ≠ 0 → ∀ p ∈ [(1, innerOf plan t + 1), (5, v.toNat), (6, 0)], ∃ u : Word, tagOp plan t p.1 v = some u ∧
      colourOf u = colourOf t ∧ depthOf u = d ∧ innerOf plan u = p.2 % 2 ^ w ∧ stackOf u / 2 ^ w = stackOf t / 2 ^ w)

/-- R31, R166: the result tag of a firing is its record's tag operation on its own tag, without any change of the state; where there is none
the firing faults TAG_OVERFLOW. New colour, code 4, starts a child of the firing's activation under the lowest free colour of its die, at depth
0 with an empty stack; with no colour free the firing faults COLOUR_EXHAUSTED. -/
def Obligations.ResultTags : Prop :=
  ∀ (s : State) (r : Rec),
    (r.tag.toNat ≠ 4 →
      s.outTag r = match tagOp s.curAct.plan s.cur.tag r.tag.toNat s.cur.op0.val with
        | some t => .ok (t, s)
        | none => .error { cause := .tagOverflow }) ∧
    (r.tag.toNat = 4 →
      (s.freeColour s.cur.core.dieId = none → s.outTag r = .error { cause := .colourExhausted }) ∧
      (∀ col : BitVec 9, s.freeColour s.cur.core.dieId = some col →
        (∀ n < col.toNat, s.owner? s.cur.core.dieId (BitVec.ofNat 9 n) ≠ none) ∧ s.owner? s.cur.core.dieId col = none ∧
        ∃ s₁ : State, s.outTag r = .ok (mkTag col 0 0, s₁) ∧ s₁.cur = s.cur ∧
          s₁.owner? s.cur.core.dieId col = some s.uid ∧ s₁.mem = s.mem ∧
          (Assoc.get? s.acts s.uid = none → (s₁.act s.uid).parent = s.curAct? ∧ (s₁.act s.uid).plan = s.curAct.plan ∧
            (s₁.act s.uid).origin = .col ∧ (s₁.act s.uid).flags = 0)))

/-- R23, R83, R146, R172: where a token sent from a record goes. A null destination discards it and counts it, up to the top of the count; a
destination on the own core arrives by the local path; one on another core of the die by its network, one on another die, or through a far
entry from a record that starts an activation, through the link engine; a slice descriptor takes its image along (R282). A chorus copy's token for a VOTE
of its chorus goes to the record on the original core, on the copy's port. A token of a region's record that leaves the core goes behind a
release of the region's scope, the greater where it leads into a region too (R348). -/
def Obligations.TokensSent : Prop :=
  ∀ (s : State) (c : CoreId) (node : Nat) (dst : BitVec 24) (t : Word) (o : Operand),
    let cls := dst.toNat / 2 ^ 22
    let f := dst.toNat / 2 ^ 14 % 256
    let e := (Assoc.getD (s.core c).far f 0).toNat
    let tok (c' : CoreId) (n p : Nat) : Token := ⟨n, p, t, o, s.imageFor c c' o⟩
    let near : CoreId := ⟨c.pkg, c.die, c.clu, f⟩
    let far : CoreId := ⟨bitsOf e 52 47, bitsOf e 46 45, bitsOf e 44 42, bitsOf e 41 34⟩
    let sent (i : Instr) : State := { s with agenda := s.agenda ++ [.event i Site.zero] }
    let calm := Assoc.get? (s.core c).regions node = none
    (cls = 0 → s.sendFrom c node dst t o = s.countNull c ∧
      ((s.countNull c).core c).nulls = if (s.core c).nulls = 0xFFFFFFFF#32 then 0xFFFFFFFF#32 else (s.core c).nulls + 1) ∧
    (Assoc.get? (s.core c).chorus node = none →
      (cls = 1 → s.sendFrom c node dst t o = sent (.tokenArrival c .own (tok c (dst.toNat / 4 % 4096) (dst.toNat % 4)))) ∧
      (calm → cls = 2 →
        s.sendFrom c node dst t o = sent (.tokenArrival near .network (tok near (dst.toNat / 4 % 4096) (dst.toNat % 4)))) ∧
      (calm → cls = 3 → e.testBit 63 = true → s.sendFrom c node dst t o =
        sent (if far.dieId = c.dieId ∧ s.startsCol c node = false then .tokenArrival far .network (tok far (bitsOf e 33 22) (bitsOf e 21 20))
          else .linkTokenCrossing c node far (tok far (bitsOf e 33 22) (bitsOf e 21 20))))) ∧
    (∀ copy orig port : Nat, calm → cls = 2 → Assoc.get? (s.core c).chorus node = some (copy, orig) →
      Assoc.get? (s.core near).chorus (dst.toNat / 4 % 4096) = some (port, orig) →
      (opcOfWord (s.recordAt near (dst.toNat / 4 % 4096))).toNat = 0x14 →
      s.sendFrom c node dst t o =
        sent (.tokenArrival ⟨c.pkg, c.die, c.clu, orig⟩ .network (tok ⟨c.pkg, c.die, c.clu, orig⟩ (dst.toNat / 4 % 4096) copy))) ∧
    (∀ (it : Item) (rid sc : Nat) (p : CoreId × Nat × Nat), Assoc.get? (s.core c).regions node = some (rid, sc) → 2 ≤ cls →
      s.leads c node dst = some p → s.tokenItem c node dst t o = some it →
      s.sendFrom c node dst t o = s.startRelease c (colourOf t)
        ((Assoc.get? (s.core p.1).regions p.2.1).elim sc fun x => max sc x.2) false [it])

/-- R147, R151: a firing's result goes to both destinations, A before B; the result of a chain link stays in the core and arrives first. -/
def Obligations.ResultsSent : Prop :=
  ∀ (s : State) (r : Rec) (t : Word) (o : Operand),
    (s.cur.core.core < 192 ∨ r.ari.toNat ≠ 1 ∨ r.dstB.toNat / 2 ^ 22 ≠ 0 ∨ 32 ≤ s.cur.link →
      s.out r t o = (s.sendFrom s.cur.core s.cur.node r.dstA t o).sendFrom s.cur.core s.cur.node r.dstB t o) ∧
    (192 ≤ s.cur.core.core → r.ari.toNat = 1 → r.dstA.toNat / 2 ^ 22 = 1 → r.dstB.toNat / 2 ^ 22 = 0 → s.cur.link < 32 →
      s.out r t o =
        (s.nextUp (.chainLink s.cur.core ⟨r.dstA.toNat / 4 % 4096, r.dstA.toNat % 4, t, o, []⟩ (s.cur.link + 1))).countNull
          s.cur.core)

/-! ## Routing (R156, R157) -/

/-- R156, R157: what the routing instructions send. SINK sends nothing; DUP and GATE send $0 to both destinations; CONST sends its literal,
held by its TYP; STEER sends $0 to A when $1 is not zero, else to B; DENDS by a bit of the END of $0. -/
def Obligations.RoutingResults : Prop :=
  ∀ (r : Rec) (s s₁ : State) (t : Word),
    (Fires Forms.sink r s t s₁ → s.AllScalar r → exec (.sink r) s = .next s₁) ∧
    (Fires Forms.dup r s t s₁ → exec (.dup r) s = .next (s₁.out r t s.cur.op0)) ∧
    (Fires Forms.gate r s t s₁ → exec (.gate r) s = .next (s₁.out r t s.cur.op0)) ∧
    (Fires Forms.const r s t s₁ → s.AllScalar r →
      exec (.const r) s = .next (s₁.out r t ⟨holdScalar (elemTy r.typ.toNat) (s₁.literal r).toNat, otherKind r.typ.toNat⟩)) ∧
    (Fires Forms.steer r s t s₁ →
      (s.cur.op1.val ≠ 0 → exec (.steer r) s = .next (s₁.emitA r t s.cur.op0)) ∧
      (s.cur.op1.val = 0 → exec (.steer r) s = .next (s₁.emitB r t s.cur.op0))) ∧
    (Fires Forms.dends r s t s₁ →
      (s.end0.testBit (r.sub.toNat % 4) = true → exec (.dends r) s = .next (s₁.emitA r t s.cur.op0)) ∧
      (s.end0.testBit (r.sub.toNat % 4) = false → exec (.dends r) s = .next (s₁.emitB r t s.cur.op0)))

/-! ## Loops (R34 to R36, R158 to R160) -/

/-- R35: a credit names one admitted iteration in flight that has not been credited; the base then passes every credited iteration in
order, and the gate never admits more than k iterations beyond its base. No such iteration is LOOP_GATE (R36). -/
def Obligations.GateCredits : Prop :=
  ∀ (g : GateState) (w f : Nat),
    g.k ≤ 64 → g.k ≤ 2 ^ w → g.base ≤ g.next → g.next ≤ g.base + g.k →
    (∀ i, g.next - g.base ≤ i → g.mask.getLsbD i = false) → g.mask.getLsbD 0 = false →
    (∀ i < g.next - g.base, (g.base + i) % 2 ^ w = f → g.mask.getLsbD i = false →
      ∃ g' : GateState, g.credit w f = some g' ∧ g'.next = g.next ∧ g'.k = g.k ∧ g.base ≤ g'.base ∧ g'.base ≤ g'.next ∧
        (0 < i → g'.base = g.base ∧ g'.mask.getLsbD i = true) ∧ (i = 0 → g.base < g'.base)) ∧
    ((∀ i < g.next - g.base, (g.base + i) % 2 ^ w = f → g.mask.getLsbD i = true) → g.credit w f = none)

/-- R34, R158 to R160: a LOOPIN whose tag cannot be pushed faults TAG_OVERFLOW. One whose gate stands in the core makes its request there: with
no gate yet and k beyond the level it pushes it faults LOOP_GATE; with room and no request held, iteration `next` is admitted and $0
(and $1) go out under the pushed tag; else the request is held behind the others. One whose gate or held requests stand in the wings takes
a probe slot and acts when the probe returns, or stays at the head of its queue while all 32 are busy. A new gate starts at zero. -/
def Obligations.LoopinRequests : Prop :=
  ∀ (r : Rec) (s : State),
    Passes Forms.loopin r s →
    let c := s.cur.core
    let u := s.cur.tag
    let n := s.cur.node
    let k := s.core c
    let g := s.gateNow c n u
    let t := admittedTag (s.planOf c u) u g.next
    let b := if r.ari.toNat = 2 then s.cur.op1 else s.cur.op0
    (k.gate n u = none → g = ⟨0, 0, 0, (recOfWord (s.recordAt c n)).lit.toNat, false⟩) ∧
    (tagOp s.curAct.plan u 2 0 = none → exec (.loopin r) s = .next (s.faultCur { cause := .tagOverflow })) ∧
    (∀ v : Word, tagOp s.curAct.plan u 2 0 = some v → k.gateFar n u = false →
      (k.gate n u = none → 2 ^ levelWidth (s.planOf c u) (depthOf u + 1) < g.k →
        exec (.loopin r) s = .next (s.faultCur { cause := .loopGate })) ∧
      ((k.gate n u).isSome = true ∨ g.k ≤ 2 ^ levelWidth (s.planOf c u) (depthOf u + 1) →
        (s.curtained c u = false → g.next < g.base + g.k → k.heldAt n u = [] → exec (.loopin r) s =
          .next (((s.emitA r t s.cur.op0).emitB r t b).endGate c n u { g with next := g.next + 1 })) ∧
        (s.curtained c u = true ∨ g.base + g.k ≤ g.next ∨ k.heldAt n u ≠ [] → exec (.loopin r) s =
          .next ((s.fresh.2.place c .own ⟨n, u, .held s.uid n s.cur.op0 b, none⟩).endGate c n u g)))) ∧
    (∀ v : Word, tagOp s.curAct.plan u 2 0 = some v → k.gateFar n u = true →
      (∀ i < 32, (∀ x ∈ k.probes, x.slot ≠ i) → (∀ j < i, ∃ x ∈ k.probes, x.slot = j) → exec (.loopin r) s =
        .next ((s.setCore c { k with probes := k.probes ++ [⟨i, setIndex n u, .gate n u s.cur⟩], probe := satInc k.probe }).laterAt
          .wingProbeReturn c i)) ∧
      ((∀ i < 32, ∃ x ∈ k.probes, x.slot = i) → exec (.loopin r) s = .next s.retryIssue))

/-- R36, R158 to R160: ITER, LOOPOUT and LOOPCR whose tag cannot be popped fault TAG_OVERFLOW, those whose index names no LOOPIN ILLEGAL_RECORD.
On a gate that stands in the core: ITER with `.cr`, LOOPOUT with `.cr` and LOOPCR first credit their own iteration; a credit that the gate
refuses faults LOOP_GATE with the iteration field, precisely; the oldest held request has the room that a credit made; then ITER makes its
own request, LOOPOUT marks the gate exited and sends its values under the popped tag, LOOPCR sends $0 under its own. A gate in the wings is
reached by a probe, as for LOOPIN. -/
def Obligations.LoopRecordsRun : Prop :=
  ∀ (r : Rec) (s : State),
    let c := s.cur.core
    let k := s.core c
    let plan := s.curAct.plan
    let n := r.lit.toNat
    let w := levelWidth plan (depthOf s.cur.tag)
    let f := innerOf plan s.cur.tag
    let cr := decide (r.sub.toNat % 2 = 1)
    let fault (x : Flt) : Host.Outcome State Fault Refusal := .next (s.faultCur x)
    ∀ p ∈ [(Instr.iter r, Forms.iter), (.loopout r, Forms.loopout), (.loopcr r, Forms.loopcr)], Passes p.2 r s →
    (tagOp plan s.cur.tag 3 0 = none → exec p.1 s = fault { cause := .tagOverflow }) ∧
    (∀ u : Word, tagOp plan s.cur.tag 3 0 = some u →
      ((opcOfWord (s.recordAt c n)).toNat ≠ 0x06 → exec p.1 s = fault { cause := .illegalRecord }) ∧
      ((opcOfWord (s.recordAt c n)).toNat = 0x06 →
        (k.gateFar n u = true →
          (∀ i < 32, (∀ x ∈ k.probes, x.slot ≠ i) → (∀ j < i, ∃ x ∈ k.probes, x.slot = j) → exec p.1 s =
            .next ((s.setCore c { k with probes := k.probes ++ [⟨i, setIndex n u, .gate n u s.cur⟩], probe := satInc k.probe }).laterAt
              .wingProbeReturn c i)) ∧
          ((∀ i < 32, ∃ x ∈ k.probes, x.slot = i) → exec p.1 s = .next s.retryIssue)) ∧
        (k.gateFar n u = false →
          let asks := decide (p.1 = .loopcr r) || cr
          let g₀ := s.gateNow c n u
          (asks = true → g₀.credit w f = none → exec p.1 s = fault { cause := .loopGate, info := BitVec.ofNat 64 f }) ∧
          (∀ g : GateState, (if asks = true then g₀.credit w f = some g else g = g₀) →
            let ends (x : State × GateState) : Host.Outcome State Fault Refusal := .next (x.1.endGate c n u x.2)
            let a := s.serveOne c n u g
            let z := s.serveOne c n u { g with exited := true }
            (p.1 = .iter r →
              ((k.gate n u).isSome = true ∨ s.gateLimit c n ≤ 2 ^ levelWidth (s.planOf c u) (depthOf u + 1) →
                exec p.1 s = ends (a.1.request r n u a.2)) ∧
              (k.gate n u = none → 2 ^ levelWidth (s.planOf c u) (depthOf u + 1) < s.gateLimit c n →
                exec p.1 s = fault { cause := .loopGate })) ∧
            (p.1 = .loopout r → exec p.1 s =
              ends ((z.1.emitA r u z.1.cur.op0).emitB r u (if r.ari.toNat = 2 then z.1.cur.op1 else z.1.cur.op0), z.2)) ∧
            (p.1 = .loopcr r → exec p.1 s = ends (a.1.out r a.1.cur.tag a.1.cur.op0, a.2))))))

/-! ## Calls, tags, activations, collectives (R161 to R174) -/

/-- R161, R163, R164: CALL pushes a call-site field set to its immediate and sends $0; TAGGET sends a part of its input tag; TAGSET sends
$0 under the tag that $1 gives with the firing's own colour, or faults TAG_OVERFLOW where the plan has no such tag. -/
def Obligations.CallAndTagResults : Prop :=
  ∀ (r : Rec) (s s₁ : State) (t : Word),
    (Passes Forms.call r s → tagOp s.curAct.plan s.cur.tag 2 0 = some t →
      exec (.call r) s =
        .next (s.out r (setInner s.curAct.plan t ((immSext r).toNat % 2 ^ levelWidth s.curAct.plan (depthOf t))) s.cur.op0)) ∧
    (Passes Forms.call r s → tagOp s.curAct.plan s.cur.tag 2 0 = none →
      exec (.call r) s = .next (s.faultCur { cause := .tagOverflow })) ∧
    (Fires Forms.tagget r s t s₁ → s.AllScalar r →
      ∀ v : Nat,
        (r.sub.toNat = 0 → v = s.cur.tag.toNat) → (r.sub.toNat = 1 → v = (colourOf s.cur.tag).toNat) →
        (r.sub.toNat = 2 → v = depthOf s.cur.tag) → (r.sub.toNat = 3 → v = innerOf s₁.curAct.plan s.cur.tag) →
        (r.sub.toNat = 4 → v = if 0 ≤ r.lit.toInt then fieldOf s₁.curAct.plan s.cur.tag r.lit.toNat else 0) →
        exec (.tagget r) s = .next (s₁.out r t ⟨BitVec.ofNat 64 v, kUnsigned⟩)) ∧
    (Fires Forms.tagset r s t s₁ →
      ∀ u : Word, u = mkTag (colourOf s.cur.tag) (depthOf s.cur.op1.val) (stackOf s.cur.op1.val) →
      (tagOk s₁.curAct.plan u = true → exec (.tagset r) s = .next (s₁.out r u s.cur.op0)) ∧
      (tagOk s₁.curAct.plan u = false → exec (.tagset r) s = .next (s.faultCur { cause := .tagOverflow })))

/-- R161, R162: RET at a depth above 0 pops the tag and sends $0 to the destination that its return table holds for the innermost field: an
offset the window lacks faults BAD_LITERAL_KIND, a word that is no good destination ILLEGAL_RECORD. At depth 0 of a live coloured callee it
sends $0 under the caller's tag to the caller's destination B, from the record that called, and ends the callee; elsewhere at depth 0 it faults
TAG_OVERFLOW. -/
def Obligations.RetReturns : Prop :=
  ∀ (r : Rec) (s : State), Passes Forms.ret r s →
    let c := s.cur.core
    let pop := tagOp s.curAct.plan s.cur.tag 3 0
    (∀ u : Word, pop = some u →
      let at_ := s.windowWord (litWindow r).1 ((litWindow r).2 + innerOf s.curAct.plan s.cur.tag)
      (at_ = none → exec (.ret r) s = .next (s.faultCur { cause := .badLiteralKind, info := BitVec.ofNat 64 r.lit.toNat })) ∧
      (∀ w : Word, at_ = some w →
        (w.toNat < 2 ^ 24 → s.destBad c (BitVec.ofNat 24 w.toNat) = false →
          exec (.ret r) s = .next (s.sendFrom c s.cur.node (BitVec.ofNat 24 w.toNat) u s.cur.op0)) ∧
        (2 ^ 24 ≤ w.toNat ∨ s.destBad c (BitVec.ofNat 24 w.toNat) = true →
          exec (.ret r) s = .next (s.faultCur { cause := .illegalRecord })))) ∧
    (pop = none →
      (s.curAct? = none → exec (.ret r) s = .next (s.faultCur { cause := .tagOverflow })) ∧
      (∀ a : Nat, s.curAct? = some a →
        ((s.act a).origin ≠ .call → exec (.ret r) s = .next (s.faultCur { cause := .tagOverflow })) ∧
        ((s.act a).origin = .call → (s.act a).life ≠ .live → exec (.ret r) s = .next (s.countNull c)) ∧
        ((s.act a).origin = .call → (s.act a).life = .live →
          let ended (s₁ : State) : Host.Outcome State Fault Refusal :=
            .next ((s₁.modAct a fun x => { x with pdest := none }).endAct a s.cur.op0.val)
          ((s.act a).pdest = none → exec (.ret r) s = ended (s.countNull c)) ∧
          (∀ d : Dest, (s.act a).pdest = some d → exec (.ret r) s = ended (s.returnValue d (s.act a).ptag) ∧
            (∀ it : Item, Assoc.get? (s.core c).regions s.cur.node = none →
              s.tokenFrom c d.core d.node d.dst (decide (d.core ≠ c)) (s.act a).ptag s.cur.op0 = some it →
              s.returnValue d (s.act a).ptag = s.laterAll [it])))))

/-- R26, R28, R162, R165: SPAWN and coloured CALL start a child of the firing's activation under the lowest colour that is free on their die, at
depth 0, and send $0 to destination A under it (SPAWN a plain scalar); the child has the state of its parent but for the fields that R165
names; with no colour free they fault COLOUR_EXHAUSTED. -/
def Obligations.ChildrenStart : Prop :=
  ∀ (r : Rec) (s : State), let d := s.cur.core.dieId
    (s.freeColour d = none →
      (Passes Forms.spawn r s → s.AllScalar r → exec (.spawn r) s = .next (s.faultCur { cause := .colourExhausted })) ∧
      (Passes Forms.callCol r s → exec (.callCol r) s = .next (s.faultCur { cause := .colourExhausted }))) ∧
    (∀ col : BitVec 9, s.freeColour d = some col →
      let child (s₁ : State) (origin : Origin) (reiss : Bool) : Prop :=
        s₁.owner? d col = some s.uid ∧ (∀ n < col.toNat, s.owner? d (BitVec.ofNat 9 n) ≠ none) ∧ s.owner? d col = none ∧
        (Assoc.get? s.acts s.uid = none → let x := s₁.act s.uid
          x.map = [(d, col)] ∧ x.flags = 0 ∧ x.grant = false ∧ x.reissue = reiss ∧ x.eclass = 0 ∧ x.parent = s.curAct? ∧
          x.pdest = s.parentDest r ∧ x.ptag = s.cur.tag ∧ x.origin = origin ∧ x.rng = mix (s.curAct.rng + 1) ∧ x.life = .live ∧
          x.plan = s.curAct.plan ∧ x.windows = s.curAct.windows ∧ x.stall = s.curAct.stall ∧ x.phase = s.curAct.phase)
      (Passes Forms.spawn r s → s.AllScalar r → ∃ s₁ : State,
        exec (.spawn r) s = .next (s₁.firstToken r (mkTag col 0 0) s.uid (plainOp s.cur.op0.val)) ∧
        child s₁ .spawn (decide (r.sub.toNat % 2 = 1))) ∧
      (Passes Forms.callCol r s → ∃ s₁ : State,
        exec (.callCol r) s = .next (s₁.firstToken r (mkTag col 0 0) s.uid s.cur.op0) ∧ child s₁ .call false))

/-- R167 to R169: PURGE of a live child orders its colour purge and sends 1, of a free or ended
colour sends 0, of an activation that is no child of the firing's faults PERMISSION; JOIN steers a completion token by its status; ENDG ends its live activation with $0, a
later one is discarded and counted, and one after a purge has no effect. -/
def Obligations.ActivationsEnd : Prop :=
  ∀ (r : Rec) (s s₁ : State) (t : Word),
    (Fires Forms.purge r s t s₁ → s.AllScalar r →
      let col := BitVec.ofNat 9 s.cur.op0.val.toNat
      (s₁.owner? s.cur.core.dieId col = none → exec (.purge r) s = .next (s₁.out r t (plainOp 0))) ∧
      (∀ a : Nat, s₁.owner? s.cur.core.dieId col = some a →
        ((s₁.act a).parent = none ∨ (s₁.act a).parent ≠ s₁.curAct? → exec (.purge r) s = .next (s.faultCur { cause := .permission })) ∧
        ((s₁.act a).parent ≠ none → (s₁.act a).parent = s₁.curAct? →
          ((s₁.act a).life = .live →
            exec (.purge r) s =
              .next (((s₁.modAct a fun x => { x with life := .purging }).laterAt .colourPurge (s₁.act a).ctl a).out r t (plainOp 1))) ∧
          ((s₁.act a).life = .ending → exec (.purge r) s = .next (s₁.out r t (plainOp 0))) ∧
          ((s₁.act a).life = .purging → exec (.purge r) s = .next (s₁.out r t (plainOp 1)))))) ∧
    (Fires Forms.join r s t s₁ → s.AllScalar r →
      (s.cur.op0.val.toNat % 256 = 0 → exec (.join r) s = .next (s₁.emitA r t (plainOp s.cur.op0.val))) ∧
      (s.cur.op0.val.toNat % 256 ≠ 0 → exec (.join r) s = .next (s₁.emitB r t (plainOp s.cur.op0.val)))) ∧
    (Fires Forms.endg r s t s₁ → s.AllScalar r → s₁.curAct? = none → exec (.endg r) s = .next (s₁.countNull s.cur.core)) ∧
    (Fires Forms.endg r s t s₁ → s.AllScalar r → ∀ a : Nat, s₁.curAct? = some a →
      ((s₁.act a).life = .live → exec (.endg r) s = .next (s₁.endAct a s.cur.op0.val)) ∧
      ((s₁.act a).life = .ending → exec (.endg r) s = .next (s₁.countNull s.cur.core)) ∧
      ((s₁.act a).life ≠ .live → (s₁.act a).life ≠ .ending → exec (.endg r) s = .next s₁))

/-- R170 to R174: CMB sends its combined value, VOTE its majority (both formed in the matching store), RNG the next draw of its
activation's counter, raw or as the FP32 value (draw >> 40) × 2^−24, EVPOST posts its USER record and sends 0, or 1 from a full queue, BNDRY holds $0 behind a release at its scope. -/
def Obligations.CollectiveResults : Prop :=
  ∀ (r : Rec) (s s₁ : State) (t : Word),
    (Fires Forms.cmb r s t s₁ → s.AllScalar r →
      exec (.cmb r) s = .next (s₁.out r t ⟨holdScalar (elemTy r.typ.toNat) s.cur.op0.val.toNat, otherKind r.typ.toNat⟩)) ∧
    (Fires Forms.vote r s t s₁ → exec (.vote r) s = .next (s₁.out r t s.cur.op0)) ∧
    (Fires Forms.rng r s t s₁ → s.AllScalar r → ∀ a : Nat, s₁.curAct? = some a →
      let d := mix ((s₁.act a).rng + 1)
      let drawn := s₁.modAct a fun x => { x with rng := x.rng + 1 }
      (r.sub.toNat % 8 = 0 → exec (.rng r) s = .next (drawn.out r t ⟨d, otherKind 7⟩)) ∧
      (r.sub.toNat % 8 ≠ 0 → exec (.rng r) s = .next (drawn.out r t
        ⟨BitVec.ofNat 64 (roundVal fp32 0 false 0 (.fin false (d.toNat / 2 ^ 40) (-24) false)).1, otherKind 8⟩))) ∧
    (Fires Forms.evpost r s t s₁ → s.AllScalar r →
      let q := (s₁.cluster s.cur.core.cluId).queues.getD (r.sub.toNat % 4) Queue.reset
      ∃ s₂ : State,
        exec (.evpost r) s = .next (s₂.out r t (plainOp (if q.recs.length < 1023 then 0 else 1))) ∧
        ∃ w0 : Word, s₂ = (s₁.board s.cur.core.cluId (r.sub.toNat % 4) [w0, s.cur.tag, s.cur.op0.val, s.cur.op1.val]).1 ∧
          (w0.extractLsb' 56 8).toNat = 0x07 ∧ (s.cur.core.core < 194 → (w0.extractLsb' 40 16).toNat = r.lit.toNat % 65536 ∧
            (w0.extractLsb' 24 12).toNat = s.cur.node % 4096 ∧ w0.extractLsb' 0 9 = colourOf s.cur.tag)) ∧
    (Fires Forms.bndry r s t s₁ → s₁.outOfScope (r.sub.toNat / 8) [r.dstA, r.dstB] = none →
      exec (.bndry r) s =
        .next ((s₁.heldTokens r t s.cur.op0).2.startRelease s.cur.core (colourOf t) (r.sub.toNat / 8) false
          (s₁.heldTokens r t s.cur.op0).1)) ∧
    (Fires Forms.bndry r s t s₁ → ∀ d : BitVec 24, s₁.outOfScope (r.sub.toNat / 8) [r.dstA, r.dstB] = some d →
      exec (.bndry r) s = .next (s.faultCur { cause := .scopeChannel, info := BitVec.ofNat 64 d.toNat }))

/-! ## Integers (R48, R50, R51, R175 to R182) -/

/-- R50, R176, R180: ADD, SUB, MUL, MULH, NEG, ABS and MADD send their exact result, kept modulo 2^w, or under `.sat` clamped to the type's
range, held by TYP, to both destinations; SAT is raised exactly where it was clamped, and no other flag. -/
def Obligations.IntegerArithmetic : Prop :=
  (∀ (w : Nat) (sg : Bool) (x : Int), 0 < w →
    (let y := intResult w sg false x
     y.2 = 0 ∧ y.1 < 2 ^ w ∧ ((y.1 : Int) - x) % (2 ^ w : Nat) = 0 ∧
       (intMin w sg ≤ x → x ≤ intMax w sg → readInt w sg y.1 = x)) ∧
    (let y := intResult w sg true x
     readInt w sg y.1 = max (intMin w sg) (min (intMax w sg) x) ∧ (y.2 = fSAT ↔ x < intMin w sg ∨ intMax w sg < x) ∧
       (y.2 = 0 ↔ intMin w sg ≤ x ∧ x ≤ intMax w sg))) ∧
  (∀ (r : Rec) (s s₁ : State) (t : Word),
    let w := (intTy r.typ.toNat).1
    let sg := (intTy r.typ.toNat).2
    let a := s₁.intOperand r 0
    let b := s₁.intOperand r 1
    let c := s₁.intOperand r 2
    let sat := r.sub.toNat.testBit 5
    ∀ p ∈ [(Instr.add r, Forms.add, sat, a + b), (.sub r, Forms.sub, sat, a - b), (.mul r, Forms.mul, sat, a * b),
      (.mulh r, Forms.mulh, false, a * b / ((2 ^ w : Nat) : Int)), (.neg r, Forms.neg, sat, -a), (.abs r, Forms.abs, sat, |a|),
      (.madd r, Forms.madd, sat, a * b + c)],
    Fires p.2.1 r s t s₁ → s.AllScalar r →
    let y := intResult w sg p.2.2.1 p.2.2.2
    exec p.1 s = .next ((s₁.raise y.2).out r t ⟨holdScalar (elemTy r.typ.toNat) y.1, mkKind 0 (classOf r.typ.toNat) s.end0⟩))

/-- R176 to R178, R180: the order, logic, shift and count instructions on the w bits of their operands: MIN, MAX, AND, OR, XOR, ANDN,
SHR, SAR, ROTL, CLZ, CTZ, POPC, BREV and SEL; none raises a flag. -/
def Obligations.IntegerBits : Prop :=
  ∀ (r : Rec) (s s₁ : State) (t : Word),
    let w := (intTy r.typ.toNat).1
    let x := s₁.elem r 0
    let y := s₁.elem r 1
    let a := s₁.intOperand r 0
    let b := s₁.intOperand r 1
    ∀ p ∈ [(Instr.min r, Forms.min, if a ≤ b then x else y), (.max r, Forms.max, if b ≤ a then x else y),
      (.and r, Forms.and, x &&& y), (.or r, Forms.or, x ||| y), (.xor r, Forms.xor, x ^^^ y),
      (.andn r, Forms.andn, x &&& (2 ^ w - 1 - y)),
      (.shr r, Forms.shr, if y < w then x / 2 ^ y else 0),
      (.sar r, Forms.sar, wrapBits w (a / ((2 ^ min y w : Nat) : Int))),
      (.rotl r, Forms.rotl, (x * 2 ^ (y % w) + x / 2 ^ (w - y % w)) % 2 ^ w),
      (.clz r, Forms.clz, if x = 0 then w else w - 1 - x.log2),
      (.popc r, Forms.popc, ((List.range w).filter fun i => x.testBit i).length),
      (.sel r, Forms.sel, if s.cur.op0.val ≠ 0 then y else s₁.elem r 2)],
    Fires p.2.1 r s t s₁ → s.AllScalar r →
    exec p.1 s = .next ((s₁.raise 0).out r t ⟨holdScalar (elemTy r.typ.toNat) p.2.2, mkKind 0 (classOf r.typ.toNat) s.end0⟩)

/-- R51: DIV truncates toward zero and REM takes the dividend's sign; a zero divisor gives all ones and the dividend, raises IDZ, and the
machine goes on. R177 to R179: SHL by less than w multiplies, by more gives 0 or under `.sat` the end of the range; CTZ and BREV by their bits; BEXT takes
`len` bits from `pos` up, extended by TYP; BINS puts the low bits of b there. -/
def Obligations.IntegerFields : Prop :=
  ∀ (r : Rec) (s s₁ : State) (t : Word),
    let w := (intTy r.typ.toNat).1
    let sg := (intTy r.typ.toNat).2
    let x := s₁.elem r 0
    let a := s₁.intOperand r 0
    let b := s₁.intOperand r 1
    let sat := r.sub.toNat.testBit 5
    let res (fl : Flg) (x : Nat) : Host.Outcome State Fault Refusal :=
      .next ((s₁.raise fl).out r t ⟨holdScalar (elemTy r.typ.toNat) x, mkKind 0 (classOf r.typ.toNat) s.end0⟩)
    s.AllScalar r →
    (Fires Forms.shl r s t s₁ →
      (s₁.elem r 1 < w →
        exec (.shl r) s = res (intResult w sg sat (a * 2 ^ s₁.elem r 1)).2 (intResult w sg sat (a * 2 ^ s₁.elem r 1)).1) ∧
      (w ≤ s₁.elem r 1 → sat = false ∨ a = 0 → exec (.shl r) s = res 0 0) ∧
      (w ≤ s₁.elem r 1 → sat = true → 0 < a → exec (.shl r) s = res fSAT (wrapBits w (intMax w sg))) ∧
      (w ≤ s₁.elem r 1 → sat = true → a < 0 → exec (.shl r) s = res fSAT (wrapBits w (intMin w sg)))) ∧
    (Fires Forms.ctz r s t s₁ → ∃ n ≤ w, exec (.ctz r) s = res 0 n ∧ (∀ i < n, x.testBit i = false) ∧ (n < w → x.testBit n = true)) ∧
    (Fires Forms.brev r s t s₁ → ∃ n : Nat, exec (.brev r) s = res 0 n ∧ ∀ i < w, n.testBit i = x.testBit (w - 1 - i)) ∧
    (Fires Forms.bext r s t s₁ → ∃ n : Nat, exec (.bext r) s = res 0 n ∧
      let len := min ((s₁.val r 1).toNat / 256 % 128) 64
      n = if len = 0 then 0 else wrapBits w (readInt len sg (wrapBits len (a / ((2 ^ ((s₁.val r 1).toNat % 64) : Nat) : Int))))) ∧
    (Fires Forms.bins r s t s₁ → ∃ n : Nat, exec (.bins r) s = res 0 n ∧
      let pos := (s₁.val r 2).toNat % 64
      let len := min ((s₁.val r 2).toNat / 256 % 128) 64
      ∀ i < w, n.testBit i = if pos ≤ i ∧ i < pos + len then (wrapBits len (s₁.intOperand r 1)).testBit (i - pos)
        else x.testBit i) ∧
    (Fires Forms.div r s t s₁ →
      (b = 0 → exec (.div r) s = res fIDZ (2 ^ w - 1)) ∧
      (b ≠ 0 → exec (.div r) s =
        res (intResult w sg (r.sub.toNat.testBit 5) (a.tdiv b)).2 (intResult w sg (r.sub.toNat.testBit 5) (a.tdiv b)).1)) ∧
    (Fires Forms.rem r s t s₁ →
      (b = 0 → exec (.rem r) s = res fIDZ (wrapBits w a)) ∧
      (b ≠ 0 → exec (.rem r) s = res 0 (wrapBits w (a.tmod b))))

/-- R180 to R182: CMP sends 1 where its condition holds, else 0; LEA sends $0 + idx × scale + off modulo 2^64; LINE the quotient by its
unit to A and the remainder to B. -/
def Obligations.CompareAndAddress : Prop :=
  ∀ (r : Rec) (s s₁ : State) (t : Word), s.AllScalar r →
    let a := s₁.intOperand r 0
    let b := s₁.intOperand r 1
    (Fires Forms.cmp r s t s₁ →
      ∀ q : Prop, (r.sub.toNat = 0 → (q ↔ a = b)) → (r.sub.toNat = 1 → (q ↔ a ≠ b)) → (r.sub.toNat = 2 → (q ↔ a < b)) →
      (r.sub.toNat = 3 → (q ↔ a ≤ b)) → (r.sub.toNat = 4 → (q ↔ a > b)) → (5 ≤ r.sub.toNat → (q ↔ a ≥ b)) →
      (q → exec (.cmp r) s = .next (s₁.out r t ⟨1, mkKind 0 1 s.end0⟩)) ∧
      (¬ q → exec (.cmp r) s = .next (s₁.out r t ⟨0, mkKind 0 1 s.end0⟩))) ∧
    (Fires Forms.lea r s t s₁ → ∀ scale : Int,
      scale = ([1, 2, 4, 8, 16, 32, 64, 48, 192] : List Int).getD r.sub.toNat 49152 →
      exec (.lea r) s = .next (s₁.out r t
        ⟨s.cur.op0.val + BitVec.ofInt 64 (b * scale) +
          (if r.lk.toNat = 0 then 0 else if r.lk.toNat = 1 then r.lit.signExtend 64 else s₁.literal r),
         mkKind 0 (classOf r.typ.toNat) s.end0⟩)) ∧
    (Fires Forms.line r s t s₁ → ∀ u : Nat, u = ([192, 48, 49152, 3145728] : List Nat).getD r.sub.toNat 805306368 →
      exec (.line r) s = .next ((s₁.emitA r t ⟨BitVec.ofNat 64 (s.cur.op0.val.toNat / u), mkKind 0 1 s.end0⟩).emitB r t
        ⟨BitVec.ofNat 64 (s.cur.op0.val.toNat % u), mkKind 0 1 s.end0⟩))

/-! ## Floats (R61 to R64, R67, R183 to R188) -/

/-- R184, R188: each rounded float instruction computes its exact result, rounds it once by the record's mode, or by its activation's where
the record says so, and raises the flags found; under SR it draws one random number first. FADD, FSUB, FMUL, FMA, FDIV, FSQRT, FRND,
FEXP2, FLOG2, FRCP and FRSQ. -/
def Obligations.FloatRounded : Prop :=
  ∀ (r : Rec) (s s₁ : State) (t : Word),
    let f := fmtOf r.typ.toNat
    let x := s₁.elem r 0
    let y := s₁.elem r 1
    let rm := r.sub.toNat / 8
    let mode := if rm = 7 then (s₁.curAct.ctrl.extractLsb' 0 3).toNat else rm
    let m : Rnd := ⟨mode, r.sub.toNat.testBit 2, drawHi s₁.curAct.rng 0⟩
    let s₂ := if mode = 5 then s₁.reserve 1 else s₁
    ∀ p ∈ [(Instr.fadd r, Forms.fadd, faddBits f m x y), (.fsub r, Forms.fsub, fsubBits f m x y), (.fmul r, Forms.fmul, fmulBits f m x y),
      (.fma r, Forms.fma, fmaBits f m x y (s₁.elem r 2)), (.fdiv r, Forms.fdiv, fdivBits f m x y), (.fsqrt r, Forms.fsqrt, fsqrtBits f m x),
      (.frnd r, Forms.frnd, frndBits f m x), (.fexp2 r, Forms.fexp2, fexp2Bits f m x), (.flog2 r, Forms.flog2, flog2Bits f m x),
      (.frcp r, Forms.frcp, frcpBits f m x), (.frsq r, Forms.frsq, frsqBits f m x)],
    Fires p.2.1 r s t s₁ → s.AllScalar r →
    exec p.1 s =
      .next ((s₂.raise p.2.2.2).out r t ⟨holdScalar (elemTy r.typ.toNat) p.2.2.1, mkKind 0 (classOf r.typ.toNat) s.end0⟩)

/-- R184 to R186: FABS clears the sign bit and FNEG inverts it, of every value, NaN or not, and raise nothing; FMIN and FMAX choose; FCMP sends 1
or 0, and never 1 for an ordered condition on a NaN. -/
def Obligations.FloatUnrounded : Prop :=
  ∀ (r : Rec) (s s₁ : State) (t : Word), s.AllScalar r →
    let f := fmtOf r.typ.toNat
    let x := s₁.elem r 0
    let y := s₁.elem r 1
    let res (fl : Flg) (v : Nat) : Host.Outcome State Fault Refusal :=
      .next ((s₁.raise fl).out r t ⟨holdScalar (elemTy r.typ.toNat) v, mkKind 0 (classOf r.typ.toNat) s.end0⟩)
    (Fires Forms.fabs r s t s₁ → ∃ v : Nat, exec (.fabs r) s = res 0 v ∧ v.testBit f.mbits = false ∧
      ∀ i < f.mbits, v.testBit i = x.testBit i) ∧
    (Fires Forms.fneg r s t s₁ → ∃ v : Nat, exec (.fneg r) s = res 0 v ∧ v.testBit f.mbits = !(x.testBit f.mbits) ∧
      ∀ i < f.mbits, v.testBit i = x.testBit i) ∧
    (Fires Forms.fmin r s t s₁ → exec (.fmin r) s = res (fminmax f false x y).2 (fminmax f false x y).1) ∧
    (Fires Forms.fmax r s t s₁ → exec (.fmax r) s = res (fminmax f true x y).2 (fminmax f true x y).1) ∧
    (Fires Forms.fcmp r s t s₁ →
      let c := fcmpBits f (r.sub.toNat % 4) x y
      exec (.fcmp r) s = .next ((s₁.raise c.2).out r t ⟨if c.1 = true then 1 else 0, mkKind 0 1 s.end0⟩) ∧
      ((readFlt f x).isNan = true ∨ (readFlt f y).isNan = true → (c.1 = true ↔ r.sub.toNat % 4 = 3)))

/-- R67, R68, R187, R289: a scalar conversion gives the element that its row of R67 gives, with its flags; CVT sends an overflow report on B where
a saturating conversion clamped it, and FCVT between equal types keeps the value, but makes a NaN canonical, with NV if it was
signalling. (That a conversion which does not round draws nothing is the model's, log 34.) -/
def Obligations.Conversions : Prop :=
  ∀ (r : Rec) (s s₁ : State) (t : Word), s.AllScalar r →
    let src := elemTy r.typ.toNat
    let dt := r.lit.toNat % 16
    let x := s₁.elem r 0
    let rm := r.sub.toNat / 8
    let mode := if rm = 7 then (s₁.curAct.ctrl.extractLsb' 0 3).toNat else rm
    let y := convElem src (elemTy dt) mode (r.sub.toNat.testBit 2) (drawHi s₁.curAct.rng 0) x
    let s₂ := if mode = 5 ∧ convRounds src (elemTy dt) = true then s₁.reserve 1 else s₁
    let o : Operand := ⟨holdScalar (elemTy dt) y.1, mkKind 0 (classOf dt) s.end0⟩
    (Fires Forms.fcvt r s t s₁ →
      (dt ≠ r.typ.toNat → exec (.fcvt r) s = .next ((s₂.raise y.2.1).out r t o)) ∧
      (dt = r.typ.toNat →
        let kept (fl : Flg) (v : Nat) : Host.Outcome State Fault Refusal :=
          .next ((s₁.raise fl).out r t ⟨holdScalar src v, mkKind 0 (classOf dt) s.end0⟩)
        (∀ f : Fmt, src = .flt f →
          ((readFlt f x).isNan = false → exec (.fcvt r) s = kept 0 x) ∧
          ((readFlt f x).isNan = true → exec (.fcvt r) s = kept (snanFlag [readFlt f x]) f.qnan)) ∧
        ((∀ f : Fmt, src ≠ .flt f) → exec (.fcvt r) s = kept 0 x))) ∧
    (Fires Forms.cvt r s t s₁ →
      (y.2.2 = false ∨ convSaturates src (elemTy dt) (r.sub.toNat.testBit 2) = false →
        exec (.cvt r) s = .next ((s₂.raise y.2.1).emitA r t o)) ∧
      (y.2.2 = true → convSaturates src (elemTy dt) (r.sub.toNat.testBit 2) = true →
        exec (.cvt r) s =
          .next (((s₂.raise y.2.1).emitA r t o).emitB r t ⟨holdScalar src x, overflowKind false 0⟩)))

/-! ## Vectors (R282 to R292) -/

/-- R49, R282: elements written over a slice read back, each at its width, and every byte of the core's lanes outside the slice's words
stays as it was. -/
def Obligations.SliceElements : Prop :=
  ∀ (s : State) (x : Slice) (w : Nat) (es : List Nat),
    ((s.core s.cur.core).lanes.wf = true) → x.row + x.nrow ≤ 255 → w ∈ [2, 4, 6, 8, 16, 32, 64] → es.length = x.count w →
    (s.putElems x w es).elems x w = es.map (· % 2 ^ w) ∧
    (∀ y : Slice, y.row + y.nrow ≤ 255 → x.row + x.nrow < y.row ∨ y.row + y.nrow < x.row →
      (s.putElems x w es).elems y w = s.elems y w) ∧
    (∀ a : Nat, (∀ i j : Nat, i < 64 → j ≤ x.nrow → a / 4 ≠ (1024 * i + (x.row + j) * 4) / 4) →
      ((s.putElems x w es).core s.cur.core).lanes.get a = (s.core s.cur.core).lanes.get a)

/-- R283, R285, R286: the elementwise instructions of two operands write, over $0's slice, the scalar instruction's result of each pair, and send
the slice's descriptor; a scalar operand stands for every element. The integer and the float types of each. -/
def Obligations.VectorPairs : Prop :=
  ∀ (r : Rec) (s s₁ : State) (t : Word) (x : Slice) (bs : List Nat),
    s₁.sliceAt r 0 = .ok x → s₁.spread r 1 x = .ok bs →
    let typ := r.typ.toNat
    let es := s₁.elems x (typWidth typ)
    let sat := r.sub.toNat.testBit 2
    let f := fmtOf typ
    let done (draws : Bool) (op : Rnd → Nat → Nat → Nat × Flg) : State :=
      let v := s₁.vecRnd r (if draws && decide (8 ≤ typ) then es.length else 0)
      let ys := (es.zip bs).zipIdx.map fun p => op (v.1 p.2) p.1.1 p.1.2
      ((v.2.putElems x (typWidth typ) (ys.map (·.1))).raise (orFlags ys)).out r t
        ⟨v.2.val r 0, mkKind 1 (classOf typ) v.2.end0⟩
    (typ < 8 →
      ∀ p ∈ [(Instr.vadd r, Forms.vadd, true, fun a b => intRes typ sat (asInt typ a + asInt typ b)),
        (.vsub r, Forms.vsub, true, fun a b => intRes typ sat (asInt typ a - asInt typ b)),
        (.vmul r, Forms.vmul, true, fun a b => intRes typ sat (asInt typ a * asInt typ b)),
        (.vmin r, Forms.vmin, false, fun a b => (if asInt typ a ≤ asInt typ b then a else b, 0)),
        (.vmax r, Forms.vmax, false, fun a b => (if asInt typ b ≤ asInt typ a then a else b, 0)),
        (.vand r, Forms.vand, false, fun a b => (a &&& b, 0)), (.vor r, Forms.vor, false, fun a b => (a ||| b, 0)),
        (.vxor r, Forms.vxor, false, fun a b => (a ^^^ b, 0)),
        (.vshl r, Forms.vshl, false, fun a b => shlBits typ (r.sub.toNat.testBit 5) a b),
        (.vshr r, Forms.vshr, false, fun a b => (if (intTy typ).2 then sarBits typ a b else shrBits typ a b, 0))],
      Fires p.2.1 r s t s₁ → exec p.1 s = .next (done p.2.2.1 fun _ a b => p.2.2.2 a b)) ∧
    (8 ≤ typ →
      ∀ p ∈ [(Instr.vadd r, Forms.vadd, true, fun m a b => faddBits f m a b), (.vsub r, Forms.vsub, true, fun m a b => fsubBits f m a b),
        (.vmul r, Forms.vmul, true, fun m a b => fmulBits f m a b), (.vmin r, Forms.vmin, false, fun _ a b => fminmax f false a b),
        (.vmax r, Forms.vmax, false, fun _ a b => fminmax f true a b)],
      Fires p.2.1 r s t s₁ → exec p.1 s = .next (done p.2.2.1 p.2.2.2))

/-- R283, R285 to R287: the same for the other vector instructions over $0: VABS, VNEG, VEXP2, VRCP, VRSQ, VFMA, VCMP, VSEL, and the running
values of VSCAN; VRED sends the last running value as a scalar (R72: the first element stands, each later running value is the step of the one
before it with the next element, in ascending order). -/
def Obligations.VectorOthers : Prop :=
  (∀ (typ op : Nat) (m : Nat → Rnd) (xs : List Nat),
    (redAll typ op m xs).length = xs.length ∧
    (∀ x, xs.head? = some x → (redAll typ op m xs).head? = some (x, 0)) ∧
    (∀ (i x : Nat) (y : Nat × Flg), xs[i + 1]? = some x → (redAll typ op m xs)[i]? = some y →
      (redAll typ op m xs)[i + 1]? = some (redStep typ op (m i) y.1 x))) ∧
  ∀ (r : Rec) (s s₁ : State) (t : Word) (x : Slice), s₁.sliceAt r 0 = .ok x →
    let typ := r.typ.toNat
    let w := typWidth typ
    let es := s₁.elems x w
    let f := fmtOf typ
    let wrote (s₂ : State) (cls : Nat) (ys : List (Nat × Flg)) : Host.Outcome State Fault Refusal :=
      .next (((s₂.putElems x w (ys.map (·.1))).raise (orFlags ys)).out r t ⟨s₂.val r 0, mkKind 1 cls s₂.end0⟩)
    (∀ p ∈ [(Instr.vabs r, Forms.vabs, false, fun (_ : Rnd) a => if typ < 8 then intRes typ (r.sub.toNat.testBit 2) |asInt typ a|
          else (a % 2 ^ f.mbits, 0)),
        (.vneg r, Forms.vneg, false, fun _ a => if typ < 8 then intRes typ (r.sub.toNat.testBit 2) (-(asInt typ a))
          else (a ^^^ 2 ^ f.mbits, 0)),
        (.vexp2 r, Forms.vexp2, true, fun m a => if typ < 8 then (a, 0) else fexp2Bits f m a),
        (.vrcp r, Forms.vrcp, true, fun m a => if typ < 8 then (a, 0) else frcpBits f m a),
        (.vrsq r, Forms.vrsq, true, fun m a => if typ < 8 then (a, 0) else frsqBits f m a)],
      Fires p.2.1 r s t s₁ →
      let v := s₁.vecRnd r (if p.2.2.1 && decide (8 ≤ typ) then es.length else 0)
      exec p.1 s = wrote v.2 (classOf typ) (es.zipIdx.map fun q => p.2.2.2 (v.1 q.2) q.1)) ∧
    (∀ bs : List Nat, s₁.spread r 1 x = .ok bs → Fires Forms.vcmp r s t s₁ →
      exec (.vcmp r) s = wrote s₁ 1 ((es.zip bs).map fun p =>
        if typ < 8 then (b2n (cmpCond (r.sub.toNat % 8) (asInt typ p.1) (asInt typ p.2)), 0)
        else (b2n (vcmpFlt f (r.sub.toNat % 8) p.1 p.2).1, (vcmpFlt f (r.sub.toNat % 8) p.1 p.2).2))) ∧
    (∀ bs cs : List Nat, s₁.spread r 1 x = .ok bs → s₁.spread r 2 x = .ok cs →
      (Fires Forms.vsel r s t s₁ →
        exec (.vsel r) s = wrote s₁ (classOf typ) ((es.zip (bs.zip cs)).map fun p => (if p.1 ≠ 0 then p.2.1 else p.2.2, 0))) ∧
      (Fires Forms.vfma r s t s₁ →
        let v := s₁.vecRnd r es.length
        exec (.vfma r) s = wrote v.2 (classOf typ)
          ((es.zip (bs.zip cs)).zipIdx.map fun p => fmaBits f (v.1 p.2) p.1.1 p.1.2.1 p.1.2.2))) ∧
    (∀ (z : Slice) (ys : List (Nat × Flg)) (s₂ : State), s₁.reduce r = .ok (z, ys, s₂) →
      (Fires Forms.vscan r s t s₁ → exec (.vscan r) s = wrote s₂ (classOf typ) ys) ∧
      (Fires Forms.vred r s t s₁ →
        exec (.vred r) s = .next ((s₂.raise (orFlags ys)).out r t
          ⟨holdScalar (elemTy typ) ((ys.getLast?.map (·.1)).getD 0), mkKind 0 (classOf typ) 0⟩)))

/-- R288: VPERM, VSPLAT, VIOTA, VPACK, VUNPK and VCPY move and fill slices whose rows match. -/
def Obligations.VectorMoves : Prop :=
  ∀ (r : Rec) (s s₁ : State) (t : Word) (x y z : Slice),
    s₁.sliceAt r 0 = .ok x →
    let w := typWidth r.typ.toNat
    let cls := classOf r.typ.toNat
    let wrote (n : Nat) (d : Slice) (v : Nat) (es : List Nat) (c : Nat) : Host.Outcome State Fault Refusal :=
      .next ((s₁.putElems d v es).out r t ⟨s₁.val r n, mkKind 1 c s₁.end0⟩)
    (Fires Forms.vperm r s t s₁ → s₁.sliceAt r 1 = .ok y → y.nrow = x.nrow →
      exec (.vperm r) s = wrote 0 x 32 ((s₁.elems y 32).zipIdx.map fun p =>
        if p.1.testBit 31 then 0 else (s₁.elems x 32).getD (p.2 / 64 * 64 + p.1 % 64) 0) cls) ∧
    (kindForm (s₁.opnd r 1).kind = 0 →
      (Fires Forms.vsplat r s t s₁ → exec (.vsplat r) s = wrote 0 x w (List.replicate (x.count w) (s₁.elem r 1)) cls) ∧
      (Fires Forms.viota r s t s₁ →
        exec (.viota r) s = wrote 0 x w ((List.range (x.count w)).map fun e => (s₁.elem r 1 + e) % 2 ^ w) cls)) ∧
    (Fires Forms.vpack r s t s₁ → s₁.sliceAt r 1 = .ok y → y.nrow = x.nrow → s₁.sliceAt r 2 = .ok z → z.nrow + 1 = 2 * (x.nrow + 1) →
      exec (.vpack r) s = wrote 2 z w (interleave (s₁.elems x w) (s₁.elems y w)) cls) ∧
    (Fires Forms.vunpk r s t s₁ → s₁.sliceAt r 1 = .ok y → s₁.sliceAt r 2 = .ok z → z.nrow = y.nrow → x.nrow + 1 = 2 * (y.nrow + 1) →
      ∃ a b : List Nat, interleave a b = s₁.elems x w ∧
        exec (.vunpk r) s =
          .next (((((s₁.putElems y w a).putElems z w b).emitA r t ⟨s₁.val r 1, mkKind 1 cls s₁.end0⟩)).emitB r t
            ⟨s₁.val r 2, mkKind 1 cls s₁.end0⟩)) ∧
    (Fires Forms.vcpy r s t s₁ → s₁.sliceAt r 1 = .ok y → y.nrow = x.nrow →
      exec (.vcpy r) s = wrote 1 y 8 (s₁.elems x 8) (bitsOf s.cur.op0.kind.toNat 4 3))

/-- R68, R289 to R292: VCVT, QBLK, DQBLK, TERNPK and its `.unpk` write their results over slices whose rows the rules give, and send the
descriptors; other rows are OPERAND_SLOT. VCVT, where it saturates, reports the lowest clamped lane on B, with MORE where another lane was
clamped (which element of the lane it names is the model's, log 33, and so is how many E3M2 elements a slice holds, log 104). DQBLK gives NaN under a NaN scale,
with NANSCALE, and posts NANSCALE_TRAP where NSTE asks for it. -/
def Obligations.FormatSlices : Prop :=
  ∀ (r : Rec) (s s₁ : State) (t : Word) (x y z : Slice),
    let dt := r.lit.toNat % 16
    let d (n cls : Nat) : Operand := ⟨s₁.val r n, mkKind 1 cls s₁.end0⟩
    let slot (n : Nat) : Host.Outcome State Fault Refusal :=
      .next (s.faultCur { cause := .operandSlot, info := (s₁.opnd r n).val, detail := n })
    (Fires Forms.vcvt r s t s₁ → s₁.sliceAt r 0 = .ok x → s₁.sliceAt r 1 = .ok y →
      let src := elemTy r.typ.toNat
      let es := s₁.elems x src.width
      let rows := ceilDiv (es.length * (elemTy dt).width) 2048
      let v := s₁.vecRnd r (if convRounds src (elemTy dt) then es.length else 0)
      let ys := es.zipIdx.map fun p => (p, convElem src (elemTy dt) (v.1 p.2).mode (v.1 p.2).sat (v.1 p.2).draw p.1)
      let clamped := (ys.filter fun q => q.2.2.2).map fun q => (q.1.2, q.1.1)
      let lane (p : Nat × Nat) : Nat := src.width * p.1 / 32 % 64
      let sent := ((v.2.putElems y (elemTy dt).width (ys.map fun p => p.2.1)).raise
        (orFlags (ys.map fun p => (p.2.1, p.2.2.1)))).emitA r t ⟨v.2.val r 1, mkKind 1 (classOf dt) v.2.end0⟩
      let sat := convSaturates src (elemTy dt) (r.sub.toNat.testBit 2)
      (y.nrow + 1 ≠ rows → exec (.vcvt r) s = slot 1) ∧
      (y.nrow + 1 = rows → sat = false ∨ clamped = [] → exec (.vcvt r) s = .next sent) ∧
      (y.nrow + 1 = rows → sat = true → ∀ p ∈ clamped, (∀ q ∈ clamped, lane p < lane q ∨ (lane p = lane q ∧ p.1 ≤ q.1)) →
        exec (.vcvt r) s = .next (sent.emitB r t
          ⟨holdScalar src p.2, overflowKind (clamped.any fun q => decide (lane q ≠ lane p)) (lane p)⟩))) ∧
    (Fires Forms.qblk r s t s₁ → s₁.sliceAt r 0 = .ok x → s₁.sliceAt r 1 = .ok y → s₁.sliceAt r 2 = .ok z →
      let xs := s₁.elems x 32
      let rows := ceilDiv (xs.length * (fmtOf dt).width) 2048
      let bs := blocks32 (xs.length / 32) xs
      let v := s₁.vecRnd r (32 * (bs.filter fun b => (blockScale dt b).isSome).length)
      let q := quantGo (fmtOf dt) dt v.1 0 bs
      (y.nrow + 1 ≠ rows → exec (.qblk r) s = slot 1) ∧
      (y.nrow + 1 = rows → z.nrow + 1 ≠ ceilDiv xs.length 8192 → exec (.qblk r) s = slot 2) ∧
      (y.nrow + 1 = rows → z.nrow + 1 = ceilDiv xs.length 8192 →
        exec (.qblk r) s = .next ((((((v.2.putElems y (fmtOf dt).width (q.1.map (·.1))).putElems z 8 q.2).raise (orFlags q.1)).emitA r t
          (d 1 (classOf dt))).emitB r t (d 2 1))))) ∧
    (Fires Forms.dqblk r s t s₁ → s₁.sliceAt r 0 = .ok x → s₁.sliceAt r 1 = .ok y → s₁.sliceAt r 2 = .ok z →
      let n := 64 * (z.nrow + 1)
      let v := s₁.vecRnd r n
      let cs := s₁.elems y 8
      let es := ((s₁.elems x (fmtOf dt).width).take n).zipIdx.map fun p =>
        let e := readFlt (fmtOf dt) p.1
        let c := cs.getD (p.2 / 32) 0
        let b := roundVal fp32 (v.1 p.2).mode (v.1 p.2).sat (v.1 p.2).draw
          (if c = 0xFF then .nan e.isSnan else e.scale ((c : Int) - 127))
        (b.1, b.2 ||| snanFlag [e])
      let wrote := (v.2.putElems z 32 (es.map (·.1))).raise (orFlags es)
      let o : Operand := ⟨v.2.val r 2, mkKind 1 2 v.2.end0⟩
      let fits := x.nrow + 1 = ceilDiv (n * (fmtOf dt).width) 2048
      (¬ fits → exec (.dqblk r) s = slot 0) ∧
      (fits → y.nrow + 1 ≠ ceilDiv n 8192 → exec (.dqblk r) s = slot 1) ∧
      (fits → y.nrow + 1 = ceilDiv n 8192 →
        ((∀ c ∈ cs.take (n / 32), c ≠ 0xFF) → exec (.dqblk r) s = .next (wrote.out r t o)) ∧
        (0xFF ∈ cs.take (n / 32) →
          (s₁.curAct.ctrl.getLsbD 8 = false → exec (.dqblk r) s = .next ((wrote.raise fNANSCALE).out r t o)) ∧
          (s₁.curAct.ctrl.getLsbD 8 = true → exec (.dqblk r) s =
            .next (((wrote.raise fNANSCALE).faultCur { cause := .nanscaleTrap }).out r t o))))) ∧
    (Fires Forms.ternpk r s t s₁ → s₁.sliceAt r 0 = .ok x → s₁.sliceAt r 1 = .ok y → kindForm (s₁.opnd r 2).kind = 0 →
      let xs := s₁.elems x 32
      let es := xs.map (ternOf (s₁.elem r 2))
      (y.nrow + 1 ≠ ceilDiv xs.length 1024 → exec (.ternpk r) s = slot 1) ∧
      (y.nrow + 1 = ceilDiv xs.length 1024 →
        exec (.ternpk r) s = .next (((s₁.putElems y 2 (es.map (·.1))).raise (orFlags es)).out r t (d 1 3)))) ∧
    (Fires Forms.ternpkUnpk r s t s₁ → s₁.sliceAt r 0 = .ok x → s₁.sliceAt r 1 = .ok y →
      let es := (s₁.elems x 2).map fun c => (if c = 1 then 1 else if c = 3 then 0xFF else 0, if c = 2 then fTERNRSV else 0)
      (y.nrow + 1 ≠ 4 * (x.nrow + 1) → exec (.ternpkUnpk r) s = slot 1) ∧
      (y.nrow + 1 = 4 * (x.nrow + 1) →
        exec (.ternpkUnpk r) s = .next (((s₁.putElems y 8 (es.map (·.1))).raise (orFlags es)).out r t (d 1 0))))

/-- R310, R311: TOPK and TOPKM write, over $2, the k highest-ranked entries in rank order, then empty entries. The rank is a total order of the
non-empty entries of distinct indices: value, ties to the lower index, NaN last. -/
def Obligations.Selection : Prop :=
  (∀ (r : Rec) (s s₁ : State) (t : Word) (x y z : Slice) (k : Nat), r.lit.toNat = k → 1 ≤ k → k ≤ 64 →
    s₁.sliceAt r 0 = .ok x → s₁.sliceAt r 2 = .ok z → z.nrow = 1 →
    let wrote (es : List (Nat × Nat)) : Host.Outcome State Fault Refusal :=
      .next ((s₁.putElems z 32 (topWords r.typ.toNat (r.sub.toNat.testBit 0) k es)).out r t
        ⟨s₁.val r 2, mkKind 1 (classOf r.typ.toNat) s₁.end0⟩)
    (Fires Forms.topk r s t s₁ → kindForm (s₁.opnd r 1).kind = 0 →
      let b := (s₁.val r 1).toNat % 2 ^ 32
      (b + (s₁.elems x 32).length - 1 < 2 ^ 32 - 1 → exec (.topk r) s = wrote ((s₁.elems x 32).zipIdx.map fun p => (p.1, b + p.2))) ∧
      (2 ^ 32 - 1 ≤ b + (s₁.elems x 32).length - 1 →
        exec (.topk r) s = .next (s.faultCur { cause := .operandSlot, info := (s₁.opnd r 1).val, detail := 1 }))) ∧
    (Fires Forms.topkm r s t s₁ → x.nrow = 1 → s₁.sliceAt r 1 = .ok y → y.nrow = 1 →
      exec (.topkm r) s = wrote (s₁.topList x ++ s₁.topList y))) ∧
  (∀ (typ : Nat) (mn : Bool) (a b c : Nat × Nat), typ ∈ [2, 6, 8] →
    (ranksAbove typ mn a b = true → ranksAbove typ mn b a = false) ∧
    (ranksAbove typ mn a b = true → ranksAbove typ mn b c = true → ranksAbove typ mn a c = true) ∧
    (a.2 ≠ b.2 → a.2 ≠ 2 ^ 32 - 1 → b.2 ≠ 2 ^ 32 - 1 → ranksAbove typ mn a b = true ∨ ranksAbove typ mn b a = true))

/-! ## The memory unit (R229 to R254) -/

/-- R229 to R232, R235, R237 to R240, R242: LD, ST, LDV, MCRD, STV, LDG, STS, MNOP, LWB and LINV make one request over their address, their
slice's or each active lane's bytes, with the bytes that they write and the operand that a vector load replies; an ordered one joins its wave
instance, any other leaves the unit behind the core's earlier ones and its performance is placed on the agenda. R215, R216, R258: one whose page
fails faults precisely, or in stall mode is withheld with a STALL record; a store into a reserved ring buffer faults PERMISSION. -/
def Obligations.MemoryRequests : Prop :=
  (∀ (s : State) (q : MemReq), q.wave = none → q.after = none →
    ∃ s' : State, s.handsOver q = .ok s' ∧ s'.agenda = s.agenda ++ [.event q.op.poll ⟨s.cur.core, q.id, 0, false⟩] ∧
      (s'.core s.cur.core).reqs = (s.core s.cur.core).reqs ++ [q]) ∧
  (∀ (s : State) (q : MemReq) (w : Nat × Nat × Nat × Nat), q.wave = some w →
    (∀ x ∈ (s.core s.cur.core).waves, x.tag = q.inTag → x.region ≠ w.1) → (s.core s.cur.core).waves.length < 16 →
    ∃ s' : State, s.handsOver q = .ok s' ∧ s'.agenda = s.agenda ∧
      (s'.core s.cur.core).waves = (s.core s.cur.core).waves ++ [⟨q.inTag, w.1, false, 0, 0, 0xFF, [], [q]⟩]) ∧
  (∀ (r : Rec) (s s₂ : State) (t : Word) (op : MemOp) (wr : Bool) (rs : List (Nat × Nat)) (data : List Byte) (o : Operand)
      (w : Option (Nat × Nat × Nat × Nat)) (ps : List MemPart) (x : Flt),
    let cov := s.coverAll s.cur.core s.cur.node s.curAct.stall wr rs
    (cov = .error x → s.makeReq r t op wr rs data o w = .error x) ∧
    (∀ p : MemPart, cov = .ok (ps, none, s₂) → s₂.ringHit s.cur.core op ps = some p →
      s.makeReq r t op wr rs data o w = .error { cause := .permission, info := BitVec.ofNat 64 p.va }) ∧
    (cov = .ok (ps, some x, s₂) → s₂.ringHit s.cur.core op ps = none →
      let q := { s₂.reqOf r t op ps data o none with withheld := true }
      s.makeReq r t op wr rs data o none =
        .ok ((s₂.fresh.2.stallRecord s.cur.core q x).modCore s.cur.core fun k => { k with reqs := k.reqs ++ [q] }))) ∧
  ∀ (r : Rec) (s s₁ s₂ s₃ : State) (t d : Word) (w : Option (Nat × Nat × Nat × Nat)) (va : Nat) (ps : List MemPart) (x y : Slice)
      (ls : List (Nat × Nat)),
    (s.core s.cur.core).unitBusy = false → s₁.displacement r = .ok (d, w) →
    let n := elemSize r
    let cov (write : Bool) (rs : List (Nat × Nat)) : Prop :=
      s₁.coverAll s.cur.core s.cur.node s₁.curAct.stall write rs = .ok (ps, none, s₂)
    let up := sortBy (fun (a b : Nat × Nat) => decide (a.2 < b.2)) ls
    (s.AllScalar r → vaOf s.cur.op0.val d = some va → checkNear s.cur.core va n = .ok () → checkLine va n = .ok () →
      (Fires Forms.ld r s t s₁ → cov false [(va, n)] → s₂.handsOver (s₂.reqOf r t .load ps [] zeroOp w) = .ok s₃ →
        exec (.ld r) s = .next s₃) ∧
      (Fires Forms.st r s t s₁ → cov true [(va, n)] → s₂.ringHit s.cur.core .store ps = none →
        s₂.handsOver (s₂.reqOf r t .store ps (leBytes n (s₁.elem r 1)) zeroOp w) = .ok s₃ → exec (.st r) s = .next s₃)) ∧
    (s₁.vecAccess r = .ok (x, va, w) →
      (Fires Forms.ldv r s t s₁ → cov false [(va, x.size)] →
        s₂.handsOver (s₂.reqOf r t (.loadVec x.row x.nrow false) ps [] (sliceReply r x) w) = .ok s₃ → exec (.ldv r) s = .next s₃) ∧
      (Fires Forms.mcrd r s t s₁ → cov false [(va, x.size)] →
        s₂.handsOver (s₂.reqOf r t (.loadVec x.row x.nrow true) ps [] (sliceReply r x) w) = .ok s₃ → exec (.mcrd r) s = .next s₃) ∧
      (Fires Forms.stv r s t s₁ → cov true [(va, x.size)] → s₂.ringHit s.cur.core .storeVec ps = none →
        s₂.handsOver (s₂.reqOf r t .storeVec ps (s₁.image x) zeroOp w) = .ok s₃ → exec (.stv r) s = .next s₃)) ∧
    (∀ base : Word, s₁.scalarAt r 0 = .ok base → s₁.oneWord r 1 = .ok x → laneAddrs s.cur.core base d (s₁.image x) n = .ok ls →
      (Fires Forms.ldg r s t s₁ → cov false (up.map fun p => (p.2, n)) →
        s₂.handsOver (s₂.reqOf r t (.gather x.row (up.map (·.1))) ps [] (sliceReply r x) w) = .ok s₃ → exec (.ldg r) s = .next s₃) ∧
      (Fires Forms.sts r s t s₁ → s₁.oneWord r 2 = .ok y →
        s₁.curAct.stall = true ∨ (s₁.coverAll s.cur.core s.cur.node false true (up.map fun p => (p.2, n))).isOk = true →
        cov true (ls.map fun p => (p.2, n)) → s₂.ringHit s.cur.core .scatter ps = none →
        s₂.handsOver (s₂.reqOf r t .scatter ps (ls.flatMap fun p => leBytes n (laneWord (s₁.image y) p.1)) zeroOp w) = .ok s₃ →
        exec (.sts r) s = .next s₃)) ∧
    (Fires Forms.mnop r s t s₁ → s₁.handsOver (s₁.reqOf r t .mnop [] [] s.cur.op0 w) = .ok s₃ → exec (.mnop r) s = .next s₃) ∧
    (s.AllScalar r → vaOf s.cur.op0.val d = some va → checkNear s.cur.core va 1 = .ok () →
      (Fires Forms.lwb r s t s₁ → cov false [(va, 1)] → exec (.lwb r) s =
        .next (s₂.fresh.2.leaveUnit s.cur.core (s₂.reqOf r t .writeBack ps [] zeroOp none))) ∧
      (Fires Forms.linv r s t s₁ → ∀ b : Bool, b = decide (r.sub.toNat % 2 = 1) → cov b [(va, 1)] → exec (.linv r) s =
        .next (s₂.fresh.2.leaveUnit s.cur.core (s₂.reqOf r t (.invalidate b) ps [] zeroOp none))))

/-- R217, R232, R241, R244, R246 to R248, R252, R253, R386: what WAVE, PF, SCANCEL, SSTAT, XLAT, TLBINV, SBIND, CPY, CPYR and LSEND do beside
loads and stores. WAVE opens its instance, or a PENDING one whose members above LAST fault; CPY, CPYR and LSEND send an active message behind a release of the core's earlier
writes at scope cluster. -/
def Obligations.MemoryUnitRecords : Prop :=
  ∀ (r : Rec) (s s₁ : State) (t : Word), (s.core s.cur.core).unitBusy = false →
    let c := s.cur.core
    let k := c.cluId
    let sends (s : State) (kind : EngineKind) (m : Msg) : Host.Outcome State Fault Refusal :=
      .next (s.startRelease c (colourOf s.cur.tag) 2 false [.event (.engineInboxAccept (clusterEngine kind k) m) Site.zero])
    (Fires Forms.wave r s t s₁ →
      let region := bitsOf r.lit.toNat 13 6
      let last := r.lit.toNat % 64
      let here := (s₁.core c).waves.find? fun x => decide (x.tag = s.cur.tag) && decide (x.region = region)
      (here = none → (s₁.core c).waves.length < 16 →
        exec (.wave r) s =
          .next ((s₁.modCore c fun y => { y with waves := y.waves ++ [⟨s.cur.tag, region, true, last, 0, 0xFF, [], []⟩] }).out r t
            s.cur.op0)) ∧
      (here = none → 16 ≤ (s₁.core c).waves.length → exec (.wave r) s = .next (s.faultCur { cause := .loopGate })) ∧
      (∀ x : WaveInst, here = some x → x.opened = true → exec (.wave r) s = .next (s.faultCur { cause := .illegalRecord })) ∧
      (∀ (x : WaveInst) (low high : List MemReq), here = some x → x.opened = false →
        low = x.waiting.filter (fun q => decide ((q.wave.elim 0 fun v => v.2.2.1) ≤ last)) →
        high = x.waiting.filter (fun q => decide (last < (q.wave.elim 0 fun v => v.2.2.1))) →
        exec (.wave r) s =
          .next (((high.foldl (fun s q => s.fault k .firing false c q.node q.inTag { cause := .illegalRecord })
            (s₁.modCore c fun y => { y with waves := y.waves.map fun z =>
              if z = x then { x with opened := true, last := last, waiting := low } else z })).later
            (.waveAccessPerform c s.cur.tag region)).out r t s.cur.op0))) ∧
    (Fires Forms.pf r s t s₁ → ∀ va : Nat, s₁.addrOf r 1 = .ok va →
      (isNear va = true → exec (.pf r) s = .next ((s₁.countNull c).out r t (plainOp 0))) ∧
      (isNear va = false → exec (.pf r) s = .next ((s₁.later (.pageWalkComplete c.dieId (.prefetch c va))).out r t (plainOp 0)))) ∧
    (Fires Forms.scancel r s t s₁ → s.AllScalar r →
      let p := s₁.port k r.lit.toNat
      (r.sub.toNat % 2 = 0 →
        exec (.scancel r) s = .next (((s₁.setPort k r.lit.toNat ⟨none, []⟩).cancelStreams k (p.running.toList ++ p.queued)).out r t
          (plainOp (BitVec.ofNat 64 (p.running.toList ++ p.queued).length)))) ∧
      (r.sub.toNat % 2 = 1 →
        exec (.scancel r) s = .next (((s₁.setPort k r.lit.toNat ⟨p.running, []⟩).cancelStreams k p.queued).out r t
          (plainOp (BitVec.ofNat 64 p.queued.length))))) ∧
    (Fires Forms.sstat r s t s₁ → s.AllScalar r →
      let p := s₁.port k r.lit.toNat
      ∃ w : Word, exec (.sstat r) s = .next (s₁.out r t (plainOp w)) ∧
        (w.extractLsb' 32 32).toNat = (p.running.elim 0 fun x => x.sent % 2 ^ 32) ∧
        (w.extractLsb' 8 2).toNat = p.queued.length % 4 ∧ (w.getLsbD 7 = p.running.isSome) ∧
        (w.getLsbD 6 = (p.running.elim false fun x => x.stall.isSome))) ∧
    (Fires Forms.xlat r s t s₁ → s.AllScalar r → ∀ (d : Word) (w : Option (Nat × Nat × Nat × Nat)), s₁.displacement r = .ok (d, w) →
      let x := s₁.xlat c (s.cur.op0.val + d)
      exec (.xlat r) s = .next ((x.2.emitA r t (plainOp x.1.1)).emitB r t (plainOp x.1.2))) ∧
    (Fires Forms.tlbinv r s t s₁ → s.AllScalar r → ∀ va : Nat,
      (if r.sub.toNat % 2 = 1 then va = 0 else vaOf s.cur.op0.val 0 = some va) →
      let all := decide (r.sub.toNat % 2 = 1)
      exec (.tlbinv r) s = .next (((s₁.scopeDies (r.sub.toNat / 8) c).foldl (fun s d =>
        (s.modDie d fun x => { x with tlb := x.tlb.filter fun e => !all && !e.holds va }).retryDie d all va) s₁).out r t (plainOp 0))) ∧
    (Fires Forms.sbind r s t s₁ → s.AllScalar r →
      let dst := BitVec.ofNat 24 s.cur.op2.val.toNat
      let ctag := mkTag (colourOf s.cur.tag) (depthOf s.cur.op1.val) (stackOf s.cur.op1.val)
      (2 ^ 24 ≤ s.cur.op2.val.toNat ∨ s₁.destBad c dst = true →
        exec (.sbind r) s = .next (s.faultCur { cause := .illegalRecord })) ∧
      (s.cur.op2.val.toNat < 2 ^ 24 → s₁.destBad c dst = false →
        (tagOk s₁.curAct.plan ctag = false → exec (.sbind r) s = .next (s.faultCur { cause := .tagOverflow })) ∧
        (∀ va : Nat, tagOk s₁.curAct.plan ctag = true → vaOf s.cur.op0.val 0 = some va → checkNear c va 64 = .ok () →
          checkMultiple va 64 = .ok () →
          (∀ x : Flt, s₁.bindLook t va = .error x → exec (.sbind r) s = .next (s.faultCur x)) ∧
          (∀ (bs : List Byte) (pages : List Leaf) (qs : List MemPart) (s₃ : State), s₁.bindLook t va = .ok (bs, pages) →
            s₁.coverAll c s.cur.node s₁.curAct.stall false [(va, 64)] = .ok (qs, none, s₃) →
            exec (.sbind r) s =
              .next (s₃.fresh.2.leaveUnit c (s₃.reqOf r t (.pattern r.lit.toNat ctag dst) qs bs zeroOp none pages (some 2))))))) ∧
    (∀ (dst src : Word) (len a b : Nat) (pages : List Leaf), s₁.copyOps r = .ok (dst, src, len) →
      (Fires Forms.cpy r s t s₁ → r.sub.toNat % 2 = 1 → len = 0 ∨ (s₁.rangeOk dst.toNat len = true ∧ s₁.rangeOk src.toNat len = true) →
        exec (.cpy r) s = sends s₁ .copy (s₁.copyMsg r t 3 (dst.toNat % 2 ^ 56) (src.toNat % 2 ^ 56) len 0 [])) ∧
      (Fires Forms.cpy r s t s₁ → r.sub.toNat % 2 = 1 → len ≠ 0 → s₁.rangeOk dst.toNat len = false ∨ s₁.rangeOk src.toNat len = false →
        let bad := if s₁.rangeOk dst.toNat len = true then src else dst
        exec (.cpy r) s = .next (s.faultCur { cause := .translation, info := bad, detail := 0xFFF })) ∧
      (vaOf dst 0 = some a → vaOf src 0 = some b → s₁.copyNear a b len = .ok () → s₁.copyPages a b len = .ok pages →
        (Fires Forms.cpy r s t s₁ → r.sub.toNat % 2 = 0 → exec (.cpy r) s = sends s₁ .copy (s₁.copyMsg r t 1 a b len 0 pages)) ∧
        (Fires Forms.cpyr r s t s₁ → checkMultiple a (elemSize r) = .ok () → checkMultiple b (elemSize r) = .ok () →
          len % elemSize r = 0 → s₁.curAct.stall = true ∨ s₁.reducible pages a len = true →
          exec (.cpyr r) s = sends s₁ .copy (s₁.copyMsg r t 2 a b len (r.sub.toNat % 8) pages)) ∧
        (Fires Forms.lsend r s t s₁ → ∀ e : Nat, (Assoc.getD (s₁.core c).far (r.lit.toNat % 64) 0).toNat = e → e.testBit 63 = true →
          let to_ : CoreId := ⟨bitsOf e 52 47, bitsOf e 46 45, bitsOf e 44 42, 0⟩
          s₁.covers (r.sub.toNat / 8) c to_ = true → (s₁.curAct?.bind fun x => s₁.colourOn x to_.dieId) ≠ none → isNear a = false →
          exec (.lsend r) s = sends s₁ .link (s₁.linkMsg r t to_.cluId a b len pages))))

/-- R209, R216, R227, R233 to R235, R237, R241, R342, R347, R358, R383, R387: the memory unit's events. A load with all its bytes delivers them,
one that lacks bytes asks again, one of a dead colour is dropped; a write is performed once nothing holds it back and its slices can take it,
and then acknowledged; a wave performs its ready member, and goes on to the next; a release whose requests are answered or have left and whose
lines are applied completes and lets go what it holds, but for tokens that a saved region keeps; a merge window closes once it can serve its
joiners; a remote advance takes and completes its number; a prefetch's walk asks for its sector; a retried walk goes on; a translation
entry drops. -/
def Obligations.MemoryEvents : Prop :=
  ∀ s : State,
    let c := s.site.core
    let n := s.site.n
    let d := c.dieId
    (∀ q : MemReq, (s.core c).req? n = some q →
      (s.orphan c q = true → exec .loadReply s = .next (s.dropReq c n)) ∧
      (s.orphan c q = false →
        (s.holdsBack c q = true → exec .loadReply s = .next (s.laterAt .loadReply c n)) ∧
        (s.holdsBack c q = false →
          let lost := s.lostLine c q false ((s.slicedLines q).filter fun l => q.lacking.any fun k => decide (k / 192 = l))
          let s₁ := (s.askMerge c q).readAll c q
          (∀ l : Nat, lost = some l → exec .loadReply s = .next (s.failReq c q l)) ∧
          (∀ q' : MemReq, lost = none → (s₁.core c).req? n = some q' →
            (q'.lacking ≠ [] → exec .loadReply s = .next (s₁.laterAt .loadReply c n)) ∧
            (q'.lacking = [] → q'.poison = false → exec .loadReply s = .next (s₁.finishLoad c q')) ∧
            (q'.lacking = [] → q'.poison = true → exec .loadReply s =
              .next ((s₁.dropReq c n).consumePoison c q'.node q'.inTag (s₁.poisonAt q')))))) ∧
      (q.done = true →
        (s.coarsePending c q = true → exec .writeAcknowledgement s = .next (s.laterAt .writeAcknowledgement c q.id)) ∧
        (s.coarsePending c q = false → s.orphan c q = false →
          exec .writeAcknowledgement s = .next (s.finishReq c q (plainOp 0))) ∧
        (s.coarsePending c q = false → s.orphan c q = true → exec .writeAcknowledgement s = .next (s.dropReq c q.id))) ∧
      (q.done = false →
        (s.holdsBack c q = true → exec .writeAcknowledgement s = .next (s.laterAt .writeAcknowledgement c q.id)) ∧
        (s.holdsBack c q = false → exec .writeAcknowledgement s = .next (s.writeStep c q)) ∧
        (s.holdsBack c q = false → q.op.isStore = true →
          (∀ l : Nat, s.lostLine c q true (s.slicedLines q) = some l → exec .writeAcknowledgement s = .next (s.failReq c q l)) ∧
          (s.lostLine c q true (s.slicedLines q) = none →
            (∀ s₁ : State, s.storeReady c q = (true, s₁) → exec .writeAcknowledgement s =
              .next (((s₁.storeParts c (some q.colour) q.parts q.data).modReq c q.id fun y => { y with done := true }).laterAt
                .writeAcknowledgement c q.id)) ∧
            (∀ s₁ : State, s.storeReady c q = (false, s₁) →
              exec .writeAcknowledgement s = .next (s₁.laterAt .writeAcknowledgement c q.id)))))) ∧
    (∀ (tag : Word) (region : Nat) (x : WaveInst) (q : MemReq) (v : Nat × Nat × Nat × Nat),
      ((s.core c).waves.find? fun y => decide (y.tag = tag) && decide (y.region = region) && y.opened) = some x →
      (x.waiting.find? x.ready = none → exec (.waveAccessPerform c tag region) s = .next s) ∧
      (x.waiting.find? x.ready = some q → q.wave = some v →
        (v.2.2.1 = x.last → exec (.waveAccessPerform c tag region) s =
          .next ((s.modCore c fun k => { k with waves := k.waves.erase x }).leaveUnit c q)) ∧
        (v.2.2.1 ≠ x.last →
          let y : WaveInst :=
            { x with lastOwn := v.2.2.1, lastSucc := v.2.2.2, did := v.2.2.1 :: x.did, waiting := x.waiting.erase q }
          let s₁ := (s.modCore c fun k => { k with waves := k.waves.map fun z => if z = x then y else z }).leaveUnit c q
          exec (.waveAccessPerform c tag region) s =
            .next (if y.waiting.any y.ready = true then s₁.later (.waveAccessPerform c tag region) else s₁)))) ∧
    (∀ (x : Release) (rs : List Release), (s.core c).rels = x :: rs →
      (x.id ≠ n → (∃ y ∈ rs, y.id = n) → exec .releaseComplete s = .next (s.laterAt .releaseComplete c n)) ∧
      (x.id = n →
        let k := s.core c
        let busy := (∃ q ∈ k.reqs ++ k.waves.flatMap (·.waiting), q.id ∈ x.reqs) ∨ ∃ q ∈ k.staying, q.id ∈ x.leave
        let s₁ := s.modCore c fun k => { k with rels := rs }
        let stays (it : Item) : Bool := x.kept && Item.isToken it
        let ends (s₂ : State) : Host.Outcome State Fault Refusal :=
          .next ((s₂.modCore c fun k => { k with kept := k.kept ++ x.held.filter stays }).laterAll (x.held.filter fun it => !stays it))
        (busy → exec .releaseComplete s = .next (s.laterAt .releaseComplete c n)) ∧
        (¬ busy → 4 ≤ x.scope → x.probed = false → exec .releaseComplete s =
          .next ((s.modCore c fun k => { k with rels := { x with probed := true, lines := (s.die d).pendLines } :: rs }).laterAt
            .releaseComplete c n)) ∧
        (¬ busy → x.scope < 4 ∨ x.probed = true →
          (x.lines ≠ [] → exec .releaseComplete s = .next (s.laterAt .releaseComplete c n)) ∧
          (x.lines = [] → x.tlc = none → exec .releaseComplete s = ends s₁) ∧
          (∀ ctr m : Nat, x.lines = [] → x.tlc = some (ctr, m) →
            (s.owner? d x.colour ≠ none → exec .releaseComplete s = ends (s₁.completeNumber c.cluId x.colour ctr m)) ∧
            (s.owner? d x.colour = none → exec .releaseComplete s = ends s₁))))) ∧
    (∀ w : MergeWin, (s.die d).window? n = some w →
      (s.windowServes d w = true ∨ s.unreachable d n false = true →
        exec .mergeWindowClose s = .next ((s.closeWindow d n).touchLine d n)) ∧
      (s.windowServes d w = false → s.unreachable d n false = false → exec .mergeWindowClose s =
        .next ((s.fillFor d n (s.windowOffs w)).laterAt .mergeWindowClose (dieCore0 d) n))) ∧
    (∀ (k : CluId) (col : BitVec 9) (ctr : Nat),
      (s.owner? k.dieId col = none → exec (.remoteAdvance k col ctr) s = .next s) ∧
      (s.owner? k.dieId col ≠ none → exec (.remoteAdvance k col ctr) s =
        .next ((s.takeNumber k col ctr).2.completeNumber k col ctr (s.takeNumber k col ctr).1))) ∧
    (∀ (x : DieId) (y : CoreId) (va m : Nat),
      (∀ (lv : Nat) (s' : State), s.translate x none va = (.inr lv, s') →
        exec (.pageWalkComplete x (.prefetch y va)) s = .next (s'.countNull y)) ∧
      (∀ (lf : Leaf) (s' : State), s.translate x none va = (.inl lf, s') →
        let pa := lf.pbase + (va - lf.vbase)
        let idle := lf.nc = true ∨ s'.isHbm pa = false ∨ s'.unreachable x (pa / 192) false = true ∨ s'.coarseFor x (pa / 192) = true
        (idle → exec (.pageWalkComplete x (.prefetch y va)) s = .next (s'.countNull y)) ∧
        (¬ idle → (s'.die x).line? (pa / 192) = none →
          (s'.hasRoom x (pa / 192) = true →
            exec (.pageWalkComplete x (.prefetch y va)) s = .next (s'.wantSectors x (pa / 192) [sectorOf pa])) ∧
          (s'.hasRoom x (pa / 192) = false →
            exec (.pageWalkComplete x (.prefetch y va)) s = .next (s'.later (.pageWalkComplete x (.prefetch y va)))))) ∧
      exec (.pageWalkComplete x (.retry y m)) s = .next (s.retryWalk y m)) ∧
    exec .tlbEntryDrop s = .next (s.modDie d fun x => { x with tlb := x.tlb.eraseIdx n })

/-! ## Synchronisation (R381 to R395) -/

/-- R348, R381 to R385: FENCE, REL and ACQ send $0 behind a release at their scope, of the writes alone or of the reads too (ACQ of the reads
alone); in a region it goes to the region's scope where that is greater; TLINC takes the
next number of its counter and completes it behind its release; TLWAIT is held until DONE has reached $0; TLREAD sends DONE and TAKEN; TLARM
sends at once where its counter is there already, else is armed, or refused with 1 where 64 sends are armed. DONE follows the completed
numbers in order. -/
def Obligations.ReleasesAndCounters : Prop :=
  (∀ (s : State) (k : CluId) (col : BitVec 9) (c : Nat),
    (s.takeNumber k col c).1 = (s.counter k col c).taken + 1 ∧
    (s.takeNumber k col c).2.counter k col c = { s.counter k col c with taken := (s.counter k col c).taken + 1 } ∧
    (∀ (k' : CluId) (col' : BitVec 9) (c' : Nat), (k', col', c') ≠ (k, col, c) →
      (s.takeNumber k col c).2.counter k' col' c' = s.counter k' col' c')) ∧
  (∀ (x : Counter) (n : Nat), x.doneN + 1 = n → n ∉ x.ahead → n + 1 ∉ x.ahead →
    (Counter.settle (x.ahead ++ [n]).length { x with ahead := x.ahead ++ [n] }).doneN = n) ∧
  (∀ (r : Rec) (s : State) (t : Word) (sc : Option Nat) (loads blocks : Bool) (tlc : Option (Nat × Nat)) (o : Operand),
    let x := s.heldTokens r t o
    s.resultRelease r t sc loads blocks tlc o =
      x.2.openRelease x.2.cur.core (colourOf x.2.cur.tag) (s.resultScope r sc) loads blocks tlc x.1 ∧
    (Assoc.get? (s.core s.cur.core).regions s.cur.node = none → s.resultScope r sc = sc)) ∧
  ∀ (r : Rec) (s s₁ : State) (t : Word),
    let c := s.cur.core
    let k := c.cluId
    let col := colourOf s.cur.tag
    let x := s₁.counter k col r.lit.toNat
    ((s.core c).unitBusy = false →
      (Fires Forms.fence r s t s₁ → exec (.fence r) s = .next (s₁.resultRelease r t (some (r.sub.toNat / 8)) true true none s.cur.op0)) ∧
      (Fires Forms.rel r s t s₁ → exec (.rel r) s = .next (s₁.resultRelease r t (some (r.sub.toNat / 8)) false false none s.cur.op0)) ∧
      (Fires Forms.acq r s t s₁ → exec (.acq r) s = .next (s₁.resultRelease r t none true true none s.cur.op0))) ∧
    (s.AllScalar r →
      (Fires Forms.tlinc r s t s₁ → exec (.tlinc r) s =
        .next ((s₁.takeNumber k col r.lit.toNat).2.resultRelease r t (some (r.sub.toNat / 8)) false false (some (r.lit.toNat, x.taken + 1))
          (plainOp (BitVec.ofNat 64 (x.taken + 1))))) ∧
      (Fires Forms.tlwait r s t s₁ → exec (.tlwait r) s =
        .next ((s₁.modCluster k fun y => { y with waits := y.waits ++ [⟨col, r.lit.toNat, s.cur.op0.val.toNat, s.asker r t⟩] }).wakeTimeline
          k)) ∧
      (Fires Forms.tlread r s t s₁ → exec (.tlread r) s =
        .next ((s₁.emitA r t (plainOp (BitVec.ofNat 64 x.doneN))).emitB r t (plainOp (BitVec.ofNat 64 x.taken)))) ∧
      (Fires Forms.tlarm r s t s₁ → ∀ ws : List Word, s₁.messageAt s.cur.op1.val = .ok ws →
        let y : Armed := ⟨col, r.lit.toNat % 32, s.cur.op0.val.toNat, if r.lit.toNat / 32 = 1 then .link else .copy,
          ⟨ws, ⟨.armed, c, s.cur.node, t⟩, false, []⟩, s.asker r t⟩
        (y.thr ≤ (s₁.counter k col y.ctr).doneN →
          exec (.tlarm r) s = .next ((s₁.later (.engineInboxAccept (clusterEngine y.engine k) y.msg)).emitA r t (plainOp 2))) ∧
        ((s₁.counter k col y.ctr).doneN < y.thr →
          (64 ≤ (s₁.cluster k).armed.length → exec (.tlarm r) s = .next (s₁.emitA r t (plainOp 1))) ∧
          ((s₁.cluster k).armed.length < 64 →
            exec (.tlarm r) s = .next ((s₁.modCluster k fun z => { z with armed := z.armed ++ [y] }).emitA r t (plainOp 0))))))

/-- R388 to R390: BARINIT takes the lowest free barrier of its die for the members listed at $0, 2 for a bad list, 1 where none is free; an
arrival of an owing member is held, and the last one completes the phase and answers every held reply; BAREXIT leaves the members. A handle of
another instance, and a colour that is no member, fault PERMISSION; a second arrival in a phase faults ILLEGAL_RECORD. -/
def Obligations.Barriers : Prop :=
  ∀ (r : Rec) (s s₁ : State) (t : Word), s.AllScalar r →
    let d := s.cur.core.dieId
    let col := colourOf s.cur.tag
    (Fires Forms.barinit r s t s₁ → ∀ va : Nat, s.cur.op1.val.toNat = 0 ∨ 64 < s.cur.op1.val.toNat →
      s₁.padAddr s.cur.op0.val 2 = .ok va → checkMultiple va 2 = .ok () →
      exec (.barinit r) s = .next ((s₁.emitA r t (plainOp 0xFFFFFFFF)).emitB r t (plainOp 2))) ∧
    (Fires Forms.barinit r s t s₁ → ∀ (n va : Nat) (ms : List Nat), n = s.cur.op1.val.toNat → 1 ≤ n → n ≤ 64 →
      s₁.padAddr s.cur.op0.val (2 * n) = .ok va → checkMultiple va 2 = .ok () →
      ms = ((List.range n).map fun i => leNat (((s₁.nearBytes va (2 * n)).drop (2 * i)).take 2)) →
      let refused (st : Nat) : Host.Outcome State Fault Refusal :=
        .next ((s₁.emitA r t (plainOp 0xFFFFFFFF)).emitB r t (plainOp (BitVec.ofNat 64 st)))
      (s₁.membersOk ms = false → exec (.barinit r) s = refused 2) ∧
      (s₁.membersOk ms = true →
        ((∀ i < 256, Assoc.get? (s₁.die d).barriers i ≠ none) → exec (.barinit r) s = refused 1) ∧
        (∀ i : Nat, i < 256 → Assoc.get? (s₁.die d).barriers i = none → (∀ j < i, Assoc.get? (s₁.die d).barriers j ≠ none) →
          let inst := (s₁.die d).barInst + 1
          let cs := ms.map (BitVec.ofNat 9)
          exec (.barinit r) s =
            .next (((s₁.modDie d fun x =>
              { x with barInst := inst,
                       barriers := Assoc.set x.barriers i ⟨inst, col, 0, cs, cs, [], 0, false, false⟩ }).emitA r t
              (plainOp (BitVec.ofNat 64 (inst.toNat * 256 + i)))).emitB r t (plainOp 0))))) ∧
    (∀ (i : Nat) (b : Barrier), s₁.barrierOf s.cur.op0.val = .ok (i, b) →
      let b' : Barrier := { b with owed := b.owed.filter (fun m => decide (m ≠ col)), replies := b.replies ++ [(col, s.asker r t)] }
      (Fires Forms.bararr r s t s₁ →
        (col ∉ b.members → exec (.bararr r) s = .next (s.faultCur { cause := .permission })) ∧
        (col ∈ b.members → col ∉ b.owed → exec (.bararr r) s = .next (s.faultCur { cause := .illegalRecord })) ∧
        (col ∈ b.members → col ∈ b.owed →
          (b'.owed ≠ [] →
            exec (.bararr r) s = .next (s₁.modDie d fun x => { x with barriers := Assoc.set x.barriers i b' })) ∧
          (b'.owed = [] → exec (.bararr r) s =
            .next (((s₁.modDie d fun x =>
              { x with barriers := Assoc.set x.barriers i
                         { b' with phase := b.phase + 1, owed := b.members, replies := [], nabs := 0, absent := false,
                                   killed := false } })).answerBarrier b' false)))) ∧
      (Fires Forms.barexit r s t s₁ →
        (col ∉ b.members → exec (.barexit r) s = .next (s.faultCur { cause := .permission })) ∧
        (col ∈ b.members →
          exec (.barexit r) s = .next ((s₁.putBarrier d i (b.leave col true false)).out r t (plainOp 0))))) ∧
    (s₁.barrierOf s.cur.op0.val = .error { cause := .permission } →
      (Fires Forms.bararr r s t s₁ → exec (.bararr r) s = .next (s.faultCur { cause := .permission })) ∧
      (Fires Forms.barexit r s t s₁ → exec (.barexit r) s = .next (s.faultCur { cause := .permission })))

/-- R38, R39, R348, R391 to R394: the requests of ITAKE, IREAD, IPUT, ICLR, ATOM and ACAS, each of which leaves the unit behind the core's earlier
ones, IPUT and the REL forms behind a release; the operation codes that R393 does not allow fault ILLEGAL_RECORD. An atomic performed writes its
operation on the value found and replies the old value; a compare and swap writes only where it found what it expects, and says so. A
presence word acts by R39's table: it takes a value, gives it up, queues a waiter, serves the queue, and refuses a conflicting operation,
unchanged. (ICLR writes zero over an EMPTY word too: the model's, log 105.) -/
def Obligations.WordOperations : Prop :=
  (∀ (r : Rec) (s s₁ s₂ : State) (t : Word) (va : Nat) (ps : List MemPart), (s.core s.cur.core).unitBusy = false →
    let cov (n : Nat) : Prop := s₁.coverAll s.cur.core s.cur.node s₁.curAct.stall true [(va, n)] = .ok (ps, none, s₂)
    let left (op : MemOp) (after : Option Nat) : Host.Outcome State Fault Refusal :=
      .next (s₂.fresh.2.leaveUnit s.cur.core (s₂.reqOf r t op ps [] zeroOp none [] after))
    (∀ key : Option Nat, s₁.presenceAt r = .ok (va, key) → cov 16 →
      (Fires Forms.itake r s t s₁ → exec (.itake r) s = left (.presence 0 0) none) ∧
      (Fires Forms.iread r s t s₁ → exec (.iread r) s = left (.presence 1 0) none) ∧
      (Fires Forms.iput r s t s₁ → exec (.iput r) s = left (.presence 2 s.cur.op1.val) (some (s₁.putScope s.cur.core key))) ∧
      (Fires Forms.iclr r s t s₁ → exec (.iclr r) s = left (.presence 3 0) none)) ∧
    (Fires Forms.atom r s t s₁ →
      let op := bitsOf r.lit.toNat 19 16
      (7 ≤ op ∨ (r.typ = 8 ∧ op ∈ [1, 2, 3]) → exec (.atom r) s = .next (s.faultCur { cause := .illegalRecord })) ∧
      (op < 7 → (r.typ = 8 → op ∉ [1, 2, 3]) → s₁.atomAt r (r.lit.toNat % 65536) (elemSize r) = .ok va → cov (elemSize r) →
        exec (.atom r) s = left (.atom op s.cur.op1.val) (relScope r))) ∧
    (Fires Forms.acas r s t s₁ → ∀ (x16 : Bool) (n : Nat), x16 = (decide (r.lk.toNat = 1) && r.lit.toNat.testBit 16) →
      n = (if x16 then 16 else elemSize r) →
      s₁.atomAt r (if r.lk.toNat = 1 then r.lit.toNat % 65536 else 0) n = .ok va → cov n →
      exec (.acas r) s = left (.cas x16 s.cur.op1.val s.cur.op2.val) (relScope r))) ∧
  (∀ (typ op old arg : Nat),
    let z := atomOp typ op old arg
    (typ < 8 → old < 2 ^ typWidth typ → arg < 2 ^ typWidth typ →
      z.2 = 0 ∧ (op = 0 → z.1 = (old + arg) % 2 ^ typWidth typ) ∧ (op = 1 → z.1 = old &&& arg) ∧ (op = 2 → z.1 = old ||| arg) ∧
        (op = 3 → z.1 = old ^^^ arg) ∧ (op = 4 → asInt typ z.1 = min (asInt typ old) (asInt typ arg)) ∧
        (op = 5 → asInt typ z.1 = max (asInt typ old) (asInt typ arg)) ∧ (6 ≤ op → z.1 = arg)) ∧
    (typ = 8 → (op = 0 → z = faddBits fp32 ⟨0, false, 0⟩ old arg) ∧ (op = 4 → z = fminmax fp32 false old arg) ∧
      (op = 5 → z = fminmax fp32 true old arg) ∧ (6 ≤ op → z = (arg, 0)))) ∧
  (∀ (s : State) (c : CoreId) (q : MemReq) (p : MemPart) (a : Nat),
    let w := typWidth q.typ.toNat / 8
    let at_ := s.direct p a
    let bs := if at_ = true then s.keyBytes c a p.len else s.peek (homeDie (a / 192)) a p.len
    let old := leNat (bs.take w)
    let o : Operand := ⟨holdScalar (elemTy q.typ.toNat) old, mkKind 0 (classOf q.typ.toNat) 0⟩
    laneKey ≤ a ∨ s.poisonedRange (if at_ = true then c.dieId else homeDie (a / 192)) a p.len = false →
    (∀ (op : Nat) (arg : Word), q.op = .atom op arg →
      let z := atomOp q.typ.toNat op old (arg.toNat % 2 ^ typWidth q.typ.toNat)
      let s₁ := s.atomWrite c q p a (leBytes w z.1)
      (∀ x : Nat, s₁.actOf? c.dieId q.inTag = some x → s.atomPerform c q p a = (s₁.raiseIn x z.2).finishReq c q o) ∧
      (s₁.actOf? c.dieId q.inTag = none → s.atomPerform c q p a = s₁.finishReq c q o)) ∧
    (∀ (x16 : Bool) (want new : Word), q.op = .cas x16 want new →
      (old ≠ want.toNat % 2 ^ typWidth q.typ.toNat →
        s.atomPerform c q p a = (s.dropReq c q.id).replyBoth (q.who c) o (plainOp 0)) ∧
      (old = want.toNat % 2 ^ typWidth q.typ.toNat → s.atomPerform c q p a =
        (((s.atomWrite c q p a (leBytes w (new.toNat % 2 ^ typWidth q.typ.toNat) ++
          (if x16 = true then leBytes 8 ((leNat (bs.drop w) + 1) % 2 ^ 64) else []))).dropReq c q.id).replyBoth (q.who c) o (plainOp 1))))) ∧
  (∀ (s : State) (c : CoreId) (q : MemReq) (p : MemPart) (a k : Nat) (v : Word),
    let bs := s.keyBytes c a 16
    let val := wordOfBytes (bs.take 8)
    let x := presenceOf (leNat (bs.drop 8))
    let put (s : State) (val : Word) (y : Presence) : State :=
      s.keyWrite c p.nc a (leBytes 8 val.toNat ++ leBytes 8 y.word) (some q.colour)
    let value (s : State) : State := (s.dropReq c q.id).returnFrom c q.node q.dstA q.tag ⟨val, mkKind 0 (classOf q.typ.toNat) 0⟩
    let ok (s : State) : State := s.finishReq c q (plainOp 0)
    let does (s' : State) : Prop := s.presencePerform c q p a k v = s'
    let conflict := does ((s.fault c.cluId .firing false c q.node q.inTag
      { cause := .presenceConflict, info := BitVec.ofNat 64 p.va, aux := leNat (bs.drop 12) }).dropReq c q.id)
    (k = 3 → (x.state = 2 → conflict) ∧ (x.state ≠ 2 → does (ok (put s 0 ⟨0, 0, 0, 0⟩)))) ∧
    (x.state = 3 → k < 3 → conflict) ∧
    (k = 2 →
      (x.state = 0 → does (ok (put s v ⟨1, 0, 0, 0⟩))) ∧ (x.state = 1 → conflict) ∧
      (∀ pool : Nat, x.state = 2 → s.poolOf c q = some pool →
        let y := s.serve c pool a v x.waiters x.head
        (y.2.1 ≠ 0 → does (ok (put y.1 val { x with waiters := y.2.1, head := y.2.2.1 }))) ∧
        (y.2.1 = 0 → y.2.2.2 = true → does (ok (put y.1 0 ⟨0, 0, 0, 0⟩))) ∧
        (y.2.1 = 0 → y.2.2.2 = false → does (ok (put y.1 v ⟨1, 0, 0, 0⟩))))) ∧
    (k ≤ 1 →
      (x.state = 1 → k = 0 → does (value (put s 0 ⟨0, 0, 0, 0⟩))) ∧ (x.state = 1 → k = 1 → does (value s)) ∧
      (x.state = 0 ∨ x.state = 2 →
        (s.queueWaiter c q (decide (k = 0)) a x = none → conflict) ∧
        (∀ (y : Presence) (s₁ : State), s.queueWaiter c q (decide (k = 0)) a x = some (y, s₁) →
          y.state = 2 ∧ does ((put s₁ val y).dropReq c q.id)))))

/-! ## The matrix engine (R294 to R326) -/

/-- R144, R298: every matrix and softmax instruction sends one message to the path of its core's engine, where there is room; while the path
holds 16 its firing waits at the head of the ready queue. -/
def Obligations.MatrixMessages : Prop :=
  ∀ (r : Rec) (s s₁ : State) (t : Word),
    ∀ p ∈ [(Instr.oclm r, Forms.oclm), (.orel r, Forms.orel), (.old r, Forms.old), (.olds r, Forms.olds), (.oldsQ r, Forms.oldsQ),
      (.mma r, Forms.mma), (.mmat r, Forms.mmat), (.mmax r, Forms.mmax), (.aclr r, Forms.aclr), (.amov r, Forms.amov),
      (.aadd r, Forms.aadd), (.acvt r, Forms.acvt), (.ackpt r, Forms.ackpt), (.arst r, Forms.arst), (.astat r, Forms.astat),
      (.smxi r, Forms.smxi), (.smxu r, Forms.smxu), (.smxn r, Forms.smxn), (.smxm r, Forms.smxm), (.smxr r, Forms.smxr),
      (.smxw r, Forms.smxw), (.smxs r, Forms.smxs)],
    ((s.core s.cur.core).path.length < 16 → Fires p.2 r s t s₁ →
      exec p.1 s = .next ((s₁.fresh.2.modCore s.cur.core fun k => { k with path := k.path ++ [s₁.matOf p.2 r t] }).laterAt .matrixAccept
        s.cur.core 0)) ∧
    (16 ≤ (s.core s.cur.core).path.length → exec p.1 s =
      .next ((s.modCore s.cur.core fun k => { k with ready := s.cur :: k.ready }).issueLater s.cur.core))

/-- R298, R299, R305, R308, R324, R419: the engine accepts the oldest message of its path, while 16 wait for no start; a failed operand
check ends it there; OCLM claims and ASTAT is read there; a message starts when its path is free and no earlier one that it must follow is
unfinished, a poisoned frame ending it; at its occupancy's end its results are written and its reply follows; SMXW and SMXR go on there with
their token's header; a leader of an MMAX waits for its members, and ends where another leader's copy came for it; a mismatch repeats a
multiply, and a second one is UNCORRECTABLE; a reply of a purged colour is discarded; a copy of A reaches a member of an MMAX; a full inbox
and a path or message that is gone change nothing else. -/
def Obligations.MatrixEvents : Prop :=
  ∀ s : State,
    let c := s.site.core
    let k := s.core c
    (k.path = [] → exec .matrixAccept s = .next s) ∧
    (k.path ≠ [] → 16 ≤ (k.inbox.filter fun x => decide (x.stage = 0)).length →
      exec .matrixAccept s = .next (s.laterAt .matrixAccept c 0)) ∧
    (∀ (m : MatMsg) (rest : List MatMsg) (ps : List MemPart), k.path = m :: rest →
      (k.inbox.filter fun x => decide (x.stage = 0)).length < 16 →
      let s₁ : State := { s.setCore c { k with path := rest } with cur := m.f }
      (∀ f : Flt, s₁.matCheck m = .error f → exec .matrixAccept s = .next (s₁.faultCur f)) ∧
      (s₁.matCheck m = .ok ps →
        (m.opc ∉ [0xB0, 0xBD] →
          let col := colourOf m.f.tag
          let num := if m.opc = 0xB6 then Assoc.getD k.mmaxN col 0 + 1 else 0
          exec .matrixAccept s =
            .next ((s₁.modCore c fun k =>
              { k with inbox := k.inbox ++ [{ m with parts := ps, num := num }],
                       mmaxN := if m.opc = 0xB6 then Assoc.set k.mmaxN col num else k.mmaxN }).laterAt .matrixStart c m.id)) ∧
        (m.opc = 0xB0 → exec .matrixAccept s =
          .next (((s₁.claimBlock m).2.modCore c fun k => { k with inbox := k.inbox ++ [{ (s₁.claimBlock m).1 with stage := 3 }] }).laterAt
            .matrixReply c (s₁.claimBlock m).1.id)) ∧
        (m.opc = 0xBD →
          let o := some (plainOp (s₁.astatWord m))
          exec .matrixAccept s = .next ((s₁.modCore c fun k =>
            { k with inbox := k.inbox ++ [{ m with outA := o, outB := o, stage := 3 }] }).laterAt .matrixReply c m.id)))) ∧
    ((k.inbox.find? fun x => decide (x.id = s.site.n)) = none → exec .matrixStart s = .next s) ∧
    (∀ m : MatMsg, (k.inbox.find? fun x => decide (x.id = s.site.n)) = some m →
      let s₁ : State := { s with cur := m.f }
      (k.mayStart c m = false → exec .matrixStart s = .next (s.laterAt .matrixStart c m.id)) ∧
      (k.mayStart c m = true →
        (∀ f : Flt, s₁.matBegin m = .error f → exec .matrixStart s = .next ((s₁.dropMat c m.id).faultMat f)) ∧
        (∀ s₂ : State, s₁.matBegin m = .ok (none, s₂) → exec .matrixStart s = .next s₂) ∧
        (∀ (bs : List Byte) (s₂ : State) (pa : Nat), s₁.matBegin m = .ok (some bs, s₂) → s₂.matPoison m bs.length = some pa →
          exec .matrixStart s = .next ((s₂.dropMat c m.id).consumePoison c m.f.node m.f.tag pa)) ∧
        (∀ (bs : List Byte) (s₂ : State), s₁.matBegin m = .ok (some bs, s₂) → s₂.matPoison m bs.length = none →
          let mode := s₂.curAct.mode (m.r.sub.toNat / 8)
          exec .matrixStart s =
            .next (((s₂.modMat c m.id fun x => { x with stage := 1, src := bs, draw := s₂.curAct.rng, mode := mode }).reserve
              (if mode = 5 then k.matDraws m else 0)).laterAt .matrixOccupancyEnd c m.id)))) ∧
    (∀ m : MatMsg, (k.inbox.find? fun x => decide (x.id = s.site.n) && decide (x.stage = 1)) = some m →
      let s₁ : State := { s with cur := m.f }
      let token := (m.opc = 0xCC ∨ m.opc = 0xCD) ∧ m.got = 0
      let leads := m.opc = 0xB6 ∧ mmaxLeader c m.r = c
      (token →
        (∀ s₂ : State, s₁.tokRest m = .ok s₂ → exec .matrixOccupancyEnd s = .next s₂) ∧
        (∀ f : Flt, s₁.tokRest m = .error f → exec .matrixOccupancyEnd s = .next
          ((((k.reqs.find? fun q => decide (q.op.engine? = some m.id)).elim s₁ fun q => s₁.dropReq c q.id).dropMat c m.id).faultMat f))) ∧
      (leads → k.otherLeader m = true →
        exec .matrixOccupancyEnd s = .next ((s₁.dropMat c m.id).faultMat (slotFault (m.op 0) 0))) ∧
      (leads → k.otherLeader m = false → m.got + 1 < (mmaxGroup c m.r).length →
        exec .matrixOccupancyEnd s = .next (s₁.laterAt .matrixOccupancyEnd c m.id 0 s.site.flag)) ∧
      (¬ token → (leads → k.otherLeader m = false ∧ (mmaxGroup c m.r).length ≤ m.got + 1) →
        (s.site.flag = false ∨ m.onArray = false → exec .matrixOccupancyEnd s = .next (s₁.endMat c m)) ∧
        (s.site.flag = true → m.onArray = true → exec .matrixOccupancyEnd s =
          .next ((s₁.modMat c m.id fun x => { x with retried := true }).laterAt .matrixRetry c m.id))) ∧
      (∀ f : Flt, s₁.matCommit m = .error f → s₁.endMat c m = (s₁.dropMat c m.id).faultMat f) ∧
      (∀ (s₂ : State) (a b : Operand), s₁.matCommit m = .ok (s₂, a, b) → s₁.endMat c m =
        (s₂.modMat c m.id fun x => { x with stage := 3, outA := some a, outB := some b }).laterAt .matrixReply c m.id)) ∧
    (∀ m : MatMsg, (k.inbox.find? fun x => decide (x.id = s.site.n) && decide (x.stage = 1) && x.retried) = some m →
      let s₁ : State := { s with cur := m.f }
      (s.site.flag = false → ∃ w : Word, exec .matrixRetry s =
        .next ((s₁.endMat c m).board c.cluId 2 [w, m.f.tag, 0, (s₁.endMat c m).timeWord c.pkg 0]).1 ∧ (w.extractLsb' 56 8).toNat = 3) ∧
      (s.site.flag = true → s₁.curAct? = none →
        exec .matrixRetry s = .next ((s₁.dropMat c m.id).faultMat { cause := .uncorrectable, detail := 4 })) ∧
      (∀ a : Nat, s.site.flag = true → s₁.curAct? = some a → (s.act a).life ≠ .purging →
        exec .matrixRetry s = .next (((s₁.dropMat c m.id).faultMat { cause := .uncorrectable, detail := 4 }).orderPurge a))) ∧
    (∀ m : MatMsg, (k.inbox.find? fun x => decide (x.id = s.site.n) && decide (x.stage = 3)) = some m →
      let s₁ := s.dropMat c m.id
      let send (s : State) (dst : BitVec 24) (o : Option Operand) : State := o.elim s fun o => s.sendFrom c m.f.node dst m.tag o
      (s₁.owner? c.dieId (colourOf m.f.tag) = none ∨ s₁.dying c.dieId m.f.tag = true → exec .matrixReply s = .next s₁) ∧
      (s₁.owner? c.dieId (colourOf m.f.tag) ≠ none → s₁.dying c.dieId m.f.tag = false →
        exec .matrixReply s = .next (send (send s₁ m.r.dstA m.outA) m.r.dstB m.outB))) ∧
    (∀ (x leader : CoreId) (n : Nat) (m : MatMsg), ((s.core leader).inbox.find? fun y => decide (y.id = n)) = some m →
      let y := s.core leader
      let a := (m.op 0).val.toNat % 16
      let v := (m.form, y.slotBytes a ++ y.slotBytes (a + 1), y.slotScales a ++ y.slotScales (a + 1))
      exec (.mmaxACopy x leader n) s =
        .next ((s.modCore x fun z => { z with mmaxBuf := Assoc.set z.mmaxBuf (colourOf m.f.tag, m.num) v }).modMat leader n fun m =>
          { m with got := m.got + 1 }))

/-- R297, R299 to R304, R306 to R308, R315, R316, R324, R325: what a message writes at the end of its occupancy, in slots, scale arrays,
tiles and row states of its core, and what it replies: OREL clears and frees; OLD and OLDS write a slot's bytes and scale codes; MMA, MMAT and
MMAX write each tile's words that `MmaIn.run` gives from the slots and the tile itself, every tile of an MMAX so; ACLR zeroes a tile; AMOV
moves tiles and slices, a tile with its row states, a peek what it read at its start; AADD adds word by word; ACVT converts a tile into a
slice; ACKPT replies once its bytes are in memory; ARST restores a tile and its row states; SMXI clears rows; SMXU, SMXN and SMXM leave what
their updates give; SMXR replies once its rows are in memory; SMXW loads a token's rows; SMXS sends a row state. A frame that R316 refuses and a
row state with a reserved bit set are OPERAND_SLOT. -/
def Obligations.MatrixResults : Prop :=
  ∀ (s : State) (m : MatMsg),
    let c := s.cur.core
    let k := s.core c
    let i (n : Nat) : Nat := (m.op n).val.toNat % 16
    let lit := m.r.lit.toNat
    let both (s : State) (o : Operand) : Except Flt (State × Operand × Operand) := .ok (s, o, o)
    let wrote (f : Core → Core) (n : Nat) : Except Flt (State × Operand × Operand) := both (s.modCore c f) (m.refOut n)
    (m.opc = 0xB1 → s.matCommit m = both (s.modCore c fun k => (List.range lit).foldl (fun k j =>
      if 16 ≤ (m.op 0).val.toNat then k.clearTile (i 0 + j) else k.clearSlot (i 0 + j)) k) (plainOp 0)) ∧
    (m.opc = 0xB2 → s.matCommit m = wrote (fun k => k.putSlot (i 1) (256 * lit) m.src) 1) ∧
    (m.opc = 0xB3 → s.matCommit m = wrote (fun k => k.putScales (i 0) (lit % 256) m.src) 0) ∧
    (m.opc ∈ [0xB4, 0xB5, 0xB6] → s.matCommit m = both (s.runMma m) (m.refOut 2) ∧
      (∀ (t : Nat) (x : MmaIn), k.mmaIns m = [(t, x)] →
        let es := x.run (fun _ => mmaK x.typ) (k.tileWords t)
        s.runMma m = (((s.modCore c fun k => k.putWords t (es.map (·.1))).raise (orFlags es ||| x.ternFlag)).nanScale x.nanScale)) ∧
      (m.opc = 0xB6 → s.runMma m = ((k.mmaIns m).foldl (fun s x =>
        let es := x.2.run (fun _ => mmaK x.2.typ) ((s.core c).tileWords x.1)
        (s.modCore c fun k => k.putWords x.1 (es.map (·.1))).raise (orFlags es ||| x.2.ternFlag)) s).nanScale
          ((k.mmaIns m).any fun x => x.2.nanScale))) ∧
    (m.opc = 0xB7 → s.matCommit m = wrote (fun k => k.putTile (i 0) (List.replicate 8192 0)) 0) ∧
    (m.opc = 0xB8 → m.r.sub.toNat % 4 = 0 →
      s.matCommit m = both (s.putSliceOf m 1 (if m.r.sub.toNat.testBit 2 then m.src else k.tileBytes (i 0))) (m.op 1)) ∧
    (m.opc = 0xB8 → 2 ≤ m.r.sub.toNat % 4 → s.matCommit m = wrote (fun x => (List.range 64).foldl (fun x j => x.putRow (i 1) j (k.row (i 0) j))
      (x.putTile (i 1) (if m.r.sub.toNat.testBit 2 then m.src else k.tileBytes (i 0)))) 1) ∧
    (m.opc = 0xB8 → m.r.sub.toNat % 4 = 1 → s.matCommit m = wrote (fun k => k.putTile (i 1) m.src) 1) ∧
    (m.opc = 0xB9 →
      let es := ((k.tileWords (i 1)).zip (k.tileWords (i 0))).map fun p =>
        if m.r.typ = 8 then faddBits fp32 ⟨0, false, 0⟩ p.1 p.2
        else intRes 2 (m.r.sub.toNat.testBit 5) (asInt 2 p.1 + asInt 2 p.2)
      s.matCommit m = both ((s.modCore c fun k => k.putWords (i 1) (es.map (·.1))).raise (orFlags es)) (m.refOut 1)) ∧
    (m.opc = 0xBA →
      let es := (k.tileWords (i 0)).zipIdx.map fun p =>
        let y := convElem (elemTy m.r.typ.toNat) (elemTy lit) m.mode (satF m.r) (drawHi m.draw p.2) p.1
        (y.1, y.2.1)
      s.matCommit m = both ((s.putSliceOf m 1 (packElems (typWidth lit) (es.map (·.1)))).raise (orFlags es)) (m.op 1)) ∧
    (m.opc = 0xBB → s.matCommit m = both s (plainOp 0)) ∧
    (m.opc = 0xBC → ((List.range 64).mapM fun j => rowOfBytes (m.src.drop (8192 + 16 * j))) = none →
      s.matCommit m = .error (slotFault (m.op 0) 0)) ∧
    (m.opc = 0xBC → ∀ rows : List RowState, ((List.range 64).mapM fun j => rowOfBytes (m.src.drop (8192 + 16 * j))) = some rows →
      s.matCommit m = wrote (fun k => rows.zipIdx.foldl (fun k p => k.putRow (i 0) p.2 p.1) (k.putTile (i 0) m.src)) 0) ∧
    (m.opc = 0xC8 → s.matCommit m =
      wrote (fun k => (List.range (bitsOf lit 12 6)).foldl (fun k j => (k.putRow (i 0) (lit % 64 + j) RowState.init).putGroupRow (i 0)
        (groupNt m) (lit % 64 + j) (List.replicate (32 * groupNt m) 0)) k) 0) ∧
    (m.opc = 0xC9 → frameOf m.src = none → s.matCommit m = .error (slotFault (m.op 0) 0)) ∧
    (m.opc = 0xC9 → ∀ fr, frameOf m.src = some fr →
      let y := k.runSmxu m fr
      s.matCommit m = both (((s.setCore c y.1).putSliceOf m 2 y.2.1).raise y.2.2) (m.sliceOut 2 (if fr.fp8 then 3 else 2))) ∧
    (m.opc = 0xCA →
      let y := k.runSmxn m
      s.matCommit m = both (((s.setCore c y.1).putSliceOf m 1 (packElems (typWidth (lit % 16)) y.2.1)).raise y.2.2)
        (m.sliceOut 1 (classOf (lit % 16)))) ∧
    (m.opc = 0xCB → s.matCommit m = both ((s.setCore c (k.runSmxm m).1).raise (k.runSmxm m).2) (m.refOut 1)) ∧
    (m.opc = 0xCC → s.matCommit m = both s (plainOp 0)) ∧
    (m.opc = 0xCD → tokRows (groupNt m) m.src = none → s.matCommit m = .error (slotFault (m.op 0) 0)) ∧
    (m.opc = 0xCD → ∀ rows : List (RowState × List Nat), tokRows (groupNt m) m.src = some rows → s.matCommit m =
      wrote (fun k => rows.zipIdx.foldl (fun k p => (k.putRow (i 0) p.2 p.1.1).putGroupRow (i 0) (groupNt m) p.2 p.1.2) k) 0) ∧
    (m.opc = 0xCE → ∃ a b : Word, s.matCommit m = .ok (s, plainOp a, plainOp b) ∧
      a = (k.row (i 0) (lit % 64)).l ++ (k.row (i 0) (lit % 64)).m ∧
      (b.extractLsb' 0 16) = (k.row (i 0) (lit % 64)).e ∧ (b.extractLsb' 32 16) = (k.row (i 0) (lit % 64)).flush)

/-! ## Shards and rings (R256 to R280, R327 to R339, R395 to R398) -/

/-- R263, R280, R312, R324, R327, R328, R331, R333, R339, R395: the shard instructions that act as they issue. QSEND puts a copy of its image
on the rings with its header changed, or answers MISMATCH for a bad header; QFWD ends a visit, whose token goes on, or a return, whose token is
gone, and faults where its buffer holds neither of its colour; KLOOK looks a list up and writes its masks into a token's header; KPIN writes a
slot, or answers why not; SEQTBL `.next` gives out a tile; SPECBEG opens a speculative child under the lowest free handle, with its log and the
parent's random counter unmoved, or faults; while the memory unit is busy each but SPECBEG waits. -/
def Obligations.ShardRecords : Prop :=
  ∀ (r : Rec) (s s₁ : State) (t : Word),
    let c := s.cur.core
    let d := c.dieId
    let col := colourOf s.cur.tag
    let status (s : State) (st : Nat) : Host.Outcome State Fault Refusal := .next (s.out r t (plainOp (BitVec.ofNat 64 st)))
    let faults (f : Flt) : Host.Outcome State Fault Refusal := .next (s.faultCur f)
    ((s.core c).unitBusy = true → ∀ i ∈ [Instr.qsend r, .qfwd r, .klook r, .klookPage r, .kpin r, .seqtblNext r],
      exec i s = .next ((s.modCore c fun k => { k with ready := s.cur :: k.ready }).issueLater c)) ∧
    ((s.core c).unitBusy = false → s.AllScalar r →
      (Fires Forms.qsend r s t s₁ →
        (∀ f : Flt, s₁.tokenImage s.cur.op0.val = .error f → exec (.qsend r) s = faults f) ∧
        (∀ (va : Nat) (bs : List Byte), s₁.tokenImage s.cur.op0.val = .ok (va, bs) →
          (headerOk bs = false → exec (.qsend r) s = status s₁ 6) ∧
          (headerOk bs = true →
            let bs' := sentHeader bs c col (decide (s₁.curAct.origin = .spec))
            let x : QTok := ⟨s₁.uid, s₁.curAct?.getD 0, bs', c, circuit bs', [], none⟩
            exec (.qsend r) s = status (({ s₁ with uid := s₁.uid + 1, qtoks := s₁.qtoks ++ [x] }).moveOn s₁.uid) 0))) ∧
      (Fires Forms.qfwd r s t s₁ →
        let v := s.cur.op0.val.toNat
        let b := v % 2
        (bitsOf v 63 48 ≠ 0 ∨ bitsOf v 19 1 ≠ 0 → exec (.qfwd r) s = faults { cause := .illegalRecord }) ∧
        (bitsOf v 63 48 = 0 → bitsOf v 19 1 = 0 →
          (∀ q : Nat, (s₁.core c).rings.getD b none = some (q, .returned) → v.testBit 20 = true →
            ((s₁.tok? q).map fun x => colourOf (hdrTag x.bytes)) = some col → exec (.qfwd r) s = status ((s₁.dropTok q).freeRing c b) 0) ∧
          (∀ q i : Nat, (s₁.core c).rings.getD b none = some (q, .visit i) → v.testBit 20 = false →
            ((s₁.slot? c i).map fun x => colourOf x.tag) = some col →
            let bs := s₁.keyBytes c (ringKey c b) ((s₁.tok? q).elim 0 fun x => x.bytes.length)
            let s₂ := (s₁.modTok q fun x => { x with bytes := bs, buf := none, slots := x.slots.drop 1 }).freeRing c b
            exec (.qfwd r) s = status (if (s₂.tok? q).elim false fun x => !x.slots.isEmpty then s₂.laterAt .visitStart c q else s₂.moveOn q)
              0) ∧
          ((∀ q : Nat, (s₁.core c).rings.getD b none = some (q, .returned) → v.testBit 20 = true →
              ((s₁.tok? q).map fun x => colourOf (hdrTag x.bytes)) ≠ some col) →
            (∀ q i : Nat, (s₁.core c).rings.getD b none = some (q, .visit i) → v.testBit 20 = false →
              ((s₁.slot? c i).map fun x => colourOf x.tag) ≠ some col) → exec (.qfwd r) s = faults (slotFault s.cur.op0 0)))) ∧
      (Fires Forms.klookPage r s t s₁ →
        let send (w pid st : Nat) : Host.Outcome State Fault Refusal :=
          .next ((s₁.emitA r t (plainOp (BitVec.ofNat 64 w))).emitB r t (plainOp (BitVec.ofNat 64 (putBits pid 32 + st))))
        (s.cur.op0.val.toNat % 2 ^ 26 ≠ 0 → exec (.klookPage r) s = faults { cause := .illegalRecord }) ∧
        (s.cur.op0.val.toNat % 2 ^ 26 = 0 →
          (∀ st : Nat, s₁.seqOfWord d s.cur.op0.val = .error st → exec (.klookPage r) s = send 0 noPage st) ∧
          (∀ x : Seq, s₁.seqOfWord d s.cur.op0.val = .ok x →
            let i := s.cur.op1.val.toNat
            let pid := s₁.entryAt d x.list i
            (s₁.npage d x.list ≤ i ∨ pid = noPage → exec (.klookPage r) s = send 0 noPage 3) ∧
            (i < s₁.npage d x.list → pid ≠ noPage → s₁.pidOk d pid = false → exec (.klookPage r) s = send 0 noPage 1) ∧
            (i < s₁.npage d x.list → pid ≠ noPage → s₁.pidOk d pid = true → exec (.klookPage r) s = send (s₁.desc d pid 0) pid 0)))) ∧
      (Fires Forms.klook r s t s₁ →
        (∀ f : Flt, s₁.tokenImage s.cur.op0.val = .error f → exec (.klook r) s = faults f) ∧
        (∀ (va : Nat) (bs : List Byte), s₁.tokenImage s.cur.op0.val = .ok (va, bs) →
          let w := hdr bs 0
          (∀ st : Nat, s₁.seqOf d (bitsOf w 63 40) (bitsOf w 39 32) (bitsOf w 31 26) = .error st → exec (.klook r) s = status s₁ st) ∧
          (∀ x : Seq, s₁.seqOf d (bitsOf w 63 40) (bitsOf w 39 32) (bitsOf w 31 26) = .ok x →
            (bitsOf w 21 14 + 1 ≠ x.d → exec (.klook r) s = status s₁ 6) ∧
            (∀ k : Nat, bitsOf w 21 14 + 1 = x.d → nearKey c (va + 8) 24 = some k →
              (s₁.ringByte c k = true →
                exec (.klook r) s = faults { cause := .permission, info := BitVec.ofNat 64 va }) ∧
              (s₁.ringByte c k = false → exec (.klook r) s =
                status (s₁.keyWrite c false k (leBytes 8 (s₁.peekWord d (x.list + 8)).toNat
                  ++ leBytes 8 (withBits (s₁.listLow d x.list) 7 0 0) ++ leBytes 8 x.list) (some col)) 0))))) ∧
      (Fires Forms.seqtblNext r s t s₁ →
        ((s₁.cluster c.cluId).seqr = none → exec (.seqtblNext r) s = status s₁ 12) ∧
        (∀ x : TileSeq, (s₁.cluster c.cluId).seqr = some x →
          (x.colour ≠ col → exec (.seqtblNext r) s = status s₁ 7) ∧
          (x.colour = col → x.next = none → exec (.seqtblNext r) s = status s₁ 12) ∧
          (∀ i row n : Nat, x.colour = col → x.next = some (i, row, n) → exec (.seqtblNext r) s =
            status (s₁.modCluster c.cluId fun y => { y with seqr := some { x with seq := i, row := row + n } })
              (putBits row 40 + putBits i 30 + putBits (n - 1) 25)))) ∧
      (Fires Forms.kpin r s t s₁ →
        let dst : BitVec 24 := BitVec.ofNat 24 s.cur.op1.val.toNat
        let pid := s.cur.op0.val.toNat
        let i := r.lit.toNat % 8
        let pos := if r.lit.toNat.testBit 3 then some (bitsOf r.lit.toNat 5 4) else none
        let tag : Word := BitVec.ofNat 64 (withBits s.cur.op2.val.toNat 63 55 col.toNat)
        let legal := s.cur.op1.val.toNat < 2 ^ 24 ∧ destClass dst = 1 ∧ destCanonical dst = true
        (¬ legal → exec (.kpin r) s = faults { cause := .illegalRecord }) ∧
        (legal →
          (s₁.pidOk d pid = false → exec (.kpin r) s = status s₁ 1) ∧
          (s₁.pidOk d pid = true → s₁.pinStatus c i pid pos tag ≠ 0 → exec (.kpin r) s = status s₁ (s₁.pinStatus c i pid pos tag)) ∧
          (s₁.pidOk d pid = true → s₁.pinStatus c i pid pos tag = 0 →
            let w := s₁.desc d pid 3
            exec (.kpin r) s = status (s₁.setSlot c i (some ⟨pid, bitsOf w 17 2, bitsOf w 31 24, bitsOf w 23 18,
              BitVec.ofNat 2 (dLoc (s₁.desc d pid 0)), pos, dst, tag, false, false, false⟩)) 0)))) ∧
    (Passes Forms.specbeg r s → s.AllScalar r →
      (∀ f : Flt, s.specLog s.cur.op1.val r.lit.toNat = .error f → exec (.specbeg r) s = faults f) ∧
      (∀ ps : List MemPart, s.specLog s.cur.op1.val r.lit.toNat = .ok ps →
        let free := leastBelow 64 fun i => (Assoc.get? (s.die d).handles i).isNone
        (s.startChild .spec false (s.parentDest r) true none = none → exec (.specbeg r) s = faults { cause := .colourExhausted }) ∧
        (∀ (t' : Word) (id : Nat) (s₂ : State), s.startChild .spec false (s.parentDest r) true none = some (t', id, s₂) →
          (free = none → exec (.specbeg r) s = faults { cause := .specConflict }) ∧
          (∀ h : Nat, free = some h →
            let rng := s.curAct.rng
            let s₃ := (s₂.modCurAct fun a => { a with rng := rng }).modAct id fun a => { a with rng := rng, rng0 := rng, handle := some (d, h) }
            let entry : SpecHandle := ⟨s₃.curAct?.getD 0, id, true, rng, ps, r.lit.toNat, 0⟩
            exec (.specbeg r) s = .next ((s₃.modDie d fun x =>
              { x with handles := Assoc.set x.handles h entry }).firstToken r t' id (plainOp s.cur.op0.val))))))

/-- R330, R332 to R339, R397, R398: KPIN `.unpin`, KEVICT, KFILL, PGFRZ, PGMAP, PGNEW and KAPP ask for their turn as they issue, PXLOOK, PXINS and
SEQTBL after their table is read, SPECCMT and SPECABT of a handle whose child is gone at once, SPECABT of a live child after its purge; SPECCMT of
a live one is SPEC_CONFLICT. The first to reach a page's or a list's home goes first, any later one waits. At its turn KEVICT blocks visits, then
copies the page out; KFILL makes it resident; PGFRZ freezes an OPEN or FULL page behind its release; KPIN `.unpin` frees a slot that nothing
uses; KAPP writes its rows (`State.append`), and its count once they are applied; PXLOOK answers what the index holds; PXINS enters a frozen page, HASH and PID
last; SEQTBL loads the sequencer; PGMAP names or clears an entry, or copies a list; PGNEW opens a page; SPECCMT and SPECABT truncate each page of
the log, then free the handle. -/
def Obligations.ShardTurns : Prop :=
  (∀ (r : Rec) (s s₁ s₂ : State) (t : Word),
    let c := s.cur.core
    let faults (f : Flt) : Host.Outcome State Fault Refusal := .next (s.faultCur f)
    let asking (s : State) (opc : Nat) (stage : Nat) : State :=
      s.fresh.2.modCore c fun k => { k with shardReqs := k.shardReqs ++ [⟨s.uid, opc, r, s.cur, t, stage, none, none, none, []⟩] }
    let asks (s : State) (opc : Nat) (stage : Nat) : Host.Outcome State Fault Refusal :=
      .next ((asking s opc stage).laterAt .shardTableTurn c s.uid)
    let lowZero (n : Nat) : Prop := (s.tokenOp n).val.toNat % 2 ^ 26 = 0
    ((s.core c).unitBusy = true → ∀ i ∈ [Instr.kpinUnpin r, .kevict r, .kfill r, .pgfrz r, .pgmap r, .pgmapList r, .pgnew r, .kapp r,
        .pxlook r, .pxins r, .seqtbl r],
      exec i s = .next ((s.modCore c fun k => { k with ready := s.cur :: k.ready }).issueLater c)) ∧
    ((s.core c).unitBusy = false → s.AllScalar r →
      (Fires Forms.kpinUnpin r s t s₁ → exec (.kpinUnpin r) s = asks s₁ 0xD3 0) ∧
      (Fires Forms.kevict r s t s₁ → exec (.kevict r) s = asks s₁ 0xD4 0) ∧
      (Fires Forms.kfill r s t s₁ → exec (.kfill r) s = asks s₁ 0xD5 0) ∧
      (Fires Forms.pgfrz r s t s₁ → exec (.pgfrz r) s = asks s₁ 0xD9 0) ∧
      (Fires Forms.pgmap r s t s₁ → (lowZero 0 → exec (.pgmap r) s = asks s₁ 0xD8 0) ∧
        (¬ lowZero 0 → exec (.pgmap r) s = faults { cause := .illegalRecord })) ∧
      (Fires Forms.pgmapList r s t s₁ → (lowZero 0 → lowZero 1 → exec (.pgmapList r) s = asks s₁ 0xD8 0) ∧
        (¬ lowZero 0 ∨ ¬ lowZero 1 → exec (.pgmapList r) s = faults { cause := .illegalRecord })) ∧
      (Fires Forms.pgnew r s t s₁ → (lowZero 0 → exec (.pgnew r) s = asks s₁ 0xDA 0) ∧
        (¬ lowZero 0 → exec (.pgnew r) s = faults { cause := .illegalRecord })) ∧
      (∀ (va n m opc : Nat) (a : Word) (ps : List MemPart) (i : Instr), vaOf a 0 = some va → checkNear c va n = .ok () →
        alignBase va % m = 0 →
        let s₀ := asking s₁ opc 0
        s₀.coverAll c s.cur.node s₀.curAct.stall false [(va, n)] = .ok (ps, none, s₂) →
        (i = .pxlook r ∧ Fires Forms.pxlook r s t s₁ ∧ opc = 0xD6 ∧ m = 16 ∧ a = s.cur.op0.val ∧
            n = (if pxCountOk s.cur then 4 * s.cur.op2.val.toNat else 4)) ∨
          (i = .seqtbl r ∧ Fires Forms.seqtbl r s t s₁ ∧ opc = 0xDB ∧ m = 4 ∧ a = s.cur.op0.val ∧
            n = (if seqCountOk s.cur then 4 * (s.cur.op1.val.toNat + 1) else 4)) ∨
          (i = .pxins r ∧ Fires Forms.pxins r s t s₁ ∧ opc = 0xD7 ∧ m = 16 ∧ a = s.cur.op2.val ∧
            n = pxinsBytes (if s₁.pidOk c.dieId s.cur.op0.val.toNat then dFill (s₁.desc c.dieId s.cur.op0.val.toNat 0) else 0) ∧
            (isNear va && (nearKey c va 1).any fun k => decide (laneKey ≤ k)) = false) →
        exec i s = .next (s₂.fresh.2.leaveUnit c (s₂.reqOf r t (.table s₁.uid) ps [] zeroOp none)))) ∧
    ((s.core c).unitBusy = false → Fires Forms.kapp r s t s₁ → ∀ base : Word, s₁.scalarAt r 0 = .ok base →
      (¬ lowZero 0 → exec (.kapp r) s = faults { cause := .illegalRecord }) ∧
      (∀ sl : Slice, lowZero 0 → s₁.sliceAt r 1 = .ok sl →
        (∀ st : Nat, s₁.seqOfWord c.dieId s.cur.op0.val = .error st →
          exec (.kapp r) s = .next (s₁.out r t (plainOp (BitVec.ofNat 64 st)))) ∧
        (∀ x : Seq, s₁.seqOfWord c.dieId s.cur.op0.val = .ok x →
          (sl.nrow + 1 < ceilDiv (2 * x.d * x.b) 256 → exec (.kapp r) s = faults (slotFault s.cur.op1 1)) ∧
          (ceilDiv (2 * x.d * x.b) 256 ≤ sl.nrow + 1 → exec (.kapp r) s = asks s₁ 0xD2 0)))) ∧
    (s.AllScalar r →
      (∀ f : Flt, s₁.ownHandle = .error f →
        (Fires Forms.speccmt r s t s₁ → exec (.speccmt r) s = faults f) ∧ (Fires Forms.specabt r s t s₁ → exec (.specabt r) s = faults f)) ∧
      (∀ (i : Nat) (h : SpecHandle), s₁.ownHandle = .ok (i, h) →
        let held := s₁.busyHandle c.dieId i h
        (h.live = false →
          (Fires Forms.speccmt r s t s₁ → exec (.speccmt r) s = asks held 0xAA 1) ∧
          (Fires Forms.specabt r s t s₁ → exec (.specabt r) s = asks held 0xAB 1)) ∧
        (h.live = true →
          (Fires Forms.speccmt r s t s₁ → exec (.speccmt r) s = faults { cause := .specConflict, info := BitVec.ofNat 64 i }) ∧
          (Fires Forms.specabt r s t s₁ → exec (.specabt r) s = asks (match Assoc.get? s₁.acts h.child with
            | some a => if a.life = Life.live then s₁.orderPurge h.child else s₁
            | none => s₁) 0xAB 0))))) ∧
  ∀ (s : State) (q : ShardReq),
    let c := s.site.core
    let d := c.dieId
    let s₁ : State := { s with cur := q.f }
    let runs (s' : State) : Prop := exec .shardTableTurn s = .next s'
    let p0 := q.f.op0.val.toNat
    ((s.core c).shardReqs.find? fun x => decide (x.id = s.site.n)) = some q →
    (∀ pid list : Option Nat,
      let y := s₁.reachTurn c q pid list
      (q.order ≠ none → y = (q, s₁)) ∧ (q.order = none → y.1 = { q with order := some s.uid, pid := pid, list := list }) ∧
      (y.2.turnTaken c y.1 = true ↔ ∃ k ∈ y.2.coresOfDie d, ∃ x ∈ (y.2.core k).shardReqs, ∃ m n : Nat, x.order = some m ∧ y.1.order = some n ∧
        m < n ∧ ((x.pid ≠ none ∧ x.pid = y.1.pid) ∨ (x.list ≠ none ∧ x.list = y.1.list)))) ∧
    (q.opc ∈ [0xD4, 0xD5, 0xD9] →
      (s₁.pidOk d p0 = false → runs (s₁.endShard c q 1)) ∧
      (s₁.pidOk d p0 = true →
        let y := s₁.reachTurn c q (some p0) none
        let q := y.1
        let s₂ := y.2
        let w := s₂.desc d p0 0
        (s₂.turnTaken c q = true → runs (s₂.turnAgain c q)) ∧
        (s₂.turnTaken c q = false →
          (q.opc = 0xD9 → (2 ≤ dFst w → runs (s₂.endShard c q 4)) ∧
            (dFst w < 2 → dTent w = true → runs (s₂.failShard c q { cause := .specConflict, info := BitVec.ofNat 64 p0 })) ∧
            (dFst w < 2 → dTent w = false → runs ((s₂.setDesc d p0 0 (withBits w 61 60 2)).releaseShard c q q.scope 0))) ∧
          (q.opc = 0xD4 →
            (3 ≤ q.stage → runs (s₂.endShard c q (if q.stage = 4 then 8 else 0))) ∧ (q.stage = 2 → runs s₂) ∧
            (q.stage < 2 → 2 ≤ dLoc w → runs (s₂.endShard c q 4)) ∧
            (q.stage < 2 → dLoc w < 2 → s₂.stationOf d p0 = none → runs (s₂.endShard c q 6)) ∧
            (∀ (sc : CoreId) (i : Nat) (x : Slot), q.stage < 2 → dLoc w < 2 → s₂.stationOf d p0 = some (sc, i, x) →
              (q.stage = 0 → runs (((s₂.toStage c q 1).modSlot sc i fun x => { x with evicting := true }).turnAgain c q)) ∧
              (q.stage = 1 → (s₂.core sc).visiting i = true → runs (s₂.turnAgain c q)) ∧
              (q.stage = 1 → (s₂.core sc).visiting i = false →
                runs ((s₂.toStage c q 2).laterAt .evictionCopyComplete sc i (if s₂.copyable sc x then 0 else 1))))) ∧
          (q.opc = 0xD5 →
            let z := s₂.residency d p0 (decide (q.stage = 1))
            (z.1 = .here → runs (z.2.endShard c q
              (if q.stage = 1 ∧ ((z.2.stationOf d p0).elim false fun x => x.2.2.poisoned) then 11 else 0))) ∧
            (z.1 = .asked → runs ((z.2.toStage c q 1).turnAgain c q)) ∧ (z.1 = .nowhere → runs (z.2.endShard c q 8)) ∧
            (z.1 = .mismatch → runs (z.2.endShard c q 6)))))) ∧
    (q.opc = 0xD3 →
      let i := q.r.lit.toNat % 8
      (s.slot? c i = none → runs (s₁.endShard c q 4)) ∧
      (∀ x : Slot, s.slot? c i = some x →
        ((s.core c).waitingAt i = true → runs (s₁.endShard c q 7)) ∧
        ((s.core c).waitingAt i = false → (s.core c).visiting i = true ∨ x.refill = true ∨ x.evicting = true → runs (s₁.turnAgain c q)) ∧
        ((s.core c).waitingAt i = false → (s.core c).visiting i = false → x.refill = false → x.evicting = false →
          runs ((s₁.setSlot c i none).endShard c q 0)))) ∧
    (q.opc = 0xD2 →
      (∀ st : Nat, s₁.seqOfWord d q.f.op0.val = .error st → runs (s₁.endShard c q st)) ∧
      (∀ x : Seq, s₁.seqOfWord d q.f.op0.val = .ok x →
        let n := s₁.npage d x.list
        let pid := q.pid.getD (s₁.entryAt d x.list (n - 1))
        (q.order = none → n = 0 → runs (s₁.endShard c q 4)) ∧
        (q.order ≠ none ∨ n ≠ 0 → s₁.pidOk d pid = false → runs (s₁.endShard c q 1)) ∧
        (q.order ≠ none ∨ n ≠ 0 → s₁.pidOk d pid = true →
          let y := s₁.reachTurn c q (some pid) none
          let q := y.1
          let s₂ := y.2
          let w := s₂.desc d pid 0
          let spec := s₂.curAct.spec
          let log := if spec then
              (s₂.specHandle 64 (s₂.curAct?.getD 0)).bind fun hd =>
                (Assoc.get? (s₂.die hd.1).handles hd.2).bind fun h => (s₂.findLog d h pid).map fun i => (hd, h, i)
            else none
          let z := s₂.residency d pid (decide (q.stage = 1))
          (s₂.turnTaken c q = true → runs (s₂.turnAgain c q)) ∧
          (s₂.turnTaken c q = false →
            (q.stage = 2 →
              let p := dFill w
              let done := (rowRanges x (s₂.desc d pid 1 % 2 ^ 52) p).all fun r => s₂.settled d r.1 r.2
              let w₁ := withBits w 58 51 (p + 1)
              let w₂ := if q.data = [1] then withBits w₁ 59 59 1 else withBits w₁ 50 43 (p + 1)
              (done = false → runs (s₂.turnAgain c q)) ∧
              (done = true → runs ((s₂.setDesc d pid 0 (if p + 1 = x.p then withBits w₂ 61 60 1 else w₂)).releaseShard c q q.scope
                (putBits ((bitsOf (s₂.desc d pid 3) 63 32 + p) % 2 ^ 32) 32)))) ∧
            (q.stage ≠ 2 → dFst w ≠ 0 → runs (s₂.failShard c q { cause := .permission })) ∧
            (q.stage ≠ 2 → dFst w = 0 → (dTent w = true ∧ spec = false) ∨ (spec = true ∧ log = none) →
              runs (s₂.failShard c q { cause := .specConflict, info := BitVec.ofNat 64 pid })) ∧
            (q.stage ≠ 2 → dFst w = 0 → (dTent w = false ∧ spec = false) ∨ (spec = true ∧ log ≠ none) →
              (z.1 = .here → runs (z.2.append c q x pid log)) ∧ (z.1 = .asked → runs ((z.2.toStage c q 1).turnAgain c q)) ∧
              (z.1 = .nowhere → runs (z.2.endShard c q 8)) ∧ (z.1 = .mismatch → runs (z.2.endShard c q 6))))))) ∧
    (q.opc ∈ [0xD6, 0xD7, 0xDB] → q.stage = 0 → runs s₁) ∧
    (q.opc = 0xD6 → q.stage ≠ 0 →
      let ids := words32 (q.data.drop 8)
      let parent := q.f.op1.val.toNat % 2 ^ 32
      let h := pxhash ids parent
      let sends (a b : Nat) : State :=
        (s₁.dropShard c q.id).replyBoth (s₁.asker q.r q.tag) (plainOp (BitVec.ofNat 64 a)) (plainOp (BitVec.ofNat 64 b))
      (pxCountOk q.f = false ∨ s₁.pxSet d h = none → runs (sends noPage 3)) ∧
      (∀ a : Nat, pxCountOk q.f = true → s₁.pxSet d h = some a →
        let x := s₁.pxWalk d ids parent h (2 ^ 21) a ⟨none, 0, none⟩
        runs (sends (x.pid.getD noPage) (putBits x.colls 32)))) ∧
    (q.opc = 0xDB → q.stage ≠ 0 →
      let cu := words32 (q.data.drop 8)
      let col := colourOf q.f.tag
      let free := ∀ x : TileSeq, (s₁.cluster c.cluId).seqr = some x → x.colour = col ∨ x.next = none
      (seqCountOk q.f = false ∨ cuOk cu = false → runs (s₁.endShard c q 3)) ∧
      (seqCountOk q.f = true → cuOk cu = true → ¬ free → runs (s₁.endShard c q 7)) ∧
      (seqCountOk q.f = true → cuOk cu = true → free → runs ((s₁.modCluster c.cluId fun y =>
        { y with seqr := some ⟨col, cu, q.r.lit.toNat % 16 + 1, 0, 0⟩ }).endShard c q 0))) ∧
    (q.opc = 0xD7 →
      let ids := words32 (q.data.drop 8)
      let parent := q.f.op1.val.toNat % 2 ^ 32
      let h := pxhash ids parent
      (q.stage = 2 → runs ((s₁.sysWrite d (q.pid.getD 0) (leBytes 4 h ++ leBytes 4 p0)).releaseShard c q q.scope 0)) ∧
      (q.stage = 1 →
        (s₁.pidOk d p0 = false → runs (s₁.endShard c q 1)) ∧
        (s₁.pidOk d p0 = true → dFst (s₁.desc d p0 0) ≠ 2 → runs (s₁.endShard c q 4)) ∧
        (s₁.pidOk d p0 = true → dFst (s₁.desc d p0 0) = 2 → ids.length = dFill (s₁.desc d p0 0) →
          (s₁.pxSet d h = none → runs (s₁.endShard c q 3)) ∧
          (∀ a : Nat, s₁.pxSet d h = some a →
            let y := s₁.reachTurn c q none (some a)
            let q := y.1
            let s₂ := y.2
            let x := s₂.pxWalk d ids parent h (2 ^ 21) a ⟨none, 0, none⟩
            (s₂.turnTaken c q = true → runs (s₂.turnAgain c q)) ∧
            (s₂.turnTaken c q = false →
              (∀ old : Nat, x.pid = some old → runs (s₂.endShard c q (putBits old 32 + 10))) ∧
              (x.pid = none → x.way = none → runs (s₂.endShard c q 5)) ∧
              (∀ wa : Nat, x.pid = none → x.way = some wa → runs (((s₂.sysWrite d (wa + 8) (leBytes 4 parent ++ leBytes 2 ids.length
                ++ leBytes 2 0 ++ q.data.take 8 ++ leBytes 8 (s₂.peekWord d (wa + 24)).toNat)).modShard c q.id fun z =>
                  { z with pid := some wa }).stageShard c q 2))))))) ∧
    (q.opc = 0xD8 → q.r.sub.toNat % 8 = 1 → ∀ x z : Seq, s₁.seqOfWord d q.f.op0.val = .ok x → s₁.seqOfWord d q.f.op1.val = .ok z →
      let y := s₁.reachTurn c q none (some x.list)
      let s₂ := y.2
      let old := s₂.listPages d x.list
      let new_ := s₂.listPages d z.list
      let named := new_.filter fun p => !(old.any fun o => decide (o.2 = p.2))
      let gone := (old.filter fun p => !(new_.any fun o => decide (o.2 = p.2))).map (·.2)
      let s₃ := gone.foldl (fun s p => s.addRef d p false) (named.foldl (fun s p => s.addRef d p.2 true) s₂)
      (s₂.turnTaken c y.1 = true → runs (s₂.turnAgain c y.1)) ∧
      (s₂.turnTaken c y.1 = false → s₂.refStatus d x named gone = 0 → s₂.npage d z.list ≤ x.maxpg → s₂.refsFull d named = false →
        runs ((s₃.sysWrite d x.list (s₂.peek d z.list (16 + 4 * s₂.npage d z.list))).releaseShard c y.1 y.1.scope 0))) ∧
    (q.opc = 0xD8 → q.r.sub.toNat % 8 ≠ 1 → ∀ x : Seq, s₁.seqOfWord d q.f.op0.val = .ok x →
      let y := s₁.reachTurn c q none (some x.list)
      let s₂ := y.2
      let i := q.f.op1.val.toNat
      let pid := q.f.op2.val.toNat
      let n := s₂.npage d x.list
      let old := if i < n then s₂.entryAt d x.list i else noPage
      let gone := if old = noPage ∨ old = pid then [] else [old]
      let less (s : State) : State := gone.foldl (fun s p => s.addRef d p false) s
      (s₂.turnTaken c y.1 = true → runs (s₂.turnAgain c y.1)) ∧
      (s₂.turnTaken c y.1 = false → pid = noPage → 0 < n → i = n - 1 → (gone.all fun p => s₂.pidOk d p) = true →
        runs ((((less s₂).setEntry d x.list i noPage).sysWord d x.list (BitVec.ofNat 64 (withBits ((less s₂).listLow d x.list) 23 8
          (n - 1)))).releaseShard c y.1 y.1.scope 0)) ∧
      (s₂.turnTaken c y.1 = false → pid ≠ noPage → i < n ∨ (i = n ∧ n < x.maxpg) → s₂.refStatus d x [(i, pid)] gone = 0 →
        old = pid ∨ s₂.refsFull d [(i, pid)] = false →
        let s₃ := if old = pid then s₂ else less (s₂.addRef d pid true)
        runs (((s₃.setEntry d x.list i pid).addStation d x.list (dCore (s₃.desc d pid 0)) (if i = n then n + 1 else n)).releaseShard c y.1
          y.1.scope 0))) ∧
    (q.opc = 0xDA → ∀ x : Seq, s₁.seqOfWord d q.f.op0.val = .ok x →
      let pid := q.f.op1.val.toNat
      let entered (s : State) (n : Nat) : State := (s.setEntry d x.list n pid).addStation d x.list (dCore (s.desc d pid 0)) (n + 1)
      (q.stage = 1 → runs ((entered s₁ (s₁.npage d x.list)).releaseShard c q q.scope 0)) ∧
      (q.stage ≠ 1 → s₁.pidOk d pid = true →
        let y := s₁.reachTurn c q (some pid) (some x.list)
        let s₂ := y.2
        let n := s₂.npage d x.list
        let last := s₂.entryAt d x.list (n - 1)
        let lw := s₂.desc d last 0
        let pos0 := if n = 0 then 0 else (bitsOf (s₂.desc d last 3) 63 32 + dFill lw) % 2 ^ 32
        (s₂.turnTaken c y.1 = true → runs (s₂.turnAgain c y.1)) ∧
        (s₂.turnTaken c y.1 = false → n = 0 ∨ s₂.pidOk d last = true ∧ dFst lw ≠ 0 ∧ dTent lw = false → dRefs (s₂.desc d pid 0) = 0 →
          n ≠ x.maxpg → runs ((((s₂.setDesc d pid 0 (withBits (withBits (s₂.desc d pid 0) 61 43 0) 15 0 1)).setDesc d pid 3
            (putBits pos0 32 + putBits x.layer 24 + putBits x.hg 18 + putBits n 2)).placeSlots d.pkg pid n x.layer x.hg).stageShard c y.1
              1)))) ∧
    (q.opc ∈ [0xAA, 0xAB] → ∀ h : SpecHandle, Assoc.get? (s.die d).handles p0 = some h →
      let e := q.stage - 1
      let ent := s₁.logEntry d h e
      let pid := ent.1
      (q.stage = 0 → h.live = true → runs (s₁.turnAgain c q)) ∧
      (q.stage = 0 → h.live = false → runs (((s₁.busyHandle d p0 h).toStage c q 1).turnAgain c q)) ∧
      (q.stage ≠ 0 → h.used ≤ e → runs (((s₁.modAct h.owner fun a =>
        { a with rng := if q.opc = 0xAA then h.snap + q.f.op2.val else h.snap }).modDie d fun x =>
          { x with handles := Assoc.erase x.handles p0 }).releaseShard c q 4 (if q.data.isEmpty then 0 else 1))) ∧
      (q.stage ≠ 0 → e < h.used → s₁.pidOk d pid = false →
        runs ((s₁.modShard c q.id fun x => { x with stage := q.stage + 1, data := [1] }).turnAgain c q)) ∧
      (q.stage ≠ 0 → e < h.used → s₁.pidOk d pid = true →
        let y := s₁.reachTurn c q (some pid) none
        let s₂ := y.2
        let k := if q.opc = 0xAA then some (min q.f.op1.val.toNat ent.2.2) else none
        (s₂.turnTaken c y.1 = true → runs (s₂.turnAgain c y.1)) ∧
        (s₂.turnTaken c y.1 = false → runs (((s₂.setDesc d pid 0 (truncated (s₂.desc d pid 0) (bitsOf (s₂.desc d pid 3) 63 32) ent.2.1
          k)).modShard c y.1.id fun x => { x with stage := y.1.stage + 1, pid := none, order := none }).turnAgain c y.1))))

/-- R259, R268 to R274, R333: a token whose activation is gone is discarded; one that arrives takes the slots whose pages its list names, in
ascending order of place, or goes on; a visit begins in a free ring buffer of its station, or waits for one, or there on the page's refill; a
page being evicted takes none, one no longer held is passed by; a token with no station left enters a ring buffer of its RET core, which is told.
A refill that ends copies the page to the place its slot names (which its descriptor then names: log 102) and the visits that wait on it begin,
or, where it failed, end as UNCORRECTABLE; an eviction that ends copies the page out, and its KEVICT goes on. -/
def Obligations.RingEvents : Prop :=
  ∀ s : State,
    let c := s.site.core
    let d := c.dieId
    let n := s.site.n
    (s.tok? n = none → exec .queryTokenStationArrival s = .next s ∧ exec .visitStart s = .next s ∧ exec .tokenReturn s = .next s) ∧
    (∀ x : QTok, s.tok? n = some x →
      (s.tokDead x = true →
        exec .queryTokenStationArrival s = .next (s.discardTok n) ∧ exec .visitStart s = .next (s.discardTok n) ∧
        exec .tokenReturn s = .next (s.discardTok n)) ∧
      (s.tokDead x = false →
        let w := hdr x.bytes 0
        let list := hdr x.bytes 3 % 2 ^ 52
        let hits := (List.range 8).filterMap fun i =>
          match s.slot? x.at_ i with
          | some y =>
            if y.layer = bitsOf w 39 32 ∧ y.hg = bitsOf w 31 26 ∧ y.pidx < bitsOf (hdr x.bytes 2) 23 8
              ∧ s.entryAt x.at_.dieId list y.pidx = y.pid then some (y.pidx, (i, y.pid)) else none
          | none => none
        let slots := (sortBy (fun (a b : Nat × (Nat × Nat)) => decide (a.1 < b.1)) hits).map (·.2)
        let s₁ := (slots.filterMap fun y => s.slot? x.at_ y.1).foldl
          (fun s y => s.readThrough x.at_.dieId (list + 16 + 4 * y.pidx / 8 * 8) 8) s
        let r := retCore x.bytes
        (exec .queryTokenStationArrival s = .next (if slots.isEmpty then s₁.moveOn n
          else (s₁.modTok n fun z => { z with slots := slots }).laterAt .visitStart x.at_ n)) ∧
        (x.buf ≠ none ∨ x.at_ ≠ c → exec .visitStart s = .next s) ∧
        (x.buf = none → x.at_ = c →
          (x.slots = [] → exec .visitStart s = .next (if x.route.isEmpty then s else s.moveOn n)) ∧
          (∀ (i pid : Nat) (rest : List (Nat × Nat)), x.slots = (i, pid) :: rest →
            ((∀ y : Slot, s.slot? c i = some y → y.pid ≠ pid) →
              let s₁ := s.modTok n fun z => { z with slots := rest }
              exec .visitStart s = .next (if rest.isEmpty then s₁.moveOn n else s₁.laterAt .visitStart c n)) ∧
            (∀ y : Slot, s.slot? c i = some y → y.pid = pid →
              (y.evicting = true → exec .visitStart s = .next (s.laterAt .visitStart c n)) ∧
              (y.evicting = false →
                (∀ s₁ : State, s.takeRing c n = (none, s₁) → exec .visitStart s = .next s₁) ∧
                (∀ (b : Nat) (s₁ : State), s.takeRing c n = (some b, s₁) →
                  let s₂ := (s₁.keyWrite c false (ringKey c b) x.bytes none).modTok n fun z => { z with buf := some b }
                  (s₂.locOf c y ≤ 1 → exec .visitStart s = .next (s₂.beginVisit c n b i y)) ∧
                  (2 ≤ s₂.locOf c y → exec .visitStart s = .next (((s₂.fresh.2.bumpHdr c b 47 32).setRing c b
                    (some (n, .waiting i s₂.uid))).startRefill c i))))))) ∧
        (s.isCore r = false → exec .tokenReturn s = .next (s.discardTok n)) ∧
        (s.isCore r = true → x.returning = false → exec .tokenReturn s = .next s) ∧
        (s.isCore r = true → x.returning = true →
            (∀ s₁ : State, (s.modTok n fun z => { z with at_ := r }).takeRing r n = (none, s₁) → exec .tokenReturn s = .next s₁) ∧
            (∀ (b : Nat) (s₁ : State), (s.modTok n fun z => { z with at_ := r }).takeRing r n = (some b, s₁) →
              exec .tokenReturn s = .next ((((s₁.keyWrite r false (ringKey r b) x.bytes none).modTok n fun z =>
                { z with buf := some b }).setRing r b (some (n, .returned))).later (.tokenArrival r .network
                  ⟨bitsOf (hdr x.bytes 6) 28 17, bitsOf (hdr x.bytes 6) 16 15, hdrTag x.bytes, plainOp (visitValue 0 0 0 true b), []⟩)))))) ∧
    (s.slot? c n = none → exec .refillComplete s = .next s ∧ exec .evictionCopyComplete s = .next s) ∧
    (∀ y : Slot, s.slot? c n = some y →
      (y.refill = false → exec .refillComplete s = .next s) ∧
      (y.refill = true → s.site.m = 1 →
        let s₁ := (s.setLoc c n y.pid 2).modSlot c n fun z => { z with refill := false }
        exec .refillComplete s = .next (((s₁.core c).waiters n).foldl (fun s w => s.failRefill c y w.1) s₁)) ∧
      (y.refill = true → s.site.m ≠ 1 →
        let to_ := s.pagePlace c y
        let z := s.copyPage c n (s.desc d y.pid 2 % 2 ^ 52) to_
        (z.1 = none → exec .refillComplete s = .next (z.2.laterAt .refillComplete c n s.site.m)) ∧
        (∀ bad : Bool, z.1 = some bad →
          let s₁ := if z.2.desc d y.pid 1 % 2 ^ 52 = to_ then z.2 else z.2.setDesc d y.pid 1 to_
          let s₂ := (s₁.setLoc c n y.pid (if y.pos.isSome then 0 else 1)).modSlot c n fun z => { z with refill := false, poisoned := bad }
          exec .refillComplete s = .next (((s₂.core c).waiters n).foldl (fun s w =>
            if (s.tok? w.1).any s.tokDead then s.discardTok w.1 else s.beginVisit c w.1 w.2 n y) s₂))) ∧
      (y.evicting = false → exec .evictionCopyComplete s = .next s) ∧
      (y.evicting = true →
        let bad := decide (s.site.m = 1)
        let z := if bad then (some false, s) else s.copyPage c n (s.desc d y.pid 1 % 2 ^ 52) (s.desc d y.pid 2 % 2 ^ 52)
        (z.1 = none → exec .evictionCopyComplete s = .next (z.2.laterAt .evictionCopyComplete c n)) ∧
        (z.1 ≠ none →
          let s₁ := (if bad then z.2 else z.2.setLoc c n y.pid 2).modSlot c n fun z => { z with evicting := false }
          exec .evictionCopyComplete s = .next ((s₁.cores.map Prod.fst).foldl (fun s k =>
            ((s.core k).shardReqs.filter fun q => decide (q.opc = 0xD4) && decide (q.stage = 2) && decide (q.pid = some y.pid)).foldl
              (fun s q => (s.toStage k q (if bad then 4 else 3)).laterAt .shardTableTurn k q.id) s) s₁))))

/-! ## The system group (R189 to R198) -/

/-- R12, R190 to R195, R197, R198, R348: TRAP and BRK raise their faults; SYSRD sends the register its literal names, SYSWR writes it and sends
$0, each refusing with ILLEGAL_RECORD an index that R191 does not give it; TIME sends package time, or the cycles of the core's island while it
was not gated (what `.cyc` and HOLD count rests on logs 75 and 99); EVGET moves a queue's oldest record into the scratchpad; LAUNCH sends its
message, and then its reply, behind a cluster release (which engine takes it: log 75); CFGINST installs an image cluster and answers when the
wake and transfer time has passed (what it does with other clusters' far entries is the model's, log 77); PROMPT starts a routine on the
prompter of the slice that homes its line, which waits its turn there and locks the line, and whose result and end are free values (log 9); one
that is not loaded answers 1. -/
def Obligations.SystemRecords : Prop :=
  (∀ (r : Rec) (s s₁ : State) (t : Word), s.AllScalar r →
    let c := s.cur.core
    let k := s₁.core c
    let v := s.cur.op0.val
    let fault (x : Flt) : Host.Outcome State Fault Refusal := .next (s.faultCur x)
    let answers (s : State) (n : Nat) : Host.Outcome State Fault Refusal := .next (s.out r t (plainOp (BitVec.ofNat 64 n)))
    (Fires Forms.trap r s t s₁ → exec (.trap r) s = fault { cause := .trap, info := v, aux := r.lit.toNat }) ∧
    (Fires Forms.brk r s t s₁ → exec (.brk r) s = fault { cause := .break_, info := v }) ∧
    (Fires Forms.sysrd r s t s₁ →
      (∀ p ∈ [(0x001, k.phase), (0x012, k.wingCfg), (0x020, k.spill.setWidth 64), (0x021, k.probe.setWidth 64),
          (0x022, k.backlog.setWidth 64), (0x023, (s₁.holdCount c).setWidth 64), (0x024, k.dup.setWidth 64), (0x025, k.nulls.setWidth 64),
          (0x026, k.vstat), (0x040, s₁.curAct.ctrl.setWidth 64), (0x041, s₁.curAct.flags.setWidth 64), (0x042, s₁.curAct.rng),
          (0x043, (colourOf s.cur.tag).setWidth 64), (0x080, BitVec.ofNat 64 (s₁.devBoot c.pkg))],
        r.lit.toNat = p.1 → exec (.sysrd r) s = .next (s₁.out r t (plainOp p.2))) ∧
      (∀ i < 8,
        (r.lit.toNat = 0x002 + i → exec (.sysrd r) s = .next (s₁.out r t (plainOp (k.phmask0.extractLsb' (64 * i) 64)))) ∧
        (r.lit.toNat = 0x00A + i → exec (.sysrd r) s = .next (s₁.out r t (plainOp (k.phmask1.extractLsb' (64 * i) 64))))) ∧
      (r.lit.toNat = 0 → c.core < 194 → ∃ w : Word, exec (.sysrd r) s = .next (s₁.out r t (plainOp w)) ∧
        (w.extractLsb' 0 8).toNat = (if c.core < 192 then c.core else c.core - 192) ∧ (w.extractLsb' 8 3).toNat = c.clu % 8 ∧
        (w.extractLsb' 11 2).toNat = c.die % 4 ∧ (w.extractLsb' 13 6).toNat = c.pkg % 64 ∧ w.getLsbD 19 = decide (192 ≤ c.core)) ∧
      (r.lit.toNat ∉ List.range 0x13 ++ [0x020, 0x021, 0x022, 0x023, 0x024, 0x025, 0x026, 0x040, 0x041, 0x042, 0x043, 0x080] →
        exec (.sysrd r) s = fault { cause := .illegalRecord })) ∧
    (Fires Forms.syswr r s t s₁ →
      (∀ p ∈ [(0x020, { k with spill := 0 }), (0x021, { k with probe := 0 }), (0x022, { k with backlog := 0 }),
          (0x023, { k with hold := 0, holdAt := k.holdAt.map fun x => (x.1, s₁.coreCycles c) }),
          (0x024, { k with dup := 0 }), (0x025, { k with nulls := 0 }), (0x026, { k with vstat := 0 })],
        r.lit.toNat = p.1 → exec (.syswr r) s = .next ((s₁.setCore c p.2).out r t (plainOp v))) ∧
      (∀ p ∈ [(0x001, (s₁.setCore c { k with phase := v &&& 3 }).laterAt .backlogRefill c 0),
          (0x012, s₁.setCore c { k with wingCfg := v &&& 0x7FFFFFFFFFFFFFFF })],
        r.lit.toNat = p.1 → exec (.syswr r) s = .next (p.2.out r t (plainOp v))) ∧
      (∀ i < 8,
        (r.lit.toNat = 0x002 + i → exec (.syswr r) s =
          .next (((s₁.setCore c { k with phmask0 := setMaskWord k.phmask0 i v }).laterAt .backlogRefill c 0).out r t (plainOp v))) ∧
        (r.lit.toNat = 0x00A + i → exec (.syswr r) s =
          .next (((s₁.setCore c { k with phmask1 := setMaskWord k.phmask1 i v }).laterAt .backlogRefill c 0).out r t (plainOp v)))) ∧
      (r.lit.toNat = 0x040 →
        (v.toNat % 8 ≤ 5 →
          exec (.syswr r) s = .next ((s₁.modCurAct fun a => { a with ctrl := v.setWidth 32 &&& 0x107 }).out r t (plainOp v))) ∧
        (6 ≤ v.toNat % 8 → exec (.syswr r) s = fault { cause := .illegalRecord })) ∧
      (r.lit.toNat = 0x041 →
        exec (.syswr r) s = .next ((s₁.modCurAct fun a => { a with flags := v.setWidth 32 &&& 0x3FF }).out r t (plainOp v))) ∧
      (r.lit.toNat = 0x042 → exec (.syswr r) s = .next ((s₁.modCurAct fun a => { a with rng := v }).out r t (plainOp v))) ∧
      (r.lit.toNat ∉ (List.range 0x13).drop 1 ++ [0x020, 0x021, 0x022, 0x023, 0x024, 0x025, 0x026, 0x040, 0x041, 0x042] →
        exec (.syswr r) s = fault { cause := .illegalRecord })) ∧
    (Fires Forms.time r s t s₁ → r.sub.toNat = 0 → exec (.time r) s = answers s₁ (s₁.time c.pkg)) ∧
    (Fires Forms.time r s t s₁ → r.sub.toNat ≠ 0 →
      exec (.time r) s = answers s₁ (s₁.ownCycles c)) ∧
    (Fires Forms.evget r s t s₁ → ∀ va key : Nat, s₁.padAddr v 32 = .ok va → checkMultiple va 32 = .ok () → nearKey c va 32 = some key →
      let x := s₁.cluster c.cluId
      let q := x.queues.getD r.sub.toNat Queue.reset
      (q.take = none → exec (.evget r) s = answers s₁ 0) ∧
      (∀ (ws : List Word) (q' : Queue), q.take = some (ws, q') → exec (.evget r) s =
        answers ((s₁.setCluster c.cluId { x with queues := setAt x.queues r.sub.toNat q' }).keyWrite c false key
          (ws.flatMap fun w => leBytes 8 w.toNat) (some (colourOf s.cur.tag))) 1)) ∧
    (Fires Forms.launch r s t s₁ →
      (∀ f : Flt, s₁.messageAt v = .error f → exec (.launch r) s = fault f) ∧
      (∀ ws : List Word, s₁.messageAt v = .ok ws →
        (ctlOf s.cur.op1.val = none → exec (.launch r) s = fault { cause := .illegalRecord }) ∧
        (∀ to_ : CoreId, ctlOf s.cur.op1.val = some to_ →
          (s₁.isCore to_ = false → exec (.launch r) s = fault { cause := .illegalRecord }) ∧
          (s₁.isCore to_ = true →
            let m : Msg := ⟨ws, ⟨.launch, c, s.cur.node, s.cur.tag⟩, false, []⟩
            let x := s₁.heldTokens r t (plainOp 0)
            exec (.launch r) s = .next (x.2.startRelease c (colourOf s.cur.tag) 2 false
              (.event (.engineInboxAccept (launchTarget to_ m) m) Site.zero :: x.1)))))) ∧
    (Fires Forms.cfginst r s t s₁ →
      let e := s.cur.op1.val
      let img := (s₁.pkg c.pkg).images.find? fun x => decide (x.pa = v.toNat)
      (img = none → exec (.cfginst r) s = answers s₁ 2) ∧
      (∀ x : Image, img = some x →
        (e.getLsbD 63 = false ∨ physClu e ≠ c.cluId → exec (.cfginst r) s = answers s₁ 3) ∧
        (e.getLsbD 63 = true → physClu e = c.cluId →
          (s₁.inUse x e = true → exec (.cfginst r) s = answers s₁ 1) ∧
          (s₁.inUse x e = false →
            let es := e :: ((s₁.pkg c.pkg).resident.filter fun y => decide (y.image = x.id)).flatMap fun y =>
              y.place.filter fun w => decide (imgClu w ≠ imgClu e)
            let due := s₁.now + s₁.installTime x e
            let s₂ := { s₁ with free := s₁.free + 1, uid := s₁.uid + 1 }.installClu x es e (49152 * Config.wingAt s₁.free) due
            let asker : ReplyTo := { s₁ with free := s₁.free + 1, uid := s₁.uid + 1 }.asker r t
            exec (.cfginst r) s = .next ((s₂.modPkg c.pkg fun p => { p with cfgs := p.cfgs ++ [(s₁.uid, asker)] }).at_ due .install
              ⟨c, s₁.uid, 0, true⟩))))) ∧
    ((s.core c).unitBusy = true → exec (.prompt r) s = .next ((s.modCore c fun k => { k with ready := s.cur :: k.ready }).issueLater c)) ∧
    ((s.core c).unitBusy = false → Fires Forms.prompt r s t s₁ → ∀ va : Nat, vaOf v 0 = some va →
      let perm : Flt := { cause := .permission, info := BitVec.ofNat 64 va }
      (isNear va = true → exec (.prompt r) s = fault perm) ∧
      (∀ (a : Nat) (ps : List MemPart) (f : Option Flt) (s₂ : State), isNear va = false →
        s₁.coverOne c s.cur.node false true va 1 = .ok (ps, f, s₂) → ((ps.head?).bind (·.pa)) = some a →
        let l := a / 192
        let away := s₂.isLost l = true ∨ s₂.joined c.pkg (homeDie l).pkg = false
        ((ps.any (·.nc)) = true ∨ s₂.isHbm a = false → exec (.prompt r) s = fault perm) ∧
        ((ps.any (·.nc)) = false → s₂.isHbm a = true → away →
          exec (.prompt r) s = fault { cause := .homeUnreachable, info := BitVec.ofNat 64 (l * 192) }) ∧
        ((ps.any (·.nc)) = false → s₂.isHbm a = true → ¬ away → exec (.prompt r) s =
          .next ((s₂.fresh.2.modDie (homeDie l) fun x =>
            { x with prompts := x.prompts ++ [⟨s₂.uid, l, r.lit.toNat % 256, s.cur.op1.val, s₂.fresh.2.asker r t⟩] }).laterAt
              .promptRoutineEnd (dieCore0 (homeDie l)) s₂.uid 0 false))))) ∧
  (∀ (s : State) (x : Prompt), ((s.die s.site.core.dieId).prompts.find? fun y => decide (y.id = s.site.n)) = some x →
    let d := s.site.core.dieId
    let loaded := x.routine ∈ (s.pkg d.pkg).routines
    let ended (s : State) (status : Nat) : State :=
      ({ s with free := s.free + 1 }.modDie d fun y => { y with prompts := y.prompts.filter fun z => decide (z.id ≠ x.id) }).replyBoth x.who
        (plainOp ((Config.promptResult s.free).setWidth 64)) (plainOp (BitVec.ofNat 64 status))
    let y := s.holdLine d x.line [0, 1, 2, 3]
    (¬ loaded → exec .promptRoutineEnd s = .next (ended s 1)) ∧
    (loaded → s.site.flag = false →
      ((s.die d).promptTurn x = false → exec .promptRoutineEnd s = .next (s.laterAt .promptRoutineEnd (dieCore0 d) s.site.n)) ∧
      ((s.die d).promptTurn x = true →
        (y.1 = true → exec .promptRoutineEnd s =
          .next ((y.2.modLine d x.line fun z => { z with locked := true }).laterAt .promptRoutineEnd (dieCore0 d) s.site.n 0 true)) ∧
        (y.1 = false → exec .promptRoutineEnd s = .next (y.2.laterAt .promptRoutineEnd (dieCore0 d) s.site.n)))) ∧
    (loaded → s.site.flag = true → exec .promptRoutineEnd s = .next (ended
      ((s.modLine d x.line fun z => { z with locked := false }).enterLine d x.line 0
        ((List.range 192).map fun i => Config.promptByte s.free i) ((s.actOf? x.who.core.dieId x.who.tag).bind fun a => s.colourOn a d))
      (if Config.promptEnds s.free then 0 else 2))))

/-! ## Start-up, links, the host adapter and the management port (R102 to R108, R205, R208, R211, R261, R360, R421 to R425, R435) -/

/-- R102 to R108, R205, R208, R435: power-on reset leaves a package at stage ROM, its cores, clusters and dies as reset leaves them, its keys
and flash as they were; each boot stage goes on from the one before it where its tests pass, else the package fails into Recovery with its
reason, and a stage that is not next changes nothing; a link trains, where its stage lets it, at the highest version in both ranges; the host
adapter answers `DEV.BOOT` and flash writes in every stage, queues reads, writes and loads and serves the oldest, a load behind the writes before
it, with a report where the image is refused; a register written at the management port, the slice map at stage Map only; R421 to R425: bank
tests, beats resent, audits, security triggers, attestation. (That memory keeps its bytes is the model's, log 74; the task-graph storage that the
runtime reserves, log 70.) -/
def Obligations.StartUpEvents : Prop :=
  (∀ s : State, let p := s.site.core.pkg
    ∃ s' : State, exec .powerOnReset s = .next s' ∧
      s'.pkg p = { Package.reset with stage := 0x1, resetAt := s.now, keys := (s.pkg p).keys, flash := (s.pkg p).flash, islands := List.replicate 40 { Island.reset with since := s.now } } ∧
      s'.mem = s.mem ∧
      (∀ c : CoreId, s'.core c = if c.pkg = p then Core.unlisted c else s.core c) ∧
      (∀ k : CluId, s'.cluster k = if k.pkg = p then Cluster.reset else s.cluster k) ∧
      (∀ d : DieId, d.pkg = p → s'.die d = Die.reset) ∧
      (∀ d : DieId, d.pkg ≠ p → (s'.die d).colours = (s.die d).colours ∧ (s'.die d).barriers = (s.die d).barriers) ∧
      (∀ q : Nat, q ≠ p → (s'.pkg q).stage = (s.pkg q).stage ∧ (s'.pkg q).images = (s.pkg q).images ∧
        (s'.pkg q).islands = (s.pkg q).islands) ∧
      (∀ x ∈ s'.acts, x ∈ s.acts ∧ x.2.ctl.pkg ≠ p)) ∧
  (∀ (s : State) (p : Nat) (b₁ b₂ b₃ b₄ : Bool),
    (∀ n : BitVec 8, (s.bootFail p n).pkg p = { s.pkg p with stage := 0xE, reason := n }) ∧
    ((s.pkg p).stage ≠ 1 → exec (.bootTest p b₁ b₂ b₃ b₄) s = .next s) ∧
    ((s.pkg p).stage = 1 →
      (b₁ = false → exec (.bootTest p b₁ b₂ b₃ b₄) s = .next (s.bootFail p 1)) ∧
      (b₁ = true → b₂ = false → exec (.bootTest p b₁ b₂ b₃ b₄) s = .next (s.bootFail p 3)) ∧
      (b₁ = true → b₂ = true → b₃ = false → exec (.bootTest p b₁ b₂ b₃ b₄) s = .next (s.bootFail p 4)) ∧
      (b₁ = true → b₂ = true → b₃ = true → exec (.bootTest p b₁ b₂ b₃ b₄) s =
        .next (s.modPkg p fun x => { x with stage := 2, rebuild := b₄ }))) ∧
    (∀ (gran pt sh dm : Nat), (s.pkg p).stage ≠ 2 → exec (.bootMap p b₁ gran pt sh dm) s = .next s) ∧
    (∀ (gran pt sh dm : Nat), (s.pkg p).stage = 2 →
      (b₁ = false → exec (.bootMap p b₁ gran pt sh dm) s = .next (s.bootFail p 5)) ∧
      (b₁ = true → ∃ s' : State, exec (.bootMap p b₁ gran pt sh dm) s = .next s' ∧
        (let x := s'.pkg p
         x = { s.pkg p with stage := 3, ptbase := pt % 2 ^ 52, shardbase := sh % 2 ^ 52, dirmap := dm % 2 ^ 52, routines := (List.range 256).filter fun n => s.site.n.testBit n, podgen := x.podgen } ∧
         x.podgen = BitVec.ofNat 16 (s'.dirMapWord p 1)) ∧
        (∀ d : DieId, d.pkg = p → d.die < 4 → s'.die d = { s.die d with gran := gran % 2 }) ∧
        (∀ d : DieId, d.pkg ≠ p → s'.die d = s.die d) ∧
        s'.timers = s.timers ++ [⟨s.now + 10000, .allowanceRefresh, ⟨pkgCore p, 0, 0, false⟩⟩,
          ⟨s.now + 100000, .recallWindow, ⟨pkgCore p, 0, 0, false⟩⟩])) ∧
    (let base := s.site.n
      let words := s.site.m
      ((s.pkg p).stage = 3 → exec (.bootRuntime p b₁ b₂) s =
        .next ((s.modPkg p fun x => { x with stage := 4 }).laterAt (.bootRuntime p b₁ b₂) s.site.core base words)) ∧
      ((s.pkg p).stage = 4 →
        (b₁ = false → exec (.bootRuntime p b₁ b₂) s = .next (s.bootFail p 1)) ∧
        (b₁ = true → b₂ = false → exec (.bootRuntime p b₁ b₂) s = .next (s.bootFail p 2)) ∧
        (b₁ = true → b₂ = true →
          let at_ := (base + 63) / 64 * 64
          exec (.bootRuntime p b₁ b₂) s = .next (s.modPkg p fun x =>
            { x with stage := 5, storeAt := at_, storeLen := if s.rangeOk at_ (512 * words) then words else 0 }))) ∧
      ((s.pkg p).stage ≠ 3 → (s.pkg p).stage ≠ 4 → exec (.bootRuntime p b₁ b₂) s = .next s))) ∧
  (∀ (s : State) (p q : Nat) (lo hi : BitVec 16) (b₁ b₂ : Bool),
    let lanes := if b₁ = true ∧ b₂ = true then 8 else if b₁ = true ∨ b₂ = true then 4 else 0
    let v : BitVec 16 := if lanes = 0 then 0 else commonVersion lo hi
    let set_ (x : LinkSt) : LinkSt := { x with ver := v, lanes := if v = 0 then 0 else lanes, retired := false, closing := false }
    let up (p : Nat) : Prop := (s.pkg p).stage ∈ ([3, 4, 5] : List (BitVec 4))
    (∀ u ∈ ([0x0100, 0x0101, 0x0200] : List (BitVec 16)), lo ≤ u → u ≤ hi → Config.versions.1 ≤ u.toNat → u.toNat ≤ Config.versions.2 →
      u ≤ commonVersion lo hi) ∧
    (q < s.podSize → q ≠ p → q ≠ 64 →
      (up p → up q → exec (.linkTraining p q lo hi b₁ b₂) s = .next ((s.modLink p q set_).modLink q p set_)) ∧
      (¬ up p ∨ ¬ up q → exec (.linkTraining p q lo hi b₁ b₂) s = .next s)) ∧
    (up p ∨ (s.pkg p).stage = 0xE →
      (lanes ≠ 0 → exec (.linkTraining p 64 lo hi b₁ b₂) s = .next (s.modLink p 64 set_)) ∧
      (lanes = 0 → exec (.linkTraining p 64 lo hi b₁ b₂) s = .next ((s.modLink p 64 set_).bootFail p 5))) ∧
    (¬ up p → (s.pkg p).stage ≠ 0xE → exec (.linkTraining p 64 lo hi b₁ b₂) s = .next s)) ∧
  (∀ (s : State) (p pa n off : Nat) (bs : List Byte),
    let ops : List HostOp := [.read pa n, .write pa bs, .load pa]
    let recovers := (s.pkg p).stage = 0xE
    let replies (s : State) (r : HostReply) : State := { s with hostOut := s.hostOut ++ [r] }
    let goes (s : State) (rest : List HostOp) : State :=
      if rest.isEmpty then s.modPkg p fun x => { x with hostQ := rest }
      else (s.modPkg p fun x => { x with hostQ := rest }).later (.hostAccess p .next)
    ((s.link p 64).ver = 0 → ∀ op ∈ ops ++ [.devBoot, .flash off bs], exec (.hostAccess p op) s = .next s) ∧
    ((s.link p 64).ver ≠ 0 →
      exec (.hostAccess p .devBoot) s = .next (replies s (.data (leBytes 4 (s.devBoot p)) false)) ∧
      exec (.hostAccess p (.flash off bs)) s = .next (replies (s.modPkg p fun x => { x with flash := x.flash.putN off bs }) .done) ∧
      (∀ op ∈ ops, (recovers → exec (.hostAccess p op) s = .next s) ∧
        (¬ recovers →
          let s₁ := s.modPkg p fun x => { x with hostQ := x.hostQ ++ [op] }
          exec (.hostAccess p op) s = .next (if (s.pkg p).hostQ.isEmpty then s₁.later (.hostAccess p .next) else s₁)))) ∧
    (recovers ∨ (s.link p 64).ver = 0 → exec (.hostAccess p .next) s = .next (s.modPkg p fun x => { x with hostQ := [] })) ∧
    (¬ recovers → (s.link p 64).ver ≠ 0 →
      ((s.pkg p).hostQ = [] → exec (.hostAccess p .next) s = .next s) ∧
      (∀ rest : List HostOp,
        let d := dieOfPa pa
        let r := s.drawRuns d (.host p 0) [⟨0, some pa, n, false⟩]
        let w := s.writeReady d false pa bs.length
        let stays (s : State) : Host.Outcome State Fault Refusal := .next (s.later (.hostAccess p .next))
        ((s.pkg p).hostQ = .read pa n :: rest →
          (s.hostBad p pa n false = true → exec (.hostAccess p .next) s = .next (goes (replies s .error) rest)) ∧
          (s.hostBad p pa n false = false →
            (r.1 = none → exec (.hostAccess p .next) s = stays r.2) ∧
            (∀ xs : List (Byte × Bool), r.1 = some xs →
              exec (.hostAccess p .next) s = .next (goes (replies r.2 (.data (xs.map Prod.fst) (xs.any Prod.snd))) rest)))) ∧
        ((s.pkg p).hostQ = .write pa bs :: rest →
          (s.hostBad p pa bs.length true = true → exec (.hostAccess p .next) s = .next (goes (replies s .error) rest)) ∧
          (s.hostBad p pa bs.length true = false →
            (w.1 = false → exec (.hostAccess p .next) s = stays w.2) ∧
            (w.1 = true →
              let ls := if w.2.isHbm pa then (rangeLines pa bs.length).map Prod.fst else []
              let s₁ := (w.2.sysWrite d pa bs).modPkg p fun x => { x with hostLines := x.hostLines ++ ls }
              exec (.hostAccess p .next) s = .next (goes (replies (s₁.modPkg p fun x =>
                { x with hostLines := x.hostLines.filter fun l => ((s₁.die (homeDie l)).line? l).any fun y => !y.pend.isEmpty }) .done)
                  rest)))) ∧
        ((s.pkg p).hostQ = .load pa :: rest →
          (s.hostApplied p = false → exec (.hostAccess p .next) s = stays s) ∧
          (s.hostApplied p = true →
            (∀ x : Image, s.judgeImage p pa = .ok x → exec (.hostAccess p .next) s = .next (goes (s.modPkg p fun k =>
              { k with images := k.images.filter (fun y => decide (y.id ≠ x.id)) ++ [x], report := none }) rest)) ∧
            (∀ e : LoadReport, s.judgeImage p pa = .error e →
              exec (.hostAccess p .next) s = .next (goes (s.modPkg p fun k => { k with report := some e }) rest))))))) ∧
  (∀ (s : State) (p v d i : Nat),
    exec (.registerWrite p .ptbase v) s = .next (s.modPkg p fun x => { x with ptbase := v % 2 ^ 52 }) ∧
    exec (.registerWrite p .shardbase v) s = .next (s.modPkg p fun x => { x with shardbase := v % 2 ^ 52 }) ∧
    exec (.registerWrite p .dirmap v) s = .next (s.modPkg p fun x => { x with dirmap := v % 2 ^ 52 }) ∧
    (let free := (s.pkg p).stage = 3 ∧ (s.die ⟨p, d % 4⟩).lines = []
     (free → exec (.registerWrite p (.slicemap d) v) s = .next (s.modDie ⟨p, d % 4⟩ fun x => { x with gran := v % 2 })) ∧
     (¬ free → exec (.registerWrite p (.slicemap d) v) s = .next s)) ∧
    (∀ k : Nat, v ≠ 0 → exec (.registerWrite p (.islCounter i k) v) s = .next s) ∧
    (∀ g ∈ [(0, fun (x : Island) => { x with energy := 0 }), (1, fun x => { x with abandon := 0 }), (2, fun x => { x with drowsy := 0 }),
        (3, fun x => { x with changes := 0 }), (4, fun x => { x with tmax := 0 }), (5, fun x => { x with retired := 0 }),
        (6, fun x => { x with purged := 0 })],
      exec (.registerWrite p (.islCounter i g.1) 0) s = .next (s.modIsland p i g.2))) ∧
  (∀ (s : State) (d : DieId) (p q n : Nat) (b₁ b₂ : Bool) (free got : BitVec 16),
    let used := (s.die d).testing.any fun x => decide (x.1 = n)
    let x := s.link p q
    (b₁ = false → exec (.hbmBankTest d n b₁ b₂) s = .next s) ∧
    (b₁ = true → used = true →
      exec (.hbmBankTest d n b₁ b₂) s = .next (s.modPkg d.pkg fun x => { x with bankBad := x.bankBad ++ [(d.die, n)] })) ∧
    (b₁ = true → used = false → b₂ = true → exec (.hbmBankTest d n b₁ b₂) s = .next s) ∧
    (b₁ = true → used = false → b₂ = false →
      exec (.hbmBankTest d n b₁ b₂) s = .next (s.modDie d fun x => { x with testing := x.testing ++ [(n, 1)] })) ∧
    exec (.linkBeatCrcFail p q b₁) s = .next (s.modLink p q fun x => { x with replays := x.replays + 1 }) ∧
    (x.ver < 0x0101 → exec (.auditBeat p q free got) s = .next s) ∧
    (0x0101 ≤ x.ver → exec (.auditBeat p q free got) s =
      .next (s.modLink p q fun y =>
        let w := free.toNat - (x.sent.toNat + 2 ^ 16 - got.toNat) % 2 ^ 16
        { y with window := w, repairs := if w = y.window then y.repairs else y.repairs + 1 })) ∧
    exec .attestationRequest s = .next (s.modPkg s.site.core.pkg fun x => { x with attest := x.attest ++ [x.keys] }) ∧
    (s.site.n = 0 ∨ 7 < s.site.n → exec .securityTrigger s = .next s) ∧
    (1 ≤ s.site.n → s.site.n ≤ 7 → ∃ w : Word, (w.extractLsb' 56 8).toNat = 0x04 ∧ (w.extractLsb' 0 8).toNat = s.site.n ∧
      exec .securityTrigger s =
        .next ((s.modPkg s.site.core.pkg fun x =>
          { x with alarm := x.alarm ||| BitVec.ofNat 8 (2 ^ s.site.n), keys := x.keys && decide (3 < s.site.n) }).boardPkg s.site.core.pkg 3
          [w, 0, 0, s.timeWord s.site.core.pkg 0])))

/-! ## Power and temperature (R115, R124 to R127, R197, R433 to R438) -/

/-- R125 to R127, R437, R438: every 10 µs an island takes its allowance, holds a hot island, steps down where a window asked for it, else up by
one point where its committed draw fits; a new point takes the slower clock at once and its own 2 µs later; a peak counts until the refresh,
one above 110 % goes to point 5; a reading of an island acts by its thresholds (which cluster's callboard takes a THERMAL record is the
model's, log 72). R115, R433, R434: an idle core goes DROWSY and wakes; a router decides in one cycle and is DROWSY in the next unless a wake
comes in between, which abandons the decision; an ordinary core of no resident configuration is gated with its router once nothing is in it or
on its way, and waits for that; an install wakes it. -/
def Obligations.PowerEvents : Prop :=
  (∀ (i c : Nat) (t : Int), (840 ≤ t → allowance i t c = 0) ∧
    (t ≤ 760 → c ≤ 90 → allowance i t c = 100 * Config.islandCap i) ∧ allowance i t c ≤ 100 * Config.islandCap i) ∧
  (∀ (s : State) (p i pt : Nat),
    (pt = (s.island p i).point → s.setPoint p i pt = s) ∧
    (pt ≠ (s.island p i).point → s.setPoint p i pt =
      (s.modIsland p i fun x => { x.settled s.now with point := pt, clock := max x.clock pt, changes := satAdd x.changes 1 }).at_
        (s.now + 2000) .clockChangeDone ⟨pkgCore p, i, 0, false⟩)) ∧
  (∀ (s : State) (p i : Nat),
    let x := s.island p i
    let a := allowance i x.temp x.current
    let s₁ := s.modIsland p i fun x =>
      { x with allow := a, current := 0, force5 := false, down1 := false, energy := satAdd x.energy (drawAt x.committed x.point / 10) }
    (x.hot = true → s.refreshIsland p i = s₁) ∧
    (x.hot = false → x.down1 = true → s.refreshIsland p i = s₁.setPoint p i (min 5 (x.point + 1))) ∧
    (x.hot = false → x.down1 = false → 0 < x.point → drawAt x.committed (x.point - 1) ≤ a →
      s.refreshIsland p i = s₁.setPoint p i (x.point - 1)) ∧
    (x.hot = false → x.down1 = false → x.point = 0 ∨ a < drawAt x.committed (x.point - 1) → s.refreshIsland p i = s₁)) ∧
  (∀ s : State,
    let p := s.site.core.pkg
    let i := s.site.n
    exec .allowanceRefresh s =
      .next (((List.range 40).foldl (fun s i => s.refreshIsland p i) s).at_ (s.now + 10000) .allowanceRefresh s.site) ∧
    exec .clockChangeDone s = .next (s.modIsland p i fun x => { x.settled s.now with clock := x.point }) ∧
    exec .droopStretch s = .next (s.modIsland p i fun x => { x with stretched := true }) ∧
    exec .supplyRecovery s = .next (s.modIsland p i fun x => { x with stretched := false }) ∧
    (let s₁ := s.modIsland p i fun x => { x with current := max x.current s.site.m }
     (s.site.m ≤ 110 → exec .currentPeak s = .next s₁) ∧
     (110 < s.site.m → exec .currentPeak s = .next ((s₁.modIsland p i fun x => { x with force5 := true }).setPoint p i 5))) ∧
    (s.site.n ≤ Config.packageLimit → exec .packagePowerWindow s = .next s) ∧
    (Config.packageLimit < s.site.n → exec .packagePowerWindow s =
      .next ((List.range 32).foldl (fun s i => s.modIsland p i fun x => { x with down1 := true }) s))) ∧
  (∀ (s : State) (p i : Nat) (t : Int),
    let x := s.island p i
    let s₁ := (s.modIsland p i fun x =>
      { x with temp := t, tmax := if x.tmax.toInt < t then BitVec.ofInt 64 t else x.tmax }).junctionWatch p i t
    (s.site.flag = true → x.stopped = true → x.since = s.site.n → exec (.thermal p i t) s = .next (s.stopPackage p i x.temp)) ∧
    (s.site.flag = true → x.stopped = false ∨ x.since ≠ s.site.n → exec (.thermal p i t) s = .next s) ∧
    (s.site.flag = false →
      (960 ≤ t → exec (.thermal p i t) s = .next (s₁.stopPackage p i t)) ∧
      (880 ≤ t → t < 960 → x.stopped = false → exec (.thermal p i t) s =
        .next (((s₁.modIsland p i fun x => { x.settled s.now with stopped := true, hot := true }).thermalRecord p i 2 t).at_
          (s.now + 10000000) (.thermal p i t) ⟨pkgCore p, s.now, 0, true⟩)) ∧
      (t < 800 → x.stopped = true → exec (.thermal p i t) s =
        .next ((s₁.modIsland p i fun x => { x with stopped := false, hot := false, point := 5, clock := 5, since := s.now }).thermalRecord p i
          3 t)) ∧
      (800 ≤ t → t < 960 → x.stopped = true → exec (.thermal p i t) s = .next s₁) ∧
      (840 ≤ t → t < 880 → x.stopped = false →
        (x.hot = true → exec (.thermal p i t) s = .next s₁) ∧
        (x.hot = false → exec (.thermal p i t) s =
          .next (((s₁.modIsland p i fun x => { x with hot := true }).setPoint p i 5).thermalRecord p i 1 t))) ∧
      (t < 840 → x.stopped = false → exec (.thermal p i t) s = .next (s₁.modIsland p i fun x => { x with hot := false })))) ∧
  (∀ s : State,
    let c := s.site.core
    let k := s.core c
    let isl := coreIsland c
    (k.power = .awake → k.idle = true → exec .coreDrowsy s = .next (s.setCore c { k with power := .drowsy, drowsyAt := s.now })) ∧
    (k.power ≠ .awake ∨ k.idle = false → exec .coreDrowsy s = .next s) ∧
    (k.power = .drowsy → exec .coreWake s =
      .next ((s.setCore c { k with power := .awake }).modIsland c.pkg isl fun x =>
        { x with drowsy := satAdd x.drowsy ((s.now - k.drowsyAt) * clockTenths (s.island c.pkg isl).clock / 10) })) ∧
    (k.power ≠ .drowsy → exec .coreWake s = .next s) ∧
    (s.site.flag = false → k.router = .awake →
      exec .routerDrowsy s = .next ((s.setCore c { k with routerDeciding := true }).laterAt .routerDrowsy c 0 0 true)) ∧
    (s.site.flag = false → k.router ≠ .awake → exec .routerDrowsy s = .next s) ∧
    (s.site.flag = true → k.routerDeciding = true →
      exec .routerDrowsy s = .next (s.setCore c { k with router := .drowsy, routerDeciding := false, routerAt := s.now })) ∧
    (s.site.flag = true → k.routerDeciding = false → exec .routerDrowsy s = .next s) ∧
    (k.routerDeciding = true → exec .routerWake s =
      .next ((s.setCore c { k with routerDeciding := false }).modIsland c.pkg isl fun x => { x with abandon := satAdd x.abandon 1 })) ∧
    (k.routerDeciding = false → k.router = .drowsy → exec .routerWake s =
      .next ((s.setCore c { k with router := .awake }).modIsland c.pkg isl fun x =>
        { x with drowsy := satAdd x.drowsy (2 * (s.now - k.routerAt)) })) ∧
    (k.routerDeciding = false → k.router ≠ .drowsy → exec .routerWake s = .next s) ∧
    (let unused := c.core < 192 ∧ k.owner = [] ∧ k.power ≠ .gated
     let quiet := k.idle = true ∧ ∀ (path : Path) (t : Token) (x : Site), Item.event (.tokenArrival c path t) x ∉ s.agenda
     (unused → quiet → exec .powerGate s =
       .next (s.setCore c { k with power := .gated, router := .gated, routerDeciding := false, gateAt := (s.island c.pkg isl).tenths s.now })) ∧
     (unused → ¬ quiet → exec .powerGate s = .next (s.laterAt .powerGate c 0)) ∧
     (¬ unused → exec .powerGate s = .next s)) ∧
    (k.power ≠ .gated → s.wakeCore c = s) ∧
    (k.power = .gated → s.wakeCore c = s.setCore c { k with power := .awake, router := .awake, drowsyAt := s.now, routerAt := s.now, lost := k.lost + ((s.island c.pkg isl).tenths s.now - k.gateAt) }))

/-! ## Launches and task graphs (R109 to R123, R126, R127) -/

/-- R109 to R117, R126, R127, R195: a START is refused with the first check of R110 that fails, or held and installed; installing writes every
record of its blocks and nothing else of an element memory, the far table only where the image has one, and waits while a live activation uses
what it would write; its launch goes on when the longest wake and transfer time of its clusters has passed, a CFGINST then answers; a held launch
is admitted once it is installed, its islands are not hot and have a point for its charge, and its dies have a colour, never past a blocking one
accepted before it, at any control core, that shares an island; after 1 ms it is blocking. -/
def Obligations.LaunchEvents : Prop :=
  (∀ (s : State) (c : CoreId) (m : Msg),
    let ws := m.words
    let windows := s.paramWindows (startField ws 4 51 0)
    let x := s.takeLaunch c m
    let st := x.2.startStatus c ws 0 windows
    (st.1 ≠ 0 → exec (.start c m) s = .next ((x.2.launchEnded c ws st.1 0 0 0).endLaunch c m x.1 st.1)) ∧
    (st.1 = 0 → exec (.start c m) s = .next (x.2.hold c
      { id := 0, words := ws, sender := m.sender, num := x.1, since := none, ready := false, blocking := false, replay := 0, reissues := 0,
        windows := windows, place := st.2, of_ := none, restore := none }))) ∧
  (∀ (s : State) (c : CoreId) (ws : List Word) (replay : Nat) (windows : List Nat),
    let st := (s.startStatus c ws replay windows).1
    let legal := startOk ws = true ∧ (replay ≠ 0 ∨ startField ws 11 27 0 = 0)
    let e := startEntry ws
    (¬ legal → st = 1) ∧ (193 < startField ws 9 41 34 → ¬ legal) ∧
    (legal →
      (s.imageOf c.pkg (ws.getD 2 0) = none → st = 2) ∧
      (∀ x : Image, s.imageOf c.pkg (ws.getD 2 0) = some x →
        (s.placeOk c x (s.placement ws) = false → st = 3) ∧
        (s.placeOk c x (s.placement ws) = true →
          ((∃ w ∈ x.windows, windows.getD w.1 0 = 0) → st = 4) ∧
          ((∀ w ∈ x.windows, windows.getD w.1 0 ≠ 0) →
            (startField ws 5 37 37 = 1 → x.spec = false → st = 5) ∧
            (startField ws 5 37 37 ≠ 1 ∨ x.spec = true →
              (startField ws 9 63 63 = 0 ∨ x.at? e.1 e.2.1 = none → st = 6) ∧
              (startField ws 9 63 63 ≠ 0 → x.at? e.1 e.2.1 ≠ none → st = 0))))))) ∧
  (∀ (k : Core) (x : Image) (b : Block) (n : Nat), b.first ≤ n →
    (∀ i < b.recs.length, n = b.first + i → Assoc.get? (k.putBlock x b).elem n = b.recs[i]? ∧ Assoc.get? (k.putBlock x b).owner n = some x.id) ∧
    (b.first + b.recs.length ≤ n → Assoc.get? (k.putBlock x b).elem n = Assoc.get? k.elem n) ∧
    (∀ (es : List Word) (wing : Nat), (∀ f ∈ x.fars, f.1 ≠ b.at_) → (k.install x es b wing).far = k.far)) ∧
  (∀ s : State, s.site.flag = true →
    let p := s.site.core.pkg
    (Assoc.get? (s.pkg p).cfgs s.site.n = none → exec .install s = .next s) ∧
    (∀ who : ReplyTo, Assoc.get? (s.pkg p).cfgs s.site.n = some who → exec .install s =
      .next ((s.modPkg p fun x => { x with cfgs := Assoc.erase x.cfgs s.site.n }).replyBoth who (plainOp 0) (plainOp 0)))) ∧
  (∀ s : State, s.site.flag = false → s.launch? s.site.core s.site.n = none → exec .install s = .next s) ∧
  (∀ (s : State) (y : Launch), s.site.flag = false → s.launch? s.site.core s.site.n = some y →
    let c := s.site.core
    let l := s.site.n
    (s.installed c y = false → s.launchImage c y = none → exec .install s = .next (s.laterAt .install c l)) ∧
    (s.installed c y = true →
      exec .install s = .next ((s.modLaunch c l fun y => { y with ready := true }).laterAt .admission c l)) ∧
    (∀ x : Image, s.installed c y = false → s.launchImage c y = some x →
      let todo := (y.needed x).filter fun e => !s.residentAt x.id y.place e
      (todo = [] ∨ (∃ e ∈ todo, s.inUse x e = true) → exec .install s = .next (s.laterAt .install c l)) ∧
      (todo ≠ [] → (∀ e ∈ todo, s.inUse x e = false) → ∃ (wing : Word → Nat) (wait : Nat),
        (∀ e ∈ todo, s.installTime x e ≤ wait) ∧ (∃ e ∈ todo, s.installTime x e = wait) ∧
        exec .install s = .next ((todo.foldl (fun s₁ e => s₁.installClu x y.place e (wing e) (s.now + wait)) s).at_ (s.now + wait) .admission
          ⟨c, l, 0, true⟩)))) ∧
  (∀ s : State,
    let c := s.site.core
    let l := s.site.n
    let s₁ := if s.site.flag then s.modLaunch c l fun y => { y with ready := true } else s
    let s₂ := s₁.consider c (s₁.launches c)
    (s₂.launch? c l = none → exec .admission s = .next s₂) ∧
    (∀ y : Launch, s₂.launch? c l = some y →
      (y.ready = true → s₂.installed c y = false →
        exec .admission s = .next ((s₂.modLaunch c l fun y => { y with ready := false }).laterAt .install c l)) ∧
      (y.ready = false ∨ s₂.installed c y = true → exec .admission s = .next (s₂.laterAt .admission c l))) ∧
    exec .launchBlocking s = .next (s.modLaunch c l fun y => { y with blocking := true })) ∧
  (∀ (s : State) (c : CoreId) (y : Launch) (ys : List Launch),
    let ks := Launch.clus s y
    let blocked := ∃ k ∈ s.clusters, ∃ l ∈ k.2.launches, ∃ z ∈ l.2, z.blocking = true ∧ z.id < y.id ∧ ∃ x ∈ Launch.clus s z, x ∈ ks
    (blocked → s.consider c (y :: ys) = s.consider c ys) ∧
    (¬ blocked →
      (s.judge c y = .granted → s.consider c (y :: ys) = s.admitLaunch c y) ∧
      (s.judge c y = .wait → s.consider c (y :: ys) = s.consider c ys) ∧
      (s.judge c y = .noPoint → y.since ≠ none → s.consider c (y :: ys) = s.consider c ys) ∧
      (s.judge c y = .noPoint → y.since = none → s.consider c (y :: ys) =
        ((s.modLaunch c y.id fun y => { y with since := some s.now }).at_ (s.now + 1000000) .launchBlocking ⟨c, y.id, 0, false⟩).consider c
          ys)) ∧
    (y.restore = none → (s.judge c y = .granted ↔ y.ready = true ∧ s.installed c y = true ∧ (∀ k ∈ ks, (s.cluIsland k).hot = false) ∧
      (y.watts = 0 ∨ ∀ k ∈ ks, (s.cluIsland k).pointFor y.watts ≠ none) ∧ ∀ d ∈ Launch.dies s y, s.freeColour d ≠ none)))

/-- R118 to R123: GRAPHREG registers a graph whose table it can read and whose copies find room in its control core's storage; REPLAY accepts up
to four replays of a graph and holds later ones; PATCH replaces a node's body; GRAPHDROP drops a graph; each is refused with its status, and
answered; a node is launched once its predecessors have retired with OK, the copy of its parameter block is visible and no curtain closes its
clusters; a replay that ends lets the oldest held one be accepted. (How the storage is divided is the model's, logs 70 and 76.) -/
def Obligations.GraphEvents : Prop :=
  (∀ (s : State) (c : CoreId) (m : Msg),
    let x := s.takeLaunch c m
    let s₁ := x.2
    let tgid := msgField m 3 15 0
    let table := msgField m 2 51 0
    let answer (s : State) (st : Nat) : Host.Outcome State Fault Refusal := .next (s.endGraphMsg c m x.1 st tgid 0 0)
    (graphMsgOk m = false ∨ msgField m 3 63 16 ≠ 0 ∨ table % 8 ≠ 0 ∨ tgid = 0 ∨ s₁.graph? c tgid ≠ none →
      exec (.graphreg c m) s = answer s₁ 1) ∧
    (graphMsgOk m = true → msgField m 3 63 16 = 0 → table % 8 = 0 → tgid ≠ 0 → s₁.graph? c tgid = none →
      (s₁.readGraph table (msgField m 2 63 52 + 1) = none → exec (.graphreg c m) s = answer s₁ 1) ∧
      (∀ xs : List NodeRec, s₁.readGraph table (msgField m 2 63 52 + 1) = some xs →
        let g : TaskGraph :=
          { ctl := c.core, tgid := tgid, base := 0, psizes := xs.map fun x => bodyPsize x.body, bodies := xs.map (·.body), succs := xs.map (·.succs),
            nextNum := 1, live := [], heldQ := [], dropped := false }
        (s₁.storePlace c g = none → exec (.graphreg c m) s = answer s₁ 0x0A) ∧
        (∀ a : Nat, s₁.storePlace c g = some a →
          (∀ y ∈ (s₁.cluster c.cluId).graphs, y.ctl = c.core → a + 8 * g.space ≤ y.base ∨ y.base + 8 * y.space ≤ a) ∧
          a + 8 * g.space ≤ s₁.storeOf c + 8 * (s₁.pkg c.pkg).storeLen ∧
          exec (.graphreg c m) s = answer (s₁.modCluster c.cluId fun k => { k with graphs := k.graphs ++ [{ g with base := a }] }) 0)))) ∧
  (∀ (s : State) (c : CoreId) (m : Msg),
    let x := s.takeLaunch c m
    let s₁ := x.2
    let tgid := msgField m 2 15 0
    let answer (s : State) (st : Nat) : Host.Outcome State Fault Refusal := .next (s.endGraphMsg c m x.1 st tgid 0 0)
    (graphMsgOk m = false ∨ msgField m 2 63 16 ≠ 0 ∨ msgField m 3 63 0 ≠ 0 →
      exec (.replay c m) s = answer s₁ 1 ∧ exec (.graphdrop c m) s = answer s₁ 1) ∧
    (graphMsgOk m = true → msgField m 2 63 16 = 0 → msgField m 3 63 0 = 0 →
      (s₁.graph? c tgid = none → exec (.replay c m) s = answer s₁ 9 ∧ exec (.graphdrop c m) s = answer s₁ 9) ∧
      (∀ g : TaskGraph, s₁.graph? c tgid = some g →
        (g.dropped = true → exec (.replay c m) s = answer s₁ 9 ∧ exec (.graphdrop c m) s = answer s₁ 9) ∧
        (g.dropped = false →
          (4 ≤ g.live.length ∨ g.heldQ ≠ [] →
            exec (.replay c m) s = .next (s₁.modGraph c tgid fun y => { y with heldQ := y.heldQ ++ [(m, x.1)] })) ∧
          (g.live.length < 4 → g.heldQ = [] → exec (.replay c m) s = .next (s₁.acceptReplay c m x.1 g)) ∧
          exec (.graphdrop c m) s = answer ((s₁.modGraph c tgid fun y => { y with dropped := true }).freeGraph c tgid) 0)))) ∧
  (∀ (s : State) (c : CoreId) (m : Msg),
    let x := s.takeLaunch c m
    let s₁ := x.2
    let tgid := msgField m 2 15 0
    let node := msgField m 2 27 16
    let a := msgField m 3 51 0
    let answer (s : State) (st : Nat) : Host.Outcome State Fault Refusal := .next (s.endGraphMsg c m x.1 st tgid node 0)
    let legal := graphMsgOk m = true ∧ msgField m 2 63 28 = 0 ∧ msgField m 3 63 52 = 0 ∧ a % 8 = 0
    (¬ legal → exec (.patch c m) s = answer s₁ 1) ∧
    (legal →
      (s₁.graph? c tgid = none → exec (.patch c m) s = answer s₁ 9) ∧
      (∀ g : TaskGraph, s₁.graph? c tgid = some g →
        (g.dropped = true → exec (.patch c m) s = answer s₁ 9) ∧
        (g.dropped = false →
          let body := s₁.wordsAt a 12
          (g.bodies.length ≤ node ∨ bodyOk body = false → exec (.patch c m) s = answer s₁ 1) ∧
          (node < g.bodies.length → bodyOk body = true →
            (g.psizes.getD node 0 < bodyPsize body → exec (.patch c m) s = answer s₁ 0x0A) ∧
            (bodyPsize body ≤ g.psizes.getD node 0 → exec (.patch c m) s =
              answer (s₁.modGraph c tgid fun y => { y with bodies := setAt y.bodies node body }) 0)))))) ∧
  (∀ (s : State) (c : CoreId) (tg replay node : Nat) (g : TaskGraph) (x : Replay),
    s.graph? c tg = some g → (g.live.find? fun x => decide (x.num = replay)) = some x →
    let ws := nodeStart (x.bodies.getD node []) tg node
    (g.ready x node = false → exec (.taskgraphNodeDispatch c tg replay node) s = .next s) ∧
    (g.ready x node = true →
      (s.copying g x node = true ∨ s.curtainOn ((s.placement ws).map physClu) = true →
        exec (.taskgraphNodeDispatch c tg replay node) s = .next (s.later (.taskgraphNodeDispatch c tg replay node))) ∧
      (s.copying g x node = false → s.curtainOn ((s.placement ws).map physClu) = false →
        let base (i : Nat) : Nat := ((x.params.getD node []).getD i 0).toNat
        let windows := (List.range 8).map fun i => if base i < 2 ^ 52 ∧ base i % 8 = 0 then base i else 0
        exec (.taskgraphNodeDispatch c tg replay node) s =
          .next ((s.modGraph c tg fun g => g.modReplay replay fun x =>
            { x with todo := x.todo.filter fun n => decide (n ≠ node), running := x.running ++ [node] }).acceptStart c
              ⟨ws, ⟨.host, c, 0, 0⟩, false, []⟩ replay windows)))) ∧
  (∀ (s : State) (g : TaskGraph), s.graph? s.site.core s.site.n = some g →
    let c := s.site.core
    (∀ (m : Msg) (num : Nat) (rest : List (Msg × Nat)), g.heldQ = (m, num) :: rest → g.live.length < 4 →
      exec .replayRelease s =
        .next ((s.modGraph c s.site.n fun y => { y with heldQ := rest }).acceptReplay c m num { g with heldQ := rest })) ∧
    (g.heldQ ≠ [] → 4 ≤ g.live.length → exec .replayRelease s = .next s) ∧
    (g.heldQ = [] → exec .replayRelease s = .next (s.freeGraph c s.site.n))) ∧
  (∀ s : State, s.graph? s.site.core s.site.n = none → exec .replayRelease s = .next s)

/-! ## How an activation ends, and the curtain (R196, R406 to R417, R426 to R430) -/

/-- R415 to R417, R426 to R428: an ended activation without children and at rest has its colour's remains discarded; its completion token
retires once nothing of it is left unwritten; a purge starts on every live member of the family and arrives at each die, from then on
reached, where its entries, tokens, waves, streams, stalled messages and waiters go; it ends once every die is reached and nothing is left, its
logged pages are free, uncharging its islands, discarding its handles, and freeing its colours. An activation that is gone, or in another phase
of its life, is not touched. -/
def Obligations.EndingEvents : Prop :=
  (∀ (s : State) (x : Act), Assoc.get? s.acts s.site.n = some x →
    let a := s.site.n
    let c := s.site.core
    (x.life = .ending →
      (x.discarded = false →
        (x.curtain = true ∨ s.mayEnd a = false → exec .retireDiscard s = .next (s.laterAt .retireDiscard c a)) ∧
        (x.curtain = false → s.mayEnd a = true → exec .retireDiscard s =
          .next (((x.map.foldl (fun s p => ((s.dropEntries p.1 p.2 true).dropWaves p.1 p.2).dropWaiters a p.1 p.2) s).modAct a fun x =>
            { x with discarded := true }).writeBackOf a)) ∧
        exec .completionTokenRetire s = .next (s.laterAt .completionTokenRetire c a)) ∧
      (x.discarded = true → x.curtain = false → s.mayEnd a = true →
        (s.unwritten a = true →
          exec .completionTokenRetire s = .next ((s.writeBackOf a).laterAt .completionTokenRetire c a)) ∧
        (s.unwritten a = false → exec .completionTokenRetire s = .next (s.retire a x)))) ∧
    (x.life = .live → exec .retireDiscard s = .next s ∧ exec .completionTokenRetire s = .next s ∧ exec .colourPurge s = .next s ∧
      exec .purgeEnd s = .next s) ∧
    (x.life = .purging →
      (x.reached ≠ [] → exec .colourPurge s = .next s) ∧
      (x.reached = [] → exec .colourPurge s =
        .next ((s.family a).foldl (fun s m =>
          match (s.act m).life with
          | .saved => s.dropReissue m
          | .purging => if m = a then s.startPurge a m else s.modAct m fun y => { y with pdest := none, reissue := false }
          | _ => s.startPurge a m) (s.curtains.foldl (fun t y => t.purgeCurtain a (s.family a) y) s))) ∧
      (∀ d col, Assoc.get? x.map d = some col → d ∉ x.reached →
        let here (q : QTok) : Bool := decide (q.at_.dieId = d) || (Assoc.get? x.map q.at_.dieId).isNone
        let s₁ := s.modAct a fun y => { y with reached := y.reached ++ [d] }
        let s₂ := (s₁.coresOfDie d).foldl
          (fun s k => [Path.network, .own, .wing].foldl (fun s p => s.pathFree k p) (s.modCore k fun y => y.purge k col)) s₁
        let s₃ := (s₂.dropEntries d col false).dropWaves d col
        let s₄ := ((s₃.qtoks.filter fun q => decide (q.act = a) && here q).foldl (fun s q => s.discardTok q.id) s₃).dropVisits d col
        exec (.purgeArriveDie a d) s = .next (((((s₄.dropStreams a d).startPorts d).endStalled a d).dropTimeline d col |>.leaveBarriers d col
          true |>.dropWaiters a d col).writeBackOf a)) ∧
      (∀ d, d ∈ x.reached ∨ Assoc.get? x.map d = none → exec (.purgeArriveDie a d) s = .next s) ∧
      ((∃ p ∈ x.map, p.1 ∉ x.reached) ∨ s.mayEnd a = false → exec .purgeEnd s = .next (s.laterAt .purgeEnd c a)) ∧
      ((∀ p ∈ x.map, p.1 ∈ x.reached) → s.mayEnd a = true →
        (s.unwritten a = true → exec .purgeEnd s = .next ((s.writeBackOf a).laterAt .purgeEnd c a)) ∧
        (s.unwritten a = false → s.abandonWaits a = true → exec .purgeEnd s = .next (s.laterAt .purgeEnd c a)) ∧
        (s.unwritten a = false → s.abandonWaits a = false → exec .purgeEnd s =
          .next (((x.map.foldl (fun s p => (s.dropClaims p.1 p.2).dropTable p.1 p.2) ((s.uncharge a).abandonHandles a)).countIsland x.ctl fun i =>
            { i with purged := satAdd i.purged 1 }).afterPurge a x))))) ∧
  (∀ (s : State) (d : DieId), Assoc.get? s.acts s.site.n = none → exec .retireDiscard s = .next s ∧ exec .completionTokenRetire s = .next s ∧
    exec .colourPurge s = .next s ∧ exec .purgeEnd s = .next s ∧ exec (.purgeArriveDie s.site.n d) s = .next s) ∧
  (∀ (s : State) (a : Nat),
    let s₁ := s.startPurge a a
    s₁.act a = { s.act a with life := .purging, curtain := false, heldBy := false } ∧
    (∀ b : Nat, b ≠ a → s₁.act b = s.act b) ∧ s₁.mem = s.mem ∧ s₁.cores = s.cores ∧
    s₁.agenda = s.agenda ++ ((s.act a).map.map fun p => .event (.purgeArriveDie a p.1) Site.zero)
      ++ [.event .purgeEnd ⟨(s.act a).ctl, a, 0, false⟩])

/-- R196, R358, R406 to R411, R414: CURTAIN closes the region of a launched activation, whose releases keep their tokens, and orders its clearing,
and with a save area its full save at TIMEOUT; it clears when the region rests, and is then held, or saved; a full save stops the region's
firings first; CTXSV saves a held region; CTXLD resumes a held region, or takes up the restore of a saved one; a colour that no activation holds
is status 2, a region already closed status 3 (log 84), an area that holds no save status 4, and one that no die could fill COLOUR_EXHAUSTED
(log 85). -/
def Obligations.CurtainRuns : Prop :=
  (∀ (r : Rec) (s s₁ : State) (t : Word), s.AllScalar r →
    let c := s.cur.core
    let col := BitVec.ofNat 9 s.cur.op0.val.toNat
    let answers (s : State) (n : Nat) : Host.Outcome State Fault Refusal := .next (s.out r t (plainOp (BitVec.ofNat 64 n)))
    (Fires Forms.curtain r s t s₁ →
      (s₁.owner? c.dieId col = none →
        (s₁.restoring c col = false → exec (.curtain r) s = answers s₁ 2) ∧ (s₁.restoring c col = true → exec (.curtain r) s = answers s₁ 3)) ∧
      (∀ a : Nat, s₁.owner? c.dieId col = some a →
        ((s₁.act a).parent ≠ none → exec (.curtain r) s = .next (s.faultCur { cause := .permission })) ∧
        (∀ f : Flt, (s₁.act a).parent = none → s₁.curtainArea a s.cur.op1.val = .error f → exec (.curtain r) s = .next (s.faultCur f)) ∧
        (∀ area : Nat, (s₁.act a).parent = none → s₁.curtainArea a s.cur.op1.val = .ok area →
          ((s₁.act a).life ≠ .live → exec (.curtain r) s = answers s₁ 2) ∧
          ((s₁.act a).life = .live → s₁.curtainOf a ≠ none → exec (.curtain r) s = answers s₁ 3) ∧
          ((s₁.act a).life = .live → s₁.curtainOf a = none →
            let y : Curtain := ⟨s₁.uid, a, c, s₁.asker r t, area, false, false, false, false, false⟩
            let s₂ := s₁.fresh.2.modPkg c.pkg fun p => { p with curtains := p.curtains ++ [y] }
            let s₃ := ((s₂.family a).foldl (fun s m => (s.modAct m fun x => { x with curtain := true }).keepReleases m) s₂).laterAt .curtainClear
              c s₁.uid
            let limit := s₃.areaField area 24 4
            (area = 0 → exec (.curtain r) s = .next s₃) ∧
            (area ≠ 0 → exec (.curtain r) s =
              .next (s₃.at_ (s₃.now + 1000 * (if limit = 0 then 200 else limit)) .fullSave ⟨c, s₁.uid, 0, false⟩)))))) ∧
    (Fires Forms.ctxsv r s t s₁ →
      (s₁.owner? c.dieId col = none →
        (s₁.restoring c col = false → exec (.ctxsv r) s = answers s₁ 2) ∧ (s₁.restoring c col = true → exec (.ctxsv r) s = answers s₁ 3)) ∧
      (∀ a : Nat, s₁.owner? c.dieId col = some a →
        (∀ f : Flt, s₁.areaAt s.cur.op1.val = .error f → exec (.ctxsv r) s = .next (s.faultCur f)) ∧
        (∀ area : Nat, s₁.areaAt s.cur.op1.val = .ok area →
          (s₁.curtainOf a = none → exec (.ctxsv r) s = answers s₁ 2) ∧
          (∀ x : Curtain, s₁.curtainOf a = some x →
            (x.held = false → exec (.ctxsv r) s = answers s₁ 3) ∧
            (x.held = true → exec (.ctxsv r) s =
              .next ((s₁.modCurtain x.core.pkg x.id fun y =>
                { y with who := s₁.asker r t, area := area, held := false, saving := true, ctxsv := true }).laterAt .saveWhole x.core
                  x.id)))))) ∧
    (Fires Forms.ctxld r s t s₁ →
      (s.cur.op1.val = 0 →
        ((s₁.owner? c.dieId col).bind s₁.curtainOf = none → exec (.ctxld r) s = answers s₁ 2) ∧
        (∀ x : Curtain, (s₁.owner? c.dieId col).bind s₁.curtainOf = some x →
          (x.held = false → exec (.ctxld r) s = answers s₁ 3) ∧
          (x.held = true → exec (.ctxld r) s = answers ((s₁.dropCurtain x.core.pkg x.id).reopen (s₁.family x.root)) 0))) ∧
      (s.cur.op1.val ≠ 0 →
        (s₁.saveAt s.cur.op1.val = none → exec (.ctxld r) s = answers s₁ 4) ∧
        (∀ v : Saved, s₁.saveAt s.cur.op1.val = some v →
          let full := s₁.owner? c.dieId col ≠ none ∨ s₁.unfillable v = true
          (s₁.restoring c col = true → exec (.ctxld r) s = answers s₁ 3) ∧
          (s₁.restoring c col = false → full → exec (.ctxld r) s = .next (s.faultCur { cause := .colourExhausted })) ∧
          (s₁.restoring c col = false → ¬ full →
            (v.acts = [] → exec (.ctxld r) s = answers s₁ 4) ∧
            (∀ x xs, v.acts = x :: xs → ∃ y : Launch, y.restore = some (s.cur.op1.val.toNat, (col, s₁.asker r t)) ∧ y.place = x.2.place ∧
              y.words = x.2.start ∧ exec (.ctxld r) s = .next (s₁.hold c y))))))) ∧
  (∀ (s : State) (x : Curtain), s.curtain? s.site.core.pkg s.site.n = some x → x.held = false →
    let c := s.site.core
    let id := s.site.n
    (x.full = false → x.saving = false →
      (s.regionRests x.root .drained = false → exec .curtainClear s = .next (s.laterAt .curtainClear c id)) ∧
      (s.regionRests x.root .drained = true →
        (x.area = 0 → exec .curtainClear s =
          .next (((s.holdRegion x.root).modCurtain c.pkg id fun y => { y with clear := true, held := true }).replyBoth x.who (plainOp 0)
            (plainOp 0))) ∧
        (x.area ≠ 0 → exec .curtainClear s =
          .next (((s.holdRegion x.root).modCurtain c.pkg id fun y => { y with clear := true, saving := true }).laterAt .saveWhole c id)))) ∧
    (x.saving = false → x.full = false →
      let s₁ := (s.modCurtain c.pkg id fun y => { y with full := true }).holdRegion x.root
      let s₂ := (s₁.backlogRegion x.root).takeHolds x.root
      let s₃ := (s₂.family x.root).foldl (fun s a => (s.act a).map.foldl (fun s p => s.endStalled a p.1) s) s₂
      (s₃.regionRests x.root .frozen = true → exec .fullSave s =
        .next ((s₃.modCurtain c.pkg id fun y => { y with saving := true }).laterAt .saveWhole c id)) ∧
      (s₃.regionRests x.root .frozen = false → exec .fullSave s = .next (s₃.laterAt .fullSave c id))) ∧
    (x.saving = false → x.full = true →
      (exec .curtainClear s = .next s) ∧
      (s.regionRests x.root .frozen = true → exec .fullSave s =
        .next ((s.modCurtain c.pkg id fun y => { y with saving := true }).laterAt .saveWhole c id)) ∧
      (s.regionRests x.root .frozen = false → exec .fullSave s = .next (s.laterAt .fullSave c id))) ∧
    (x.saving = true →
      exec .curtainClear s = .next s ∧ exec .fullSave s = .next s ∧
      (s.site.flag = false → exec .saveWhole s = .next (s.makeSave x)) ∧
      (s.site.flag = true →
        ((∃ a ∈ s.family x.root, s.unwritten a = true) →
          exec .saveWhole s = .next (((s.family x.root).foldl (fun s a => s.writeBackOf a) s).laterAt .saveWhole c id 0 true)) ∧
        ((∀ a ∈ s.family x.root, s.unwritten a = false) → exec .saveWhole s = .next (s.endSave x)))))

/-! ## Tokens, matching and firing (R27, R77, R92, R128 to R150, R172) -/

/-- R27, R92, R107, R128, R133, R136 to R143, R147, R166, R377 to R379, R434: a token arrives once its core runs, its router is awake and its path is free, faults where its record or
port is wrong, fires a record of one input at once, and else meets the entry of its key: a filled port refuses it, the last port completes the
firing, any other is kept in a free way of its set, else in the wings, else it holds its path; a path completes one firing in a cycle; at a cycle's
end the backlog fills the ready queue's free slots, then each completion takes the next SEQ and enters behind it; a chain link issues next; a probe
that returns finds the entry of its key, and those parked behind it follow; an entry held on a path is placed when one frees; a token that
crosses to another die, once a link joins the packages, takes its activation's colour there, or is discarded; between packages of one domain it
carries the map generation that it left under, and is refused where that is older than its destination's (what INFO holds then is the model's
choice, log 107). -/
def Obligations.TokenEvents : Prop :=
  (∀ (s : State) (c : CoreId) (p : Path) (t : Token),
    let k := s.core c
    (s.dying c.dieId t.tag = true → exec (.tokenArrival c p t) s =
      .next (if Assoc.get? k.waiting p = some t then s.holdEnd c p else s)) ∧
    ((∃ x ∈ k.comps, x.1 = p) → s.newCycle c p = s.refill c) ∧ ((∀ x ∈ k.comps, x.1 ≠ p) → s.newCycle c p = s) ∧
    (let held (s : State) (p : Path) : Prop :=
       (s.core c).pathHold p ≠ [] ∨ ∃ x : Token, Assoc.get? (s.core c).waiting p = some x ∧ x ≠ t
     let asleep := p = .network ∧ k.routerDeciding = false ∧ k.router = .drowsy
     let s₀ := if p = .network ∧ k.routerDeciding = true then
         (s.setCore c { k with routerDeciding := false }).modIsland c.pkg (c.die * 8 + c.clu) fun x => { x with abandon := satAdd x.abandon 1 }
       else s
     let s₁ := s₀.newCycle c p
     let s₂ := s.newCycle c .own
     (s.dying c.dieId t.tag = false →
       (s.coreRuns c = false → exec (.tokenArrival c p t) s = .next (s.later (.tokenArrival c p t)) ∧
         ∀ n : Nat, exec (.chainLink c t n) s = .next (s.later (.chainLink c t n))) ∧
       (s.coreRuns c = true → asleep → exec (.tokenArrival c p t) s =
         .next ((s.laterAt .routerWake c 0).later (.tokenArrival c p t))) ∧
       (s.coreRuns c = true → ¬ asleep → held s₁ p → exec (.tokenArrival c p t) s = .next (s₁.later (.tokenArrival c p t))) ∧
       (s.coreRuns c = true → ¬ asleep → ¬ held s₁ p →
         ((s₁.core c).power = .drowsy → exec (.tokenArrival c p t) s = .next ((s₁.laterAt .coreWake c 0).later (.tokenArrival c p t))) ∧
         ((s₁.core c).power ≠ .drowsy → exec (.tokenArrival c p t) s = .next (((s₁.holdEnd c p).deliverImage c t).arrive c p t false)))) ∧
     (∀ n : Nat,
       let w := s.recordAt c t.node
       let opc := (opcOfWord w).toNat
       let next := decodeWord w ≠ none ∧ (recOfWord w).ari = 1 ∧ (t.port = 3 ∨ t.port = 0) ∧ kindForm t.opnd.kind ≠ 3 ∧ opc ≠ 0x11 ∧ opc ≠ 0x14 ∧
         s.barred c t.tag = false
       (s.dying c.dieId t.tag = true → exec (.chainLink c t n) s =
         .next (if Assoc.get? k.waiting .own = some t then s.holdEnd c .own else s)) ∧
       (s.dying c.dieId t.tag = false → s.coreRuns c = true →
         (next → exec (.chainLink c t n) s =
           .next (let s₁ := s.modCore c fun k =>
               { k with ready := { mkFiring c t.node t.tag (if t.port = 3 then zeroOp else t.opnd) zeroOp zeroOp with link := n } :: k.ready }
             { s₁ with agenda := .issue c :: s₁.agenda })) ∧
         (¬ next → held s₂ .own → exec (.chainLink c t n) s = .next (s₂.later (.chainLink c t n))) ∧
         (¬ next → ¬ held s₂ .own → exec (.chainLink c t n) s = .next ((s₂.holdEnd c .own).arrive c .own t true))))) ∧
    (∀ n : Nat, Assoc.get? k.holdAt p = some n → ((s.holdEnd c p).core c).hold.toNat = min (k.hold.toNat + (s.coreCycles c - n)) 0xFFFFFFFF ∧
      Assoc.get? ((s.holdEnd c p).core c).holdAt p = none) ∧
    (∀ (src : CoreId) (node : Nat),
      let col := (s.actOf? src.dieId t.tag).bind fun a => if c.dieId = src.dieId then none else s.colourOn a c.dieId
      let again (x : Site) : Host.Outcome State Fault Refusal :=
        .next { s with agenda := s.agenda ++ [.event (.linkTokenCrossing src node c t) x] }
      let moved : Bool := s.site.flag && olderGen (BitVec.ofNat 16 s.site.n) (s.pkg c.pkg).podgen
      let sends : Bool := !s.site.flag && decide (src.pkg ≠ c.pkg) && s.joined src.pkg c.pkg
      (moved = true → ∃ info : Word, exec (.linkTokenCrossing src node c t) s =
        .next (s.fault src.cluId .engine false src node t.tag { cause := .mapMoved, info := info })) ∧
      (moved = false → s.routed src.pkg c.pkg = false → exec (.linkTokenCrossing src node c t) s = again s.site) ∧
      (moved = false → s.routed src.pkg c.pkg = true →
        (∀ x : BitVec 9, col = some x →
          (sends = true → exec (.linkTokenCrossing src node c t) s = again ⟨src, (s.pkg src.pkg).podgen.toNat, 0, true⟩) ∧
          (sends = false → exec (.linkTokenCrossing src node c t) s =
            .next (s.later (.tokenArrival c .network { t with tag := mkTag x (depthOf t.tag) (stackOf t.tag) })))) ∧
        (col = none → ∃ info : Word, exec (.linkTokenCrossing src node c t) s =
          .next (s.fault src.cluId .engine false src node t.tag { cause := .translation, info := info, detail := 0xFFF })))) ∧
    (k.pathHold p = [] → exec (.wingsHoldRelease c p) s = .next s) ∧
    (∀ (e : Entry) (es : List Entry), k.pathHold p = e :: es →
      (∀ s₁ : State, s.tryPlace c e = some s₁ →
        let s₂ := (s₁.modCore c fun k => k.setHold p es).pathFree c p
        exec (.wingsHoldRelease c p) s = .next (if es = [] ∧ p = .wing then s₂.unparkAll c else s₂.wakeHolds c)) ∧
      (s.tryPlace c e = none → exec (.wingsHoldRelease c p) s = .next s)) ∧
    (s.site.flag = false → exec .backlogRefill s = .next (s.refill s.site.core)) ∧
    (s.site.flag = true → exec .backlogRefill s = .next (s.serveGate s.site.core s.site.n (BitVec.ofNat 64 s.site.m))) ∧
    s.refill c = (let s₁ := s.drainBacklog c 256
      (sortBy (s₁.compBefore c) (s₁.core c).comps).foldl (fun s x => s.admitFiring c x) (s₁.modCore c fun k => { k with comps := [] }))) ∧
  (∀ (s : State) (x : Probe), ((s.core s.site.core).probes.find? fun x => decide (x.slot = s.site.n)) = some x →
    let c := s.site.core
    let s₁ := s.newCycle c .wing
    let k := s₁.core c
    let s₂ := s₁.setCore c { k with probes := k.probes.erase x }
    (s₁.coreRuns c = false ∨ k.holdWing ≠ [] → exec .wingProbeReturn s = .next (s₁.laterAt .wingProbeReturn c x.slot)) ∧
    (s₁.coreRuns c = true → k.holdWing = [] →
      (s₂.dying c.dieId x.what.tag = true → exec .wingProbeReturn s = .next (s₂.unpark c x.set_ k.parked.length)) ∧
      (s₂.dying c.dieId x.what.tag = false →
        exec .wingProbeReturn s = .next ((s₂.probeEffect c x.what).unpark c x.set_ k.parked.length) ∧
        (∀ (t : Token) (chained : Bool), x.what = .arrival t chained →
          let w := s₂.recordAt c t.node
          let y := s₂.core c
          s₂.probeEffect c x.what = s₂.takeEffect c .wing (opcOfWord w).toNat (recOfWord w) t
            ((y.findEntry t.node t.tag true).or (y.findEntry t.node t.tag false)) chained)))) ∧
  (∀ s : State, ((s.core s.site.core).probes.find? fun x => decide (x.slot = s.site.n)) = none → exec .wingProbeReturn s = .next s) ∧
  (∀ (s : State) (c : CoreId) (p : Path) (t : Token) (chained : Bool),
    let w := s.recordAt c t.node
    let opc := (opcOfWord w).toNat
    let ari := (recOfWord w).ari.toNat
    let o := if t.port = 3 then zeroOp else t.opnd
    let bad := s.fault c.cluId .arrival false c t.node t.tag { cause := .illegalRecord, info := t.opnd.val }
    (decodeWord w = none ∨ ari = 0 ∨ (t.port ≠ 3 ∧ ari ≤ t.port) ∨ kindForm t.opnd.kind = 3 → s.arrive c p t chained = bad) ∧
    (decodeWord w ≠ none → t.port = 3 ∨ t.port = 0 → kindForm t.opnd.kind ≠ 3 → ari = 1 → opc ≠ 0x11 → opc ≠ 0x14 →
      s.arrive c p t chained = s.complete c p ⟨c, t.node, t.tag, o, zeroOp, zeroOp, 0, 0⟩) ∧
    (∀ f : Firing,
      let s₁ := s.newCycle c p
      let s₂ := s₁.modCore c fun k => { k with comps := k.comps ++ [(p, f)] }
      s.complete c p f = if (s₁.core c).comps.isEmpty then s₂.laterAt .backlogRefill c 0 else s₂) ∧
    (∀ e : Entry, s.tryPlace c e = none → s.heldTag c e.tag = false →
      ((s.place c p e).core c).pathHold p = (s.core c).pathHold p ++ [e]) ∧
    (∀ (oc : Nat) (a b d : Operand) (pm : BitVec 3) (fl : BitVec 8) (e : Entry), e.body = .waiting pm a b d fl →
      (oc ≠ 0x04 ∧ chained = false) → t.port < 2 → o = t.opnd →
      (pm.getLsbD t.port = true → s.meet c p oc 2 t (some e) chained =
        (s.modCore c fun k => { k with dup := satInc k.dup }).faultArrival c t) ∧
      (pm = 1 → t.port = 1 → s.meet c p oc 2 t (some e) chained = (s.freeEntry c e).complete c p ⟨c, t.node, t.tag, a, o, d, 0, 0⟩) ∧
      (pm = 2 → t.port = 0 → s.meet c p oc 2 t (some e) chained = (s.freeEntry c e).complete c p ⟨c, t.node, t.tag, o, b, d, 0, 0⟩) ∧
      (t.port = 0 → s.meet c p oc 2 t none chained = s.place c p ⟨t.node, t.tag, .waiting 1 o zeroOp zeroOp 0, none⟩))) ∧
  (∀ (s : State) (c : CoreId) (e : Entry),
    let k := s.core c
    (k.wayFree e.set_ = true → s.tryPlace c e = some (s.setCore c { k with store := k.store ++ [{ e with wing := none }] })) ∧
    (k.wayFree e.set_ = false →
      (∀ i : Nat, k.freeWing e.set_ = some i → i < 1024 * k.wps ∧ (∀ x ∈ k.store, x.wing ≠ some i) ∧ s.tryPlace c e =
        some ((s.setCore c { k with store := k.store ++ [{ e with wing := some i }], spill := satInc k.spill }).writeWing c i
          (e.wingBytes (recOfWord (s.recordAt c e.node)).ari.toNat))) ∧
      (k.freeWing e.set_ = none → s.tryPlace c e = none))) ∧
  (∀ (s : State) (c : CoreId) (p : Path) (f : Firing),
    let k := s.core c
    let f' := { f with seq := k.nextSeq }
    let s₁ := s.setCore c { k with nextSeq := k.nextSeq + 1 }
    (s₁.barred c f.tag = false → k.ready.length < 256 → s₁.backlog c = [] → s.admitFiring c (p, f) =
      (s₁.modCore c fun k => { k with ready := k.ready ++ [f'] }).issueLater c) ∧
    (s₁.barred c f.tag = true ∨ 256 ≤ k.ready.length ∨ s₁.backlog c ≠ [] → s.admitFiring c (p, f) =
      (s₁.modCore c fun k => { k with backlog := satInc k.backlog }).place c p ⟨f.node, f.tag, .complete f', none⟩))

/-! ## Engines and streams (R41 to R43, R103, R108, R217 to R223, R244 to R250, R385 to R387) -/

/-- R16, R42, R43, R66, R103, R106 to R108, R216 to R223, R245, R249 to R251, R296, R362, R377 to R379, R385 to R387: an engine's inbox holds
a host message back while its link is down or the host's writes before it are not visible, accepts a well-formed message in order, waits when it holds 16, and
rejects any other; an armed send's record then sends 0 on B; a launch inbox hands its message on once its package is Ready; a message is
checked, reads its source and sends it in pieces of one sector each, one after another, and ends with its status where a check or a
translation fails; a piece is written or reduced at its destination with its poison and its flags, waits where the line is not ready, and
is refused where its home is moved or unreachable; the last one completes the message: its release, its counter number, its remote
advance, its reply. A stream of a port starts, sends its elements in order, their scales before them, waits, is withheld or stops where
an element cannot be read, and completes. -/
def Obligations.EngineEvents : Prop :=
  (∀ (s : State) (e : EngineId) (m : Msg),
    let rejects : Host.Outcome State Fault Refusal := .next (s.rejectMsg e m)
    let waits : Host.Outcome State Fault Refusal := .next (s.later (.engineInboxAccept e m))
    (m.sender.kind = .host → (s.link e.at_.pkg hostLink).ver = 0 ∨ s.hostSettled e.at_.pkg = false →
      exec (.engineInboxAccept e m) s = waits) ∧
    (m.sender.kind ≠ .host ∨ ((s.link e.at_.pkg hostLink).ver ≠ 0 ∧ s.hostSettled e.at_.pkg = true) →
      (e.kind = .matrix ∨ e.kind = .stream → exec (.engineInboxAccept e m) s = rejects) ∧
      (e.kind = .launch →
        (launchOk m = false ∨ launchEvent e.at_ m = none → exec (.engineInboxAccept e m) s = rejects) ∧
        (∀ i : Instr, launchOk m = true → launchEvent e.at_ m = some i →
          ((s.pkg e.at_.pkg).stage = 5 → exec (.engineInboxAccept e m) s = .next (s.later i)) ∧
          ((s.pkg e.at_.pkg).stage ≠ 5 → exec (.engineInboxAccept e m) s = waits))) ∧
      (e.kind = .copy ∨ e.kind = .link →
        let ok : Bool := if e.kind = .link then linkOk m else copyOk m && !(decide (3 ≤ msgOpc m) && fromOrdinary m)
        let sendB (s₁ : State) : State := if m.sender.kind = .armed then
            s₁.sendFrom m.sender.core m.sender.node (recOfWord (s₁.recordAt m.sender.core m.sender.node)).dstB m.sender.tag (plainOp 0)
          else s₁
        (ok = false → exec (.engineInboxAccept e m) s = rejects) ∧
        (ok = true → 16 ≤ (s.inbox e).length → exec (.engineInboxAccept e m) s = waits) ∧
        (ok = true → (s.inbox e).length < 16 →
          (msgTle m = false ∨ s.fresh.2.msgCounter e m = none → exec (.engineInboxAccept e m) s =
            .next (sendB ((s.fresh.2.setInbox e (s.inbox e ++ [⟨s.uid, m, 0, 0, 0, false, none, false, [], 0, [], [], false⟩])).later
              (engineEvent e m s.uid)))) ∧
          (∀ col : BitVec 9, msgTle m = true → s.fresh.2.msgCounter e m = some col →
            let y := s.fresh.2.takeNumber e.at_.cluId col (msgTlc m)
            exec (.engineInboxAccept e m) s =
              .next (sendB ((y.2.setInbox e (y.2.inbox e ++ [⟨s.uid, m, y.1, 0, 0, false, none, false, [], 0, [], [], false⟩])).later
                (engineEvent e m s.uid)))))))) ∧
  (∀ (s : State) (e : EngineId) (id : Nat) (x : EngMsg), s.engMsg? e id = some x →
    let m := x.msg
    let done (s : State) : State := s.replyFrom (msgReplyCore m e) m.sender.node (msgRdst m) (m.words.getD 1 0)
      (plainOp (BitVec.ofNat 64 x.status))
    let s₁ := s.dropMsg e id
    (x.noRel = false → 4 ≤ msgScope m →
      (x.probed = false → exec (.engineMessageComplete e id) s =
        .next ((s.modMsg e id fun x =>
          { x with probed := true, lines := x.lines ++ ((s.die e.at_.dieId).pendLines.map fun l => (e.at_.dieId, l)) }).later
          (.engineMessageComplete e id))) ∧
      (x.probed = true → s.unsettled x.lines ≠ [] → exec (.engineMessageComplete e id) s =
        .next ((s.modMsg e id fun y => { y with lines := s.unsettled x.lines }).later (.engineMessageComplete e id)))) ∧
    (x.noRel = true ∨ msgScope m < 4 ∨ (x.probed = true ∧ s.unsettled x.lines = []) →
      let s₂ := match (if msgTle m then s₁.msgCounter e m else none) with
        | some col => s₁.completeNumber e.at_.cluId col (msgTlc m) x.num
        | none => s₁
      let k : CluId := ⟨msgField m 4 63 58, msgField m 4 57 56, msgField m 4 55 53⟩
      let col? : Option (BitVec 9) := (s₁.msgAct e m).bind fun a => s₂.colourOn a k.dieId
      (e.kind ≠ .link ∨ msgField m 4 47 47 ≠ 1 ∨ x.noRel = true ∨ col? = none →
        exec (.engineMessageComplete e id) s = .next (done s₂)) ∧
      (e.kind = .link → msgField m 4 47 47 = 1 → x.noRel = false → ∀ col : BitVec 9, col? = some col →
        exec (.engineMessageComplete e id) s = .next (done (s₂.later (.remoteAdvance k col (msgField m 4 52 48))))))) ∧
  (∀ (s : State) (e : EngineId) (x y : EngMsg) (f : Nat) (r : Source.Read) (s₁ : State), s.readOn e f x = (r, y, s₁) →
    x.got <+: y.got ∧ y.sent = x.sent ∧ y.msg = x.msg ∧ y.id = x.id ∧ (r = .whole → msgLen x.msg ≤ y.got.length)) ∧
  (∀ (s : State) (e : EngineId) (id : Nat) (x : EngMsg), s.engMsg? e id = some x →
    let m := x.msg
    ∀ i ∈ [Instr.copy e id, .copyr e id, .copyp e id, .copypr e id, .lcopy e id],
      (x.noRel = true → exec i s = .next s) ∧
      (x.noRel = false → x.begun = false →
        (∀ (st : Nat) (f : Flt), s.checkMsg e m = .error (st, some f) →
          exec i s = .next ((s.faultEngine e.at_.cluId m false f).endMsg e id st)) ∧
        (∀ st : Nat, s.checkMsg e m = .error (st, none) → exec i s = .next (s.endMsg e id st)) ∧
        (∀ pages : List Leaf, s.checkMsg e m = .ok pages → redMisaligned m = true → exec i s = .next (s.endMsg e id 3))) ∧
      (∀ pages : List Leaf, x.noRel = false →
        (x.begun = true ∧ pages = m.pages) ∨ (x.begun = false ∧ s.checkMsg e m = .ok pages ∧ redMisaligned m = false) →
        ∀ (r : Source.Read) (y : EngMsg) (s₁ : State),
          s.readOn e (msgLen m + 1) { x with msg := { m with pages := pages }, begun := true } = (r, y, s₁) →
          let s₂ := s₁.modMsg e y.id fun _ => y
          let sends : Prop :=
            (msgLen y.msg ≤ y.sent → exec i s = .next (s₂.later (.engineMessageComplete e y.id))) ∧
            (y.sent < msgLen y.msg →
              (∀ (g : Flt) (s₃ : State), s₂.msgPlace e y.msg true (msgDst y.msg + y.sent) y.pieceLen = (.error g, s₃) →
                exec i s = .next (s₃.failMsg e y g)) ∧
              (∀ (pa n : Nat) (nc : Bool) (s₃ : State),
                s₂.msgPlace e y.msg true (msgDst y.msg + y.sent) y.pieceLen = (.ok (pa, n, nc), s₃) →
                let q := (dieOfPa pa).pkg
                let p := y.piece e pa nc (if e.at_.pkg ≠ q ∧ s₃.joined e.at_.pkg q = true then some (s₃.pkg e.at_.pkg).podgen else none)
                (p.red.isSome = true ∧ s₃.isSram pa = false → exec i s = .next (s₃.endMsg e y.id 3)) ∧
                (p.red = none ∨ s₃.isSram pa = true → s₃.olderOut e q = true → exec i s = .next (s₃.later (engineEvent e y.msg y.id))) ∧
                (p.red = none ∨ s₃.isSram pa = true → s₃.olderOut e q = false → exec i s =
                  .next ((s₃.modMsg e y.id fun z => { z with sent := y.sent + p.bytes.length, stalled := none }).later (.copyPieceArrival p)))))
          (r = .whole → sends) ∧
          (r = .waits → exec i s = .next (s₂.later (engineEvent e y.msg y.id))) ∧
          (∀ a : Nat, r = .lost a → exec i s = .next (s₂.refuseMsg e y { cause := .homeUnreachable, info := BitVec.ofNat 64 a })) ∧
          (∀ g : Flt, r = .fails g →
            (y.sent + y.pieceLen ≤ y.got.length → sends) ∧
            (y.got.length < y.sent + y.pieceLen → exec i s = .next (s₂.failMsg e y g))))) ∧
  (∀ (y : EngMsg) (e : EngineId) (pa : Nat) (nc : Bool) (gen : Option (BitVec 16)),
    y.sent < msgLen y.msg → y.sent + y.pieceLen ≤ y.got.length →
    let p := y.piece e pa nc gen
    p.pa = pa ∧ p.engine = e ∧ p.msg = y.id ∧ p.gen = gen ∧ p.taken = false ∧ 0 < p.bytes.length ∧ p.bytes.length = y.pieceLen ∧
    alignBase (msgDst y.msg + y.sent) % 48 + p.bytes.length ≤ 48 ∧ y.sent + p.bytes.length ≤ msgLen y.msg ∧
    (∀ (i : Nat), i < p.bytes.length → p.bytes[i]? = (y.got[y.sent + i]?).map (·.1))) ∧
  (∀ (s : State) (e : EngineId) (p : Piece) (g : BitVec 16) (x : Site), .event (.copyPieceArrival p) x ∈ s.agenda → p.engine = e →
    p.gen = some g → olderGen g (s.pkg (pieceDie p).pkg).podgen = true → s.olderOut e (pieceDie p).pkg = true) ∧
  (∀ (s : State) (p : Piece) (x : EngMsg), s.engMsg? p.engine p.msg = some x →
    let e := p.engine
    let d := pieceDie p
    let l := p.pa / 192
    let again (s : State) : Host.Outcome State Fault Refusal := .next (s.later (.copyPieceArrival { p with taken := true }))
    (∀ g : BitVec 16, p.gen = some g → p.taken = false → olderGen g (s.pkg d.pkg).podgen = true → exec (.copyPieceArrival p) s =
      .next (s.refuseMsg e x { cause := .mapMoved, info := BitVec.ofNat 64 p.pa, aux := x.written })) ∧
    ((∀ g : BitVec 16, p.gen = some g → p.taken = true ∨ olderGen g (s.pkg d.pkg).podgen = false) →
      ((p.taken = false ∧ s.routed e.at_.pkg d.pkg = false) ∨ (s.isHbm p.pa = true ∧ p.nc = false ∧ s.isLost l = true ∧ s.needsDir d l true = true) →
        exec (.copyPieceArrival p) s = .next (s.refuseMsg e x { cause := .homeUnreachable, info := BitVec.ofNat 64 p.pa })) ∧
      (p.taken = true ∨ s.routed e.at_.pkg d.pkg = true → s.isHbm p.pa = false ∨ p.nc = true ∨ s.isLost l = false ∨ s.needsDir d l true = false →
        (s.pieceWaits p = true → exec (.copyPieceArrival p) s = again (s.settle e.at_.dieId l)) ∧
        (s.pieceWaits p = false → ∀ s₁ : State,
          (s.writeReady d p.nc p.pa p.bytes.length = (false, s₁) → exec (.copyPieceArrival p) s = again s₁) ∧
          (s.writeReady d p.nc p.pa p.bytes.length = (true, s₁) →
            let b := mergePiece p (s₁.peek d p.pa p.bytes.length)
            let olds := if x.got.length < msgLen x.msg then
                ((List.range p.bytes.length).filter fun i => (Assoc.get? x.stood (p.pa + i)).isNone).map
                  fun i => (p.pa + i, s₁.markedByte d (p.pa + i))
              else []
            let s₂ := (s₁.raiseMsg e x.msg b.2).dieWrite d p.nc p.pa b.1 (s₁.pieceOwner p x.msg)
            let s₃ := if p.poison = true then s₂.spoil d p.nc p.pa b.1.length else s₂
            exec (.copyPieceArrival p) s = .next ((s₃.modMsg e p.msg fun z =>
              { z with written := z.written + 1, status := if p.poison = true ∧ z.status = 0 then 2 else z.status, stood := z.stood ++ olds,
                       lines := if s₃.isHbm p.pa ∧ !p.nc ∧ (d, l) ∉ z.lines then z.lines ++ [(d, l)] else z.lines }).runMsg e p.msg)))))) ∧
  (∀ s : State,
    let k := s.site.core.cluId
    let n := s.site.n
    let p := s.port k n
    (∀ (x : Stream) (t : List Stream), p.running = none → p.queued = x :: t →
      exec .streamStart s = .next
        (((s.dropRead k.dieId (.port k n)).setPort k n { running := some x, queued := t }).laterAt .streamElement (cluCore0 k) n)) ∧
    (p.running ≠ none ∨ p.queued = [] → exec .streamStart s = .next s) ∧
    (p.running = none → exec .streamComplete s = .next s ∧ exec .streamElement s = .next s) ∧
    (∀ x : Stream, p.running = some x →
      (p.queued = [] → exec .streamComplete s = .next ((s.setPort k n { p with running := none }).endStream k x)) ∧
      (p.queued ≠ [] → exec .streamComplete s =
        .next (((s.setPort k n { p with running := none }).endStream k x).laterAt .streamStart (cluCore0 k) n)) ∧
      (s.actOf? k.dieId x.btag = none → exec .streamElement s = .next (s.stopStream k n p x 1)) ∧
      (∀ a : Nat, s.actOf? k.dieId x.btag = some a →
        ((s.act a).curtain = true ∨ x.status ≠ 0 → exec .streamElement s = .next s) ∧
        ((s.act a).curtain = false → x.status = 0 →
          (patTotal x.pat ≤ x.pos → exec .streamElement s = .next (s.laterAt .streamComplete (cluCore0 k) n)) ∧
          (x.pos < patTotal x.pat →
            let ids := patScales x.pat x.pos
            ∀ (elt sc : Except Flt (List MemPart)) (s₁ s₂ : State),
            s.engRuns k (portWho k n) x.pages (s.act a).stall false (patBytes x.pat + 1) (patAddr x.pat x.pos) (patBytes x.pat) [] = (elt, s₁) →
            (ids = [] ∧ sc = .ok [] ∧ s₂ = s₁) ∨ (ids ≠ [] ∧ s₁.engRuns k (portWho k n) x.pages (s.act a).stall false (ids.length + 1)
              (patField x.pat 7 55 0 + ids.headD 0) ids.length [] = (sc, s₂)) →
            (∀ f : Flt, elt = .error f → exec .streamElement s = .next (s₂.withholdStream k n p x f)) ∧
            (∀ (ps : List MemPart) (f : Flt), elt = .ok ps → sc = .error f → exec .streamElement s = .next (s₂.withholdStream k n p x f)) ∧
            (∀ ps qs : List MemPart, elt = .ok ps → sc = .ok qs →
              (∀ a' : Nat, s₂.runsLost k.dieId (qs ++ ps) false = some a' → exec .streamElement s =
                .next ((s₂.portFault x n false { cause := .homeUnreachable, info := BitVec.ofNat 64 a' }).stopStream k n p x 1)) ∧
              (s₂.runsLost k.dieId (qs ++ ps) false = none → ∀ s₃ : State,
                (s₂.drawRuns k.dieId (.port k n) (qs ++ ps) = (none, s₃) →
                  exec .streamElement s = .next (s₃.laterAt .streamElement (cluCore0 k) n)) ∧
                (∀ bs : List (Byte × Bool), s₂.drawRuns k.dieId (.port k n) (qs ++ ps) = (some bs, s₃) →
                  (∀ a' : Nat, poisonIn (qs ++ ps) bs = some a' →
                    let s₄ := s₃.portFault x n false { cause := .uncorrectable, info := BitVec.ofNat 64 a', detail := 2 }
                    ((s.act a).life = .purging → exec .streamElement s = .next (s₄.stopStream k n p x 2)) ∧
                    ((s.act a).life ≠ .purging → exec .streamElement s = .next ((s₄.orderPurge a).stopStream k n p x 2))) ∧
                  (poisonIn (qs ++ ps) bs = none →
                    let s₄ := (bs.take ids.length).foldl (fun s b => s.sendScale (x.target k) (b.1, colourOf x.btag)) s₃
                    exec .streamElement s =
                      .next (((s₄.setPort k n { p with running := some { x with pos := x.pos + 1, sent := x.sent + 1, stall := none } }).later
                        (.tokenArrival (x.target k) .network (x.token (s.act a).plan ((bs.drop ids.length).map (·.1))))).laterAt
                          .streamElement (cluCore0 k) n))))))))) ∧
    (∀ (dst : CoreId) (x : Byte × BitVec 9),
      ((s.core dst).scaleQ.length < 1024 → (∀ y ∈ (s.die dst.dieId).scaleNet, y.1 ≠ dst) →
        s.sendScale dst x = s.modCore dst fun k => { k with scaleQ := k.scaleQ ++ [x] }) ∧
      (1024 ≤ (s.core dst).scaleQ.length ∨ (∃ y ∈ (s.die dst.dieId).scaleNet, y.1 = dst) →
        s.sendScale dst x = s.modDie dst.dieId fun y => { y with scaleNet := y.scaleNet ++ [(dst, x)] })))

/-! ## Coherence (R206, R242, R359 to R379) -/

/-- R198, R206, R242, R361 to R372, R376, R379: a request at its directory is not served in a LOST region, is sent again under an older
generation, and waits while the directory is down or a prompter holds the line; in a coarse region another package's write is carried
home and its GETS keeps nothing. It then waits behind its line's transaction, for a slot or for a way that a recall makes, is served at once where it
needs no entry, or opens a transaction with the invalidations it brings; once the OPEN is acknowledged the transaction goes on by the state
of its entry; an invalidation gives up its copies and is acknowledged; an owner forwards its data and leaves the line as the request asks;
data that comes fills the sectors wanted, or is used once; GRANT waits for the data, makes its line M and is answered by DONE; PUTACK
settles a write-back; the last acknowledgement, or DONE, ends the transaction; the mirror opens and closes. -/
def Obligations.CoherenceEvents : Prop :=
  (∀ (s : State) (x : CohReq) (keep : Bool) (data : LineData) (secs : List Nat),
    let l := x.line
    let p := s.dirOf l
    let put (x : CohReq) : Instr := .putm x keep data secs
    let old := { x with gen := (s.pkg p).podgen }
    (s.isLost l = true → ∀ i ∈ [Instr.gets x, .getx x, .upg x, put x], exec i s = .next (s.loseLine x.die l)) ∧
    (s.isLost l = false → olderGen x.gen (s.pkg p).podgen = true →
      ∀ q ∈ [(Instr.gets x, Instr.gets old), (.getx x, .getx old), (.upg x, .upg old), (put x, put old)], exec q.1 s = .next (s.later q.2)) ∧
    (s.isLost l = false → olderGen x.gen (s.pkg p).podgen = false →
      ((s.pkg p).dirUp = false ∨ (∃ y : Line, (s.die (homeDie l)).line? l = some y ∧ y.locked = true) →
        ∀ i ∈ [Instr.gets x, .getx x, .upg x, put x], exec i s = .next (s.later i)) ∧
      ((s.pkg p).dirUp = true → (∀ y : Line, (s.die (homeDie l)).line? l = some y → y.locked = false) →
        let x' := { x with noKeep := x.noKeep || s.coarseFor x.die l }
        exec (.gets x) s = .next (s.startTxn p (.gets x') .gets x') ∧
        (s.coarseFor x.die l = true → exec (.getx x) s = .next (s.carryHome x.die l)) ∧
        (s.coarseFor x.die l = false → exec (.getx x) s = .next (s.startTxn p (.getx x) .getx x)) ∧
        (s.coarseFor x.die l = true → s.stillShares x.die l = false → exec (.upg x) s = .next (s.carryHome x.die l)) ∧
        (s.coarseFor x.die l = false ∨ s.stillShares x.die l = true → exec (.upg x) s = .next (s.startTxn p (.upg x) .getx x)) ∧
        exec (put x) s = .next (s.startTxn p (put x) .putm x)))) ∧
  (∀ (s : State) (p : Nat) (i : Instr) (kind : TxnKind) (x : CohReq),
    let l := x.line
    let inSet := (s.pkg p).dir.filter fun e => decide (dirSet e.line = dirSet l)
    (∀ e : DirEntry, s.entry? p l = some e →
      (e.txn ≠ none → s.startTxn p i kind x = s.waitLine p l i) ∧
      (e.txn = none → 8192 ≤ (s.pkg p).openTxns → s.startTxn p i kind x = s.waitDir p i) ∧
      (e.txn = none → (s.pkg p).openTxns < 8192 →
        let inv := if kind = .getx ∧ (e.st = .s ∨ e.st = .o) then invItems p e (some x.die) else []
        let own := if kind = .getx ∧ e.st ≠ .s ∧ e.owner ≠ x.die then 1 else 0
        let after := if kind = .putm then [Item.event i Site.zero] else []
        s.startTxn p i kind x =
          (s.openTxn p { e with txn := some ⟨kind, x, inv.length + own, false, false, false, after, false⟩ }).laterAll inv)) ∧
    (s.entry? p l = none →
      (kind = .putm → s.startTxn p i kind x = s.laterAt .putack (dieCore0 x.die) l) ∧
      (kind ≠ .putm →
        ((∃ it ∈ (s.pkg p).waitQ, Item.reqLine it = some l) → s.startTxn p i kind x = s.waitDir p i) ∧
        ((∀ it ∈ (s.pkg p).waitQ, Item.reqLine it ≠ some l) →
          (x.die = homeDie l → s.startTxn p i kind x = s.homeAlone l) ∧
          (x.die ≠ homeDie l → kind = .gets → x.noKeep = true → s.startTxn p i kind x = s.sendData l x.die .s false) ∧
          (x.die ≠ homeDie l → kind ≠ .gets ∨ x.noKeep = false →
            (8192 ≤ (s.pkg p).openTxns → s.startTxn p i kind x = s.waitDir p i) ∧
            ((s.pkg p).openTxns < 8192 →
              (inSet.length < 16 → s.startTxn p i kind x =
                s.openTxn p ⟨l, .i, x.die, [], [], some ⟨kind, x, 0, false, false, false, [], false⟩, []⟩) ∧
              (16 ≤ inSet.length → s.startTxn p i kind x = (s.makeWay p l).waitDir p i))))))) ∧
  (∀ s : State,
    let p := s.site.core.pkg
    let l := s.site.n
    let h := homeDie l
    (s.entry? p l = none → exec .mirrorOpenAck s = .next s) ∧
    (∀ e : DirEntry, s.entry? p l = some e →
      (e.txn = none → exec .mirrorOpenAck s = .next s) ∧
      (∀ t : Txn, e.txn = some t →
        (t.opened = true → exec .mirrorOpenAck s = .next s) ∧
        (t.opened = false →
          let x := t.req
          let o : DirEntry := { e with txn := some { t with opened := true } }
          let plain : DirEntry := { e with txn := none }
          let s₁ := s.putEntry p o
          let now (s' : State) : Prop := exec .mirrorOpenAck s = .next s'
          (t.kind = .gets →
            (e.st = .i →
              let s₂ := s₁.export l true
              (s₂.homeHolds l = some true → now (((s₂.setHomePerm l .o).sendData l x.die .s true).closeTxn p
                (({ plain with st := .o, owner := h } : DirEntry).share x.die))) ∧
              (s₂.homeHolds l = some false → now (((s₂.setHomePerm l .s).sendData l x.die .s true).closeTxn p
                ((({ plain with st := .s } : DirEntry).share h).share x.die))) ∧
              (s₂.homeHolds l = none → now (((s₂.loseCopy h l).sendData l x.die .e true).closeTxn p { plain with st := .e, owner := x.die }))) ∧
            (e.st = .s → now ((s₁.sendData l x.die .s (!x.noKeep)).closeTxn p (if x.noKeep = true then plain else plain.share x.die))) ∧
            (e.st ≠ .i → e.st ≠ .s →
              (e.owner = x.die → now ((s₁.sendData l x.die e.st true).closeTxn p plain)) ∧
              (e.owner ≠ x.die → now (s₁.later (.forward p l .gets e.owner x.die))))) ∧
          (t.kind = .getx →
            (e.st = .i → now ((((s₁.takeHome l).export l true).sendData l x.die .m true).advanceTxn p l)) ∧
            (e.st = .s → s₁.stillShares x.die l = true → now (s₁.advanceTxn p l)) ∧
            (e.st = .s → s₁.stillShares x.die l = false → now ((s₁.sendData l x.die .m true).advanceTxn p l)) ∧
            (e.st ≠ .i → e.st ≠ .s →
              (e.owner = x.die → now (s₁.advanceTxn p l)) ∧
              (e.owner ≠ x.die → now ((s₁.later (.forward p l .getx e.owner x.die)).advanceTxn p l)))) ∧
          (t.kind = .putm → ∀ (keep : Bool) (data : LineData) (secs : List Nat) (z : Site),
            t.after = [.event (.putm x keep data secs) z] →
            let stays := keep && s₁.keepsOthers x.die l secs
            let s₂ := s₁.laterAt .putack (dieCore0 x.die) l
            (e.owner ≠ x.die ∨ e.st = .s ∨ e.st = .i → now (s₂.closeTxn p plain)) ∧
            (e.owner = x.die → e.st ≠ .s → e.st ≠ .i →
              let s₃ := s₂.storeHome l data secs
              (stays = true → now (s₃.closeTxn p plain)) ∧
              (stays = false → e.st ≠ .o → now (s₃.closeTxn p { plain with st := if keep = true then .e else .i })) ∧
              (stays = false → e.st = .o →
                let f := if keep = true then ({ plain with st := .s } : DirEntry).share x.die else { plain with st := .s }
                now (s₃.closeTxn p (if f.dies = [] ∧ f.pkgs = [] then { f with st := .i } else f))))) ∧
          (t.kind = .recall →
            (e.recallsOwner t.part = true → now ((s₁.later (.forward p l .recall e.owner e.owner)).advanceTxn p l)) ∧
            (e.recallsOwner t.part = false → now (s₁.advanceTxn p l))))))) ∧
  (∀ (s : State) (p l : Nat) (d : DieId) (b : Bool),
    let ds := if b = true then diesOf d.pkg else [d]
    ((∀ e ∈ ds, ∀ y : Line, (s.die e).line? l = some y → y.locked = false) →
      exec (.invalidation p l d b) s = .next ((ds.foldl (fun s d => s.invalidate d l) s).later (.invalidationAck p l d b))) ∧
    ((∃ e ∈ ds, ∃ y : Line, (s.die e).line? l = some y ∧ y.locked = true) →
      exec (.invalidation p l d b) s = .next (s.later (.invalidation p l d b))) ∧
    (∀ y : Line, (s.die d).line? l = some y →
      (y.perm = .s → s.invalidate d l = s.loseCopy d l) ∧
      (y.perm ≠ .s → y.perm = .i ∨ y.away = true → y.asked = some .gets →
        s.invalidate d l = s.modLine d l fun y => { y with dropIt := true }) ∧
      (y.perm ≠ .s → y.asked ≠ some .gets ∨ (y.perm ≠ .i ∧ y.away = false) → s.invalidate d l = s)) ∧
    (∀ (e : DirEntry) (t : Txn), s.entry? p l = some e → e.txn = some t → exec (.invalidationAck p l d b) s =
      .next ((s.putEntry p { e with txn := some { t with acks := t.acks - 1 } }).advanceTxn p l)) ∧
    ((∀ e : DirEntry, s.entry? p l = some e → e.txn = none) → exec (.invalidationAck p l d b) s = .next s) ∧
    (∀ (e : DirEntry) (t : Txn), s.entry? p l = some e → e.txn = some t →
      (t.opened = false ∨ t.acks ≠ 0 → s.advanceTxn p l = s) ∧
      (t.opened = true → t.acks = 0 →
        (t.kind = .getx → t.granted = true → s.advanceTxn p l = s) ∧
        (t.kind = .getx → t.granted = false → s.advanceTxn p l =
          (s.putEntry p { e with txn := some { t with granted := true } }).laterAt .grant (dieCore0 t.req.die) l) ∧
        (t.kind = .recall → s.advanceTxn p l = s.closeTxn p (e.recalled t.part))))) ∧
  (∀ (s : State) (p l : Nat) (owner req : DieId),
    let keep := !s.coarseFor req l
    let done (s : State) : Host.Outcome State Fault Refusal := .next (s.laterAt .done (pkgCore p) l)
    ((∀ y : Line, (s.die owner).line? l = some y → y.perm = .i) →
      exec (.forward p l .gets owner req) s = done (s.sendData l req .s keep) ∧
      exec (.forward p l .getx owner req) s = done (s.sendData l req .m true) ∧ exec (.forward p l .recall owner req) s = done s) ∧
    (∀ y : Line, (s.die owner).line? l = some y → y.perm ≠ .i →
      (y.locked = true → ∀ k : FwdKind, exec (.forward p l k owner req) s = .next (s.later (.forward p l k owner req))) ∧
      (y.locked = false →
        exec (.forward p l .gets owner req) s =
          .next (((s.sendData l req .s keep).modLine owner l fun y => { y with perm := if y.isDirty then .o else .s }).laterAt .done (pkgCore p)
            l 0 y.isDirty) ∧
        exec (.forward p l .getx owner req) s =
          done (((s.sendData l req .m true).storeHome l y.data y.dirtySectors).loseCopy owner l) ∧
        exec (.forward p l .recall owner req) s = done ((s.storeHome l y.data y.dirtySectors).loseCopy owner l)))) ∧
  (∀ s : State,
    let d := s.site.core.dieId
    let l := s.site.n
    let done (s : State) : State := s.laterAt .done (pkgCore (s.dirOf l)) l
    ((s.die d).line? l = none → exec .grant s = .next (done s) ∧ exec .putack s = .next s) ∧
    (∀ y : Line, (s.die d).line? l = some y →
      (y.asked = none ∨ y.asked = some .gets → exec .grant s = .next (done s)) ∧
      (y.asked ≠ none → y.asked ≠ some .gets →
        (y.perm = .i ∨ y.away = true → y.came = false → exec .grant s = .next (s.laterAt .grant s.site.core l)) ∧
        (y.perm ≠ .i ∧ y.away = false ∨ y.came = true →
          let s₁ := (s.modLine d l fun y => { y with perm := .m, asked := none, dropIt := false, want := [], came := false }).settle d l
          (y.want = [] → exec .grant s = .next (done s₁)) ∧
          (y.want ≠ [] → exec .grant s = .next (done (s₁.wantSectors d l y.want))))) ∧
      (y.wback = false → exec .putack s = .next s) ∧
      (y.wback = true → y.leaving = true →
        (y.pend = [] → y.asked = none → exec .putack s = .next (s.dropLine d l)) ∧
        (y.pend ≠ [] ∨ y.asked ≠ none →
          exec .putack s = .next ((s.modLine d l fun y => { y.emptied with wback := false }).settle d l))) ∧
      (y.wback = true → y.leaving = false → exec .putack s = .next ((s.modLine d l fun y =>
        { y.cleaned y.wsent with
          wback := false, wsent := [],
          perm := if y.wsent.isEmpty ∨ (y.cleaned y.wsent).isDirty then y.perm
                  else if y.perm = .m then .e else if y.perm = .o then .s else y.perm }).settle d l)))) ∧
  (∀ (s : State) (d : DieId) (l : Nat) (perm : Perm) (keep : Bool) (data : LineData),
    ((s.die d).line? l = none → exec (.sliceFillArrival d l perm keep data) s = .next s) ∧
    (∀ y : Line, (s.die d).line? l = some y →
      (y.asked = none → exec (.sliceFillArrival d l perm keep data) s = .next s) ∧
      (y.asked = some .gets → keep = true → y.dropIt = false → exec (.sliceFillArrival d l perm keep data) s =
        .next ((s.modLine d l fun y =>
          let z := if y.away then y.emptied else y
          { z.filled y.fillSecs data with
            perm := if z.perm = .i then perm else z.perm, asked := y.nextAsk, nextX := false, want := [] }).settle d l)) ∧
      (y.asked = some .gets → keep = false ∨ y.dropIt = true →
        let s₁ := (s.closeWindow d l).captureAll d l
        (y.pend = [] → y.wback = false → y.perm = .i → y.nextX = false →
          exec (.sliceFillArrival d l perm keep data) s = .next (s₁.dropLine d l)) ∧
        (y.pend ≠ [] ∨ y.wback = true ∨ y.perm ≠ .i ∨ y.nextX = true → exec (.sliceFillArrival d l perm keep data) s =
          .next ((s₁.modLine d l fun y =>
            { y with asked := y.nextAsk, nextX := false, dropIt := false, want := [] }).settle d l))) ∧
      (y.asked ≠ none → y.asked ≠ some .gets → exec (.sliceFillArrival d l perm keep data) s =
        .next (s.modLine d l fun y =>
          let z := if y.away then y.emptied else y
          { z.filled y.fillSecs data with want := [], came := true })))) ∧
  (∀ s : State,
    let p := s.site.core.pkg
    let l := s.site.n
    ((∀ e : DirEntry, s.entry? p l = some e → e.txn = none) → exec .done s = .next s) ∧
    (∀ (e : DirEntry) (t : Txn), s.entry? p l = some e → e.txn = some t →
      let acked : Host.Outcome State Fault Refusal :=
        .next ((s.putEntry p { e with txn := some { t with acks := t.acks - 1 } }).advanceTxn p l)
      (t.kind = .getx → t.granted = true →
        (e.st = .i → t.req.die = homeDie l → exec .done s = .next (s.closeTxn p { e with txn := none })) ∧
        (e.st ≠ .i ∨ t.req.die ≠ homeDie l → exec .done s =
          .next (s.closeTxn p { e with txn := none, st := .m, owner := t.req.die, dies := [], pkgs := [] }))) ∧
      (t.kind = .getx → t.granted = false → exec .done s = acked) ∧ (t.kind = .recall → exec .done s = acked) ∧
      (t.kind = .putm → exec .done s = .next s) ∧
      (t.kind = .gets →
        let f : DirEntry := if s.site.flag = true then { e with txn := none, st := .o }
          else ({ e with txn := none, st := .s } : DirEntry).share e.owner
        exec .done s = .next (s.closeTxn p (if t.req.noKeep = true then f else f.share t.req.die))))) ∧
  (∀ (s : State) (p l m : Nat) (st : Perm) (owner : DieId) (dies pkgs : List Nat),
    let q := s.site.core.pkg
    let k := s.site.n
    let old : MirEntry := ((s.pkg q).mirror.find? fun e => decide (e.line = k)).getD ⟨k, .i, homeDie k, [], [], true⟩
    exec .mirrorOpenRecord s = .next ((s.modPkg q fun x =>
      { x with mirror := { old with open_ := true } :: x.mirror.filter fun e => decide (e.line ≠ k) }).laterAt
        .mirrorOpenAck (pkgCore s.site.m) k) ∧
    (st ≠ .i → exec (.mirrorCloseRecord p l m st owner dies pkgs) s = .next (s.modPkg m fun x =>
      { x with mirror := ⟨l, st, owner, dies, pkgs, false⟩ :: x.mirror.filter fun e => decide (e.line ≠ l) })) ∧
    (st = .i → exec (.mirrorCloseRecord p l m st owner dies pkgs) s = .next (s.modPkg m fun x =>
      { x with mirror := x.mirror.filter fun e => decide (e.line ≠ l) })))

/-- R198, R360, R367, R369, R372 to R378: a directory that fails is taken over by its mirror, or its regions are LOST, and so are those it
acted for; the watchdog finds a directory without progress for 20 µs while requests wait, and otherwise goes on; a takeover raises the map
generation of its coherence domain by one, takes the mirror's stable entries, settles the open lines, sends every request again, acts for the
failed package and posts its record; a restore does the same the other way; a LOST region's copies go, its map and its record say so, and
the loss of the link-ports island cuts the package's links; a closing channel raises the generation and is retired; at a window's end the
recalls counted go to the map, for every package that the directory serves, and the next window of 100 µs begins. -/
def Obligations.DirectoryEvents : Prop :=
  (∀ (s : State) (p : Nat) (why : DirFail),
    (why = .linkIsland → exec (.directoryFailure p why) s = .next (s.laterAt .dirLost (pkgCore p) p 0 true)) ∧
    (why ≠ .linkIsland →
      ((s.pkg p).dirUp = false → exec (.directoryFailure p why) s = .next s) ∧
      ((s.pkg p).dirUp = true →
        let s₁ := (s.pkg p).acting.foldl (fun s q => s.laterAt .dirLost (pkgCore q) q)
          (s.modPkg p fun x => { x with dirUp := false, mirror := [], acting := [], recalls := [], low := [] })
        (s.mirrorOf p = none → exec (.directoryFailure p why) s = .next (s₁.laterAt .dirLost (pkgCore p) p)) ∧
        (∀ m : Nat, s.mirrorOf p = some m →
          ((s₁.pkg m).dirUp = true → exec (.directoryFailure p why) s = .next (s₁.laterAt .dirTakeover (pkgCore m) p)) ∧
          ((s₁.pkg m).dirUp = false → exec (.directoryFailure p why) s = .next (s₁.laterAt .dirLost (pkgCore p) p)))))) ∧
  (∀ s : State,
    let p := s.site.core.pkg
    let q := s.site.n
    ((s.pkg p).dirUp = false ∨ (s.pkg p).waiting = false → exec .directoryWatchdog s = .next s) ∧
    ((s.pkg p).dirUp = true → (s.pkg p).waiting = true →
      ((s.pkg p).progress + 20000 ≤ s.now → exec .directoryWatchdog s = .next (s.later (.directoryFailure p .watchdog))) ∧
      (s.now < (s.pkg p).progress + 20000 → exec .directoryWatchdog s = .next (s.watch p ((s.pkg p).progress + 20000)))) ∧
    ((s.pkg q).dirUp = true ∨ (s.pkg q).lost = true → exec .dirTakeover s = .next s) ∧
    ((s.pkg q).dirUp = false → (s.pkg q).lost = false → (s.pkg p).dirUp = false →
      exec .dirTakeover s = .next (s.laterAt .dirLost (pkgCore q) q)) ∧
    ((s.pkg q).dirUp = false → (s.pkg q).lost = false → (s.pkg p).dirUp = true →
      let puts := (s.pkg q).dir.flatMap (·.putms) ++ (s.pkg q).waitQ.filter Item.isPutm
      let copies := (s.pkg p).mirror.filter fun e => homedIn q e.line
      let swept := (copies.filter (·.open_)).map (·.line)
      let g := (s.pkg q).podgen + 1
      let s₁ := ((s.raiseGen q).2.modPkg q fun x => { x with dir := [], waitQ := [] }).modPkg p fun x =>
        { x with acting := q :: x.acting, mirror := x.mirror.filter (fun e => !homedIn q e.line), dir := (copies.filter (fun e => !e.open_)).map (fun e => ⟨e.line, e.st, e.owner, e.dies, e.pkgs, none, []⟩) ++ x.dir }
      exec .dirTakeover s =
        .next ((((swept.foldl (fun s l => s.sweepLine p l) s₁).reissue q puts).writeGen p q g true).takeoverRecord q p g swept.length)) ∧
    ((s.pkg p).dirUp = true ∨ (s.pkg p).lost = true → exec .directoryRestore s = .next s) ∧
    ((s.pkg p).dirUp = false → (s.pkg p).lost = false →
      ((s.packages.find? fun x => decide (p ∈ x.2.acting)) = none → exec .directoryRestore s = .next s) ∧
      (∀ (m : Nat) (x : Package), (s.packages.find? fun x => decide (p ∈ x.2.acting)) = some (m, x) →
        ∃ s₁ : State, exec .directoryRestore s =
          .next ((s₁.writeGen p p ((s.pkg p).podgen + 1) false).takeoverRecord p p ((s.pkg p).podgen + 1)
            ((s.pkg m).dir.filter fun e => homedIn p e.line).length))) ∧
    (∀ r ∈ s.domain p, ((s.raiseGen p).2.pkg r).podgen = (s.pkg p).podgen + 1) ∧
    ((s.pkg p).lost = true → exec .dirLost s = .next s) ∧
    ((s.pkg p).lost = false → ∃ (s₁ : State) (w2 : Word),
      let w0 := BitVec.ofNat 64 (putBits 0x0B 56 + putBits p 50)
      let s₂ := (List.range 512).foldl
        (fun s r => s.setDirMap p p (regionWord r 0) (withBits (s.dirMapWord p (regionWord r 0)) 61 61 1)) s₁
      let s₃ := s₂.afterMap p p ((s₂.domain p).map fun q => (q, [w0, 0, w2, s₂.timeWord q 0]))
      (s.site.flag = false → exec .dirLost s = .next s₃) ∧ (s.site.flag = true → exec .dirLost s = .next (s₃.cutLinks p))) ∧
    ((s.link p q).closing = true ∨ (s.link p q).retired = true → exec .channelClosing s = .next s) ∧
    ((s.link p q).closing = false → (s.link p q).retired = false → exec .channelClosing s =
      .next ((((s.raiseGen p).2.modLink p q fun x => { x with closing := true }).modLink q p fun x => { x with closing := true }).laterAt
        .channelRetired s.site.core q)) ∧
    ((s.link p q).closing = false → exec .channelRetired s = .next s) ∧
    ((s.link p q).closing = true → s.olderTaken = true → exec .channelRetired s = .next (s.laterAt .channelRetired s.site.core q)) ∧
    (∀ (x : Piece) (g : BitVec 16) (y : Site), .event (.copyPieceArrival x) y ∈ s.agenda → x.taken = true → x.gen = some g →
      olderGen g (s.pkg (pieceDie x).pkg).podgen = true → s.olderTaken = true) ∧
    ((s.link p q).closing = true → s.olderTaken = false → exec .channelRetired s =
      .next ((s.modLink p q fun x => { x with ver := 0, lanes := 0, closing := false, retired := true }).modLink q p fun x =>
        { x with ver := 0, lanes := 0, closing := false, retired := true })) ∧
    (let served := (if (s.pkg p).dirUp = true ∧ (s.pkg p).lost = false then [p] else []) ++ (s.pkg p).acting
     exec .recallWindow s = .next ((served.foldl (fun s h => s.closeRecalls p h) s).at_ (s.now + 100000) .recallWindow s.site)) ∧
    (∀ h : Nat, (s.pkg h).coarse = [] → (∀ r < 512, (s.modPkg h fun x => { x with recalls := [] }).dirMapWord h (regionWord r 1) % 2 ^ 32 =
      Assoc.getD (s.pkg h).recalls r 0) → s.closeRecalls p h = s.modPkg h fun x => { x with recalls := [] }))

/-! ## What a firing leaves unchanged, the memory's form, and reset -/

/-- R24, R64, R66, R151, R342: a routing, collective, integer, address, float or conversion instruction that fires writes no memory, no special
register, no other core and no unit of its own: it only sends its tokens, raises sticky flags of its activation and draws its random
numbers, and every byte reads as before, through every die. A byte-range write that is performed at memory itself (an SRAM address, or a page
of NC) changes the bytes it stores and no other. -/
def Obligations.RegisterFrames : Prop :=
  (∀ (r : Rec) (s s₁ s' : State) (t : Word),
    let onlySends (f : Form) (i : Instr) : Prop :=
      Fires f r s t s₁ → exec i s = .next s' →
        State.OnlySends s.cur.core s₁ s' ∧ ∀ (d : DieId) (a : Nat), s'.peekByte d a = s₁.peekByte d a
    (∀ p ∈ [(Instr.dup r, Forms.dup), (.steer r, Forms.steer), (.gate r, Forms.gate), (.dends r, Forms.dends),
        (.vote r, Forms.vote)], onlySends p.2 p.1) ∧
    (s.AllScalar r → ∀ p ∈ [(Instr.sink r, Forms.sink), (.const r, Forms.const), (.join r, Forms.join), (.cmb r, Forms.cmb),
        (.rng r, Forms.rng), (.add r, Forms.add), (.sub r, Forms.sub), (.mul r, Forms.mul), (.mulh r, Forms.mulh),
        (.madd r, Forms.madd), (.div r, Forms.div), (.rem r, Forms.rem), (.neg r, Forms.neg), (.abs r, Forms.abs),
        (.min r, Forms.min), (.max r, Forms.max), (.and r, Forms.and), (.or r, Forms.or), (.xor r, Forms.xor),
        (.andn r, Forms.andn), (.shl r, Forms.shl), (.shr r, Forms.shr), (.sar r, Forms.sar), (.rotl r, Forms.rotl),
        (.clz r, Forms.clz), (.ctz r, Forms.ctz), (.popc r, Forms.popc), (.brev r, Forms.brev), (.bext r, Forms.bext),
        (.bins r, Forms.bins), (.cmp r, Forms.cmp), (.sel r, Forms.sel), (.lea r, Forms.lea), (.line r, Forms.line),
        (.fadd r, Forms.fadd), (.fsub r, Forms.fsub), (.fmul r, Forms.fmul), (.fma r, Forms.fma), (.fdiv r, Forms.fdiv),
        (.fsqrt r, Forms.fsqrt), (.fmin r, Forms.fmin), (.fmax r, Forms.fmax), (.fabs r, Forms.fabs), (.fneg r, Forms.fneg),
        (.fcmp r, Forms.fcmp), (.fcvt r, Forms.fcvt), (.frnd r, Forms.frnd), (.fexp2 r, Forms.fexp2), (.flog2 r, Forms.flog2),
        (.frcp r, Forms.frcp), (.frsq r, Forms.frsq), (.cvt r, Forms.cvt)], onlySends p.2 p.1)) ∧
  (∀ (s : State) (d : DieId) (nc : Bool) (a : Nat) (bs : List Byte) (own : Option (BitVec 9)),
    s.mem.wf = true → nc = true ∨ s.isHbm a = false →
    let s' := s.dieWrite d nc a bs own
    s'.cores = s.cores ∧ s'.clusters = s.clusters ∧ s'.dies = s.dies ∧ s'.packages = s.packages ∧ s'.acts = s.acts ∧
    s'.agenda = s.agenda ∧
    (∀ x : Nat, x < a ∨ a + bs.length ≤ x → s'.mem.get x = s.mem.get x) ∧
    (∀ (i : Nat) (h : i < bs.length), s'.mem.get (a + i) = bs[i]))

/-- Whatever a step does, every memory of the machine keeps its one canonical form (addresses rising, nothing listed that reads as an unlisted
byte; the form and the unlisted byte are the model's, log 1). -/
def Obligations.StepKeepsMemoryForm : Prop :=
  ∀ s s' : State, s.memOk = true → step s = .next s' → s'.memOk = true

/-- Reset. By R103 every package is in stage ROM, by R197 its time is 0, by R148 every counter of STEER is 0b10, by R115 every ordinary
core, which no configuration uses, is gated with its router, and no control core is. The rest are the model's
choices: an unlisted byte reads 0 (log 1), what the manual gives no reset value stands at 0, empty or absent (log 90), the pod has 64
packages (log 91); nothing waits to happen, every memory has its
canonical form, and no activation lives. -/
def Obligations.ResetState : Prop :=
  State.reset.memOk = true ∧ State.reset.partiesOk = true ∧ State.reset.agenda = [] ∧ State.reset.timers = [] ∧
  State.reset.podSize = 64 ∧
  (∀ p : Nat, ((State.reset.pkg p).stage).toNat = 1 ∧ State.reset.time p = 0 ∧ (State.reset.pkg p).images = [] ∧
    (State.reset.pkg p).stopped = false) ∧
  (∀ (c : CoreId) (n : Nat), Assoc.getD (State.reset.core c).predict n 2 = 2#2) ∧
  (∀ c : CoreId, (State.reset.core c).store = [] ∧ (State.reset.core c).ready = [] ∧ (State.reset.core c).phase = 0 ∧
    (State.reset.core c).nulls = 0 ∧ (State.reset.core c).vstat = 0 ∧
    (State.reset.core c).power = (if c.isCtl = true then .awake else .gated) ∧
    (State.reset.core c).router = (if c.isCtl = true then .awake else .gated)) ∧
  (∀ k : CluId, (State.reset.cluster k).queues = List.replicate 4 Queue.reset) ∧
  (∀ (d : DieId) (a : Nat), State.reset.peekByte d a = 0) ∧ State.reset.acts = []
end

