-- ==== Sys2Proof/Laws/Decode.lean ====
section
/-! SUPPORT. Laws of records: the fields and the opcode of a word come back from it, a word from its fields, bytes from a number. -/

namespace Sys2Proof

/-- A field read back from a word that it was laid into below others. -/
theorem extract_high {m n k : Nat} (x : BitVec m) (y : BitVec n) (lo : Nat) (h : n ≤ lo) :
    (x ++ y).extractLsb' lo k = x.extractLsb' (lo - n) k := by
  ext i hi
  have h1 : ¬ lo + i < n := by omega
  have h2 : lo + i - n = lo - n + i := by omega
  simp only [BitVec.getElem_extractLsb', BitVec.getLsbD_append, h1, if_false, h2]

/-- A field read from the low part of a word. -/
theorem extract_low {m n k : Nat} (x : BitVec m) (y : BitVec n) (lo : Nat) (h : lo + k ≤ n) :
    (x ++ y).extractLsb' lo k = y.extractLsb' lo k := by
  ext i hi
  have h1 : lo + i < n := by omega
  simp only [BitVec.getElem_extractLsb', BitVec.getLsbD_append, h1, if_true]

/-- The whole of a word. -/
theorem extract_all {n : Nat} (x : BitVec n) : x.extractLsb' 0 n = x := by
  ext i hi
  simp

theorem opcOfWord_wordOf (o : BitVec 8) (r : Rec) : opcOfWord (wordOf o r) = o := by
  simp only [opcOfWord, wordOf, extract_high _ _ _ (show 24 ≤ 88 by decide), extract_high _ _ _ (show 24 ≤ 88 - 24 by decide),
    extract_high _ _ _ (show 20 ≤ 88 - 24 - 24 by decide), extract_high _ _ _ (show 2 ≤ 88 - 24 - 24 - 20 by decide),
    extract_high _ _ _ (show 2 ≤ 88 - 24 - 24 - 20 - 2 by decide), extract_high _ _ _ (show 4 ≤ 88 - 24 - 24 - 20 - 2 - 2 by decide),
    extract_high _ _ _ (show 2 ≤ 88 - 24 - 24 - 20 - 2 - 2 - 4 by decide),
    extract_high _ _ _ (show 4 ≤ 88 - 24 - 24 - 20 - 2 - 2 - 4 - 2 by decide),
    extract_high _ _ _ (show 6 ≤ 88 - 24 - 24 - 20 - 2 - 2 - 4 - 2 - 4 by decide)]
  exact extract_all o

theorem recOfWord_wordOf (o : BitVec 8) (r : Rec) : recOfWord (wordOf o r) = r := by
  obtain ⟨sub, typ, ari, tag, lk, rsv, lit, dstA, dstB⟩ := r
  simp only [recOfWord, wordOf, Rec.mk.injEq]
  refine ⟨?_, ?_, ?_, ?_, ?_, ?_, ?_, ?_, ?_⟩
  · rw [extract_high _ _ _ (by decide)]
    rw [extract_high _ _ _ (by decide)]
    rw [extract_high _ _ _ (by decide)]
    rw [extract_high _ _ _ (by decide)]
    rw [extract_high _ _ _ (by decide)]
    rw [extract_high _ _ _ (by decide)]
    rw [extract_high _ _ _ (by decide)]
    rw [extract_high _ _ _ (by decide)]
    rw [extract_low _ _ _ (by decide)]
    exact extract_all sub
  · rw [extract_high _ _ _ (by decide)]
    rw [extract_high _ _ _ (by decide)]
    rw [extract_high _ _ _ (by decide)]
    rw [extract_high _ _ _ (by decide)]
    rw [extract_high _ _ _ (by decide)]
    rw [extract_high _ _ _ (by decide)]
    rw [extract_high _ _ _ (by decide)]
    rw [extract_low _ _ _ (by decide)]
    exact extract_all typ
  · rw [extract_high _ _ _ (by decide)]
    rw [extract_high _ _ _ (by decide)]
    rw [extract_high _ _ _ (by decide)]
    rw [extract_high _ _ _ (by decide)]
    rw [extract_high _ _ _ (by decide)]
    rw [extract_high _ _ _ (by decide)]
    rw [extract_low _ _ _ (by decide)]
    exact extract_all ari
  · rw [extract_high _ _ _ (by decide)]
    rw [extract_high _ _ _ (by decide)]
    rw [extract_high _ _ _ (by decide)]
    rw [extract_high _ _ _ (by decide)]
    rw [extract_high _ _ _ (by decide)]
    rw [extract_low _ _ _ (by decide)]
    exact extract_all tag
  · rw [extract_high _ _ _ (by decide)]
    rw [extract_high _ _ _ (by decide)]
    rw [extract_high _ _ _ (by decide)]
    rw [extract_high _ _ _ (by decide)]
    rw [extract_low _ _ _ (by decide)]
    exact extract_all lk
  · rw [extract_high _ _ _ (by decide)]
    rw [extract_high _ _ _ (by decide)]
    rw [extract_high _ _ _ (by decide)]
    rw [extract_low _ _ _ (by decide)]
    exact extract_all rsv
  · rw [extract_high _ _ _ (by decide)]
    rw [extract_high _ _ _ (by decide)]
    rw [extract_low _ _ _ (by decide)]
    exact extract_all lit
  · rw [extract_high _ _ _ (by decide)]
    rw [extract_low _ _ _ (by decide)]
    exact extract_all dstA
  · rw [extract_low _ _ _ (by decide)]
    exact extract_all dstB

theorem wordOf_fields (w : BitVec 96) : wordOf (opcOfWord w) (recOfWord w) = w := by
  unfold wordOf opcOfWord recOfWord
  ext i hi
  simp only [BitVec.getElem_append, BitVec.getElem_extractLsb']
  split_ifs <;> (rw [← BitVec.getLsbD_eq_getElem hi]; congr 1; omega)

/-- Bytes laid out from a number read back as it. -/
theorem leNat_leBytes : ∀ (n x : Nat), leNat (leBytes n x) = x % 256 ^ n
  | 0, x => by simp [leBytes, leNat, Nat.mod_one]
  | n + 1, x => by
    have h : (BitVec.ofNat 8 x).toNat = x % 256 := by simp [BitVec.toNat_ofNat]
    simp only [leBytes, leNat, leNat_leBytes n, h]
    rw [pow_succ, Nat.mul_comm (256 ^ n) 256, Nat.mod_mul]

theorem length_leBytes : ∀ (n x : Nat), (leBytes n x).length = n
  | 0, _ => rfl
  | n + 1, x => by simp [leBytes, length_leBytes n]

end Sys2Proof
end

