-- ==== Sys2Proof/Laws/State.lean ====
section
/-! SUPPORT. One lemma for each field of the state under each named update: what the update leaves alone, and what it writes. -/

namespace Sys2Proof.Machine

open Sys2Proof

@[simp] theorem State.setCore_podSize (s : State) (c : CoreId) (k : Core) : (s.setCore c k).podSize = s.podSize := rfl
@[simp] theorem State.setCore_now (s : State) (c : CoreId) (k : Core) : (s.setCore c k).now = s.now := rfl
@[simp] theorem State.setCore_elapse (s : State) (c : CoreId) (k : Core) : (s.setCore c k).elapse = s.elapse := rfl
@[simp] theorem State.setCore_errs (s : State) (c : CoreId) (k : Core) : (s.setCore c k).errs = s.errs := rfl
@[simp] theorem State.setCore_agenda (s : State) (c : CoreId) (k : Core) : (s.setCore c k).agenda = s.agenda := rfl
@[simp] theorem State.setCore_timers (s : State) (c : CoreId) (k : Core) : (s.setCore c k).timers = s.timers := rfl
@[simp] theorem State.setCore_cur (s : State) (c : CoreId) (k : Core) : (s.setCore c k).cur = s.cur := rfl
@[simp] theorem State.setCore_site (s : State) (c : CoreId) (k : Core) : (s.setCore c k).site = s.site := rfl
@[simp] theorem State.setCore_uid (s : State) (c : CoreId) (k : Core) : (s.setCore c k).uid = s.uid := rfl
@[simp] theorem State.setCore_free (s : State) (c : CoreId) (k : Core) : (s.setCore c k).free = s.free := rfl
@[simp] theorem State.setCore_mem (s : State) (c : CoreId) (k : Core) : (s.setCore c k).mem = s.mem := rfl
@[simp] theorem State.setCore_poison (s : State) (c : CoreId) (k : Core) : (s.setCore c k).poison = s.poison := rfl
@[simp] theorem State.setCore_exported (s : State) (c : CoreId) (k : Core) : (s.setCore c k).exported = s.exported := rfl
@[simp] theorem State.setCore_clusters (s : State) (c : CoreId) (k : Core) : (s.setCore c k).clusters = s.clusters := rfl
@[simp] theorem State.setCore_dies (s : State) (c : CoreId) (k : Core) : (s.setCore c k).dies = s.dies := rfl
@[simp] theorem State.setCore_packages (s : State) (c : CoreId) (k : Core) : (s.setCore c k).packages = s.packages := rfl
@[simp] theorem State.setCore_acts (s : State) (c : CoreId) (k : Core) : (s.setCore c k).acts = s.acts := rfl
@[simp] theorem State.setCore_qtoks (s : State) (c : CoreId) (k : Core) : (s.setCore c k).qtoks = s.qtoks := rfl
@[simp] theorem State.setCore_saves (s : State) (c : CoreId) (k : Core) : (s.setCore c k).saves = s.saves := rfl
@[simp] theorem State.setCore_hostOut (s : State) (c : CoreId) (k : Core) : (s.setCore c k).hostOut = s.hostOut := rfl

@[simp] theorem State.modCore_podSize (s : State) (c : CoreId) (f : Core → Core) : (s.modCore c f).podSize = s.podSize := rfl
@[simp] theorem State.modCore_now (s : State) (c : CoreId) (f : Core → Core) : (s.modCore c f).now = s.now := rfl
@[simp] theorem State.modCore_elapse (s : State) (c : CoreId) (f : Core → Core) : (s.modCore c f).elapse = s.elapse := rfl
@[simp] theorem State.modCore_errs (s : State) (c : CoreId) (f : Core → Core) : (s.modCore c f).errs = s.errs := rfl
@[simp] theorem State.modCore_agenda (s : State) (c : CoreId) (f : Core → Core) : (s.modCore c f).agenda = s.agenda := rfl
@[simp] theorem State.modCore_timers (s : State) (c : CoreId) (f : Core → Core) : (s.modCore c f).timers = s.timers := rfl
@[simp] theorem State.modCore_cur (s : State) (c : CoreId) (f : Core → Core) : (s.modCore c f).cur = s.cur := rfl
@[simp] theorem State.modCore_site (s : State) (c : CoreId) (f : Core → Core) : (s.modCore c f).site = s.site := rfl
@[simp] theorem State.modCore_uid (s : State) (c : CoreId) (f : Core → Core) : (s.modCore c f).uid = s.uid := rfl
@[simp] theorem State.modCore_free (s : State) (c : CoreId) (f : Core → Core) : (s.modCore c f).free = s.free := rfl
@[simp] theorem State.modCore_mem (s : State) (c : CoreId) (f : Core → Core) : (s.modCore c f).mem = s.mem := rfl
@[simp] theorem State.modCore_poison (s : State) (c : CoreId) (f : Core → Core) : (s.modCore c f).poison = s.poison := rfl
@[simp] theorem State.modCore_exported (s : State) (c : CoreId) (f : Core → Core) : (s.modCore c f).exported = s.exported := rfl
@[simp] theorem State.modCore_clusters (s : State) (c : CoreId) (f : Core → Core) : (s.modCore c f).clusters = s.clusters := rfl
@[simp] theorem State.modCore_dies (s : State) (c : CoreId) (f : Core → Core) : (s.modCore c f).dies = s.dies := rfl
@[simp] theorem State.modCore_packages (s : State) (c : CoreId) (f : Core → Core) : (s.modCore c f).packages = s.packages := rfl
@[simp] theorem State.modCore_acts (s : State) (c : CoreId) (f : Core → Core) : (s.modCore c f).acts = s.acts := rfl
@[simp] theorem State.modCore_qtoks (s : State) (c : CoreId) (f : Core → Core) : (s.modCore c f).qtoks = s.qtoks := rfl
@[simp] theorem State.modCore_saves (s : State) (c : CoreId) (f : Core → Core) : (s.modCore c f).saves = s.saves := rfl
@[simp] theorem State.modCore_hostOut (s : State) (c : CoreId) (f : Core → Core) : (s.modCore c f).hostOut = s.hostOut := rfl

@[simp] theorem State.setCluster_podSize (s : State) (k : CluId) (x : Cluster) : (s.setCluster k x).podSize = s.podSize := rfl
@[simp] theorem State.setCluster_now (s : State) (k : CluId) (x : Cluster) : (s.setCluster k x).now = s.now := rfl
@[simp] theorem State.setCluster_elapse (s : State) (k : CluId) (x : Cluster) : (s.setCluster k x).elapse = s.elapse := rfl
@[simp] theorem State.setCluster_errs (s : State) (k : CluId) (x : Cluster) : (s.setCluster k x).errs = s.errs := rfl
@[simp] theorem State.setCluster_agenda (s : State) (k : CluId) (x : Cluster) : (s.setCluster k x).agenda = s.agenda := rfl
@[simp] theorem State.setCluster_timers (s : State) (k : CluId) (x : Cluster) : (s.setCluster k x).timers = s.timers := rfl
@[simp] theorem State.setCluster_cur (s : State) (k : CluId) (x : Cluster) : (s.setCluster k x).cur = s.cur := rfl
@[simp] theorem State.setCluster_site (s : State) (k : CluId) (x : Cluster) : (s.setCluster k x).site = s.site := rfl
@[simp] theorem State.setCluster_uid (s : State) (k : CluId) (x : Cluster) : (s.setCluster k x).uid = s.uid := rfl
@[simp] theorem State.setCluster_free (s : State) (k : CluId) (x : Cluster) : (s.setCluster k x).free = s.free := rfl
@[simp] theorem State.setCluster_mem (s : State) (k : CluId) (x : Cluster) : (s.setCluster k x).mem = s.mem := rfl
@[simp] theorem State.setCluster_poison (s : State) (k : CluId) (x : Cluster) : (s.setCluster k x).poison = s.poison := rfl
@[simp] theorem State.setCluster_exported (s : State) (k : CluId) (x : Cluster) : (s.setCluster k x).exported = s.exported := rfl
@[simp] theorem State.setCluster_cores (s : State) (k : CluId) (x : Cluster) : (s.setCluster k x).cores = s.cores := rfl
@[simp] theorem State.setCluster_dies (s : State) (k : CluId) (x : Cluster) : (s.setCluster k x).dies = s.dies := rfl
@[simp] theorem State.setCluster_packages (s : State) (k : CluId) (x : Cluster) : (s.setCluster k x).packages = s.packages := rfl
@[simp] theorem State.setCluster_acts (s : State) (k : CluId) (x : Cluster) : (s.setCluster k x).acts = s.acts := rfl
@[simp] theorem State.setCluster_qtoks (s : State) (k : CluId) (x : Cluster) : (s.setCluster k x).qtoks = s.qtoks := rfl
@[simp] theorem State.setCluster_saves (s : State) (k : CluId) (x : Cluster) : (s.setCluster k x).saves = s.saves := rfl
@[simp] theorem State.setCluster_hostOut (s : State) (k : CluId) (x : Cluster) : (s.setCluster k x).hostOut = s.hostOut := rfl

@[simp] theorem State.modCluster_podSize (s : State) (k : CluId) (f : Cluster → Cluster) : (s.modCluster k f).podSize = s.podSize := rfl
@[simp] theorem State.modCluster_now (s : State) (k : CluId) (f : Cluster → Cluster) : (s.modCluster k f).now = s.now := rfl
@[simp] theorem State.modCluster_elapse (s : State) (k : CluId) (f : Cluster → Cluster) : (s.modCluster k f).elapse = s.elapse := rfl
@[simp] theorem State.modCluster_errs (s : State) (k : CluId) (f : Cluster → Cluster) : (s.modCluster k f).errs = s.errs := rfl
@[simp] theorem State.modCluster_agenda (s : State) (k : CluId) (f : Cluster → Cluster) : (s.modCluster k f).agenda = s.agenda := rfl
@[simp] theorem State.modCluster_timers (s : State) (k : CluId) (f : Cluster → Cluster) : (s.modCluster k f).timers = s.timers := rfl
@[simp] theorem State.modCluster_cur (s : State) (k : CluId) (f : Cluster → Cluster) : (s.modCluster k f).cur = s.cur := rfl
@[simp] theorem State.modCluster_site (s : State) (k : CluId) (f : Cluster → Cluster) : (s.modCluster k f).site = s.site := rfl
@[simp] theorem State.modCluster_uid (s : State) (k : CluId) (f : Cluster → Cluster) : (s.modCluster k f).uid = s.uid := rfl
@[simp] theorem State.modCluster_free (s : State) (k : CluId) (f : Cluster → Cluster) : (s.modCluster k f).free = s.free := rfl
@[simp] theorem State.modCluster_mem (s : State) (k : CluId) (f : Cluster → Cluster) : (s.modCluster k f).mem = s.mem := rfl
@[simp] theorem State.modCluster_poison (s : State) (k : CluId) (f : Cluster → Cluster) : (s.modCluster k f).poison = s.poison := rfl
@[simp] theorem State.modCluster_exported (s : State) (k : CluId) (f : Cluster → Cluster) : (s.modCluster k f).exported = s.exported := rfl
@[simp] theorem State.modCluster_cores (s : State) (k : CluId) (f : Cluster → Cluster) : (s.modCluster k f).cores = s.cores := rfl
@[simp] theorem State.modCluster_dies (s : State) (k : CluId) (f : Cluster → Cluster) : (s.modCluster k f).dies = s.dies := rfl
@[simp] theorem State.modCluster_packages (s : State) (k : CluId) (f : Cluster → Cluster) : (s.modCluster k f).packages = s.packages := rfl
@[simp] theorem State.modCluster_acts (s : State) (k : CluId) (f : Cluster → Cluster) : (s.modCluster k f).acts = s.acts := rfl
@[simp] theorem State.modCluster_qtoks (s : State) (k : CluId) (f : Cluster → Cluster) : (s.modCluster k f).qtoks = s.qtoks := rfl
@[simp] theorem State.modCluster_saves (s : State) (k : CluId) (f : Cluster → Cluster) : (s.modCluster k f).saves = s.saves := rfl
@[simp] theorem State.modCluster_hostOut (s : State) (k : CluId) (f : Cluster → Cluster) : (s.modCluster k f).hostOut = s.hostOut := rfl

@[simp] theorem State.setDie_podSize (s : State) (d : DieId) (x : Die) : (s.setDie d x).podSize = s.podSize := rfl
@[simp] theorem State.setDie_now (s : State) (d : DieId) (x : Die) : (s.setDie d x).now = s.now := rfl
@[simp] theorem State.setDie_elapse (s : State) (d : DieId) (x : Die) : (s.setDie d x).elapse = s.elapse := rfl
@[simp] theorem State.setDie_errs (s : State) (d : DieId) (x : Die) : (s.setDie d x).errs = s.errs := rfl
@[simp] theorem State.setDie_agenda (s : State) (d : DieId) (x : Die) : (s.setDie d x).agenda = s.agenda := rfl
@[simp] theorem State.setDie_timers (s : State) (d : DieId) (x : Die) : (s.setDie d x).timers = s.timers := rfl
@[simp] theorem State.setDie_cur (s : State) (d : DieId) (x : Die) : (s.setDie d x).cur = s.cur := rfl
@[simp] theorem State.setDie_site (s : State) (d : DieId) (x : Die) : (s.setDie d x).site = s.site := rfl
@[simp] theorem State.setDie_uid (s : State) (d : DieId) (x : Die) : (s.setDie d x).uid = s.uid := rfl
@[simp] theorem State.setDie_free (s : State) (d : DieId) (x : Die) : (s.setDie d x).free = s.free := rfl
@[simp] theorem State.setDie_mem (s : State) (d : DieId) (x : Die) : (s.setDie d x).mem = s.mem := rfl
@[simp] theorem State.setDie_poison (s : State) (d : DieId) (x : Die) : (s.setDie d x).poison = s.poison := rfl
@[simp] theorem State.setDie_exported (s : State) (d : DieId) (x : Die) : (s.setDie d x).exported = s.exported := rfl
@[simp] theorem State.setDie_cores (s : State) (d : DieId) (x : Die) : (s.setDie d x).cores = s.cores := rfl
@[simp] theorem State.setDie_clusters (s : State) (d : DieId) (x : Die) : (s.setDie d x).clusters = s.clusters := rfl
@[simp] theorem State.setDie_packages (s : State) (d : DieId) (x : Die) : (s.setDie d x).packages = s.packages := rfl
@[simp] theorem State.setDie_acts (s : State) (d : DieId) (x : Die) : (s.setDie d x).acts = s.acts := rfl
@[simp] theorem State.setDie_qtoks (s : State) (d : DieId) (x : Die) : (s.setDie d x).qtoks = s.qtoks := rfl
@[simp] theorem State.setDie_saves (s : State) (d : DieId) (x : Die) : (s.setDie d x).saves = s.saves := rfl
@[simp] theorem State.setDie_hostOut (s : State) (d : DieId) (x : Die) : (s.setDie d x).hostOut = s.hostOut := rfl

@[simp] theorem State.modDie_podSize (s : State) (d : DieId) (f : Die → Die) : (s.modDie d f).podSize = s.podSize := rfl
@[simp] theorem State.modDie_now (s : State) (d : DieId) (f : Die → Die) : (s.modDie d f).now = s.now := rfl
@[simp] theorem State.modDie_elapse (s : State) (d : DieId) (f : Die → Die) : (s.modDie d f).elapse = s.elapse := rfl
@[simp] theorem State.modDie_errs (s : State) (d : DieId) (f : Die → Die) : (s.modDie d f).errs = s.errs := rfl
@[simp] theorem State.modDie_agenda (s : State) (d : DieId) (f : Die → Die) : (s.modDie d f).agenda = s.agenda := rfl
@[simp] theorem State.modDie_timers (s : State) (d : DieId) (f : Die → Die) : (s.modDie d f).timers = s.timers := rfl
@[simp] theorem State.modDie_cur (s : State) (d : DieId) (f : Die → Die) : (s.modDie d f).cur = s.cur := rfl
@[simp] theorem State.modDie_site (s : State) (d : DieId) (f : Die → Die) : (s.modDie d f).site = s.site := rfl
@[simp] theorem State.modDie_uid (s : State) (d : DieId) (f : Die → Die) : (s.modDie d f).uid = s.uid := rfl
@[simp] theorem State.modDie_free (s : State) (d : DieId) (f : Die → Die) : (s.modDie d f).free = s.free := rfl
@[simp] theorem State.modDie_mem (s : State) (d : DieId) (f : Die → Die) : (s.modDie d f).mem = s.mem := rfl
@[simp] theorem State.modDie_poison (s : State) (d : DieId) (f : Die → Die) : (s.modDie d f).poison = s.poison := rfl
@[simp] theorem State.modDie_exported (s : State) (d : DieId) (f : Die → Die) : (s.modDie d f).exported = s.exported := rfl
@[simp] theorem State.modDie_cores (s : State) (d : DieId) (f : Die → Die) : (s.modDie d f).cores = s.cores := rfl
@[simp] theorem State.modDie_clusters (s : State) (d : DieId) (f : Die → Die) : (s.modDie d f).clusters = s.clusters := rfl
@[simp] theorem State.modDie_packages (s : State) (d : DieId) (f : Die → Die) : (s.modDie d f).packages = s.packages := rfl
@[simp] theorem State.modDie_acts (s : State) (d : DieId) (f : Die → Die) : (s.modDie d f).acts = s.acts := rfl
@[simp] theorem State.modDie_qtoks (s : State) (d : DieId) (f : Die → Die) : (s.modDie d f).qtoks = s.qtoks := rfl
@[simp] theorem State.modDie_saves (s : State) (d : DieId) (f : Die → Die) : (s.modDie d f).saves = s.saves := rfl
@[simp] theorem State.modDie_hostOut (s : State) (d : DieId) (f : Die → Die) : (s.modDie d f).hostOut = s.hostOut := rfl

@[simp] theorem State.setPkg_podSize (s : State) (p : Nat) (x : Package) : (s.setPkg p x).podSize = s.podSize := rfl
@[simp] theorem State.setPkg_now (s : State) (p : Nat) (x : Package) : (s.setPkg p x).now = s.now := rfl
@[simp] theorem State.setPkg_elapse (s : State) (p : Nat) (x : Package) : (s.setPkg p x).elapse = s.elapse := rfl
@[simp] theorem State.setPkg_errs (s : State) (p : Nat) (x : Package) : (s.setPkg p x).errs = s.errs := rfl
@[simp] theorem State.setPkg_agenda (s : State) (p : Nat) (x : Package) : (s.setPkg p x).agenda = s.agenda := rfl
@[simp] theorem State.setPkg_timers (s : State) (p : Nat) (x : Package) : (s.setPkg p x).timers = s.timers := rfl
@[simp] theorem State.setPkg_cur (s : State) (p : Nat) (x : Package) : (s.setPkg p x).cur = s.cur := rfl
@[simp] theorem State.setPkg_site (s : State) (p : Nat) (x : Package) : (s.setPkg p x).site = s.site := rfl
@[simp] theorem State.setPkg_uid (s : State) (p : Nat) (x : Package) : (s.setPkg p x).uid = s.uid := rfl
@[simp] theorem State.setPkg_free (s : State) (p : Nat) (x : Package) : (s.setPkg p x).free = s.free := rfl
@[simp] theorem State.setPkg_mem (s : State) (p : Nat) (x : Package) : (s.setPkg p x).mem = s.mem := rfl
@[simp] theorem State.setPkg_poison (s : State) (p : Nat) (x : Package) : (s.setPkg p x).poison = s.poison := rfl
@[simp] theorem State.setPkg_exported (s : State) (p : Nat) (x : Package) : (s.setPkg p x).exported = s.exported := rfl
@[simp] theorem State.setPkg_cores (s : State) (p : Nat) (x : Package) : (s.setPkg p x).cores = s.cores := rfl
@[simp] theorem State.setPkg_clusters (s : State) (p : Nat) (x : Package) : (s.setPkg p x).clusters = s.clusters := rfl
@[simp] theorem State.setPkg_dies (s : State) (p : Nat) (x : Package) : (s.setPkg p x).dies = s.dies := rfl
@[simp] theorem State.setPkg_acts (s : State) (p : Nat) (x : Package) : (s.setPkg p x).acts = s.acts := rfl
@[simp] theorem State.setPkg_qtoks (s : State) (p : Nat) (x : Package) : (s.setPkg p x).qtoks = s.qtoks := rfl
@[simp] theorem State.setPkg_saves (s : State) (p : Nat) (x : Package) : (s.setPkg p x).saves = s.saves := rfl
@[simp] theorem State.setPkg_hostOut (s : State) (p : Nat) (x : Package) : (s.setPkg p x).hostOut = s.hostOut := rfl

@[simp] theorem State.modPkg_podSize (s : State) (p : Nat) (f : Package → Package) : (s.modPkg p f).podSize = s.podSize := rfl
@[simp] theorem State.modPkg_now (s : State) (p : Nat) (f : Package → Package) : (s.modPkg p f).now = s.now := rfl
@[simp] theorem State.modPkg_elapse (s : State) (p : Nat) (f : Package → Package) : (s.modPkg p f).elapse = s.elapse := rfl
@[simp] theorem State.modPkg_errs (s : State) (p : Nat) (f : Package → Package) : (s.modPkg p f).errs = s.errs := rfl
@[simp] theorem State.modPkg_agenda (s : State) (p : Nat) (f : Package → Package) : (s.modPkg p f).agenda = s.agenda := rfl
@[simp] theorem State.modPkg_timers (s : State) (p : Nat) (f : Package → Package) : (s.modPkg p f).timers = s.timers := rfl
@[simp] theorem State.modPkg_cur (s : State) (p : Nat) (f : Package → Package) : (s.modPkg p f).cur = s.cur := rfl
@[simp] theorem State.modPkg_site (s : State) (p : Nat) (f : Package → Package) : (s.modPkg p f).site = s.site := rfl
@[simp] theorem State.modPkg_uid (s : State) (p : Nat) (f : Package → Package) : (s.modPkg p f).uid = s.uid := rfl
@[simp] theorem State.modPkg_free (s : State) (p : Nat) (f : Package → Package) : (s.modPkg p f).free = s.free := rfl
@[simp] theorem State.modPkg_mem (s : State) (p : Nat) (f : Package → Package) : (s.modPkg p f).mem = s.mem := rfl
@[simp] theorem State.modPkg_poison (s : State) (p : Nat) (f : Package → Package) : (s.modPkg p f).poison = s.poison := rfl
@[simp] theorem State.modPkg_exported (s : State) (p : Nat) (f : Package → Package) : (s.modPkg p f).exported = s.exported := rfl
@[simp] theorem State.modPkg_cores (s : State) (p : Nat) (f : Package → Package) : (s.modPkg p f).cores = s.cores := rfl
@[simp] theorem State.modPkg_clusters (s : State) (p : Nat) (f : Package → Package) : (s.modPkg p f).clusters = s.clusters := rfl
@[simp] theorem State.modPkg_dies (s : State) (p : Nat) (f : Package → Package) : (s.modPkg p f).dies = s.dies := rfl
@[simp] theorem State.modPkg_acts (s : State) (p : Nat) (f : Package → Package) : (s.modPkg p f).acts = s.acts := rfl
@[simp] theorem State.modPkg_qtoks (s : State) (p : Nat) (f : Package → Package) : (s.modPkg p f).qtoks = s.qtoks := rfl
@[simp] theorem State.modPkg_saves (s : State) (p : Nat) (f : Package → Package) : (s.modPkg p f).saves = s.saves := rfl
@[simp] theorem State.modPkg_hostOut (s : State) (p : Nat) (f : Package → Package) : (s.modPkg p f).hostOut = s.hostOut := rfl

@[simp] theorem State.setAct_podSize (s : State) (a : Nat) (x : Act) : (s.setAct a x).podSize = s.podSize := rfl
@[simp] theorem State.setAct_now (s : State) (a : Nat) (x : Act) : (s.setAct a x).now = s.now := rfl
@[simp] theorem State.setAct_elapse (s : State) (a : Nat) (x : Act) : (s.setAct a x).elapse = s.elapse := rfl
@[simp] theorem State.setAct_errs (s : State) (a : Nat) (x : Act) : (s.setAct a x).errs = s.errs := rfl
@[simp] theorem State.setAct_agenda (s : State) (a : Nat) (x : Act) : (s.setAct a x).agenda = s.agenda := rfl
@[simp] theorem State.setAct_timers (s : State) (a : Nat) (x : Act) : (s.setAct a x).timers = s.timers := rfl
@[simp] theorem State.setAct_cur (s : State) (a : Nat) (x : Act) : (s.setAct a x).cur = s.cur := rfl
@[simp] theorem State.setAct_site (s : State) (a : Nat) (x : Act) : (s.setAct a x).site = s.site := rfl
@[simp] theorem State.setAct_uid (s : State) (a : Nat) (x : Act) : (s.setAct a x).uid = s.uid := rfl
@[simp] theorem State.setAct_free (s : State) (a : Nat) (x : Act) : (s.setAct a x).free = s.free := rfl
@[simp] theorem State.setAct_mem (s : State) (a : Nat) (x : Act) : (s.setAct a x).mem = s.mem := rfl
@[simp] theorem State.setAct_poison (s : State) (a : Nat) (x : Act) : (s.setAct a x).poison = s.poison := rfl
@[simp] theorem State.setAct_exported (s : State) (a : Nat) (x : Act) : (s.setAct a x).exported = s.exported := rfl
@[simp] theorem State.setAct_cores (s : State) (a : Nat) (x : Act) : (s.setAct a x).cores = s.cores := rfl
@[simp] theorem State.setAct_clusters (s : State) (a : Nat) (x : Act) : (s.setAct a x).clusters = s.clusters := rfl
@[simp] theorem State.setAct_dies (s : State) (a : Nat) (x : Act) : (s.setAct a x).dies = s.dies := rfl
@[simp] theorem State.setAct_packages (s : State) (a : Nat) (x : Act) : (s.setAct a x).packages = s.packages := rfl
@[simp] theorem State.setAct_qtoks (s : State) (a : Nat) (x : Act) : (s.setAct a x).qtoks = s.qtoks := rfl
@[simp] theorem State.setAct_saves (s : State) (a : Nat) (x : Act) : (s.setAct a x).saves = s.saves := rfl
@[simp] theorem State.setAct_hostOut (s : State) (a : Nat) (x : Act) : (s.setAct a x).hostOut = s.hostOut := rfl

@[simp] theorem State.later_podSize (s : State) (i : Instr) : (s.later i).podSize = s.podSize := rfl
@[simp] theorem State.later_now (s : State) (i : Instr) : (s.later i).now = s.now := rfl
@[simp] theorem State.later_elapse (s : State) (i : Instr) : (s.later i).elapse = s.elapse := rfl
@[simp] theorem State.later_errs (s : State) (i : Instr) : (s.later i).errs = s.errs := rfl
@[simp] theorem State.later_timers (s : State) (i : Instr) : (s.later i).timers = s.timers := rfl
@[simp] theorem State.later_cur (s : State) (i : Instr) : (s.later i).cur = s.cur := rfl
@[simp] theorem State.later_site (s : State) (i : Instr) : (s.later i).site = s.site := rfl
@[simp] theorem State.later_uid (s : State) (i : Instr) : (s.later i).uid = s.uid := rfl
@[simp] theorem State.later_free (s : State) (i : Instr) : (s.later i).free = s.free := rfl
@[simp] theorem State.later_mem (s : State) (i : Instr) : (s.later i).mem = s.mem := rfl
@[simp] theorem State.later_poison (s : State) (i : Instr) : (s.later i).poison = s.poison := rfl
@[simp] theorem State.later_exported (s : State) (i : Instr) : (s.later i).exported = s.exported := rfl
@[simp] theorem State.later_cores (s : State) (i : Instr) : (s.later i).cores = s.cores := rfl
@[simp] theorem State.later_clusters (s : State) (i : Instr) : (s.later i).clusters = s.clusters := rfl
@[simp] theorem State.later_dies (s : State) (i : Instr) : (s.later i).dies = s.dies := rfl
@[simp] theorem State.later_packages (s : State) (i : Instr) : (s.later i).packages = s.packages := rfl
@[simp] theorem State.later_acts (s : State) (i : Instr) : (s.later i).acts = s.acts := rfl
@[simp] theorem State.later_qtoks (s : State) (i : Instr) : (s.later i).qtoks = s.qtoks := rfl
@[simp] theorem State.later_saves (s : State) (i : Instr) : (s.later i).saves = s.saves := rfl
@[simp] theorem State.later_hostOut (s : State) (i : Instr) : (s.later i).hostOut = s.hostOut := rfl

@[simp] theorem State.laterAt_podSize (s : State) (i : Instr) (c : CoreId) (n m : Nat) (b : Bool) : (s.laterAt i c n m b).podSize = s.podSize := rfl
@[simp] theorem State.laterAt_now (s : State) (i : Instr) (c : CoreId) (n m : Nat) (b : Bool) : (s.laterAt i c n m b).now = s.now := rfl
@[simp] theorem State.laterAt_elapse (s : State) (i : Instr) (c : CoreId) (n m : Nat) (b : Bool) : (s.laterAt i c n m b).elapse = s.elapse := rfl
@[simp] theorem State.laterAt_errs (s : State) (i : Instr) (c : CoreId) (n m : Nat) (b : Bool) : (s.laterAt i c n m b).errs = s.errs := rfl
@[simp] theorem State.laterAt_timers (s : State) (i : Instr) (c : CoreId) (n m : Nat) (b : Bool) : (s.laterAt i c n m b).timers = s.timers := rfl
@[simp] theorem State.laterAt_cur (s : State) (i : Instr) (c : CoreId) (n m : Nat) (b : Bool) : (s.laterAt i c n m b).cur = s.cur := rfl
@[simp] theorem State.laterAt_site (s : State) (i : Instr) (c : CoreId) (n m : Nat) (b : Bool) : (s.laterAt i c n m b).site = s.site := rfl
@[simp] theorem State.laterAt_uid (s : State) (i : Instr) (c : CoreId) (n m : Nat) (b : Bool) : (s.laterAt i c n m b).uid = s.uid := rfl
@[simp] theorem State.laterAt_free (s : State) (i : Instr) (c : CoreId) (n m : Nat) (b : Bool) : (s.laterAt i c n m b).free = s.free := rfl
@[simp] theorem State.laterAt_mem (s : State) (i : Instr) (c : CoreId) (n m : Nat) (b : Bool) : (s.laterAt i c n m b).mem = s.mem := rfl
@[simp] theorem State.laterAt_poison (s : State) (i : Instr) (c : CoreId) (n m : Nat) (b : Bool) : (s.laterAt i c n m b).poison = s.poison := rfl
@[simp] theorem State.laterAt_exported (s : State) (i : Instr) (c : CoreId) (n m : Nat) (b : Bool) : (s.laterAt i c n m b).exported = s.exported := rfl
@[simp] theorem State.laterAt_cores (s : State) (i : Instr) (c : CoreId) (n m : Nat) (b : Bool) : (s.laterAt i c n m b).cores = s.cores := rfl
@[simp] theorem State.laterAt_clusters (s : State) (i : Instr) (c : CoreId) (n m : Nat) (b : Bool) : (s.laterAt i c n m b).clusters = s.clusters := rfl
@[simp] theorem State.laterAt_dies (s : State) (i : Instr) (c : CoreId) (n m : Nat) (b : Bool) : (s.laterAt i c n m b).dies = s.dies := rfl
@[simp] theorem State.laterAt_packages (s : State) (i : Instr) (c : CoreId) (n m : Nat) (b : Bool) : (s.laterAt i c n m b).packages = s.packages := rfl
@[simp] theorem State.laterAt_acts (s : State) (i : Instr) (c : CoreId) (n m : Nat) (b : Bool) : (s.laterAt i c n m b).acts = s.acts := rfl
@[simp] theorem State.laterAt_qtoks (s : State) (i : Instr) (c : CoreId) (n m : Nat) (b : Bool) : (s.laterAt i c n m b).qtoks = s.qtoks := rfl
@[simp] theorem State.laterAt_saves (s : State) (i : Instr) (c : CoreId) (n m : Nat) (b : Bool) : (s.laterAt i c n m b).saves = s.saves := rfl
@[simp] theorem State.laterAt_hostOut (s : State) (i : Instr) (c : CoreId) (n m : Nat) (b : Bool) : (s.laterAt i c n m b).hostOut = s.hostOut := rfl

@[simp] theorem State.laterAll_podSize (s : State) (is : List Item) : (s.laterAll is).podSize = s.podSize := rfl
@[simp] theorem State.laterAll_now (s : State) (is : List Item) : (s.laterAll is).now = s.now := rfl
@[simp] theorem State.laterAll_elapse (s : State) (is : List Item) : (s.laterAll is).elapse = s.elapse := rfl
@[simp] theorem State.laterAll_errs (s : State) (is : List Item) : (s.laterAll is).errs = s.errs := rfl
@[simp] theorem State.laterAll_timers (s : State) (is : List Item) : (s.laterAll is).timers = s.timers := rfl
@[simp] theorem State.laterAll_cur (s : State) (is : List Item) : (s.laterAll is).cur = s.cur := rfl
@[simp] theorem State.laterAll_site (s : State) (is : List Item) : (s.laterAll is).site = s.site := rfl
@[simp] theorem State.laterAll_uid (s : State) (is : List Item) : (s.laterAll is).uid = s.uid := rfl
@[simp] theorem State.laterAll_free (s : State) (is : List Item) : (s.laterAll is).free = s.free := rfl
@[simp] theorem State.laterAll_mem (s : State) (is : List Item) : (s.laterAll is).mem = s.mem := rfl
@[simp] theorem State.laterAll_poison (s : State) (is : List Item) : (s.laterAll is).poison = s.poison := rfl
@[simp] theorem State.laterAll_exported (s : State) (is : List Item) : (s.laterAll is).exported = s.exported := rfl
@[simp] theorem State.laterAll_cores (s : State) (is : List Item) : (s.laterAll is).cores = s.cores := rfl
@[simp] theorem State.laterAll_clusters (s : State) (is : List Item) : (s.laterAll is).clusters = s.clusters := rfl
@[simp] theorem State.laterAll_dies (s : State) (is : List Item) : (s.laterAll is).dies = s.dies := rfl
@[simp] theorem State.laterAll_packages (s : State) (is : List Item) : (s.laterAll is).packages = s.packages := rfl
@[simp] theorem State.laterAll_acts (s : State) (is : List Item) : (s.laterAll is).acts = s.acts := rfl
@[simp] theorem State.laterAll_qtoks (s : State) (is : List Item) : (s.laterAll is).qtoks = s.qtoks := rfl
@[simp] theorem State.laterAll_saves (s : State) (is : List Item) : (s.laterAll is).saves = s.saves := rfl
@[simp] theorem State.laterAll_hostOut (s : State) (is : List Item) : (s.laterAll is).hostOut = s.hostOut := rfl

@[simp] theorem State.nextUp_podSize (s : State) (i : Instr) : (s.nextUp i).podSize = s.podSize := rfl
@[simp] theorem State.nextUp_now (s : State) (i : Instr) : (s.nextUp i).now = s.now := rfl
@[simp] theorem State.nextUp_elapse (s : State) (i : Instr) : (s.nextUp i).elapse = s.elapse := rfl
@[simp] theorem State.nextUp_errs (s : State) (i : Instr) : (s.nextUp i).errs = s.errs := rfl
@[simp] theorem State.nextUp_timers (s : State) (i : Instr) : (s.nextUp i).timers = s.timers := rfl
@[simp] theorem State.nextUp_cur (s : State) (i : Instr) : (s.nextUp i).cur = s.cur := rfl
@[simp] theorem State.nextUp_site (s : State) (i : Instr) : (s.nextUp i).site = s.site := rfl
@[simp] theorem State.nextUp_uid (s : State) (i : Instr) : (s.nextUp i).uid = s.uid := rfl
@[simp] theorem State.nextUp_free (s : State) (i : Instr) : (s.nextUp i).free = s.free := rfl
@[simp] theorem State.nextUp_mem (s : State) (i : Instr) : (s.nextUp i).mem = s.mem := rfl
@[simp] theorem State.nextUp_poison (s : State) (i : Instr) : (s.nextUp i).poison = s.poison := rfl
@[simp] theorem State.nextUp_exported (s : State) (i : Instr) : (s.nextUp i).exported = s.exported := rfl
@[simp] theorem State.nextUp_cores (s : State) (i : Instr) : (s.nextUp i).cores = s.cores := rfl
@[simp] theorem State.nextUp_clusters (s : State) (i : Instr) : (s.nextUp i).clusters = s.clusters := rfl
@[simp] theorem State.nextUp_dies (s : State) (i : Instr) : (s.nextUp i).dies = s.dies := rfl
@[simp] theorem State.nextUp_packages (s : State) (i : Instr) : (s.nextUp i).packages = s.packages := rfl
@[simp] theorem State.nextUp_acts (s : State) (i : Instr) : (s.nextUp i).acts = s.acts := rfl
@[simp] theorem State.nextUp_qtoks (s : State) (i : Instr) : (s.nextUp i).qtoks = s.qtoks := rfl
@[simp] theorem State.nextUp_saves (s : State) (i : Instr) : (s.nextUp i).saves = s.saves := rfl
@[simp] theorem State.nextUp_hostOut (s : State) (i : Instr) : (s.nextUp i).hostOut = s.hostOut := rfl

@[simp] theorem State.issueLater_podSize (s : State) (c : CoreId) : (s.issueLater c).podSize = s.podSize := rfl
@[simp] theorem State.issueLater_now (s : State) (c : CoreId) : (s.issueLater c).now = s.now := rfl
@[simp] theorem State.issueLater_elapse (s : State) (c : CoreId) : (s.issueLater c).elapse = s.elapse := rfl
@[simp] theorem State.issueLater_errs (s : State) (c : CoreId) : (s.issueLater c).errs = s.errs := rfl
@[simp] theorem State.issueLater_timers (s : State) (c : CoreId) : (s.issueLater c).timers = s.timers := rfl
@[simp] theorem State.issueLater_cur (s : State) (c : CoreId) : (s.issueLater c).cur = s.cur := rfl
@[simp] theorem State.issueLater_site (s : State) (c : CoreId) : (s.issueLater c).site = s.site := rfl
@[simp] theorem State.issueLater_uid (s : State) (c : CoreId) : (s.issueLater c).uid = s.uid := rfl
@[simp] theorem State.issueLater_free (s : State) (c : CoreId) : (s.issueLater c).free = s.free := rfl
@[simp] theorem State.issueLater_mem (s : State) (c : CoreId) : (s.issueLater c).mem = s.mem := rfl
@[simp] theorem State.issueLater_poison (s : State) (c : CoreId) : (s.issueLater c).poison = s.poison := rfl
@[simp] theorem State.issueLater_exported (s : State) (c : CoreId) : (s.issueLater c).exported = s.exported := rfl
@[simp] theorem State.issueLater_cores (s : State) (c : CoreId) : (s.issueLater c).cores = s.cores := rfl
@[simp] theorem State.issueLater_clusters (s : State) (c : CoreId) : (s.issueLater c).clusters = s.clusters := rfl
@[simp] theorem State.issueLater_dies (s : State) (c : CoreId) : (s.issueLater c).dies = s.dies := rfl
@[simp] theorem State.issueLater_packages (s : State) (c : CoreId) : (s.issueLater c).packages = s.packages := rfl
@[simp] theorem State.issueLater_acts (s : State) (c : CoreId) : (s.issueLater c).acts = s.acts := rfl
@[simp] theorem State.issueLater_qtoks (s : State) (c : CoreId) : (s.issueLater c).qtoks = s.qtoks := rfl
@[simp] theorem State.issueLater_saves (s : State) (c : CoreId) : (s.issueLater c).saves = s.saves := rfl
@[simp] theorem State.issueLater_hostOut (s : State) (c : CoreId) : (s.issueLater c).hostOut = s.hostOut := rfl

@[simp] theorem State.at_podSize (s : State) (due : Nat) (i : Instr) (x : Site) : (s.at_ due i x).podSize = s.podSize := rfl
@[simp] theorem State.at_now (s : State) (due : Nat) (i : Instr) (x : Site) : (s.at_ due i x).now = s.now := rfl
@[simp] theorem State.at_elapse (s : State) (due : Nat) (i : Instr) (x : Site) : (s.at_ due i x).elapse = s.elapse := rfl
@[simp] theorem State.at_errs (s : State) (due : Nat) (i : Instr) (x : Site) : (s.at_ due i x).errs = s.errs := rfl
@[simp] theorem State.at_agenda (s : State) (due : Nat) (i : Instr) (x : Site) : (s.at_ due i x).agenda = s.agenda := rfl
@[simp] theorem State.at_cur (s : State) (due : Nat) (i : Instr) (x : Site) : (s.at_ due i x).cur = s.cur := rfl
@[simp] theorem State.at_site (s : State) (due : Nat) (i : Instr) (x : Site) : (s.at_ due i x).site = s.site := rfl
@[simp] theorem State.at_uid (s : State) (due : Nat) (i : Instr) (x : Site) : (s.at_ due i x).uid = s.uid := rfl
@[simp] theorem State.at_free (s : State) (due : Nat) (i : Instr) (x : Site) : (s.at_ due i x).free = s.free := rfl
@[simp] theorem State.at_mem (s : State) (due : Nat) (i : Instr) (x : Site) : (s.at_ due i x).mem = s.mem := rfl
@[simp] theorem State.at_poison (s : State) (due : Nat) (i : Instr) (x : Site) : (s.at_ due i x).poison = s.poison := rfl
@[simp] theorem State.at_exported (s : State) (due : Nat) (i : Instr) (x : Site) : (s.at_ due i x).exported = s.exported := rfl
@[simp] theorem State.at_cores (s : State) (due : Nat) (i : Instr) (x : Site) : (s.at_ due i x).cores = s.cores := rfl
@[simp] theorem State.at_clusters (s : State) (due : Nat) (i : Instr) (x : Site) : (s.at_ due i x).clusters = s.clusters := rfl
@[simp] theorem State.at_dies (s : State) (due : Nat) (i : Instr) (x : Site) : (s.at_ due i x).dies = s.dies := rfl
@[simp] theorem State.at_packages (s : State) (due : Nat) (i : Instr) (x : Site) : (s.at_ due i x).packages = s.packages := rfl
@[simp] theorem State.at_acts (s : State) (due : Nat) (i : Instr) (x : Site) : (s.at_ due i x).acts = s.acts := rfl
@[simp] theorem State.at_qtoks (s : State) (due : Nat) (i : Instr) (x : Site) : (s.at_ due i x).qtoks = s.qtoks := rfl
@[simp] theorem State.at_saves (s : State) (due : Nat) (i : Instr) (x : Site) : (s.at_ due i x).saves = s.saves := rfl
@[simp] theorem State.at_hostOut (s : State) (due : Nat) (i : Instr) (x : Site) : (s.at_ due i x).hostOut = s.hostOut := rfl

@[simp] theorem State.fresh_podSize (s : State) : (s.fresh.2).podSize = s.podSize := rfl
@[simp] theorem State.fresh_now (s : State) : (s.fresh.2).now = s.now := rfl
@[simp] theorem State.fresh_elapse (s : State) : (s.fresh.2).elapse = s.elapse := rfl
@[simp] theorem State.fresh_errs (s : State) : (s.fresh.2).errs = s.errs := rfl
@[simp] theorem State.fresh_agenda (s : State) : (s.fresh.2).agenda = s.agenda := rfl
@[simp] theorem State.fresh_timers (s : State) : (s.fresh.2).timers = s.timers := rfl
@[simp] theorem State.fresh_cur (s : State) : (s.fresh.2).cur = s.cur := rfl
@[simp] theorem State.fresh_site (s : State) : (s.fresh.2).site = s.site := rfl
@[simp] theorem State.fresh_free (s : State) : (s.fresh.2).free = s.free := rfl
@[simp] theorem State.fresh_mem (s : State) : (s.fresh.2).mem = s.mem := rfl
@[simp] theorem State.fresh_poison (s : State) : (s.fresh.2).poison = s.poison := rfl
@[simp] theorem State.fresh_exported (s : State) : (s.fresh.2).exported = s.exported := rfl
@[simp] theorem State.fresh_cores (s : State) : (s.fresh.2).cores = s.cores := rfl
@[simp] theorem State.fresh_clusters (s : State) : (s.fresh.2).clusters = s.clusters := rfl
@[simp] theorem State.fresh_dies (s : State) : (s.fresh.2).dies = s.dies := rfl
@[simp] theorem State.fresh_packages (s : State) : (s.fresh.2).packages = s.packages := rfl
@[simp] theorem State.fresh_acts (s : State) : (s.fresh.2).acts = s.acts := rfl
@[simp] theorem State.fresh_qtoks (s : State) : (s.fresh.2).qtoks = s.qtoks := rfl
@[simp] theorem State.fresh_saves (s : State) : (s.fresh.2).saves = s.saves := rfl
@[simp] theorem State.fresh_hostOut (s : State) : (s.fresh.2).hostOut = s.hostOut := rfl

@[simp] theorem State.tick_podSize (s : State) : (s.tick).podSize = s.podSize := rfl
@[simp] theorem State.tick_agenda (s : State) : (s.tick).agenda = s.agenda := rfl
@[simp] theorem State.tick_timers (s : State) : (s.tick).timers = s.timers := rfl
@[simp] theorem State.tick_cur (s : State) : (s.tick).cur = s.cur := rfl
@[simp] theorem State.tick_site (s : State) : (s.tick).site = s.site := rfl
@[simp] theorem State.tick_uid (s : State) : (s.tick).uid = s.uid := rfl
@[simp] theorem State.tick_free (s : State) : (s.tick).free = s.free := rfl
@[simp] theorem State.tick_mem (s : State) : (s.tick).mem = s.mem := rfl
@[simp] theorem State.tick_exported (s : State) : (s.tick).exported = s.exported := rfl
@[simp] theorem State.tick_cores (s : State) : (s.tick).cores = s.cores := rfl
@[simp] theorem State.tick_clusters (s : State) : (s.tick).clusters = s.clusters := rfl
@[simp] theorem State.tick_dies (s : State) : (s.tick).dies = s.dies := rfl
@[simp] theorem State.tick_packages (s : State) : (s.tick).packages = s.packages := rfl
@[simp] theorem State.tick_acts (s : State) : (s.tick).acts = s.acts := rfl
@[simp] theorem State.tick_qtoks (s : State) : (s.tick).qtoks = s.qtoks := rfl
@[simp] theorem State.tick_saves (s : State) : (s.tick).saves = s.saves := rfl
@[simp] theorem State.tick_hostOut (s : State) : (s.tick).hostOut = s.hostOut := rfl

@[simp] theorem State.later_agenda (s : State) (i : Instr) : (s.later i).agenda = s.agenda ++ [.event i Site.zero] := rfl
@[simp] theorem State.laterAt_agenda (s : State) (i : Instr) (c : CoreId) (n m : Nat) (b : Bool) :
    (s.laterAt i c n m b).agenda = s.agenda ++ [.event i ⟨c, n, m, b⟩] := rfl
@[simp] theorem State.laterAll_agenda (s : State) (is : List Item) : (s.laterAll is).agenda = s.agenda ++ is := rfl
@[simp] theorem State.nextUp_agenda (s : State) (i : Instr) : (s.nextUp i).agenda = .event i Site.zero :: s.agenda := rfl
@[simp] theorem State.issueLater_agenda (s : State) (c : CoreId) : (s.issueLater c).agenda = s.agenda ++ [.issue c] := rfl
@[simp] theorem State.at_timers (s : State) (due : Nat) (i : Instr) (x : Site) :
    (s.at_ due i x).timers = s.timers ++ [⟨due, i, x⟩] := rfl
@[simp] theorem State.fresh_fst (s : State) : s.fresh.1 = s.uid := rfl
@[simp] theorem State.fresh_uid (s : State) : s.fresh.2.uid = s.uid + 1 := rfl
@[simp] theorem State.tick_now (s : State) : s.tick.now = s.now + s.elapse.headD 1 := rfl
@[simp] theorem State.tick_elapse (s : State) : s.tick.elapse = s.elapse.tail := rfl
@[simp] theorem State.tick_errs (s : State) : s.tick.errs = s.errs.tail := rfl
@[simp] theorem State.tick_poison (s : State) : s.tick.poison = s.marked (s.errs.headD []) := rfl

/-! ## Keyed lists -/

@[simp] theorem Assoc.get?_set_same {κ α : Type} [DecidableEq κ] (m : List (κ × α)) (k : κ) (v : α) :
    Assoc.get? (Assoc.set m k v) k = some v := by
  induction m with
  | nil => simp [Assoc.set, Assoc.get?]
  | cons p t ih =>
    obtain ⟨k', v'⟩ := p
    by_cases h : k' = k
    · simp [Assoc.set, Assoc.get?, h]
    · simp [Assoc.set, Assoc.get?, h, ih]

theorem Assoc.get?_set_ne {κ α : Type} [DecidableEq κ] (m : List (κ × α)) (k x : κ) (v : α) (h : k ≠ x) :
    Assoc.get? (Assoc.set m k v) x = Assoc.get? m x := by
  induction m with
  | nil => simp [Assoc.set, Assoc.get?, h]
  | cons p t ih =>
    obtain ⟨k', v'⟩ := p
    by_cases h' : k' = k
    · subst h'; simp [Assoc.set, Assoc.get?, h]
    · by_cases h'' : k' = x
      · subst h''; simp [Assoc.set, Assoc.get?, h']
      · simp [Assoc.set, Assoc.get?, h', h'', ih]

/-- The value at a key after a set: the new value at that key, the old one elsewhere. -/
theorem Assoc.getD_set {κ α : Type} [DecidableEq κ] (m : List (κ × α)) (k x : κ) (v d : α) :
    Assoc.getD (Assoc.set m k v) x d = if k = x then v else Assoc.getD m x d := by
  by_cases h : k = x
  · subst h; simp [Assoc.getD]
  · simp [Assoc.getD, Assoc.get?_set_ne _ _ _ _ h, h]

/-! ## Parts read after parts written -/

theorem State.core_setCore (s : State) (c x : CoreId) (k : Core) :
    (s.setCore c k).core x = if c = x then k else s.core x := Assoc.getD_set _ _ _ _ _
theorem State.core_modCore (s : State) (c x : CoreId) (f : Core → Core) :
    (s.modCore c f).core x = if c = x then f (s.core c) else s.core x := Assoc.getD_set _ _ _ _ _
@[simp] theorem State.core_modCore_same (s : State) (c : CoreId) (f : Core → Core) : (s.modCore c f).core c = f (s.core c) := by
  simp [State.core_modCore]
theorem State.cluster_setCluster (s : State) (k x : CluId) (y : Cluster) :
    (s.setCluster k y).cluster x = if k = x then y else s.cluster x := Assoc.getD_set _ _ _ _ _
theorem State.cluster_modCluster (s : State) (k x : CluId) (f : Cluster → Cluster) :
    (s.modCluster k f).cluster x = if k = x then f (s.cluster k) else s.cluster x := Assoc.getD_set _ _ _ _ _
theorem State.die_setDie (s : State) (d x : DieId) (y : Die) :
    (s.setDie d y).die x = if d = x then y else s.die x := Assoc.getD_set _ _ _ _ _
theorem State.die_modDie (s : State) (d x : DieId) (f : Die → Die) :
    (s.modDie d f).die x = if d = x then f (s.die d) else s.die x := Assoc.getD_set _ _ _ _ _
theorem State.pkg_setPkg (s : State) (p x : Nat) (y : Package) :
    (s.setPkg p y).pkg x = if p = x then y else s.pkg x := Assoc.getD_set _ _ _ _ _
theorem State.pkg_modPkg (s : State) (p x : Nat) (f : Package → Package) :
    (s.modPkg p f).pkg x = if p = x then f (s.pkg p) else s.pkg x := Assoc.getD_set _ _ _ _ _
theorem State.act_setAct (s : State) (a x : Nat) (y : Act) :
    (s.setAct a y).act x = if a = x then y else s.act x := Assoc.getD_set _ _ _ _ _

/-- What changing an activation does: the change where the activation stands, nothing where it is gone. -/
theorem State.modAct_cases (s : State) (a : Nat) (f : Act → Act) :
    (∃ x, Assoc.get? s.acts a = some x ∧ s.modAct a f = s.setAct a (f x)) ∨ (Assoc.get? s.acts a = none ∧ s.modAct a f = s) := by
  unfold State.modAct
  cases h : Assoc.get? s.acts a with
  | none => exact .inr ⟨rfl, rfl⟩
  | some x => exact .inl ⟨x, rfl, rfl⟩

@[simp] theorem State.modAct_podSize (s : State) (a : Nat) (f : Act → Act) : (s.modAct a f).podSize = s.podSize := by
  rcases s.modAct_cases a f with ⟨_, _, h⟩ | ⟨_, h⟩ <;> simp [h]
@[simp] theorem State.modAct_now (s : State) (a : Nat) (f : Act → Act) : (s.modAct a f).now = s.now := by
  rcases s.modAct_cases a f with ⟨_, _, h⟩ | ⟨_, h⟩ <;> simp [h]
@[simp] theorem State.modAct_elapse (s : State) (a : Nat) (f : Act → Act) : (s.modAct a f).elapse = s.elapse := by
  rcases s.modAct_cases a f with ⟨_, _, h⟩ | ⟨_, h⟩ <;> simp [h]
@[simp] theorem State.modAct_errs (s : State) (a : Nat) (f : Act → Act) : (s.modAct a f).errs = s.errs := by
  rcases s.modAct_cases a f with ⟨_, _, h⟩ | ⟨_, h⟩ <;> simp [h]
@[simp] theorem State.modAct_agenda (s : State) (a : Nat) (f : Act → Act) : (s.modAct a f).agenda = s.agenda := by
  rcases s.modAct_cases a f with ⟨_, _, h⟩ | ⟨_, h⟩ <;> simp [h]
@[simp] theorem State.modAct_timers (s : State) (a : Nat) (f : Act → Act) : (s.modAct a f).timers = s.timers := by
  rcases s.modAct_cases a f with ⟨_, _, h⟩ | ⟨_, h⟩ <;> simp [h]
@[simp] theorem State.modAct_cur (s : State) (a : Nat) (f : Act → Act) : (s.modAct a f).cur = s.cur := by
  rcases s.modAct_cases a f with ⟨_, _, h⟩ | ⟨_, h⟩ <;> simp [h]
@[simp] theorem State.modAct_site (s : State) (a : Nat) (f : Act → Act) : (s.modAct a f).site = s.site := by
  rcases s.modAct_cases a f with ⟨_, _, h⟩ | ⟨_, h⟩ <;> simp [h]
@[simp] theorem State.modAct_uid (s : State) (a : Nat) (f : Act → Act) : (s.modAct a f).uid = s.uid := by
  rcases s.modAct_cases a f with ⟨_, _, h⟩ | ⟨_, h⟩ <;> simp [h]
@[simp] theorem State.modAct_free (s : State) (a : Nat) (f : Act → Act) : (s.modAct a f).free = s.free := by
  rcases s.modAct_cases a f with ⟨_, _, h⟩ | ⟨_, h⟩ <;> simp [h]
@[simp] theorem State.modAct_mem (s : State) (a : Nat) (f : Act → Act) : (s.modAct a f).mem = s.mem := by
  rcases s.modAct_cases a f with ⟨_, _, h⟩ | ⟨_, h⟩ <;> simp [h]
@[simp] theorem State.modAct_poison (s : State) (a : Nat) (f : Act → Act) : (s.modAct a f).poison = s.poison := by
  rcases s.modAct_cases a f with ⟨_, _, h⟩ | ⟨_, h⟩ <;> simp [h]
@[simp] theorem State.modAct_exported (s : State) (a : Nat) (f : Act → Act) : (s.modAct a f).exported = s.exported := by
  rcases s.modAct_cases a f with ⟨_, _, h⟩ | ⟨_, h⟩ <;> simp [h]
@[simp] theorem State.modAct_cores (s : State) (a : Nat) (f : Act → Act) : (s.modAct a f).cores = s.cores := by
  rcases s.modAct_cases a f with ⟨_, _, h⟩ | ⟨_, h⟩ <;> simp [h]
@[simp] theorem State.modAct_clusters (s : State) (a : Nat) (f : Act → Act) : (s.modAct a f).clusters = s.clusters := by
  rcases s.modAct_cases a f with ⟨_, _, h⟩ | ⟨_, h⟩ <;> simp [h]
@[simp] theorem State.modAct_dies (s : State) (a : Nat) (f : Act → Act) : (s.modAct a f).dies = s.dies := by
  rcases s.modAct_cases a f with ⟨_, _, h⟩ | ⟨_, h⟩ <;> simp [h]
@[simp] theorem State.modAct_packages (s : State) (a : Nat) (f : Act → Act) : (s.modAct a f).packages = s.packages := by
  rcases s.modAct_cases a f with ⟨_, _, h⟩ | ⟨_, h⟩ <;> simp [h]
@[simp] theorem State.modAct_qtoks (s : State) (a : Nat) (f : Act → Act) : (s.modAct a f).qtoks = s.qtoks := by
  rcases s.modAct_cases a f with ⟨_, _, h⟩ | ⟨_, h⟩ <;> simp [h]
@[simp] theorem State.modAct_saves (s : State) (a : Nat) (f : Act → Act) : (s.modAct a f).saves = s.saves := by
  rcases s.modAct_cases a f with ⟨_, _, h⟩ | ⟨_, h⟩ <;> simp [h]
@[simp] theorem State.modAct_hostOut (s : State) (a : Nat) (f : Act → Act) : (s.modAct a f).hostOut = s.hostOut := by
  rcases s.modAct_cases a f with ⟨_, _, h⟩ | ⟨_, h⟩ <;> simp [h]
@[simp] theorem State.modCurAct_podSize (s : State) (f : Act → Act) : (s.modCurAct f).podSize = s.podSize := by
  unfold State.modCurAct; split <;> simp
@[simp] theorem State.raise_podSize (s : State) (fl : Flg) : (s.raise fl).podSize = s.podSize := by simp [State.raise]
@[simp] theorem State.reserve_podSize (s : State) (n : Nat) : (s.reserve n).podSize = s.podSize := by simp [State.reserve]
@[simp] theorem State.modCurAct_now (s : State) (f : Act → Act) : (s.modCurAct f).now = s.now := by
  unfold State.modCurAct; split <;> simp
@[simp] theorem State.raise_now (s : State) (fl : Flg) : (s.raise fl).now = s.now := by simp [State.raise]
@[simp] theorem State.reserve_now (s : State) (n : Nat) : (s.reserve n).now = s.now := by simp [State.reserve]
@[simp] theorem State.modCurAct_elapse (s : State) (f : Act → Act) : (s.modCurAct f).elapse = s.elapse := by
  unfold State.modCurAct; split <;> simp
@[simp] theorem State.raise_elapse (s : State) (fl : Flg) : (s.raise fl).elapse = s.elapse := by simp [State.raise]
@[simp] theorem State.reserve_elapse (s : State) (n : Nat) : (s.reserve n).elapse = s.elapse := by simp [State.reserve]
@[simp] theorem State.modCurAct_errs (s : State) (f : Act → Act) : (s.modCurAct f).errs = s.errs := by
  unfold State.modCurAct; split <;> simp
@[simp] theorem State.raise_errs (s : State) (fl : Flg) : (s.raise fl).errs = s.errs := by simp [State.raise]
@[simp] theorem State.reserve_errs (s : State) (n : Nat) : (s.reserve n).errs = s.errs := by simp [State.reserve]
@[simp] theorem State.modCurAct_agenda (s : State) (f : Act → Act) : (s.modCurAct f).agenda = s.agenda := by
  unfold State.modCurAct; split <;> simp
@[simp] theorem State.raise_agenda (s : State) (fl : Flg) : (s.raise fl).agenda = s.agenda := by simp [State.raise]
@[simp] theorem State.reserve_agenda (s : State) (n : Nat) : (s.reserve n).agenda = s.agenda := by simp [State.reserve]
@[simp] theorem State.modCurAct_timers (s : State) (f : Act → Act) : (s.modCurAct f).timers = s.timers := by
  unfold State.modCurAct; split <;> simp
@[simp] theorem State.raise_timers (s : State) (fl : Flg) : (s.raise fl).timers = s.timers := by simp [State.raise]
@[simp] theorem State.reserve_timers (s : State) (n : Nat) : (s.reserve n).timers = s.timers := by simp [State.reserve]
@[simp] theorem State.modCurAct_cur (s : State) (f : Act → Act) : (s.modCurAct f).cur = s.cur := by
  unfold State.modCurAct; split <;> simp
@[simp] theorem State.raise_cur (s : State) (fl : Flg) : (s.raise fl).cur = s.cur := by simp [State.raise]
@[simp] theorem State.reserve_cur (s : State) (n : Nat) : (s.reserve n).cur = s.cur := by simp [State.reserve]
@[simp] theorem State.modCurAct_site (s : State) (f : Act → Act) : (s.modCurAct f).site = s.site := by
  unfold State.modCurAct; split <;> simp
@[simp] theorem State.raise_site (s : State) (fl : Flg) : (s.raise fl).site = s.site := by simp [State.raise]
@[simp] theorem State.reserve_site (s : State) (n : Nat) : (s.reserve n).site = s.site := by simp [State.reserve]
@[simp] theorem State.modCurAct_uid (s : State) (f : Act → Act) : (s.modCurAct f).uid = s.uid := by
  unfold State.modCurAct; split <;> simp
@[simp] theorem State.raise_uid (s : State) (fl : Flg) : (s.raise fl).uid = s.uid := by simp [State.raise]
@[simp] theorem State.reserve_uid (s : State) (n : Nat) : (s.reserve n).uid = s.uid := by simp [State.reserve]
@[simp] theorem State.modCurAct_free (s : State) (f : Act → Act) : (s.modCurAct f).free = s.free := by
  unfold State.modCurAct; split <;> simp
@[simp] theorem State.raise_free (s : State) (fl : Flg) : (s.raise fl).free = s.free := by simp [State.raise]
@[simp] theorem State.reserve_free (s : State) (n : Nat) : (s.reserve n).free = s.free := by simp [State.reserve]
@[simp] theorem State.modCurAct_mem (s : State) (f : Act → Act) : (s.modCurAct f).mem = s.mem := by
  unfold State.modCurAct; split <;> simp
@[simp] theorem State.raise_mem (s : State) (fl : Flg) : (s.raise fl).mem = s.mem := by simp [State.raise]
@[simp] theorem State.reserve_mem (s : State) (n : Nat) : (s.reserve n).mem = s.mem := by simp [State.reserve]
@[simp] theorem State.modCurAct_poison (s : State) (f : Act → Act) : (s.modCurAct f).poison = s.poison := by
  unfold State.modCurAct; split <;> simp
@[simp] theorem State.raise_poison (s : State) (fl : Flg) : (s.raise fl).poison = s.poison := by simp [State.raise]
@[simp] theorem State.reserve_poison (s : State) (n : Nat) : (s.reserve n).poison = s.poison := by simp [State.reserve]
@[simp] theorem State.modCurAct_exported (s : State) (f : Act → Act) : (s.modCurAct f).exported = s.exported := by
  unfold State.modCurAct; split <;> simp
@[simp] theorem State.raise_exported (s : State) (fl : Flg) : (s.raise fl).exported = s.exported := by simp [State.raise]
@[simp] theorem State.reserve_exported (s : State) (n : Nat) : (s.reserve n).exported = s.exported := by simp [State.reserve]
@[simp] theorem State.modCurAct_cores (s : State) (f : Act → Act) : (s.modCurAct f).cores = s.cores := by
  unfold State.modCurAct; split <;> simp
@[simp] theorem State.raise_cores (s : State) (fl : Flg) : (s.raise fl).cores = s.cores := by simp [State.raise]
@[simp] theorem State.reserve_cores (s : State) (n : Nat) : (s.reserve n).cores = s.cores := by simp [State.reserve]
@[simp] theorem State.modCurAct_clusters (s : State) (f : Act → Act) : (s.modCurAct f).clusters = s.clusters := by
  unfold State.modCurAct; split <;> simp
@[simp] theorem State.raise_clusters (s : State) (fl : Flg) : (s.raise fl).clusters = s.clusters := by simp [State.raise]
@[simp] theorem State.reserve_clusters (s : State) (n : Nat) : (s.reserve n).clusters = s.clusters := by simp [State.reserve]
@[simp] theorem State.modCurAct_dies (s : State) (f : Act → Act) : (s.modCurAct f).dies = s.dies := by
  unfold State.modCurAct; split <;> simp
@[simp] theorem State.raise_dies (s : State) (fl : Flg) : (s.raise fl).dies = s.dies := by simp [State.raise]
@[simp] theorem State.reserve_dies (s : State) (n : Nat) : (s.reserve n).dies = s.dies := by simp [State.reserve]
@[simp] theorem State.modCurAct_packages (s : State) (f : Act → Act) : (s.modCurAct f).packages = s.packages := by
  unfold State.modCurAct; split <;> simp
@[simp] theorem State.raise_packages (s : State) (fl : Flg) : (s.raise fl).packages = s.packages := by simp [State.raise]
@[simp] theorem State.reserve_packages (s : State) (n : Nat) : (s.reserve n).packages = s.packages := by simp [State.reserve]
@[simp] theorem State.modCurAct_qtoks (s : State) (f : Act → Act) : (s.modCurAct f).qtoks = s.qtoks := by
  unfold State.modCurAct; split <;> simp
@[simp] theorem State.raise_qtoks (s : State) (fl : Flg) : (s.raise fl).qtoks = s.qtoks := by simp [State.raise]
@[simp] theorem State.reserve_qtoks (s : State) (n : Nat) : (s.reserve n).qtoks = s.qtoks := by simp [State.reserve]
@[simp] theorem State.modCurAct_saves (s : State) (f : Act → Act) : (s.modCurAct f).saves = s.saves := by
  unfold State.modCurAct; split <;> simp
@[simp] theorem State.raise_saves (s : State) (fl : Flg) : (s.raise fl).saves = s.saves := by simp [State.raise]
@[simp] theorem State.reserve_saves (s : State) (n : Nat) : (s.reserve n).saves = s.saves := by simp [State.reserve]
@[simp] theorem State.modCurAct_hostOut (s : State) (f : Act → Act) : (s.modCurAct f).hostOut = s.hostOut := by
  unfold State.modCurAct; split <;> simp
@[simp] theorem State.raise_hostOut (s : State) (fl : Flg) : (s.raise fl).hostOut = s.hostOut := by simp [State.raise]
@[simp] theorem State.reserve_hostOut (s : State) (n : Nat) : (s.reserve n).hostOut = s.hostOut := by simp [State.reserve]

end Sys2Proof.Machine
end

