-- ==== Sys2Proof/Laws/Firing.lean ====
section
/-! SUPPORT. What a firing does, once for all: the checks of R92, the tag operation, and then the effect. -/

namespace Sys2Proof.Machine

open Sys2Proof

theorem Fires.passes {f : Form} {r : Rec} {s s₁ : State} {t : Word} (h : Fires f r s t s₁) : Passes f r s := ⟨h.checks, h.range⟩

/-- A firing that passes its checks does what its effect says, or posts the fault that the effect names. -/
theorem fireRaw_passes {f : Form} {r : Rec} {s : State} (h : Passes f r s) (eff : State → Eff) :
    fireRaw f r s eff = .next (match eff s with | .ok s' => s' | .error x => s.faultCur x) := by
  cases he : eff s <;> simp only [fireRaw, h.checks, h.range, he]

/-- The same under the result tag. -/
theorem fire_fires {f : Form} {r : Rec} {s s₁ : State} {t : Word} (h : Fires f r s t s₁) (eff : Word → State → Eff) :
    fire f r s eff = .next (match eff t s₁ with | .ok s' => s' | .error x => s.faultCur x) := by
  cases he : eff t s₁ <;> simp only [fire, fireRaw, h.checks, h.range, h.tag, he]

theorem fire_ok {f : Form} {r : Rec} {s s₁ s₂ : State} {t : Word} (h : Fires f r s t s₁) {eff : Word → State → Eff}
    (he : eff t s₁ = .ok s₂) : fire f r s eff = .next s₂ := by
  rw [fire_fires h, he]

theorem fire_error {f : Form} {r : Rec} {s s₁ : State} {t : Word} {x : Flt} (h : Fires f r s t s₁) {eff : Word → State → Eff}
    (he : eff t s₁ = .error x) : fire f r s eff = .next (s.faultCur x) := by
  rw [fire_fires h, he]

theorem fireRaw_ok {f : Form} {r : Rec} {s s₂ : State} (h : Passes f r s) {eff : State → Eff} (he : eff s = .ok s₂) :
    fireRaw f r s eff = .next s₂ := by
  rw [fireRaw_passes h, he]

theorem fireRaw_error {f : Form} {r : Rec} {s : State} {x : Flt} (h : Passes f r s) {eff : State → Eff} (he : eff s = .error x) :
    fireRaw f r s eff = .next (s.faultCur x) := by
  rw [fireRaw_passes h, he]

/-- A firing whose check fails posts that fault and does nothing else (R92). -/
theorem fireRaw_check {f : Form} {r : Rec} {s : State} {x : Flt} (h : s.check f r = some x) (eff : State → Eff) :
    fireRaw f r s eff = .next (s.faultCur x) := by
  simp only [fireRaw, h]

theorem fire_check {f : Form} {r : Rec} {s : State} {x : Flt} (h : s.check f r = some x) (eff : Word → State → Eff) :
    fire f r s eff = .next (s.faultCur x) := fireRaw_check h _

@[simp] theorem State.setPhase_cur (s : State) (d : DieId) (im : Word) (ks : List CluId) (col : BitVec 9) (ph : Nat) :
    (s.setPhase d im ks col ph).cur = s.cur := by
  unfold State.setPhase
  split
  · generalize (List.filter _ _) = cs
    induction cs generalizing s with
    | nil => rfl
    | cons c t ih => rw [List.foldl_cons, ih]; simp
  · rfl

@[simp] theorem State.bindColour_cur (s : State) (d : DieId) (col : BitVec 9) (a : Nat) : (s.bindColour d col a).cur = s.cur := rfl

/-- Starting a child leaves the firing that issues as it is. -/
theorem State.startChild_cur {s s' : State} {o : Origin} {b : Bool} {p : Option Dest} {sp : Bool} {h : Option (DieId × Nat)}
    {t : Word} {id : Nat} (e : s.startChild o b p sp h = some (t, id, s')) : s'.cur = s.cur := by
  unfold State.startChild at e
  cases hc : s.freeColour s.cur.core.dieId with
  | none => simp only [hc] at e; cases e
  | some col =>
    simp only [hc] at e
    have h2 := Option.some.inj (congrArg (fun o => o.map fun (p : Word × Nat × State) => p.2.2.cur) e)
    exact h2.symm.trans ((State.setPhase_cur _ _ _ _ _ _).trans (State.reserve_cur _ _))

/-- The tag operation leaves the firing that issues as it is. -/
theorem State.outTag_cur {s s₁ : State} {r : Rec} {t : Word} (h : s.outTag r = .ok (t, s₁)) : s₁.cur = s.cur := by
  unfold State.outTag at h
  split at h
  · split at h
    · rename_i e
      cases h
      exact State.startChild_cur e
    · cases h
  · split at h
    · cases h; rfl
    · cases h

theorem Fires.cur {f : Form} {r : Rec} {s s₁ : State} {t : Word} (h : Fires f r s t s₁) : s₁.cur = s.cur := State.outTag_cur h.tag

theorem State.tokenOp_cur {s s₁ : State} (h : s₁.cur = s.cur) (n : Nat) : s₁.tokenOp n = s.tokenOp n := by
  unfold State.tokenOp; rw [h]

/-- Operands that are all scalars pass the shared check. -/
theorem State.scalars_ok {s : State} {r : Rec} (h : s.AllScalar r) : s.scalars r = .ok () := by
  have : (List.range r.ari.toNat).find? (fun n => decide (kindForm (s.tokenOp n).kind ≠ 0)) = none := by
    rw [List.find?_eq_none]
    intro n hn
    simp [h n (List.mem_range.1 hn)]
  simp only [State.scalars, this]

theorem Fires.scalars {f : Form} {r : Rec} {s s₁ : State} {t : Word} (h : Fires f r s t s₁) (ha : s.AllScalar r) :
    s₁.scalars r = .ok () :=
  State.scalars_ok fun n hn => by rw [State.tokenOp_cur h.cur]; exact ha n hn

/-- The first token operand that is no scalar is refused. -/
theorem State.scalars_error {s : State} {r : Rec} {n : Nat} (hn : n < r.ari.toNat) (h : kindForm (s.tokenOp n).kind ≠ 0)
    (hm : ∀ m < n, kindForm (s.tokenOp m).kind = 0) : s.scalars r = .error (slotFault (s.tokenOp n) n) := by
  have : (List.range r.ari.toNat).find? (fun n => decide (kindForm (s.tokenOp n).kind ≠ 0)) = some n := by
    rw [List.find?_range_eq_some]
    refine ⟨?_, List.mem_range.2 hn, ?_⟩
    · simp [h]
    · intro j hj; simp [hm j hj]
  simp only [State.scalars, this]

end Sys2Proof.Machine
end

