-- ==== Sys2Proof/Laws/Memory.lean ====
section
/-! SUPPORT. Laws of the byte memory: a read after a write, and that every write keeps the canonical form. -/

namespace Sys2Proof.Machine

open Sys2Proof

/-- Every listed address is at least a bound, the addresses rise strictly, and no entry lists the unlisted value. -/
def Memory.From (a : Nat) : Memory → Prop
  | [] => True
  | (k, b) :: t => a ≤ k ∧ b ≠ 0 ∧ Memory.From (k + 1) t

theorem Memory.From.mono {a b : Nat} (h : b ≤ a) : ∀ {m : Memory}, Memory.From a m → Memory.From b m
  | [], _ => trivial
  | (_, _) :: _, ⟨h1, h2, h3⟩ => ⟨le_trans h h1, h2, h3⟩

/-- The canonical form, said from the front. -/
theorem Memory.wf_cons (k : Nat) (b : Byte) (t : Memory) :
    Memory.wf ((k, b) :: t) = true ↔ b ≠ 0 ∧ Memory.From (k + 1) t := by
  induction t generalizing k b with
  | nil => simp [Memory.wf, Memory.From]
  | cons p t ih =>
    obtain ⟨k', c⟩ := p
    simp only [Memory.wf, Bool.and_eq_true, decide_eq_true_eq, ih, Memory.From]
    constructor
    · rintro ⟨⟨h1, h2⟩, h3, h4⟩; exact ⟨h2, h1, h3, h4⟩
    · rintro ⟨h2, h1, h3, h4⟩; exact ⟨⟨h1, h2⟩, h3, h4⟩

theorem Memory.wf_iff (m : Memory) : m.wf = true ↔ Memory.From 0 m := by
  cases m with
  | nil => simp [Memory.wf, Memory.From]
  | cons p t => obtain ⟨k, b⟩ := p; rw [Memory.wf_cons]; simp [Memory.From]

theorem Memory.put_from {n a : Nat} {b : Byte} (h : n ≤ a) : ∀ {m : Memory}, Memory.From n m → Memory.From n (m.put a b)
  | [], _ => by
    unfold Memory.put; split
    · trivial
    · exact ⟨h, by assumption, trivial⟩
  | (k, c) :: t, ⟨h1, h2, h3⟩ => by
    unfold Memory.put
    split
    · rename_i hk
      split
      · exact ⟨h1, h2, h3⟩
      · exact ⟨h, by assumption, hk, h2, h3⟩
    · split
      · rename_i hk hk'
        subst hk'
        split
        · exact Memory.From.mono (by omega) h3
        · exact ⟨h1, by assumption, h3⟩
      · exact ⟨h1, h2, Memory.put_from (by omega) h3⟩

/-- Writing a byte keeps the canonical form. -/
theorem Memory.put_wf {m : Memory} {a : Nat} {b : Byte} (h : m.wf = true) : (m.put a b).wf = true :=
  (Memory.wf_iff _).2 (Memory.put_from (Nat.zero_le _) ((Memory.wf_iff _).1 h))

/-- Writing bytes keeps the canonical form. -/
theorem Memory.putN_wf {bs : List Byte} : ∀ {m : Memory} {a : Nat}, m.wf = true → (m.putN a bs).wf = true := by
  induction bs with
  | nil => intro m a h; exact h
  | cons b t ih => intro m a h; exact ih (Memory.put_wf h)

/-- Below every listed address a memory reads as the unlisted value. -/
theorem Memory.get_below {a n : Nat} (h : a < n) : ∀ {m : Memory}, Memory.From n m → m.get a = 0
  | [], _ => rfl
  | (k, _) :: t, ⟨h1, _, h3⟩ => by
    have : k ≠ a := by omega
    simp only [Memory.get, this, if_false]
    exact Memory.get_below (by omega) h3

/-- A read after a write: the byte written at its address, the old byte elsewhere. -/
theorem Memory.get_put {m : Memory} (h : m.wf = true) (a x : Nat) (b : Byte) :
    (m.put a b).get x = if x = a then b else m.get x := by
  have key : ∀ (m : Memory) (n : Nat), Memory.From n m → (m.put a b).get x = if x = a then b else m.get x := by
    intro m
    induction m with
    | nil =>
      intro n _
      unfold Memory.put
      split
      · rename_i hb; simp [Memory.get, hb]
      · by_cases hx : x = a
        · subst hx; simp [Memory.get]
        · have : a ≠ x := fun e => hx e.symm
          simp [Memory.get, hx, this]
    | cons p t ih =>
      intro n hf
      obtain ⟨k, c⟩ := p
      obtain ⟨h1, h2, h3⟩ := hf
      unfold Memory.put
      split
      · rename_i hk
        split
        · rename_i hb
          by_cases hx : x = a
          · subst hx
            rw [if_pos rfl, hb]
            exact Memory.get_below (n := k) hk ⟨le_refl _, h2, h3⟩
          · simp [hx]
        · by_cases hx : x = a
          · subst hx; simp [Memory.get]
          · have : a ≠ x := fun e => hx e.symm
            simp [Memory.get, hx, this]
      · split
        · rename_i hk hk'
          subst hk'
          split
          · rename_i hb
            by_cases hx : x = a
            · subst hx
              rw [if_pos rfl, hb]
              exact Memory.get_below (n := x + 1) (by omega) h3
            · have : a ≠ x := fun e => hx e.symm
              simp [Memory.get, hx, this]
          · by_cases hx : x = a
            · subst hx; simp [Memory.get]
            · have : a ≠ x := fun e => hx e.symm
              simp [Memory.get, hx, this]
        · rename_i hk hk'
          by_cases hkx : k = x
          · subst hkx
            have : k ≠ a := fun e => hk' e.symm
            simp [Memory.get, this]
          · simp only [Memory.get, hkx, if_false]
            exact ih (k + 1) h3
  exact key m 0 ((Memory.wf_iff _).1 h)

end Sys2Proof.Machine
end

