-- ==== Sys2Proof/Laws/PerInstr.lean ====
section
/-! SUPPORT. Per instruction: the opcode of its form is its own cell of R90's table, so that its records decode to it again. -/

namespace Sys2Proof.Laws.Opcode

open Sys2Proof

/-- The opcode of a record instruction's form, with the fields of a record that the form allows, names the instruction (R90, R92 step 4). -/
def Statement (i : Instr) : Prop :=
  ∀ (f : Form) (r : Rec), i.form = some f → i.record = some r → r.wf f = true → ofOpcode f.opc r = some i

/-- The tag and variant checks of a form, taken from the whole. -/
theorem wf_parts {f : Form} {r : Rec} (h : r.wf f = true) : r.tag.toNat ∈ f.tags ∧ f.sub r.sub.toNat r.typ.toNat = true := by
  simp only [Rec.wf, Bool.and_eq_true, decide_eq_true_eq] at h
  exact ⟨h.1.1.1.1.1.1.1.1.1.1.1.1.1.2, h.1.1.1.1.1.1.1.1.2⟩

theorem sink (r : Rec) : Statement (.sink r) := fun _ _ hf hr _ => by cases hf; cases hr; rfl
theorem dup (r : Rec) : Statement (.dup r) := fun _ _ hf hr _ => by cases hf; cases hr; rfl
theorem const (r : Rec) : Statement (.const r) := fun _ _ hf hr _ => by cases hf; cases hr; rfl
theorem steer (r : Rec) : Statement (.steer r) := fun _ _ hf hr _ => by cases hf; cases hr; rfl
theorem gate (r : Rec) : Statement (.gate r) := fun _ _ hf hr _ => by cases hf; cases hr; rfl
theorem loopin (r : Rec) : Statement (.loopin r) := fun _ _ hf hr _ => by cases hf; cases hr; rfl
theorem iter (r : Rec) : Statement (.iter r) := fun _ _ hf hr _ => by cases hf; cases hr; rfl
theorem loopout (r : Rec) : Statement (.loopout r) := fun _ _ hf hr _ => by cases hf; cases hr; rfl
theorem loopcr (r : Rec) : Statement (.loopcr r) := fun _ _ hf hr _ => by cases hf; cases hr; rfl
theorem call (r : Rec) : Statement (.call r) := by
  intro f r' hf hr h
  cases hf; cases hr
  have h1 := (wf_parts h).1
  have h2 := (wf_parts h).2
  have : r.tag.toNat ≠ 4 := by simp [Forms.call] at h1; omega
  show (some (if r.tag.toNat = 4 then Instr.callCol r else .call r)) = _
  rw [if_neg this]
theorem callCol (r : Rec) : Statement (.callCol r) := by
  intro f r' hf hr h
  cases hf; cases hr
  have h1 := (wf_parts h).1
  have h2 := (wf_parts h).2
  have : r.tag.toNat = 4 := by simpa [Forms.callCol] using h1
  show (some (if r.tag.toNat = 4 then Instr.callCol r else .call r)) = _
  rw [if_pos this]
theorem ret (r : Rec) : Statement (.ret r) := fun _ _ hf hr _ => by cases hf; cases hr; rfl
theorem tagget (r : Rec) : Statement (.tagget r) := fun _ _ hf hr _ => by cases hf; cases hr; rfl
theorem tagset (r : Rec) : Statement (.tagset r) := fun _ _ hf hr _ => by cases hf; cases hr; rfl
theorem spawn (r : Rec) : Statement (.spawn r) := fun _ _ hf hr _ => by cases hf; cases hr; rfl
theorem purge (r : Rec) : Statement (.purge r) := fun _ _ hf hr _ => by cases hf; cases hr; rfl
theorem join (r : Rec) : Statement (.join r) := fun _ _ hf hr _ => by cases hf; cases hr; rfl
theorem cmb (r : Rec) : Statement (.cmb r) := fun _ _ hf hr _ => by cases hf; cases hr; rfl
theorem dends (r : Rec) : Statement (.dends r) := fun _ _ hf hr _ => by cases hf; cases hr; rfl
theorem bndry (r : Rec) : Statement (.bndry r) := fun _ _ hf hr _ => by cases hf; cases hr; rfl
theorem vote (r : Rec) : Statement (.vote r) := fun _ _ hf hr _ => by cases hf; cases hr; rfl
theorem rng (r : Rec) : Statement (.rng r) := fun _ _ hf hr _ => by cases hf; cases hr; rfl
theorem evpost (r : Rec) : Statement (.evpost r) := fun _ _ hf hr _ => by cases hf; cases hr; rfl
theorem endg (r : Rec) : Statement (.endg r) := fun _ _ hf hr _ => by cases hf; cases hr; rfl
theorem add (r : Rec) : Statement (.add r) := fun _ _ hf hr _ => by cases hf; cases hr; rfl
theorem sub (r : Rec) : Statement (.sub r) := fun _ _ hf hr _ => by cases hf; cases hr; rfl
theorem mul (r : Rec) : Statement (.mul r) := fun _ _ hf hr _ => by cases hf; cases hr; rfl
theorem mulh (r : Rec) : Statement (.mulh r) := fun _ _ hf hr _ => by cases hf; cases hr; rfl
theorem div (r : Rec) : Statement (.div r) := fun _ _ hf hr _ => by cases hf; cases hr; rfl
theorem rem (r : Rec) : Statement (.rem r) := fun _ _ hf hr _ => by cases hf; cases hr; rfl
theorem neg (r : Rec) : Statement (.neg r) := fun _ _ hf hr _ => by cases hf; cases hr; rfl
theorem abs (r : Rec) : Statement (.abs r) := fun _ _ hf hr _ => by cases hf; cases hr; rfl
theorem min (r : Rec) : Statement (.min r) := fun _ _ hf hr _ => by cases hf; cases hr; rfl
theorem max (r : Rec) : Statement (.max r) := fun _ _ hf hr _ => by cases hf; cases hr; rfl
theorem and (r : Rec) : Statement (.and r) := fun _ _ hf hr _ => by cases hf; cases hr; rfl
theorem or (r : Rec) : Statement (.or r) := fun _ _ hf hr _ => by cases hf; cases hr; rfl
theorem xor (r : Rec) : Statement (.xor r) := fun _ _ hf hr _ => by cases hf; cases hr; rfl
theorem andn (r : Rec) : Statement (.andn r) := fun _ _ hf hr _ => by cases hf; cases hr; rfl
theorem shl (r : Rec) : Statement (.shl r) := fun _ _ hf hr _ => by cases hf; cases hr; rfl
theorem shr (r : Rec) : Statement (.shr r) := fun _ _ hf hr _ => by cases hf; cases hr; rfl
theorem sar (r : Rec) : Statement (.sar r) := fun _ _ hf hr _ => by cases hf; cases hr; rfl
theorem rotl (r : Rec) : Statement (.rotl r) := fun _ _ hf hr _ => by cases hf; cases hr; rfl
theorem clz (r : Rec) : Statement (.clz r) := fun _ _ hf hr _ => by cases hf; cases hr; rfl
theorem ctz (r : Rec) : Statement (.ctz r) := fun _ _ hf hr _ => by cases hf; cases hr; rfl
theorem popc (r : Rec) : Statement (.popc r) := fun _ _ hf hr _ => by cases hf; cases hr; rfl
theorem brev (r : Rec) : Statement (.brev r) := fun _ _ hf hr _ => by cases hf; cases hr; rfl
theorem bext (r : Rec) : Statement (.bext r) := fun _ _ hf hr _ => by cases hf; cases hr; rfl
theorem bins (r : Rec) : Statement (.bins r) := fun _ _ hf hr _ => by cases hf; cases hr; rfl
theorem cmp (r : Rec) : Statement (.cmp r) := fun _ _ hf hr _ => by cases hf; cases hr; rfl
theorem sel (r : Rec) : Statement (.sel r) := fun _ _ hf hr _ => by cases hf; cases hr; rfl
theorem madd (r : Rec) : Statement (.madd r) := fun _ _ hf hr _ => by cases hf; cases hr; rfl
theorem lea (r : Rec) : Statement (.lea r) := fun _ _ hf hr _ => by cases hf; cases hr; rfl
theorem line (r : Rec) : Statement (.line r) := fun _ _ hf hr _ => by cases hf; cases hr; rfl
theorem fadd (r : Rec) : Statement (.fadd r) := fun _ _ hf hr _ => by cases hf; cases hr; rfl
theorem fsub (r : Rec) : Statement (.fsub r) := fun _ _ hf hr _ => by cases hf; cases hr; rfl
theorem fmul (r : Rec) : Statement (.fmul r) := fun _ _ hf hr _ => by cases hf; cases hr; rfl
theorem fma (r : Rec) : Statement (.fma r) := fun _ _ hf hr _ => by cases hf; cases hr; rfl
theorem fdiv (r : Rec) : Statement (.fdiv r) := fun _ _ hf hr _ => by cases hf; cases hr; rfl
theorem fsqrt (r : Rec) : Statement (.fsqrt r) := fun _ _ hf hr _ => by cases hf; cases hr; rfl
theorem fmin (r : Rec) : Statement (.fmin r) := fun _ _ hf hr _ => by cases hf; cases hr; rfl
theorem fmax (r : Rec) : Statement (.fmax r) := fun _ _ hf hr _ => by cases hf; cases hr; rfl
theorem fabs (r : Rec) : Statement (.fabs r) := fun _ _ hf hr _ => by cases hf; cases hr; rfl
theorem fneg (r : Rec) : Statement (.fneg r) := fun _ _ hf hr _ => by cases hf; cases hr; rfl
theorem fcmp (r : Rec) : Statement (.fcmp r) := fun _ _ hf hr _ => by cases hf; cases hr; rfl
theorem fcvt (r : Rec) : Statement (.fcvt r) := fun _ _ hf hr _ => by cases hf; cases hr; rfl
theorem frnd (r : Rec) : Statement (.frnd r) := fun _ _ hf hr _ => by cases hf; cases hr; rfl
theorem fexp2 (r : Rec) : Statement (.fexp2 r) := fun _ _ hf hr _ => by cases hf; cases hr; rfl
theorem flog2 (r : Rec) : Statement (.flog2 r) := fun _ _ hf hr _ => by cases hf; cases hr; rfl
theorem frcp (r : Rec) : Statement (.frcp r) := fun _ _ hf hr _ => by cases hf; cases hr; rfl
theorem frsq (r : Rec) : Statement (.frsq r) := fun _ _ hf hr _ => by cases hf; cases hr; rfl
theorem vadd (r : Rec) : Statement (.vadd r) := fun _ _ hf hr _ => by cases hf; cases hr; rfl
theorem vsub (r : Rec) : Statement (.vsub r) := fun _ _ hf hr _ => by cases hf; cases hr; rfl
theorem vmul (r : Rec) : Statement (.vmul r) := fun _ _ hf hr _ => by cases hf; cases hr; rfl
theorem vfma (r : Rec) : Statement (.vfma r) := fun _ _ hf hr _ => by cases hf; cases hr; rfl
theorem vmin (r : Rec) : Statement (.vmin r) := fun _ _ hf hr _ => by cases hf; cases hr; rfl
theorem vmax (r : Rec) : Statement (.vmax r) := fun _ _ hf hr _ => by cases hf; cases hr; rfl
theorem vabs (r : Rec) : Statement (.vabs r) := fun _ _ hf hr _ => by cases hf; cases hr; rfl
theorem vneg (r : Rec) : Statement (.vneg r) := fun _ _ hf hr _ => by cases hf; cases hr; rfl
theorem vand (r : Rec) : Statement (.vand r) := fun _ _ hf hr _ => by cases hf; cases hr; rfl
theorem vor (r : Rec) : Statement (.vor r) := fun _ _ hf hr _ => by cases hf; cases hr; rfl
theorem vxor (r : Rec) : Statement (.vxor r) := fun _ _ hf hr _ => by cases hf; cases hr; rfl
theorem vshl (r : Rec) : Statement (.vshl r) := fun _ _ hf hr _ => by cases hf; cases hr; rfl
theorem vshr (r : Rec) : Statement (.vshr r) := fun _ _ hf hr _ => by cases hf; cases hr; rfl
theorem vcmp (r : Rec) : Statement (.vcmp r) := fun _ _ hf hr _ => by cases hf; cases hr; rfl
theorem vsel (r : Rec) : Statement (.vsel r) := fun _ _ hf hr _ => by cases hf; cases hr; rfl
theorem vred (r : Rec) : Statement (.vred r) := fun _ _ hf hr _ => by cases hf; cases hr; rfl
theorem vscan (r : Rec) : Statement (.vscan r) := fun _ _ hf hr _ => by cases hf; cases hr; rfl
theorem vexp2 (r : Rec) : Statement (.vexp2 r) := fun _ _ hf hr _ => by cases hf; cases hr; rfl
theorem vrcp (r : Rec) : Statement (.vrcp r) := fun _ _ hf hr _ => by cases hf; cases hr; rfl
theorem vrsq (r : Rec) : Statement (.vrsq r) := fun _ _ hf hr _ => by cases hf; cases hr; rfl
theorem vcvt (r : Rec) : Statement (.vcvt r) := fun _ _ hf hr _ => by cases hf; cases hr; rfl
theorem vperm (r : Rec) : Statement (.vperm r) := fun _ _ hf hr _ => by cases hf; cases hr; rfl
theorem vsplat (r : Rec) : Statement (.vsplat r) := fun _ _ hf hr _ => by cases hf; cases hr; rfl
theorem viota (r : Rec) : Statement (.viota r) := fun _ _ hf hr _ => by cases hf; cases hr; rfl
theorem vpack (r : Rec) : Statement (.vpack r) := fun _ _ hf hr _ => by cases hf; cases hr; rfl
theorem vunpk (r : Rec) : Statement (.vunpk r) := fun _ _ hf hr _ => by cases hf; cases hr; rfl
theorem vcpy (r : Rec) : Statement (.vcpy r) := fun _ _ hf hr _ => by cases hf; cases hr; rfl
theorem cvt (r : Rec) : Statement (.cvt r) := fun _ _ hf hr _ => by cases hf; cases hr; rfl
theorem qblk (r : Rec) : Statement (.qblk r) := fun _ _ hf hr _ => by cases hf; cases hr; rfl
theorem dqblk (r : Rec) : Statement (.dqblk r) := fun _ _ hf hr _ => by cases hf; cases hr; rfl
theorem ternpk (r : Rec) : Statement (.ternpk r) := by
  intro f r' hf hr h
  cases hf; cases hr
  have h1 := (wf_parts h).1
  have h2 := (wf_parts h).2
  have : ¬ r.sub.toNat % 2 = 1 := by simp [Forms.ternpk, Forms.sub0] at h2; omega
  show (some (if r.sub.toNat % 2 = 1 then Instr.ternpkUnpk r else .ternpk r)) = _
  rw [if_neg this]
theorem ternpkUnpk (r : Rec) : Statement (.ternpkUnpk r) := by
  intro f r' hf hr h
  cases hf; cases hr
  have h1 := (wf_parts h).1
  have h2 := (wf_parts h).2
  have : r.sub.toNat % 2 = 1 := by simp [Forms.ternpkUnpk, Forms.subIs] at h2; omega
  show (some (if r.sub.toNat % 2 = 1 then Instr.ternpkUnpk r else .ternpk r)) = _
  rw [if_pos this]
theorem ld (r : Rec) : Statement (.ld r) := fun _ _ hf hr _ => by cases hf; cases hr; rfl
theorem st (r : Rec) : Statement (.st r) := fun _ _ hf hr _ => by cases hf; cases hr; rfl
theorem ldv (r : Rec) : Statement (.ldv r) := fun _ _ hf hr _ => by cases hf; cases hr; rfl
theorem stv (r : Rec) : Statement (.stv r) := fun _ _ hf hr _ => by cases hf; cases hr; rfl
theorem ldg (r : Rec) : Statement (.ldg r) := fun _ _ hf hr _ => by cases hf; cases hr; rfl
theorem sts (r : Rec) : Statement (.sts r) := fun _ _ hf hr _ => by cases hf; cases hr; rfl
theorem mnop (r : Rec) : Statement (.mnop r) := fun _ _ hf hr _ => by cases hf; cases hr; rfl
theorem wave (r : Rec) : Statement (.wave r) := fun _ _ hf hr _ => by cases hf; cases hr; rfl
theorem pf (r : Rec) : Statement (.pf r) := fun _ _ hf hr _ => by cases hf; cases hr; rfl
theorem lwb (r : Rec) : Statement (.lwb r) := fun _ _ hf hr _ => by cases hf; cases hr; rfl
theorem linv (r : Rec) : Statement (.linv r) := fun _ _ hf hr _ => by cases hf; cases hr; rfl
theorem sbind (r : Rec) : Statement (.sbind r) := fun _ _ hf hr _ => by cases hf; cases hr; rfl
theorem scancel (r : Rec) : Statement (.scancel r) := fun _ _ hf hr _ => by cases hf; cases hr; rfl
theorem sstat (r : Rec) : Statement (.sstat r) := fun _ _ hf hr _ => by cases hf; cases hr; rfl
theorem cpy (r : Rec) : Statement (.cpy r) := fun _ _ hf hr _ => by cases hf; cases hr; rfl
theorem cpyr (r : Rec) : Statement (.cpyr r) := fun _ _ hf hr _ => by cases hf; cases hr; rfl
theorem mcrd (r : Rec) : Statement (.mcrd r) := fun _ _ hf hr _ => by cases hf; cases hr; rfl
theorem xlat (r : Rec) : Statement (.xlat r) := fun _ _ hf hr _ => by cases hf; cases hr; rfl
theorem tlbinv (r : Rec) : Statement (.tlbinv r) := fun _ _ hf hr _ => by cases hf; cases hr; rfl
theorem fence (r : Rec) : Statement (.fence r) := fun _ _ hf hr _ => by cases hf; cases hr; rfl
theorem rel (r : Rec) : Statement (.rel r) := fun _ _ hf hr _ => by cases hf; cases hr; rfl
theorem acq (r : Rec) : Statement (.acq r) := fun _ _ hf hr _ => by cases hf; cases hr; rfl
theorem tlinc (r : Rec) : Statement (.tlinc r) := fun _ _ hf hr _ => by cases hf; cases hr; rfl
theorem tlwait (r : Rec) : Statement (.tlwait r) := fun _ _ hf hr _ => by cases hf; cases hr; rfl
theorem tlarm (r : Rec) : Statement (.tlarm r) := fun _ _ hf hr _ => by cases hf; cases hr; rfl
theorem tlread (r : Rec) : Statement (.tlread r) := fun _ _ hf hr _ => by cases hf; cases hr; rfl
theorem barinit (r : Rec) : Statement (.barinit r) := fun _ _ hf hr _ => by cases hf; cases hr; rfl
theorem bararr (r : Rec) : Statement (.bararr r) := fun _ _ hf hr _ => by cases hf; cases hr; rfl
theorem barexit (r : Rec) : Statement (.barexit r) := fun _ _ hf hr _ => by cases hf; cases hr; rfl
theorem itake (r : Rec) : Statement (.itake r) := fun _ _ hf hr _ => by cases hf; cases hr; rfl
theorem iput (r : Rec) : Statement (.iput r) := fun _ _ hf hr _ => by cases hf; cases hr; rfl
theorem iread (r : Rec) : Statement (.iread r) := fun _ _ hf hr _ => by cases hf; cases hr; rfl
theorem iclr (r : Rec) : Statement (.iclr r) := fun _ _ hf hr _ => by cases hf; cases hr; rfl
theorem atom (r : Rec) : Statement (.atom r) := fun _ _ hf hr _ => by cases hf; cases hr; rfl
theorem acas (r : Rec) : Statement (.acas r) := fun _ _ hf hr _ => by cases hf; cases hr; rfl
theorem lsend (r : Rec) : Statement (.lsend r) := fun _ _ hf hr _ => by cases hf; cases hr; rfl
theorem specbeg (r : Rec) : Statement (.specbeg r) := fun _ _ hf hr _ => by cases hf; cases hr; rfl
theorem speccmt (r : Rec) : Statement (.speccmt r) := fun _ _ hf hr _ => by cases hf; cases hr; rfl
theorem specabt (r : Rec) : Statement (.specabt r) := fun _ _ hf hr _ => by cases hf; cases hr; rfl
theorem oclm (r : Rec) : Statement (.oclm r) := fun _ _ hf hr _ => by cases hf; cases hr; rfl
theorem orel (r : Rec) : Statement (.orel r) := fun _ _ hf hr _ => by cases hf; cases hr; rfl
theorem old (r : Rec) : Statement (.old r) := fun _ _ hf hr _ => by cases hf; cases hr; rfl
theorem olds (r : Rec) : Statement (.olds r) := by
  intro f r' hf hr h
  cases hf; cases hr
  have h1 := (wf_parts h).1
  have h2 := (wf_parts h).2
  have : ¬ r.sub.toNat % 2 = 1 := by simp [Forms.olds, Forms.subIs] at h2; omega
  show (some (if r.sub.toNat % 2 = 1 then Instr.oldsQ r else .olds r)) = _
  rw [if_neg this]
theorem oldsQ (r : Rec) : Statement (.oldsQ r) := by
  intro f r' hf hr h
  cases hf; cases hr
  have h1 := (wf_parts h).1
  have h2 := (wf_parts h).2
  have : r.sub.toNat % 2 = 1 := by simp [Forms.oldsQ, Forms.subIs] at h2; omega
  show (some (if r.sub.toNat % 2 = 1 then Instr.oldsQ r else .olds r)) = _
  rw [if_pos this]
theorem mma (r : Rec) : Statement (.mma r) := fun _ _ hf hr _ => by cases hf; cases hr; rfl
theorem mmat (r : Rec) : Statement (.mmat r) := fun _ _ hf hr _ => by cases hf; cases hr; rfl
theorem mmax (r : Rec) : Statement (.mmax r) := fun _ _ hf hr _ => by cases hf; cases hr; rfl
theorem aclr (r : Rec) : Statement (.aclr r) := fun _ _ hf hr _ => by cases hf; cases hr; rfl
theorem amov (r : Rec) : Statement (.amov r) := fun _ _ hf hr _ => by cases hf; cases hr; rfl
theorem aadd (r : Rec) : Statement (.aadd r) := fun _ _ hf hr _ => by cases hf; cases hr; rfl
theorem acvt (r : Rec) : Statement (.acvt r) := fun _ _ hf hr _ => by cases hf; cases hr; rfl
theorem ackpt (r : Rec) : Statement (.ackpt r) := fun _ _ hf hr _ => by cases hf; cases hr; rfl
theorem arst (r : Rec) : Statement (.arst r) := fun _ _ hf hr _ => by cases hf; cases hr; rfl
theorem astat (r : Rec) : Statement (.astat r) := fun _ _ hf hr _ => by cases hf; cases hr; rfl
theorem topk (r : Rec) : Statement (.topk r) := fun _ _ hf hr _ => by cases hf; cases hr; rfl
theorem topkm (r : Rec) : Statement (.topkm r) := fun _ _ hf hr _ => by cases hf; cases hr; rfl
theorem smxi (r : Rec) : Statement (.smxi r) := fun _ _ hf hr _ => by cases hf; cases hr; rfl
theorem smxu (r : Rec) : Statement (.smxu r) := fun _ _ hf hr _ => by cases hf; cases hr; rfl
theorem smxn (r : Rec) : Statement (.smxn r) := fun _ _ hf hr _ => by cases hf; cases hr; rfl
theorem smxm (r : Rec) : Statement (.smxm r) := fun _ _ hf hr _ => by cases hf; cases hr; rfl
theorem smxr (r : Rec) : Statement (.smxr r) := fun _ _ hf hr _ => by cases hf; cases hr; rfl
theorem smxw (r : Rec) : Statement (.smxw r) := fun _ _ hf hr _ => by cases hf; cases hr; rfl
theorem smxs (r : Rec) : Statement (.smxs r) := fun _ _ hf hr _ => by cases hf; cases hr; rfl
theorem qsend (r : Rec) : Statement (.qsend r) := fun _ _ hf hr _ => by cases hf; cases hr; rfl
theorem qfwd (r : Rec) : Statement (.qfwd r) := fun _ _ hf hr _ => by cases hf; cases hr; rfl
theorem klook (r : Rec) : Statement (.klook r) := by
  intro f r' hf hr h
  cases hf; cases hr
  have h1 := (wf_parts h).1
  have h2 := (wf_parts h).2
  have : ¬ r.sub.toNat % 2 = 1 := by simp [Forms.klook, Forms.subIs] at h2; omega
  show (some (if r.sub.toNat % 2 = 1 then Instr.klookPage r else .klook r)) = _
  rw [if_neg this]
theorem klookPage (r : Rec) : Statement (.klookPage r) := by
  intro f r' hf hr h
  cases hf; cases hr
  have h1 := (wf_parts h).1
  have h2 := (wf_parts h).2
  have : r.sub.toNat % 2 = 1 := by simp [Forms.klookPage, Forms.subIs] at h2; omega
  show (some (if r.sub.toNat % 2 = 1 then Instr.klookPage r else .klook r)) = _
  rw [if_pos this]
theorem kapp (r : Rec) : Statement (.kapp r) := fun _ _ hf hr _ => by cases hf; cases hr; rfl
theorem kpin (r : Rec) : Statement (.kpin r) := by
  intro f r' hf hr h
  cases hf; cases hr
  have h1 := (wf_parts h).1
  have h2 := (wf_parts h).2
  have : ¬ r.sub.toNat % 2 = 1 := by simp [Forms.kpin, Forms.subIs] at h2; omega
  show (some (if r.sub.toNat % 2 = 1 then Instr.kpinUnpin r else .kpin r)) = _
  rw [if_neg this]
theorem kpinUnpin (r : Rec) : Statement (.kpinUnpin r) := by
  intro f r' hf hr h
  cases hf; cases hr
  have h1 := (wf_parts h).1
  have h2 := (wf_parts h).2
  have : r.sub.toNat % 2 = 1 := by simp [Forms.kpinUnpin, Forms.subIs] at h2; omega
  show (some (if r.sub.toNat % 2 = 1 then Instr.kpinUnpin r else .kpin r)) = _
  rw [if_pos this]
theorem kevict (r : Rec) : Statement (.kevict r) := fun _ _ hf hr _ => by cases hf; cases hr; rfl
theorem kfill (r : Rec) : Statement (.kfill r) := fun _ _ hf hr _ => by cases hf; cases hr; rfl
theorem pxlook (r : Rec) : Statement (.pxlook r) := fun _ _ hf hr _ => by cases hf; cases hr; rfl
theorem pxins (r : Rec) : Statement (.pxins r) := fun _ _ hf hr _ => by cases hf; cases hr; rfl
theorem pgmap (r : Rec) : Statement (.pgmap r) := by
  intro f r' hf hr h
  cases hf; cases hr
  have h1 := (wf_parts h).1
  have h2 := (wf_parts h).2
  have : ¬ r.sub.toNat % 2 = 1 := by simp [Forms.pgmap, Forms.subVarIs] at h2; omega
  show (some (if r.sub.toNat % 2 = 1 then Instr.pgmapList r else .pgmap r)) = _
  rw [if_neg this]
theorem pgmapList (r : Rec) : Statement (.pgmapList r) := by
  intro f r' hf hr h
  cases hf; cases hr
  have h1 := (wf_parts h).1
  have h2 := (wf_parts h).2
  have : r.sub.toNat % 2 = 1 := by simp [Forms.pgmapList, Forms.subVarIs] at h2; omega
  show (some (if r.sub.toNat % 2 = 1 then Instr.pgmapList r else .pgmap r)) = _
  rw [if_pos this]
theorem pgfrz (r : Rec) : Statement (.pgfrz r) := fun _ _ hf hr _ => by cases hf; cases hr; rfl
theorem pgnew (r : Rec) : Statement (.pgnew r) := fun _ _ hf hr _ => by cases hf; cases hr; rfl
theorem seqtbl (r : Rec) : Statement (.seqtbl r) := by
  intro f r' hf hr h
  cases hf; cases hr
  have h1 := (wf_parts h).1
  have h2 := (wf_parts h).2
  have : ¬ r.sub.toNat % 2 = 1 := by simp [Forms.seqtbl, Forms.subIs] at h2; omega
  show (some (if r.sub.toNat % 2 = 1 then Instr.seqtblNext r else .seqtbl r)) = _
  rw [if_neg this]
theorem seqtblNext (r : Rec) : Statement (.seqtblNext r) := by
  intro f r' hf hr h
  cases hf; cases hr
  have h1 := (wf_parts h).1
  have h2 := (wf_parts h).2
  have : r.sub.toNat % 2 = 1 := by simp [Forms.seqtblNext, Forms.subIs] at h2; omega
  show (some (if r.sub.toNat % 2 = 1 then Instr.seqtblNext r else .seqtbl r)) = _
  rw [if_pos this]
theorem trap (r : Rec) : Statement (.trap r) := fun _ _ hf hr _ => by cases hf; cases hr; rfl
theorem brk (r : Rec) : Statement (.brk r) := fun _ _ hf hr _ => by cases hf; cases hr; rfl
theorem sysrd (r : Rec) : Statement (.sysrd r) := fun _ _ hf hr _ => by cases hf; cases hr; rfl
theorem syswr (r : Rec) : Statement (.syswr r) := fun _ _ hf hr _ => by cases hf; cases hr; rfl
theorem evget (r : Rec) : Statement (.evget r) := fun _ _ hf hr _ => by cases hf; cases hr; rfl
theorem launch (r : Rec) : Statement (.launch r) := fun _ _ hf hr _ => by cases hf; cases hr; rfl
theorem cfginst (r : Rec) : Statement (.cfginst r) := fun _ _ hf hr _ => by cases hf; cases hr; rfl
theorem curtain (r : Rec) : Statement (.curtain r) := fun _ _ hf hr _ => by cases hf; cases hr; rfl
theorem ctxsv (r : Rec) : Statement (.ctxsv r) := fun _ _ hf hr _ => by cases hf; cases hr; rfl
theorem ctxld (r : Rec) : Statement (.ctxld r) := fun _ _ hf hr _ => by cases hf; cases hr; rfl
theorem time (r : Rec) : Statement (.time r) := fun _ _ hf hr _ => by cases hf; cases hr; rfl
theorem prompt (r : Rec) : Statement (.prompt r) := fun _ _ hf hr _ => by cases hf; cases hr; rfl
theorem bootTest (p : Nat) (sigOk hbmOk sliceOk rebuild : Bool) : Statement (.bootTest p sigOk hbmOk sliceOk rebuild) := fun _ _ hf _ _ => nomatch hf
theorem bootMap (p : Nat) (linksOk : Bool) (gran ptbase shardbase dirmap : Nat) : Statement (.bootMap p linksOk gran ptbase shardbase dirmap) := fun _ _ hf _ _ => nomatch hf
theorem bootRuntime (p : Nat) (sigOk digestOk : Bool) : Statement (.bootRuntime p sigOk digestOk) := fun _ _ hf _ _ => nomatch hf
theorem linkTraining (p peer : Nat) (lo hi : BitVec 16) (lowLanes highLanes : Bool) : Statement (.linkTraining p peer lo hi lowLanes highLanes) := fun _ _ hf _ _ => nomatch hf
theorem hostAccess (p : Nat) (op : HostOp) : Statement (.hostAccess p op) := fun _ _ hf _ _ => nomatch hf
theorem registerWrite (p : Nat) (reg : MgmtReg) (v : Nat) : Statement (.registerWrite p reg v) := fun _ _ hf _ _ => nomatch hf
theorem start (c : CoreId) (m : Msg) : Statement (.start c m) := fun _ _ hf _ _ => nomatch hf
theorem graphreg (c : CoreId) (m : Msg) : Statement (.graphreg c m) := fun _ _ hf _ _ => nomatch hf
theorem replay (c : CoreId) (m : Msg) : Statement (.replay c m) := fun _ _ hf _ _ => nomatch hf
theorem patch (c : CoreId) (m : Msg) : Statement (.patch c m) := fun _ _ hf _ _ => nomatch hf
theorem graphdrop (c : CoreId) (m : Msg) : Statement (.graphdrop c m) := fun _ _ hf _ _ => nomatch hf
theorem taskgraphNodeDispatch (c : CoreId) (tg replay node : Nat) : Statement (.taskgraphNodeDispatch c tg replay node) := fun _ _ hf _ _ => nomatch hf
theorem tokenArrival (c : CoreId) (path : Path) (t : Token) : Statement (.tokenArrival c path t) := fun _ _ hf _ _ => nomatch hf
theorem wingsHoldRelease (c : CoreId) (path : Path) : Statement (.wingsHoldRelease c path) := fun _ _ hf _ _ => nomatch hf
theorem chainLink (c : CoreId) (t : Token) (n : Nat) : Statement (.chainLink c t n) := fun _ _ hf _ _ => nomatch hf
theorem linkTokenCrossing (src : CoreId) (node : Nat) (dst : CoreId) (t : Token) : Statement (.linkTokenCrossing src node dst t) := fun _ _ hf _ _ => nomatch hf
theorem engineInboxAccept (e : EngineId) (m : Msg) : Statement (.engineInboxAccept e m) := fun _ _ hf _ _ => nomatch hf
theorem engineMessageComplete (e : EngineId) (id : Nat) : Statement (.engineMessageComplete e id) := fun _ _ hf _ _ => nomatch hf
theorem copy (e : EngineId) (id : Nat) : Statement (.copy e id) := fun _ _ hf _ _ => nomatch hf
theorem copyr (e : EngineId) (id : Nat) : Statement (.copyr e id) := fun _ _ hf _ _ => nomatch hf
theorem copyp (e : EngineId) (id : Nat) : Statement (.copyp e id) := fun _ _ hf _ _ => nomatch hf
theorem copypr (e : EngineId) (id : Nat) : Statement (.copypr e id) := fun _ _ hf _ _ => nomatch hf
theorem lcopy (e : EngineId) (id : Nat) : Statement (.lcopy e id) := fun _ _ hf _ _ => nomatch hf
theorem copyPieceArrival (p : Piece) : Statement (.copyPieceArrival p) := fun _ _ hf _ _ => nomatch hf
theorem remoteAdvance (k : CluId) (colour : BitVec 9) (ctr : Nat) : Statement (.remoteAdvance k colour ctr) := fun _ _ hf _ _ => nomatch hf
theorem waveAccessPerform (c : CoreId) (tag : Word) (region : Nat) : Statement (.waveAccessPerform c tag region) := fun _ _ hf _ _ => nomatch hf
theorem sliceFillArrival (d : DieId) (line : Nat) (perm : Perm) (keep : Bool) (data : LineData) : Statement (.sliceFillArrival d line perm keep data) := fun _ _ hf _ _ => nomatch hf
theorem pageWalkComplete (d : DieId) (w : WalkFor) : Statement (.pageWalkComplete d w) := fun _ _ hf _ _ => nomatch hf
theorem mmaxACopy (c leader : CoreId) (n : Nat) : Statement (.mmaxACopy c leader n) := fun _ _ hf _ _ => nomatch hf
theorem gets (x : CohReq) : Statement (.gets x) := fun _ _ hf _ _ => nomatch hf
theorem getx (x : CohReq) : Statement (.getx x) := fun _ _ hf _ _ => nomatch hf
theorem upg (x : CohReq) : Statement (.upg x) := fun _ _ hf _ _ => nomatch hf
theorem putm (x : CohReq) (keep : Bool) (data : LineData) (sectors : List Nat) : Statement (.putm x keep data sectors) := fun _ _ hf _ _ => nomatch hf
theorem invalidation (p line : Nat) (d : DieId) (wholePkg : Bool) : Statement (.invalidation p line d wholePkg) := fun _ _ hf _ _ => nomatch hf
theorem invalidationAck (p line : Nat) (frm : DieId) (wholePkg : Bool) : Statement (.invalidationAck p line frm wholePkg) := fun _ _ hf _ _ => nomatch hf
theorem forward (p line : Nat) (k : FwdKind) (owner req : DieId) : Statement (.forward p line k owner req) := fun _ _ hf _ _ => nomatch hf
theorem directoryFailure (p : Nat) (why : DirFail) : Statement (.directoryFailure p why) := fun _ _ hf _ _ => nomatch hf
theorem purgeArriveDie (act : Nat) (d : DieId) : Statement (.purgeArriveDie act d) := fun _ _ hf _ _ => nomatch hf
theorem hbmBankTest (d : DieId) (stack : Nat) (failing spares : Bool) : Statement (.hbmBankTest d stack failing spares) := fun _ _ hf _ _ => nomatch hf
theorem linkBeatCrcFail (p peer : Nat) (noSlot : Bool) : Statement (.linkBeatCrcFail p peer noSlot) := fun _ _ hf _ _ => nomatch hf
theorem auditBeat (p peer : Nat) (free received : BitVec 16) : Statement (.auditBeat p peer free received) := fun _ _ hf _ _ => nomatch hf
theorem thermal (p island : Nat) (t : Int) : Statement (.thermal p island t) := fun _ _ hf _ _ => nomatch hf
theorem mirrorCloseRecord (p line : Nat) (m : Nat) (st : Perm) (owner : DieId) (dies pkgs : List Nat) : Statement (.mirrorCloseRecord p line m st owner dies pkgs) := fun _ _ hf _ _ => nomatch hf
theorem powerOnReset : Statement (.powerOnReset) := fun _ _ hf _ _ => nomatch hf
theorem replayRelease : Statement (.replayRelease) := fun _ _ hf _ _ => nomatch hf
theorem install : Statement (.install) := fun _ _ hf _ _ => nomatch hf
theorem admission : Statement (.admission) := fun _ _ hf _ _ => nomatch hf
theorem allowanceRefresh : Statement (.allowanceRefresh) := fun _ _ hf _ _ => nomatch hf
theorem launchBlocking : Statement (.launchBlocking) := fun _ _ hf _ _ => nomatch hf
theorem clockChangeDone : Statement (.clockChangeDone) := fun _ _ hf _ _ => nomatch hf
theorem wingProbeReturn : Statement (.wingProbeReturn) := fun _ _ hf _ _ => nomatch hf
theorem backlogRefill : Statement (.backlogRefill) := fun _ _ hf _ _ => nomatch hf
theorem streamStart : Statement (.streamStart) := fun _ _ hf _ _ => nomatch hf
theorem streamElement : Statement (.streamElement) := fun _ _ hf _ _ => nomatch hf
theorem streamComplete : Statement (.streamComplete) := fun _ _ hf _ _ => nomatch hf
theorem loadReply : Statement (.loadReply) := fun _ _ hf _ _ => nomatch hf
theorem releaseComplete : Statement (.releaseComplete) := fun _ _ hf _ _ => nomatch hf
theorem mergeWindowClose : Statement (.mergeWindowClose) := fun _ _ hf _ _ => nomatch hf
theorem tlbEntryDrop : Statement (.tlbEntryDrop) := fun _ _ hf _ _ => nomatch hf
theorem queryTokenStationArrival : Statement (.queryTokenStationArrival) := fun _ _ hf _ _ => nomatch hf
theorem visitStart : Statement (.visitStart) := fun _ _ hf _ _ => nomatch hf
theorem refillComplete : Statement (.refillComplete) := fun _ _ hf _ _ => nomatch hf
theorem evictionCopyComplete : Statement (.evictionCopyComplete) := fun _ _ hf _ _ => nomatch hf
theorem tokenReturn : Statement (.tokenReturn) := fun _ _ hf _ _ => nomatch hf
theorem shardTableTurn : Statement (.shardTableTurn) := fun _ _ hf _ _ => nomatch hf
theorem matrixAccept : Statement (.matrixAccept) := fun _ _ hf _ _ => nomatch hf
theorem matrixStart : Statement (.matrixStart) := fun _ _ hf _ _ => nomatch hf
theorem matrixOccupancyEnd : Statement (.matrixOccupancyEnd) := fun _ _ hf _ _ => nomatch hf
theorem matrixRetry : Statement (.matrixRetry) := fun _ _ hf _ _ => nomatch hf
theorem matrixReply : Statement (.matrixReply) := fun _ _ hf _ _ => nomatch hf
theorem grant : Statement (.grant) := fun _ _ hf _ _ => nomatch hf
theorem done : Statement (.done) := fun _ _ hf _ _ => nomatch hf
theorem putack : Statement (.putack) := fun _ _ hf _ _ => nomatch hf
theorem mirrorOpenAck : Statement (.mirrorOpenAck) := fun _ _ hf _ _ => nomatch hf
theorem recallWindow : Statement (.recallWindow) := fun _ _ hf _ _ => nomatch hf
theorem directoryWatchdog : Statement (.directoryWatchdog) := fun _ _ hf _ _ => nomatch hf
theorem dirTakeover : Statement (.dirTakeover) := fun _ _ hf _ _ => nomatch hf
theorem dirLost : Statement (.dirLost) := fun _ _ hf _ _ => nomatch hf
theorem channelClosing : Statement (.channelClosing) := fun _ _ hf _ _ => nomatch hf
theorem channelRetired : Statement (.channelRetired) := fun _ _ hf _ _ => nomatch hf
theorem curtainClear : Statement (.curtainClear) := fun _ _ hf _ _ => nomatch hf
theorem fullSave : Statement (.fullSave) := fun _ _ hf _ _ => nomatch hf
theorem saveWhole : Statement (.saveWhole) := fun _ _ hf _ _ => nomatch hf
theorem colourPurge : Statement (.colourPurge) := fun _ _ hf _ _ => nomatch hf
theorem purgeEnd : Statement (.purgeEnd) := fun _ _ hf _ _ => nomatch hf
theorem securityTrigger : Statement (.securityTrigger) := fun _ _ hf _ _ => nomatch hf
theorem retireDiscard : Statement (.retireDiscard) := fun _ _ hf _ _ => nomatch hf
theorem completionTokenRetire : Statement (.completionTokenRetire) := fun _ _ hf _ _ => nomatch hf
theorem promptRoutineEnd : Statement (.promptRoutineEnd) := fun _ _ hf _ _ => nomatch hf
theorem coreDrowsy : Statement (.coreDrowsy) := fun _ _ hf _ _ => nomatch hf
theorem routerDrowsy : Statement (.routerDrowsy) := fun _ _ hf _ _ => nomatch hf
theorem routerWake : Statement (.routerWake) := fun _ _ hf _ _ => nomatch hf
theorem coreWake : Statement (.coreWake) := fun _ _ hf _ _ => nomatch hf
theorem powerGate : Statement (.powerGate) := fun _ _ hf _ _ => nomatch hf
theorem droopStretch : Statement (.droopStretch) := fun _ _ hf _ _ => nomatch hf
theorem currentPeak : Statement (.currentPeak) := fun _ _ hf _ _ => nomatch hf
theorem packagePowerWindow : Statement (.packagePowerWindow) := fun _ _ hf _ _ => nomatch hf
theorem mirrorOpenRecord : Statement (.mirrorOpenRecord) := fun _ _ hf _ _ => nomatch hf
theorem writeAcknowledgement : Statement (.writeAcknowledgement) := fun _ _ hf _ _ => nomatch hf
theorem directoryRestore : Statement (.directoryRestore) := fun _ _ hf _ _ => nomatch hf
theorem attestationRequest : Statement (.attestationRequest) := fun _ _ hf _ _ => nomatch hf
theorem supplyRecovery : Statement (.supplyRecovery) := fun _ _ hf _ _ => nomatch hf

end Sys2Proof.Laws.Opcode
end

