-- ==== Sys2Proof/Laws/Requests.lean ====
section
/-! SUPPORT. What translation and the handing over of requests can do: the request and the message that a firing makes. -/

namespace Sys2Proof.Machine

open Sys2Proof

/-- From s to s' nothing changed but what slices change when a line is asked for: the lines and translations that dies hold, memory and its
poison marks where a line leaves, and what is on its way to a directory or a slice. -/
def State.OnlySlices (s s' : State) : Prop :=
  s' = { s with dies := s'.dies, mem := s'.mem, poison := s'.poison, agenda := s'.agenda }

theorem State.OnlySlices.refl (s : State) : s.OnlySlices s := rfl

theorem State.OnlySlices.trans {a b c : State} (h : a.OnlySlices b) (k : b.OnlySlices c) : a.OnlySlices c := by
  unfold State.OnlySlices at *; rw [k, h]

theorem State.OnlySlices.cur {s s' : State} (h : s.OnlySlices s') : s'.cur = s.cur := by rw [h]
theorem State.OnlySlices.cores {s s' : State} (h : s.OnlySlices s') : s'.cores = s.cores := by rw [h]
theorem State.OnlySlices.acts {s s' : State} (h : s.OnlySlices s') : s'.acts = s.acts := by rw [h]
theorem State.OnlySlices.uid {s s' : State} (h : s.OnlySlices s') : s'.uid = s.uid := by rw [h]

/-- A walk over a list keeps what each of its steps keeps. -/
theorem State.OnlySlices.foldl {α : Type} {f : State → α → State} (h : ∀ (s : State) (x : α), s.OnlySlices (f s x)) (xs : List α) :
    ∀ s : State, s.OnlySlices (xs.foldl f s) := by
  induction xs with
  | nil => exact State.OnlySlices.refl
  | cons x t ih => exact fun s => (h s x).trans (ih _)

theorem State.modLine_slices (s : State) (d : DieId) (l : Nat) (f : Line → Line) : s.OnlySlices (s.modLine d l f) := rfl

theorem State.later_slices (s : State) (i : Instr) : s.OnlySlices (s.later i) := rfl

theorem State.storeSector_slices (s : State) (sec : Nat) (bs : List Byte) (p : Bool) : s.OnlySlices (s.storeSector sec bs p) := by
  simp only [State.OnlySlices, State.storeSector]

theorem State.storeHome_slices (s : State) (l : Nat) (x : LineData) (secs : List Nat) : s.OnlySlices (s.storeHome l x secs) := by
  unfold State.storeHome
  exact State.OnlySlices.foldl (fun s _ => s.storeSector_slices ..) secs s

/-- A write-back changes only what slices change. -/
theorem State.writeBackSome_slices (s : State) (d : DieId) (l : Nat) (keep : Bool) (secs : List Nat) :
    s.OnlySlices (s.writeBackSome d l keep secs) := by
  unfold State.writeBackSome
  split
  · rfl
  · rename_i y _
    split_ifs
    · rfl
    · rfl
    · rfl
    · exact (s.storeHome_slices l y.data secs).trans rfl
    · exact (s.storeHome_slices l y.data secs).trans rfl

theorem State.writeBack_slices (s : State) (d : DieId) (l : Nat) (keep : Bool) : s.OnlySlices (s.writeBack d l keep) := by
  unfold State.writeBack
  split
  · rfl
  · exact State.writeBackSome_slices ..

theorem State.makeRoom_slices (s : State) (d : DieId) (l : Nat) : s.OnlySlices (s.makeRoom d l) := by
  unfold State.makeRoom
  split
  · rfl
  · split
    · exact State.writeBack_slices ..
    · rfl

theorem State.allocLine_slices (s : State) (d : DieId) (l : Nat) : s.OnlySlices (s.allocLine d l) := by
  unfold State.allocLine
  split
  · rfl
  · dsimp only
    split
    · rfl
    · exact (s.makeRoom_slices d l).trans rfl

theorem State.sendGetx_slices (s : State) (d : DieId) (y : Line) : s.OnlySlices (s.sendGetx d y) := by
  unfold State.sendGetx; split <;> rfl

/-- Asking for a line changes only what slices change. -/
theorem State.ask_slices (s : State) (d : DieId) (l : Nat) (k : FwdKind) : s.OnlySlices (s.ask d l k) := by
  unfold State.ask
  split
  · rfl
  · rename_i y _
    split
    · rfl
    · split
      · rfl
      · exact (s.modLine_slices d l _).trans (State.sendGetx_slices ..)
      · rfl
      · split
        · rfl
        · exact (s.modLine_slices d l _).trans (State.sendGetx_slices ..)
      · rfl

/-- Asking for sectors changes only what slices change. -/
theorem State.wantSectors_slices (s : State) (d : DieId) (l : Nat) (secs : List Nat) : s.OnlySlices (s.wantSectors d l secs) := by
  unfold State.wantSectors
  split
  · rfl
  · dsimp only
    have h := s.allocLine_slices d l
    split
    · exact h
    · split
      · split
        · exact h.trans rfl
        · exact h.trans rfl
      · exact h.trans ((State.modLine_slices ..).trans (State.ask_slices ..))

theorem State.fillFor_slices (s : State) (d : DieId) (l : Nat) (offs : List Nat) : s.OnlySlices (s.fillFor d l offs) := by
  unfold State.fillFor
  split
  · split
    · rfl
    · exact State.wantSectors_slices ..
  · exact State.wantSectors_slices ..

/-- A read through the slices changes only what slices change. -/
theorem State.readThrough_slices (s : State) (d : DieId) (pa n : Nat) : s.OnlySlices (s.readThrough d pa n) := by
  unfold State.readThrough
  split
  · rfl
  · refine State.OnlySlices.foldl (fun s x => ?_) _ s
    split
    · rfl
    · exact State.fillFor_slices ..

theorem State.walkThrough_slices (s : State) (d : DieId) (va : Nat) : s.OnlySlices (s.walkThrough d va) := by
  unfold State.walkThrough
  split
  · rfl
  · exact State.OnlySlices.foldl (fun s a => s.readThrough_slices d a 8) _ s

/-- Translation changes only what slices change and the tables of translations that dies keep. -/
theorem State.translate_slices (s : State) (d : DieId) (who : Option (CoreId × Nat)) (va : Nat) :
    s.OnlySlices (s.translate d who va).2 := by
  unfold State.translate
  dsimp only
  split
  · rfl
  · split
    · rfl
    · split
      · exact s.walkThrough_slices d va
      · exact State.OnlySlices.trans (b := s.setDie d _) rfl (State.walkThrough_slices ..)

theorem State.footGo_slices (d : DieId) (who : Option (CoreId × Nat)) (write : Bool) (k : Nat) :
    ∀ (s : State) (va n : Nat) (acc : List MemPart) (pages : Nat), s.OnlySlices (s.footGo d who write k va n acc pages).2 := by
  induction k with
  | zero => intro s va n acc pages; rfl
  | succ k ih =>
    intro s va n acc pages
    have ht := s.translate_slices d who va
    unfold State.footGo
    generalize s.translate d who va = x at ht ⊢
    obtain ⟨x, s'⟩ := x
    by_cases h0 : n = 0
    · rw [if_pos h0]; rfl
    · rw [if_neg h0]
      by_cases h1 : 64 ≤ pages
      · rw [if_pos h1]; rfl
      · rw [if_neg h1]
        cases x with
        | inr lv => exact ht
        | inl lf =>
          dsimp only
          split_ifs
          · exact ht
          · exact ht.trans (ih _ _ _ _ _)

theorem State.footprint_slices (s : State) (c : CoreId) (who : Option (CoreId × Nat)) (write : Bool) (va n : Nat) :
    s.OnlySlices (s.footprint c who write va n).2 := by
  unfold State.footprint
  split
  · rfl
  · have h := State.footGo_slices c.dieId who write 66 s va (farLen va n) [] 0
    generalize s.footGo c.dieId who write 66 va (farLen va n) [] 0 = x at h ⊢
    obtain ⟨x, s'⟩ := x
    cases x with
    | error f => exact h
    | ok p => dsimp only; split <;> exact h

theorem State.stallGo_slices (c : CoreId) (node : Nat) (write : Bool) (k : Nat) :
    ∀ (s : State) (va n : Nat) (acc : List MemPart), s.OnlySlices (s.stallGo c node write k va n acc).2 := by
  induction k with
  | zero => intro s va n acc; rfl
  | succ k ih =>
    intro s va n acc
    have ht := s.translate_slices c.dieId (some (c, node)) va
    unfold State.stallGo
    generalize s.translate c.dieId (some (c, node)) va = x at ht ⊢
    obtain ⟨x, s'⟩ := x
    by_cases h0 : n = 0
    · rw [if_pos h0]; rfl
    · rw [if_neg h0]
      by_cases h1 : nearFrom ≤ va
      · rw [if_pos h1]; rfl
      · rw [if_neg h1]
        cases x with
        | inr lv => exact ht
        | inl lf =>
          dsimp only
          split_ifs
          · exact ht
          · exact ht.trans (ih _ _ _ _)

/-- One range of an access translated changes only what slices change. -/
theorem State.coverOne_slices {s s' : State} {c : CoreId} {node va n : Nat} {stall write : Bool} {ps : List MemPart} {f : Option Flt}
    (h : s.coverOne c node stall write va n = .ok (ps, f, s')) : s.OnlySlices s' := by
  unfold State.coverOne at h
  split at h
  · have k := State.stallGo_slices c node write (n + 1) s va n []
    generalize s.stallGo c node write (n + 1) va n [] = x at h k
    obtain ⟨⟨a, b⟩, s₂⟩ := x
    cases h; exact k
  · have k := s.footprint_slices c (some (c, node)) write va n
    generalize s.footprint c (some (c, node)) write va n = x at h k
    obtain ⟨x, s₂⟩ := x
    cases x with
    | ok ps => cases h; exact k
    | error f => cases h

/-- Every range of an access translated changes only what slices change. -/
theorem State.coverAll_slices {c : CoreId} {node : Nat} {stall write : Bool} {rs : List (Nat × Nat)} :
    ∀ {s s' : State} {ps : List MemPart} {f : Option Flt}, s.coverAll c node stall write rs = .ok (ps, f, s') → s.OnlySlices s' := by
  induction rs with
  | nil => intro s s' ps f h; cases h; rfl
  | cons r t ih =>
    intro s s' ps f h
    obtain ⟨va, n⟩ := r
    simp only [State.coverAll, bind, Except.bind] at h
    cases e : s.coverOne c node stall write va n with
    | error f => rw [e] at h; cases h
    | ok x =>
      obtain ⟨qs, b, s₂⟩ := x
      rw [e] at h
      have k := State.coverOne_slices e
      dsimp only at h
      split at h
      · cases h; exact k
      · cases e2 : State.coverAll s₂ c node stall write t with
        | error f => rw [e2] at h; cases h
        | ok y =>
          obtain ⟨zs, b', s₃⟩ := y
          rw [e2] at h
          cases h
          exact k.trans (ih e2)

theorem vaAt_ok {b d : Word} {va : Nat} (h : vaOf b d = some va) : vaAt b d = .ok va := by simp [vaAt, h]

theorem State.ringHit_load (s : State) (c : CoreId) (op : MemOp) (ps : List MemPart) (h : op.isStore = false) :
    s.ringHit c op ps = none := by
  simp [State.ringHit, h]

/-- The request that a firing makes, once its bytes are covered. -/
theorem State.makeReq_ok {s s₂ s₃ : State} {r : Rec} {t : Word} {op : MemOp} {wr : Bool} {rs : List (Nat × Nat)} {data : List Byte}
    {reply : Operand} {w : Option (Nat × Nat × Nat × Nat)} {pg : List Leaf} {af : Option Nat} {ps : List MemPart}
    (h : s.coverAll s.cur.core s.cur.node s.curAct.stall wr rs = .ok (ps, none, s₂)) (hr : s₂.ringHit s.cur.core op ps = none)
    (h3 : s₂.handsOver (s₂.reqOf r t op ps data reply w pg af) = .ok s₃) :
    s.makeReq r t op wr rs data reply w pg af = .ok s₃ := by
  have hc := (State.coverAll_slices h).cur
  simp only [State.makeReq, h, bind, Except.bind, hr]
  cases w with
  | none => simpa [State.handsOver, State.reqOf, State.fresh, hc] using h3
  | some w => simpa [State.handsOver, State.reqOf, State.fresh, hc] using h3

/-- A firing of the memory unit does what its effect says, while the unit accepts requests. -/
theorem memFire_ok {f : Form} {r : Rec} {s s₁ s₂ : State} {t : Word} {eff : Word → State → Eff}
    (hb : (s.core s.cur.core).unitBusy = false) (h : Fires f r s t s₁) (he : eff t s₁ = .ok s₂) : memFire f r s eff = .next s₂ := by
  simp only [memFire, hb]; exact fire_ok h he

theorem memFire_error {f : Form} {r : Rec} {s s₁ : State} {t : Word} {x : Flt} {eff : Word → State → Eff}
    (hb : (s.core s.cur.core).unitBusy = false) (h : Fires f r s t s₁) (he : eff t s₁ = .error x) :
    memFire f r s eff = .next (s.faultCur x) := by
  simp only [memFire, hb]; exact fire_error h he

end Sys2Proof.Machine
end

