-- ==== Sys2Proof/Laws/Writes.lean ====
section
/-! SUPPORT. What a write through a die's slices can do: it changes slices and memory, the bytes that waiting loads capture, the lines that
releases and directory records wait for, and the queues of records; it changes nothing else of a package or a cluster. -/

namespace Sys2Proof.Machine

open Sys2Proof

/-- From s to s' nothing changed but what a write through slices changes. -/
structure State.OnlyWrites (s s' : State) : Prop where
  rest : s' = { s with dies := s'.dies, mem := s'.mem, poison := s'.poison, agenda := s'.agenda, cores := s'.cores,
                       clusters := s'.clusters, packages := s'.packages }
  pkg : ∀ p : Nat, s'.pkg p = { s.pkg p with mapRecs := (s'.pkg p).mapRecs }
  cluster : ∀ k : CluId, s'.cluster k = { s.cluster k with queues := (s'.cluster k).queues }

theorem State.OnlyWrites.refl (s : State) : s.OnlyWrites s := ⟨rfl, fun _ => rfl, fun _ => rfl⟩

theorem State.OnlyWrites.trans {a b c : State} (h : a.OnlyWrites b) (k : b.OnlyWrites c) : a.OnlyWrites c :=
  ⟨by rw [k.rest, h.rest], fun p => by rw [k.pkg p, h.pkg p], fun p => by rw [k.cluster p, h.cluster p]⟩

theorem State.OnlySlices.onlyWrites {s s' : State} (h : s.OnlySlices s') : s.OnlyWrites s' :=
  ⟨by rw [h], fun p => by rw [h]; rfl, fun k => by rw [h]; rfl⟩

/-- A walk over a list keeps what each of its steps keeps. -/
theorem State.OnlyWrites.foldl {α : Type} {f : State → α → State} (h : ∀ (s : State) (x : α), s.OnlyWrites (f s x)) (xs : List α) :
    ∀ s : State, s.OnlyWrites (xs.foldl f s) := by
  induction xs with
  | nil => exact State.OnlyWrites.refl
  | cons x t ih => exact fun s => (h s x).trans (ih _)

theorem State.modCore_writes (s : State) (c : CoreId) (f : Core → Core) : s.OnlyWrites (s.modCore c f) :=
  ⟨rfl, fun _ => rfl, fun _ => rfl⟩

theorem State.modDie_writes (s : State) (d : DieId) (f : Die → Die) : s.OnlyWrites (s.modDie d f) := ⟨rfl, fun _ => rfl, fun _ => rfl⟩

theorem State.board_writes (s : State) (k : CluId) (qn : Nat) (r : List Word) : s.OnlyWrites (s.board k qn r).1 := by
  refine ⟨rfl, fun _ => rfl, fun l => ?_⟩
  simp only [State.board, State.cluster_setCluster]
  split
  · rename_i h; subst h; rfl
  · rfl

theorem State.boardPkg_writes (s : State) (p qn : Nat) (r : List Word) : s.OnlyWrites (s.boardPkg p qn r) :=
  State.OnlyWrites.foldl (fun s k => s.board_writes k qn r) _ s

theorem State.mapSettled_writes (s : State) (d : DieId) (l : Nat) : s.OnlyWrites (s.mapSettled d l) := by
  unfold State.mapSettled
  split
  · exact .refl s
  · refine State.OnlyWrites.trans (b := s.modPkg d.pkg _) ⟨rfl, fun q => ?_, fun _ => rfl⟩
      (State.OnlyWrites.foldl (fun s r => State.OnlyWrites.foldl (fun s x => s.boardPkg_writes ..) _ s) _ _)
    rw [State.pkg_modPkg]
    split
    · rename_i h; subst h; rfl
    · rfl

theorem State.lineSettled_writes (s : State) (d : DieId) (l : Nat) : s.OnlyWrites (s.lineSettled d l) := by
  refine (s.mapSettled_writes d l).trans (State.OnlyWrites.foldl (fun s c => ?_) _ _)
  split
  · exact State.modCore_writes ..
  · exact .refl s

/-- Applying what stands in a line, or asking for what that lacks, is such a change. -/
theorem State.settle_writes (s : State) (d : DieId) (l : Nat) : s.OnlyWrites (s.settle d l) := by
  unfold State.settle
  split
  · exact .refl s
  · dsimp only
    split
    · exact .refl s
    · split
      · split
        · exact (s.ask_slices ..).onlyWrites
        · exact .refl s
      · split
        · split
          · exact (s.modLine_slices ..).onlyWrites.trans (State.lineSettled_writes ..)
          · exact (s.wantSectors_slices ..).onlyWrites
        · exact (s.ask_slices ..).onlyWrites

theorem State.closeWindow_writes (s : State) (d : DieId) (l : Nat) : s.OnlyWrites (s.closeWindow d l) := by
  unfold State.closeWindow
  split
  · exact .refl s
  · exact (State.OnlyWrites.foldl (fun s j => s.modCore_writes ..) _ s).trans (State.modDie_writes ..)

theorem State.enterLine_writes (s : State) (d : DieId) (l off : Nat) (bs : List Byte) (o : Option (BitVec 9)) :
    s.OnlyWrites (s.enterLine d l off bs o) :=
  (s.closeWindow_writes d l).trans ((State.allocLine_slices ..).onlyWrites.trans
    ((State.modLine_slices ..).onlyWrites.trans (State.settle_writes ..)))

theorem State.dieWriteGo_writes (d : DieId) (o : Option (BitVec 9)) (k : Nat) :
    ∀ (s : State) (pa : Nat) (bs : List Byte), s.OnlyWrites (s.dieWriteGo d o k pa bs) := by
  induction k with
  | zero => exact fun s _ _ => .refl s
  | succ k ih =>
    intro s pa bs
    unfold State.dieWriteGo
    split
    · exact .refl s
    · exact (s.enterLine_writes ..).trans (ih ..)

/-- A write at a physical address by a party of a die is such a change. -/
theorem State.dieWrite_writes (s : State) (d : DieId) (nc : Bool) (pa : Nat) (bs : List Byte) (o : Option (BitVec 9)) :
    s.OnlyWrites (s.dieWrite d nc pa bs o) := by
  unfold State.dieWrite
  split
  · exact ⟨rfl, fun _ => rfl, fun _ => rfl⟩
  · split <;> exact State.dieWriteGo_writes ..

theorem State.sysWord_writes (s : State) (d : DieId) (pa : Nat) (w : Word) : s.OnlyWrites (s.sysWord d pa w) := State.dieWrite_writes ..

theorem State.setDirMap_writes (s : State) (q p i v : Nat) : s.OnlyWrites (s.setDirMap q p i v) := State.sysWord_writes ..

/-- Raising a map generation changes, beside what a write changes, the generation that packages hold. -/
theorem State.raiseGen_site (s : State) (p : Nat) : (s.raiseGen p).2.site = s.site := by
  have h : ∀ (qs : List Nat) (g : BitVec 16) (s : State), (qs.foldl (fun s q =>
      let s := s.modPkg q fun x => { x with podgen := g }
      if (s.pkg q).stage.toNat ∈ [3, 4, 5] ∧ (s.pkg q).dirUp then s.setDirMap q q 1 (withBits (s.dirMapWord q 1) 15 0 g.toNat) else s)
      s).site = s.site := by
    intro qs g
    induction qs with
    | nil => exact fun _ => rfl
    | cons q t ih =>
      intro s
      rw [List.foldl_cons, ih]
      dsimp only
      split
      · rw [(State.setDirMap_writes ..).rest]; rfl
      · rfl
  exact h _ _ s

/-- Every package of the coherence domain holds the raised generation. -/
theorem State.raiseGen_podgen (s : State) (p r : Nat) (hr : r ∈ s.domain p) :
    ((s.raiseGen p).2.pkg r).podgen = (s.pkg p).podgen + 1 := by
  have h : ∀ (qs : List Nat) (g : BitVec 16) (s : State), r ∈ qs ∨ (s.pkg r).podgen = g → ((qs.foldl (fun s q =>
      let s := s.modPkg q fun x => { x with podgen := g }
      if (s.pkg q).stage.toNat ∈ [3, 4, 5] ∧ (s.pkg q).dirUp then s.setDirMap q q 1 (withBits (s.dirMapWord q 1) 15 0 g.toNat) else s)
      s).pkg r).podgen = g := by
    intro qs g
    induction qs with
    | nil => intro s h; simpa using h
    | cons q t ih =>
      intro s h
      rw [List.foldl_cons]
      apply ih
      by_cases hq : q = r
      · subst hq
        right
        dsimp only
        split
        · rw [(State.setDirMap_writes ..).pkg, State.pkg_modPkg, if_pos rfl]
        · rw [State.pkg_modPkg, if_pos rfl]
      · have h' : r ∈ t ∨ (s.pkg r).podgen = g := by
          rcases h with h | h
          · rcases List.mem_cons.1 h with h | h
            · exact absurd h.symm hq
            · exact Or.inl h
          · exact Or.inr h
        refine h'.imp_right fun h' => ?_
        dsimp only
        split
        · rw [(State.setDirMap_writes ..).pkg, State.pkg_modPkg, if_neg hq]; exact h'
        · rw [State.pkg_modPkg, if_neg hq]; exact h'
  exact h _ _ s (.inl hr)

end Sys2Proof.Machine
end

