-- ==== Sys2Proof/Tests/Slice0.lean ====
section
/-! SUPPORT. Tests: words of the manual's encodings, refusals of ill-formed instructions, single steps worked out from the manual's words,
and for every statement a state and operands that meet its hypotheses. -/

namespace Sys2Proof.Tests

open Sys2Proof Sys2Proof.Machine

set_option Elab.async false

/-! ## States and records the tests use -/

/-- Ordinary core 0 of the pod. -/
def core0 : CoreId := ⟨0, 0, 0, 0⟩
/-- Control core 0 of the same cluster. -/
def ctl0 : CoreId := ⟨0, 0, 0, 192⟩
/-- Its die. -/
def die0 : DieId := ⟨0, 0⟩
/-- An activation of colour 0 with a plan of two levels of four bits. -/
def act0 : Act :=
  { Act.reset with map := [(die0, 0)], plan := [4, 4], ctl := ctl0, grant := true, windows := [4096], wsizes := [(0, 16)], clus := [⟨0, 0, 0⟩] }
/-- A scalar operand. -/
def num (n : Nat) : Operand := plainOp (BitVec.ofNat 64 n)
/-- The operand that names a lane slice of nrow + 1 rows from a row up (R281). -/
def sliceOp (row nrow : Nat) : Operand := ⟨BitVec.ofNat 64 (row + nrow * 256), mkKind 1 1 0⟩
/-- A firing of node 0 under colour 0 at depth 1, iteration 5. -/
def fir (c : CoreId) (a b d : Operand) : Firing := ⟨c, 0, mkTag 0 1 5, a, b, d, 0, 0⟩
/-- The state after reset with activation 7 live under colour 0 on die 0 and a firing that issues. -/
def st (c : CoreId) (a b d : Operand) : State :=
  { State.reset with cur := fir c a b d, acts := [(7, act0)], cores := [(c, Core.reset)], dies := [(die0, { Die.reset with colours := [(0, 7)] })], uid := 8 }
/-- An event's site. -/
def sited (s : State) (c : CoreId) (n : Nat) (flag : Bool) : State := { s with site := ⟨c, n, 0, flag⟩ }

/-- The site of core 0. -/
def sited0 : Site := ⟨core0, 0, 0, false⟩

/-- A die's copy of line 21 with its sectors valid. -/
def line21 (p : Perm) (asked : Option FwdKind) (wback locked : Bool) : Line :=
  ⟨21, p, List.replicate 4 ⟨true, false, false, none⟩, [], [], asked, wback, locked, false, [], [], false, [], false, false, false⟩

/-- A record of a form: the first codes that its tables allow, the result to node 1 of the own core. -/
def rec_ (f : Form) : Rec :=
  let p := ((f.typs.flatMap fun t => (List.range 64).map fun s => (t, s)).find? fun p =>
    f.sub p.2 p.1 && !rmBad f.layout p.2 && !scopeBad f.layout p.2).getD (0, 0)
  let c := f.combos.headD (1, 0)
  let l := if c.2 = 1 then ((List.range 70000).find? fun l => f.lit l && litRuns f.opc l).getD 0 else 0
  ⟨BitVec.ofNat 6 p.2, BitVec.ofNat 4 p.1, BitVec.ofNat 2 c.1, BitVec.ofNat 4 (f.tags.headD 0), BitVec.ofNat 2 c.2, 0, BitVec.ofNat 20 l,
    if nullA f.opc then 0 else 0x400004, 0⟩

/-- The record fires: every check of R92 passes and the tag operation gives a tag. -/
def fires (s : State) (f : Form) (r : Rec) : Bool :=
  decide (s.check f r = none) && decide (s.check7 f r = none) && (s.outTag r).isOk

theorem fires_iff {s : State} {f : Form} {r : Rec} (h : fires s f r = true) : ∃ (t : Word) (s₁ : State), Fires f r s t s₁ := by
  unfold fires at h
  simp only [Bool.and_eq_true, decide_eq_true_eq] at h
  obtain ⟨⟨h1, h2⟩, h3⟩ := h
  cases ho : s.outTag r with
  | error x => rw [ho] at h3; exact absurd h3 (by simp [Except.isOk, Except.toBool])
  | ok p => exact ⟨p.1, p.2, h1, h2, ho⟩

/-- The 512 colours of a die, all of activation 7. -/
def allColours : List (BitVec 9 × Nat) := (List.range 512).map fun n => (BitVec.ofNat 9 n, 7)
/-- A die whose 512 colours are all live. -/
def fullDie : State := { st core0 (num 3) (num 4) (num 5) with dies := [(die0, { Die.reset with colours := allColours })] }

theorem assoc_of_mem (L : List Nat) (m : Nat) (h : m ∈ L) :
    (Assoc.get? (L.map fun n => (BitVec.ofNat 9 n, 7)) (BitVec.ofNat 9 m)).isNone = false := by
  induction L with
  | nil => cases h
  | cons a t ih =>
    simp only [List.map_cons, Assoc.get?]
    split
    · rfl
    · rename_i hne
      rcases List.mem_cons.1 h with e | e
      · exact absurd (by rw [e]) hne
      · exact ih e

theorem no_colour (L : List Nat) (cs : List (BitVec 9 × Nat)) (h : ∀ n ∈ L, (Assoc.get? cs (BitVec.ofNat 9 n)).isNone = false) :
    L.find? (fun n => (Assoc.get? cs (BitVec.ofNat 9 n)).isNone) = none := by
  rw [List.find?_eq_none]
  intro n hn
  rw [h n hn]
  exact Bool.false_ne_true

/-- No colour of that die is free (ResultTags, ChildrenStart). -/
theorem full_die : fullDie.freeColour die0 = none := by
  have h := no_colour (List.range 512) allColours (assoc_of_mem (List.range 512))
  have e : (fullDie.die die0).colours = allColours := by simp only [fullDie, State.die, Assoc.getD, Assoc.get?, if_true, Option.getD_some]
  simp only [State.freeColour, leastBelow, e, h, Option.map_none]

/-- Every record instruction, on a record. -/
def records : List (Rec → Instr) :=
  [.sink, .dup, .const, .steer, .gate, .loopin, .iter, .loopout, .loopcr, .call, .callCol, .ret, .tagget, .tagset, .spawn, .purge,
   .join, .cmb, .dends, .bndry, .vote, .rng, .evpost, .endg, .add, .sub, .mul, .mulh, .div, .rem, .neg, .abs, .min, .max, .and, .or,
   .xor, .andn, .shl, .shr, .sar, .rotl, .clz, .ctz, .popc, .brev, .bext, .bins, .cmp, .sel, .madd, .lea, .line, .fadd, .fsub,
   .fmul, .fma, .fdiv, .fsqrt, .fmin, .fmax, .fabs, .fneg, .fcmp, .fcvt, .frnd, .fexp2, .flog2, .frcp, .frsq, .vadd, .vsub, .vmul,
   .vfma, .vmin, .vmax, .vabs, .vneg, .vand, .vor, .vxor, .vshl, .vshr, .vcmp, .vsel, .vred, .vscan, .vexp2, .vrcp, .vrsq, .vcvt,
   .vperm, .vsplat, .viota, .vpack, .vunpk, .vcpy, .cvt, .qblk, .dqblk, .ternpk, .ternpkUnpk, .ld, .st, .ldv, .stv, .ldg, .sts,
   .mnop, .wave, .pf, .lwb, .linv, .sbind, .scancel, .sstat, .cpy, .cpyr, .mcrd, .xlat, .tlbinv, .fence, .rel, .acq, .tlinc,
   .tlwait, .tlarm, .tlread, .barinit, .bararr, .barexit, .itake, .iput, .iread, .iclr, .atom, .acas, .lsend, .specbeg, .speccmt,
   .specabt, .oclm, .orel, .old, .olds, .oldsQ, .mma, .mmat, .mmax, .aclr, .amov, .aadd, .acvt, .ackpt, .arst, .astat, .topk,
   .topkm, .smxi, .smxu, .smxn, .smxm, .smxr, .smxw, .smxs, .qsend, .qfwd, .klook, .klookPage, .kapp, .kpin, .kpinUnpin, .kevict,
   .kfill, .pxlook, .pxins, .pgmap, .pgmapList, .pgfrz, .pgnew, .seqtbl, .seqtblNext, .trap, .brk, .sysrd, .syswr, .evget, .launch,
   .cfginst, .curtain, .ctxsv, .ctxld, .time, .prompt]

/-! ## Every record instruction fires somewhere (the `Fires` and `Passes` of every statement) -/

/-- The state in which a form's sample record fires: a control core for a privileged form, else an ordinary one, three scalar operands. -/
def stFor (f : Form) : State := st (if f.priv then ctl0 else core0) (num 3) (num 4) (num 5)

theorem witness_fires : (records.all fun k =>
    match (k ⟨0, 0, 0, 0, 0, 0, 0, 0, 0⟩).form with
    | some f => fires (stFor f) f (rec_ f)
    | none => false) = true := by decide +kernel

theorem witness_AllScalar (r : Rec) : (st core0 (num 3) (num 4) (num 5)).AllScalar r := by
  intro n h
  match n with
  | 0 => rfl
  | 1 => rfl
  | 2 => rfl
  | n + 3 => have := r.ari.isLt; omega

theorem witness_UnitsFree : (st core0 (num 3) (num 4) (num 5)).UnitsFree := ⟨rfl, by decide +kernel⟩

/-! ## Decoding: a word of every opcode, from the rows of R90's table -/

/-- The fields of the words below: nothing set but ARI 1 and destination A, node 1 of the own core. -/
def r1 : Rec := ⟨0, 0, 1, 0, 0, 0, 0, 0x400004, 0⟩

theorem test_decode_row_0 : ([
    (0x01_0010_0000_0040_0004_0000_00#96, Instr.sink r1), (0x02_0010_0000_0040_0004_0000_00#96, Instr.dup r1),
    (0x03_0010_0000_0040_0004_0000_00#96, Instr.const r1), (0x04_0010_0000_0040_0004_0000_00#96, Instr.steer r1),
    (0x05_0010_0000_0040_0004_0000_00#96, Instr.gate r1), (0x06_0010_0000_0040_0004_0000_00#96, Instr.loopin r1),
    (0x07_0010_0000_0040_0004_0000_00#96, Instr.iter r1), (0x08_0010_0000_0040_0004_0000_00#96, Instr.loopout r1),
    (0x09_0010_0000_0040_0004_0000_00#96, Instr.loopcr r1), (0x0A_0010_0000_0040_0004_0000_00#96, Instr.call r1),
    (0x0B_0010_0000_0040_0004_0000_00#96, Instr.ret r1), (0x0C_0010_0000_0040_0004_0000_00#96, Instr.tagget r1),
    (0x0D_0010_0000_0040_0004_0000_00#96, Instr.tagset r1), (0x0E_0010_0000_0040_0004_0000_00#96, Instr.spawn r1),
    (0x0F_0010_0000_0040_0004_0000_00#96, Instr.purge r1)] : List (BitVec 96 × Instr)).all
    (fun p => decide (decodeWord p.1 = some p.2)) = true := by decide +kernel

theorem test_decode_row_1 : ([
    (0x10_0010_0000_0040_0004_0000_00#96, Instr.join r1), (0x11_0010_0000_0040_0004_0000_00#96, Instr.cmb r1),
    (0x12_0010_0000_0040_0004_0000_00#96, Instr.dends r1), (0x13_0010_0000_0040_0004_0000_00#96, Instr.bndry r1),
    (0x14_0010_0000_0040_0004_0000_00#96, Instr.vote r1), (0x15_0010_0000_0040_0004_0000_00#96, Instr.rng r1),
    (0x16_0010_0000_0040_0004_0000_00#96, Instr.evpost r1), (0x17_0010_0000_0040_0004_0000_00#96, Instr.endg r1)] : List (BitVec 96 × Instr)).all
    (fun p => decide (decodeWord p.1 = some p.2)) = true := by decide +kernel

theorem test_decode_row_2 : ([
    (0x20_0010_0000_0040_0004_0000_00#96, Instr.add r1), (0x21_0010_0000_0040_0004_0000_00#96, Instr.sub r1),
    (0x22_0010_0000_0040_0004_0000_00#96, Instr.mul r1), (0x23_0010_0000_0040_0004_0000_00#96, Instr.mulh r1),
    (0x24_0010_0000_0040_0004_0000_00#96, Instr.div r1), (0x25_0010_0000_0040_0004_0000_00#96, Instr.rem r1),
    (0x26_0010_0000_0040_0004_0000_00#96, Instr.neg r1), (0x27_0010_0000_0040_0004_0000_00#96, Instr.abs r1),
    (0x28_0010_0000_0040_0004_0000_00#96, Instr.min r1), (0x29_0010_0000_0040_0004_0000_00#96, Instr.max r1),
    (0x2A_0010_0000_0040_0004_0000_00#96, Instr.and r1), (0x2B_0010_0000_0040_0004_0000_00#96, Instr.or r1),
    (0x2C_0010_0000_0040_0004_0000_00#96, Instr.xor r1), (0x2D_0010_0000_0040_0004_0000_00#96, Instr.andn r1),
    (0x2E_0010_0000_0040_0004_0000_00#96, Instr.shl r1), (0x2F_0010_0000_0040_0004_0000_00#96, Instr.shr r1)] : List (BitVec 96 × Instr)).all
    (fun p => decide (decodeWord p.1 = some p.2)) = true := by decide +kernel

theorem test_decode_row_3 : ([
    (0x30_0010_0000_0040_0004_0000_00#96, Instr.sar r1), (0x31_0010_0000_0040_0004_0000_00#96, Instr.rotl r1),
    (0x32_0010_0000_0040_0004_0000_00#96, Instr.clz r1), (0x33_0010_0000_0040_0004_0000_00#96, Instr.ctz r1),
    (0x34_0010_0000_0040_0004_0000_00#96, Instr.popc r1), (0x35_0010_0000_0040_0004_0000_00#96, Instr.brev r1),
    (0x36_0010_0000_0040_0004_0000_00#96, Instr.bext r1), (0x37_0010_0000_0040_0004_0000_00#96, Instr.bins r1),
    (0x38_0010_0000_0040_0004_0000_00#96, Instr.cmp r1), (0x39_0010_0000_0040_0004_0000_00#96, Instr.sel r1),
    (0x3A_0010_0000_0040_0004_0000_00#96, Instr.madd r1), (0x3B_0010_0000_0040_0004_0000_00#96, Instr.lea r1),
    (0x3C_0010_0000_0040_0004_0000_00#96, Instr.line r1)] : List (BitVec 96 × Instr)).all
    (fun p => decide (decodeWord p.1 = some p.2)) = true := by decide +kernel

theorem test_decode_row_4 : ([
    (0x40_0010_0000_0040_0004_0000_00#96, Instr.fadd r1), (0x41_0010_0000_0040_0004_0000_00#96, Instr.fsub r1),
    (0x42_0010_0000_0040_0004_0000_00#96, Instr.fmul r1), (0x43_0010_0000_0040_0004_0000_00#96, Instr.fma r1),
    (0x44_0010_0000_0040_0004_0000_00#96, Instr.fdiv r1), (0x45_0010_0000_0040_0004_0000_00#96, Instr.fsqrt r1),
    (0x46_0010_0000_0040_0004_0000_00#96, Instr.fmin r1), (0x47_0010_0000_0040_0004_0000_00#96, Instr.fmax r1),
    (0x48_0010_0000_0040_0004_0000_00#96, Instr.fabs r1), (0x49_0010_0000_0040_0004_0000_00#96, Instr.fneg r1),
    (0x4A_0010_0000_0040_0004_0000_00#96, Instr.fcmp r1), (0x4B_0010_0000_0040_0004_0000_00#96, Instr.fcvt r1),
    (0x4C_0010_0000_0040_0004_0000_00#96, Instr.frnd r1), (0x4D_0010_0000_0040_0004_0000_00#96, Instr.fexp2 r1),
    (0x4E_0010_0000_0040_0004_0000_00#96, Instr.flog2 r1), (0x4F_0010_0000_0040_0004_0000_00#96, Instr.frcp r1)] : List (BitVec 96 × Instr)).all
    (fun p => decide (decodeWord p.1 = some p.2)) = true := by decide +kernel

theorem test_decode_row_5 : ([
    (0x50_0010_0000_0040_0004_0000_00#96, Instr.frsq r1), (0x58_0010_0000_0040_0004_0000_00#96, Instr.vadd r1),
    (0x59_0010_0000_0040_0004_0000_00#96, Instr.vsub r1), (0x5A_0010_0000_0040_0004_0000_00#96, Instr.vmul r1),
    (0x5B_0010_0000_0040_0004_0000_00#96, Instr.vfma r1), (0x5C_0010_0000_0040_0004_0000_00#96, Instr.vmin r1),
    (0x5D_0010_0000_0040_0004_0000_00#96, Instr.vmax r1), (0x5E_0010_0000_0040_0004_0000_00#96, Instr.vabs r1),
    (0x5F_0010_0000_0040_0004_0000_00#96, Instr.vneg r1)] : List (BitVec 96 × Instr)).all
    (fun p => decide (decodeWord p.1 = some p.2)) = true := by decide +kernel

theorem test_decode_row_6 : ([
    (0x60_0010_0000_0040_0004_0000_00#96, Instr.vand r1), (0x61_0010_0000_0040_0004_0000_00#96, Instr.vor r1),
    (0x62_0010_0000_0040_0004_0000_00#96, Instr.vxor r1), (0x63_0010_0000_0040_0004_0000_00#96, Instr.vshl r1),
    (0x64_0010_0000_0040_0004_0000_00#96, Instr.vshr r1), (0x65_0010_0000_0040_0004_0000_00#96, Instr.vcmp r1),
    (0x66_0010_0000_0040_0004_0000_00#96, Instr.vsel r1), (0x67_0010_0000_0040_0004_0000_00#96, Instr.vred r1),
    (0x68_0010_0000_0040_0004_0000_00#96, Instr.vscan r1), (0x69_0010_0000_0040_0004_0000_00#96, Instr.vexp2 r1),
    (0x6A_0010_0000_0040_0004_0000_00#96, Instr.vrcp r1), (0x6B_0010_0000_0040_0004_0000_00#96, Instr.vrsq r1),
    (0x6C_0010_0000_0040_0004_0000_00#96, Instr.vcvt r1), (0x6D_0010_0000_0040_0004_0000_00#96, Instr.vperm r1),
    (0x6E_0010_0000_0040_0004_0000_00#96, Instr.vsplat r1), (0x6F_0010_0000_0040_0004_0000_00#96, Instr.viota r1)] : List (BitVec 96 × Instr)).all
    (fun p => decide (decodeWord p.1 = some p.2)) = true := by decide +kernel

theorem test_decode_row_7 : ([
    (0x70_0010_0000_0040_0004_0000_00#96, Instr.vpack r1), (0x71_0010_0000_0040_0004_0000_00#96, Instr.vunpk r1),
    (0x72_0010_0000_0040_0004_0000_00#96, Instr.vcpy r1), (0x73_0010_0000_0040_0004_0000_00#96, Instr.cvt r1),
    (0x74_0010_0000_0040_0004_0000_00#96, Instr.qblk r1), (0x75_0010_0000_0040_0004_0000_00#96, Instr.dqblk r1),
    (0x76_0010_0000_0040_0004_0000_00#96, Instr.ternpk r1)] : List (BitVec 96 × Instr)).all
    (fun p => decide (decodeWord p.1 = some p.2)) = true := by decide +kernel

theorem test_decode_row_8 : ([
    (0x80_0010_0000_0040_0004_0000_00#96, Instr.ld r1), (0x81_0010_0000_0040_0004_0000_00#96, Instr.st r1),
    (0x82_0010_0000_0040_0004_0000_00#96, Instr.ldv r1), (0x83_0010_0000_0040_0004_0000_00#96, Instr.stv r1),
    (0x84_0010_0000_0040_0004_0000_00#96, Instr.ldg r1), (0x85_0010_0000_0040_0004_0000_00#96, Instr.sts r1),
    (0x86_0010_0000_0040_0004_0000_00#96, Instr.mnop r1), (0x87_0010_0000_0040_0004_0000_00#96, Instr.wave r1),
    (0x88_0010_0000_0040_0004_0000_00#96, Instr.pf r1), (0x89_0010_0000_0040_0004_0000_00#96, Instr.lwb r1),
    (0x8A_0010_0000_0040_0004_0000_00#96, Instr.linv r1), (0x8B_0010_0000_0040_0004_0000_00#96, Instr.sbind r1),
    (0x8C_0010_0000_0040_0004_0000_00#96, Instr.scancel r1), (0x8D_0010_0000_0040_0004_0000_00#96, Instr.sstat r1),
    (0x8E_0010_0000_0040_0004_0000_00#96, Instr.cpy r1), (0x8F_0010_0000_0040_0004_0000_00#96, Instr.cpyr r1)] : List (BitVec 96 × Instr)).all
    (fun p => decide (decodeWord p.1 = some p.2)) = true := by decide +kernel

theorem test_decode_row_9 : ([
    (0x90_0010_0000_0040_0004_0000_00#96, Instr.mcrd r1), (0x91_0010_0000_0040_0004_0000_00#96, Instr.xlat r1),
    (0x92_0010_0000_0040_0004_0000_00#96, Instr.tlbinv r1), (0x98_0010_0000_0040_0004_0000_00#96, Instr.fence r1),
    (0x99_0010_0000_0040_0004_0000_00#96, Instr.rel r1), (0x9A_0010_0000_0040_0004_0000_00#96, Instr.acq r1),
    (0x9B_0010_0000_0040_0004_0000_00#96, Instr.tlinc r1), (0x9C_0010_0000_0040_0004_0000_00#96, Instr.tlwait r1),
    (0x9D_0010_0000_0040_0004_0000_00#96, Instr.tlarm r1), (0x9E_0010_0000_0040_0004_0000_00#96, Instr.tlread r1),
    (0x9F_0010_0000_0040_0004_0000_00#96, Instr.barinit r1)] : List (BitVec 96 × Instr)).all
    (fun p => decide (decodeWord p.1 = some p.2)) = true := by decide +kernel

theorem test_decode_row_a : ([
    (0xA0_0010_0000_0040_0004_0000_00#96, Instr.bararr r1), (0xA1_0010_0000_0040_0004_0000_00#96, Instr.barexit r1),
    (0xA2_0010_0000_0040_0004_0000_00#96, Instr.itake r1), (0xA3_0010_0000_0040_0004_0000_00#96, Instr.iput r1),
    (0xA4_0010_0000_0040_0004_0000_00#96, Instr.iread r1), (0xA5_0010_0000_0040_0004_0000_00#96, Instr.iclr r1),
    (0xA6_0010_0000_0040_0004_0000_00#96, Instr.atom r1), (0xA7_0010_0000_0040_0004_0000_00#96, Instr.acas r1),
    (0xA8_0010_0000_0040_0004_0000_00#96, Instr.lsend r1), (0xA9_0010_0000_0040_0004_0000_00#96, Instr.specbeg r1),
    (0xAA_0010_0000_0040_0004_0000_00#96, Instr.speccmt r1), (0xAB_0010_0000_0040_0004_0000_00#96, Instr.specabt r1)] : List (BitVec 96 × Instr)).all
    (fun p => decide (decodeWord p.1 = some p.2)) = true := by decide +kernel

theorem test_decode_row_b : ([
    (0xB0_0010_0000_0040_0004_0000_00#96, Instr.oclm r1), (0xB1_0010_0000_0040_0004_0000_00#96, Instr.orel r1),
    (0xB2_0010_0000_0040_0004_0000_00#96, Instr.old r1), (0xB3_0010_0000_0040_0004_0000_00#96, Instr.olds r1),
    (0xB4_0010_0000_0040_0004_0000_00#96, Instr.mma r1), (0xB5_0010_0000_0040_0004_0000_00#96, Instr.mmat r1),
    (0xB6_0010_0000_0040_0004_0000_00#96, Instr.mmax r1), (0xB7_0010_0000_0040_0004_0000_00#96, Instr.aclr r1),
    (0xB8_0010_0000_0040_0004_0000_00#96, Instr.amov r1), (0xB9_0010_0000_0040_0004_0000_00#96, Instr.aadd r1),
    (0xBA_0010_0000_0040_0004_0000_00#96, Instr.acvt r1), (0xBB_0010_0000_0040_0004_0000_00#96, Instr.ackpt r1),
    (0xBC_0010_0000_0040_0004_0000_00#96, Instr.arst r1), (0xBD_0010_0000_0040_0004_0000_00#96, Instr.astat r1),
    (0xBE_0010_0000_0040_0004_0000_00#96, Instr.topk r1), (0xBF_0010_0000_0040_0004_0000_00#96, Instr.topkm r1)] : List (BitVec 96 × Instr)).all
    (fun p => decide (decodeWord p.1 = some p.2)) = true := by decide +kernel

theorem test_decode_row_c : ([
    (0xC8_0010_0000_0040_0004_0000_00#96, Instr.smxi r1), (0xC9_0010_0000_0040_0004_0000_00#96, Instr.smxu r1),
    (0xCA_0010_0000_0040_0004_0000_00#96, Instr.smxn r1), (0xCB_0010_0000_0040_0004_0000_00#96, Instr.smxm r1),
    (0xCC_0010_0000_0040_0004_0000_00#96, Instr.smxr r1), (0xCD_0010_0000_0040_0004_0000_00#96, Instr.smxw r1),
    (0xCE_0010_0000_0040_0004_0000_00#96, Instr.smxs r1), (0xCF_0010_0000_0040_0004_0000_00#96, Instr.qsend r1)] : List (BitVec 96 × Instr)).all
    (fun p => decide (decodeWord p.1 = some p.2)) = true := by decide +kernel

theorem test_decode_row_d : ([
    (0xD0_0010_0000_0040_0004_0000_00#96, Instr.qfwd r1), (0xD1_0010_0000_0040_0004_0000_00#96, Instr.klook r1),
    (0xD2_0010_0000_0040_0004_0000_00#96, Instr.kapp r1), (0xD3_0010_0000_0040_0004_0000_00#96, Instr.kpin r1),
    (0xD4_0010_0000_0040_0004_0000_00#96, Instr.kevict r1), (0xD5_0010_0000_0040_0004_0000_00#96, Instr.kfill r1),
    (0xD6_0010_0000_0040_0004_0000_00#96, Instr.pxlook r1), (0xD7_0010_0000_0040_0004_0000_00#96, Instr.pxins r1),
    (0xD8_0010_0000_0040_0004_0000_00#96, Instr.pgmap r1), (0xD9_0010_0000_0040_0004_0000_00#96, Instr.pgfrz r1),
    (0xDA_0010_0000_0040_0004_0000_00#96, Instr.pgnew r1), (0xDB_0010_0000_0040_0004_0000_00#96, Instr.seqtbl r1)] : List (BitVec 96 × Instr)).all
    (fun p => decide (decodeWord p.1 = some p.2)) = true := by decide +kernel

theorem test_decode_row_f : ([
    (0xF0_0010_0000_0040_0004_0000_00#96, Instr.trap r1), (0xF1_0010_0000_0040_0004_0000_00#96, Instr.brk r1),
    (0xF2_0010_0000_0040_0004_0000_00#96, Instr.sysrd r1), (0xF3_0010_0000_0040_0004_0000_00#96, Instr.syswr r1),
    (0xF4_0010_0000_0040_0004_0000_00#96, Instr.evget r1), (0xF5_0010_0000_0040_0004_0000_00#96, Instr.launch r1),
    (0xF6_0010_0000_0040_0004_0000_00#96, Instr.cfginst r1), (0xF7_0010_0000_0040_0004_0000_00#96, Instr.curtain r1),
    (0xF8_0010_0000_0040_0004_0000_00#96, Instr.ctxsv r1), (0xF9_0010_0000_0040_0004_0000_00#96, Instr.ctxld r1),
    (0xFA_0010_0000_0040_0004_0000_00#96, Instr.time r1), (0xFB_0010_0000_0040_0004_0000_00#96, Instr.prompt r1)] : List (BitVec 96 × Instr)).all
    (fun p => decide (decodeWord p.1 = some p.2)) = true := by decide +kernel

/-- R90, R92 step 4, R302, R331 to R339: the second row of an opcode is told by TAG 4, or by bit 0 of VAR, bit 82 of the word. -/
theorem test_decode_variants :
    decodeWord 0x0A_0014_0000_0040_0004_0000_00#96 = some (.callCol ⟨0, 0, 1, 4, 0, 0, 0, 0x400004, 0⟩) ∧
    ([(0x76_0410_0000_0040_0004_0000_00#96, Instr.ternpkUnpk ⟨1, 0, 1, 0, 0, 0, 0, 0x400004, 0⟩),
      (0xB3_0410_0000_0040_0004_0000_00#96, .oldsQ ⟨1, 0, 1, 0, 0, 0, 0, 0x400004, 0⟩),
      (0xD1_0410_0000_0040_0004_0000_00#96, .klookPage ⟨1, 0, 1, 0, 0, 0, 0, 0x400004, 0⟩),
      (0xD3_0410_0000_0040_0004_0000_00#96, .kpinUnpin ⟨1, 0, 1, 0, 0, 0, 0, 0x400004, 0⟩),
      (0xD8_0410_0000_0040_0004_0000_00#96, .pgmapList ⟨1, 0, 1, 0, 0, 0, 0, 0x400004, 0⟩),
      (0xDB_0410_0000_0040_0004_0000_00#96, .seqtblNext ⟨1, 0, 1, 0, 0, 0, 0, 0x400004, 0⟩)] : List (BitVec 96 × Instr)).all
      (fun p => decide (decodeWord p.1 = some p.2)) = true := by decide +kernel

/-- The worked records of the manual (R92's example and the programs of its later chapters), field by field. -/
theorem test_decode_worked :
    ([(0x2000_9040_0005_4000_0484_40A1#96, Instr.add ⟨0, 2, 1, 0, 1, 0, 5, 0x400004, 0x8440A1⟩),
      (0x2280_9084_0001_0000_00C0_C000#96, .mul ⟨0x20, 2, 1, 0, 2, 0, 0x40001, 0, 0xC0C000⟩),
      (0x0600_1240_0001_4000_0800_0000#96, .loopin ⟨0, 0, 1, 2, 1, 0, 1, 0x400008, 0⟩),
      (0x0704_1040_0001_4000_0800_0000#96, .iter ⟨1, 0, 1, 0, 1, 0, 1, 0x400008, 0⟩),
      (0x8700_1040_0004_4000_0C40_0010#96, .wave ⟨0, 0, 1, 0, 1, 0, 4, 0x40000C, 0x400010⟩),
      (0xB402_F000_0000_4000_2400_0000#96, .mma ⟨0, 0xB, 3, 0, 0, 0, 0, 0x400024, 0⟩),
      (0xC90C_3040_0005_4000_3000_0000#96, .smxu ⟨3, 0, 3, 0, 1, 0, 5, 0x400030, 0⟩),
      (0x0500_2600_0000_4000_1000_0000#96, .gate ⟨0, 0, 2, 6, 0, 0, 0, 0x400010, 0⟩)] : List (BitVec 96 × Instr)).all
      (fun p => decide (decodeWord p.1 = some p.2)) = true := by decide +kernel

/-! ## Ill-formed instructions, one for each check, refused (R75, R76, R81 to R84, R153, R155) -/

/-- A well-formed ADD of two tokens. -/
def okAdd : Rec := ⟨0, 2, 2, 0, 0, 0, 0, 0x400004, 0⟩
theorem test_wf_add : (Instr.add okAdd).wf 64 = true := by decide
theorem test_wf_refuses_reserved_bits : (Instr.add { okAdd with rsv := 1 }).wf 64 = false := by decide
theorem test_wf_refuses_tag : (Instr.add { okAdd with tag := 7 }).wf 64 = false := by decide
theorem test_wf_refuses_typ : (Instr.add { okAdd with typ := 8 }).wf 64 = false := by decide
theorem test_wf_refuses_arity : (Instr.add { okAdd with ari := 3 }).wf 64 = false := by decide
theorem test_wf_refuses_literal_kind : (Instr.add { okAdd with lk := 3 }).wf 64 = false := by decide
theorem test_wf_refuses_rounding_mode : (Instr.fadd { okAdd with typ := 8, sub := 0x30 }).wf 64 = false := by decide
theorem test_wf_refuses_scope : (Instr.fence ⟨0x30, 0, 1, 0, 0, 0, 0, 0x400004, 0⟩).wf 64 = false := by decide
theorem test_wf_refuses_variant : (Instr.add { okAdd with sub := 1 }).wf 64 = false := by decide
theorem test_wf_refuses_literal_without_kind : (Instr.add { okAdd with lit := 1 }).wf 64 = false := by decide
theorem test_wf_refuses_literal_value : (Instr.loopin ⟨0, 0, 1, 2, 1, 0, 65, 0x400008, 0⟩).wf 64 = false := by decide
theorem test_wf_refuses_dsta : (Instr.add { okAdd with dstA := 0x404004 }).wf 64 = false := by decide
theorem test_wf_refuses_dstb : (Instr.add { okAdd with dstB := 1 }).wf 64 = false := by decide
theorem test_wf_refuses_sink_result : (Instr.sink ⟨0, 0, 1, 0, 0, 0, 0, 0x400004, 0⟩).wf 64 = false := by decide
theorem test_wf_refuses_copy_b : (Instr.cpy ⟨0, 0, 3, 0, 0, 0, 0, 0, 0x400004⟩).wf 64 = false := by decide
theorem test_wf_refuses_far_spawn : (Instr.spawn ⟨0, 0, 1, 4, 0, 0, 0, 0xC00000, 0⟩).wf 64 = false := by decide
theorem test_wf_refuses_tagget_literal : (Instr.tagget ⟨0, 0, 1, 0, 1, 0, 0, 0x400004, 0⟩).wf 64 = false := by decide
theorem test_wf_refuses_party : (Instr.chainLink ⟨64, 0, 0, 0⟩ ⟨0, 0, 0, zeroOp, []⟩ 1).wf 64 = false := by decide
theorem test_wf_party : (Instr.chainLink ctl0 ⟨0, 0, 0, zeroOp, []⟩ 1).wf 64 = true := by decide

/-! ## Steps (StepRuns) -/

/-- The word of `add.i32 $0, #5 -> node 1`, R92's example. -/
def addWord : Nat := 0x2000_9040_0005_4000_0484_40A1

/-- withFetchWord's record is the next to run: the agenda's first item is its issue, no timer is due, its core runs. -/
theorem witness_StepRuns_issue : let s := State.reset.withFetchWord 96 addWord
    let t := s.tick
    t.dueTimer t.timers = none ∧ t.nextItem t.agenda = some (.issue ctl0, []) ∧ ctl0.exists_ s.podSize = true ∧ (s.pkg 0).stopped = false ∧
      (s.core ctl0).ready = [placedFiring] ∧ decodeWord (s.recordAt ctl0 0) = some (.add ⟨0, 2, 1, 0, 1, 0, 5, 0x400004, 0x8440A1⟩) := by
  decide +kernel
/-- A reserved opcode in the same place. -/
theorem witness_StepRuns_reserved : decodeWord ((State.reset.withFetchWord 96 0).recordAt ctl0 0) = none := by decide +kernel
/-- A timer that is due, with an event of a cluster that exists, and an event at the head of the agenda; a package that is stopped loses
both, an island that stands still holds both back, and then nothing is next. -/
theorem witness_StepRuns_event : let s : State := { State.reset with timers := [⟨1, .coreWake, sited0⟩] }
    let u : State := { State.reset with agenda := [.event .coreWake sited0] }
    let stop (s : State) : State := s.modPkg 0 fun x => { x with stopped := true }
    let still (s : State) : State := s.modPkg 0 fun x => { x with islands := [{ Island.reset with stopped := true }] }
    s.tick.dueTimer s.timers = some (⟨1, .coreWake, sited0⟩, []) ∧ (Instr.coreWake).partiesOk s.podSize = true ∧
      sited0.core.exists_ s.podSize = true ∧ s.tick.lostItem (.event .coreWake sited0) = false ∧
      u.tick.dueTimer u.timers = none ∧ u.tick.nextItem u.agenda = some (.event .coreWake sited0, []) ∧
      (stop s).tick.lostItem (.event .coreWake sited0) = true ∧ (still s).tick.halted (.event .coreWake sited0) = true ∧
      (still s).tick.dueTimer s.timers = none ∧ (still u).tick.nextItem u.agenda = none := by decide +kernel

/-- R44, R92, R152, R176: a step runs ADD: $0 (0) plus 5 goes to node 1, port 0 of the own core, as one INT32 token, and to node 40 of core 17. -/
theorem test_step_runs_add : (match step (State.reset.withFetchWord 96 addWord) with
    | .next s => decide (s.agenda.map (fun x => match x with
        | .event (.tokenArrival c .own t) _ => (c, t.node, t.port, t.opnd.val)
        | .event (.tokenArrival c .network t) _ => (c, t.node, t.port, t.opnd.val)
        | .event (.chainLink c t _) _ => (c, t.node, t.port, t.opnd.val)
        | _ => (core0, 0, 0, 0)) = [(ctl0, 1, 0, 5), (⟨0, 0, 0, 17⟩, 40, 1, 5)])
    | _ => false) = true := by decide +kernel

/-! ## Faults (FailedCheckFaults, CheckOrder, FaultRecord) -/

/-- Three scalar operands on an ordinary core, the plainest state of the tests. -/
def s3 : State := st core0 (num 3) (num 4) (num 5)

theorem witness_FailedCheckFaults : (Instr.add okAdd).form = some Forms.add ∧ (Instr.add okAdd).record = some okAdd ∧
    s3.check Forms.add { okAdd with rsv := 1 } = some { cause := .illegalRecord } := ⟨rfl, rfl, by decide +kernel⟩
/-- The boundary of each step of R92: 3 (reserved bits, TAG 7), 4 (a type that ADD lacks), 5 (LK 3), all passed. -/
theorem witness_CheckOrder_steps :
    s3.check3 Forms.add { okAdd with rsv := 1 } = false ∧ s3.check3 Forms.add { okAdd with tag := 7 } = false ∧
    s3.check3 Forms.add { okAdd with typ := 8 } = true ∧ check4 Forms.add { okAdd with typ := 8 } = false ∧
    s3.check3 Forms.add { okAdd with lk := 3 } = true ∧ check4 Forms.add { okAdd with lk := 3 } = true ∧
    s3.check3 Forms.add okAdd = true ∧ check4 Forms.add okAdd = true ∧ s3.check5 okAdd = true ∧ s3.check6 Forms.add okAdd = true ∧
    s3.check3 Forms.tagget ⟨4, 0, 1, 0, 0, 0, 0, 0x400004, 0⟩ = false := by
  decide +kernel
/-- EVGET on an ordinary core, and SPECBEG in an activation without the grant. -/
theorem witness_CheckOrder_privilege :
    (s3.check3 Forms.evget (rec_ Forms.evget) = true ∧ check4 Forms.evget (rec_ Forms.evget) = true ∧
      s3.check5 (rec_ Forms.evget) = true ∧ Forms.evget.priv = true ∧ s3.cur.core.core < 192) ∧
    (let s : State := { s3 with acts := [(7, { act0 with grant := false })] }
     s.check3 Forms.specbeg (rec_ Forms.specbeg) = true ∧ check4 Forms.specbeg (rec_ Forms.specbeg) = true ∧
      s.check5 (rec_ Forms.specbeg) = true ∧ Forms.specbeg.opc = 0xA9 ∧ s.curAct.grant = false) := by decide +kernel
/-- A slice descriptor as $1 of ADD. -/
theorem witness_CheckOrder_operands : let s := st core0 (num 3) (sliceOp 0 0) (num 5)
    1 < okAdd.ari.toNat ∧ kindForm (s.tokenOp 1).kind ≠ 0 ∧ kindForm (s.tokenOp 0).kind = 0 ∧ fires s Forms.add okAdd = true := by
  decide +kernel
/-- R401: that ADD posts one FAULT record, KIND 1, the operand's number in DETAIL, the firing's tag in word 1. -/
theorem test_fault_record : (match exec (.add okAdd) (st core0 (num 3) (sliceOp 0 0) (num 5)) with
    | .next s => decide (((s.cluster ⟨0, 0, 0⟩).queues.getD 1 Queue.reset).recs.map (fun r =>
        ((r.getD 0 0).toNat / 2 ^ 56, (r.getD 0 0).toNat % 2 ^ 12, (r.getD 1 0))) = [(1, 1, mkTag 0 1 5)])
    | _ => false) = true := by decide +kernel
theorem witness_FaultRecord : let q := (s3.cluster s3.cur.core.cluId).queues.getD 1 Queue.reset
    q.recs.length < 1023 ∧ (s3.cluster s3.cur.core.cluId).queues.length = 4 ∧ s3.cur.node < 4096 ∧ s3.cur.core.core < 194 := by decide +kernel
/-- The queue's clauses meet at 1,022, 1,023 records, and 1,024 with the LOST record. -/
theorem witness_FaultRecord_queue : ((Queue.mk (List.replicate 1022 []) 0).post [1] 9).2 = true ∧
    ((Queue.mk (List.replicate 1023 []) 0).post [1] 9).1.lost = 1 ∧ ((Queue.mk (List.replicate 1024 []) 1).post [1] 9).1.lost = 2 := by
  decide +kernel

/-! ## Tags and tokens -/

theorem witness_TagOperations : ([4, 4] : List Nat).length ≤ 7 ∧ (∀ w ∈ ([4, 4] : List Nat), w ≤ 26) ∧ ([4, 4] : List Nat).sum ≤ 52 ∧
    tagOk [4, 4] (mkTag 3 1 5) = true ∧ depthOf (mkTag 3 1 5) = 1 ∧ levelWidth [4, 4] 2 ≠ 0 ∧
    tagOk [4, 4] (mkTag 3 0 0) = true ∧ depthOf (mkTag 3 0 0) = 0 ∧
    tagOk [4, 4] (mkTag 3 2 0x5F) = true ∧ levelWidth [4, 4] 3 = 0 := by decide
/-- R31: iterate wraps within its field, push opens a zero field, pop drops one. -/
theorem test_tag_iterate_wraps : tagOp [4, 4] (mkTag 3 2 0x5F) 1 0 = some (mkTag 3 2 0x50) := by decide
theorem test_tag_push_pop : tagOp [4, 4] (mkTag 3 1 5) 2 0 = some (mkTag 3 2 0x50) ∧ tagOp [4, 4] (mkTag 3 2 0x5F) 3 0 = some (mkTag 3 1 5) := by
  decide
theorem witness_ResultTags : s3.freeColour die0 = some 1 ∧ Assoc.get? s3.acts s3.uid = none := by decide +kernel

/-- A destination of each class: null, own core, core 17 of the cluster, far entry 3. -/
theorem witness_TokensSent :
    let s := s3.modCore core0 fun k => { k with far := [(3, 0x8000_0400_0000_0000#64)] }
    (0x000000#24).toNat / 2 ^ 22 = 0 ∧ (0x400004#24).toNat / 2 ^ 22 = 1 ∧ (0x8440A1#24).toNat / 2 ^ 22 = 2 ∧ (0xC0C000#24).toNat / 2 ^ 22 = 3 ∧
      Assoc.get? (s.core core0).regions 0 = none ∧ kindForm (num 3).kind ≠ 1 ∧
      (Assoc.getD (s.core core0).far ((0xC0C000#24).toNat / 2 ^ 14 % 256) 0).toNat.testBit 63 = true := by decide +kernel
/-- A chorus copy's record that leads to a VOTE on core 17, and a record of a region that leads there. -/
theorem witness_TokensSent_chorus :
    let vote : BitVec 96 := 0x14_0010_0000_0040_0004_0000_00#96
    let s : State := { s3 with cores :=
      [(core0, { Core.reset with chorus := [(0, (1, 5))], regions := [(9, (2, 3))] }),
        (⟨0, 0, 0, 17⟩, { Core.reset with elem := [(40, vote)], chorus := [(40, (0, 5))] })] }
    Assoc.get? (s.core core0).chorus 0 = some (1, 5) ∧ Assoc.get? (s.core ⟨0, 0, 0, 17⟩).chorus ((0x8440A1#24).toNat / 4 % 4096) = some (0, 5) ∧
      (opcOfWord (s.recordAt ⟨0, 0, 0, 17⟩ ((0x8440A1#24).toNat / 4 % 4096))).toNat = 0x14 ∧ Assoc.get? (s.core core0).regions 9 = some (2, 3) ∧
      s.leads core0 9 0x8440A1#24 = some (⟨0, 0, 0, 17⟩, 40, 1) ∧ (s.tokenItem core0 9 0x8440A1#24 (mkTag 0 1 5) (num 3)).isSome = true := by
  decide +kernel
/-- R146: the discard count stops at its top. -/
theorem test_nulls_saturate : (((s3.modCore core0 fun k => { k with nulls := 0xFFFFFFFF#32 }).countNull core0).core core0).nulls = 0xFFFFFFFF#32 := by
  decide +kernel
theorem witness_ResultsSent : s3.cur.core.core < 192 ∧
    (let s := st ctl0 (num 3) (num 4) (num 5)
     let r : Rec := { okAdd with ari := 1, lk := 1 }
     192 ≤ s.cur.core.core ∧ r.ari.toNat = 1 ∧ r.dstA.toNat / 2 ^ 22 = 1 ∧ r.dstB.toNat / 2 ^ 22 = 0 ∧ s.cur.link < 32) := by decide +kernel

/-! ## Routing, loops, calls -/

/-- STEER by a control token that is 0 and one that is not; DENDS on END 01, on bit 0 and bit 1. -/
theorem witness_RoutingResults : (st core0 (num 3) (num 0) (num 0)).cur.op1.val = 0 ∧ s3.cur.op1.val ≠ 0 ∧
    (st core0 ⟨3, mkKind 0 0 1⟩ (num 0) (num 0)).end0.testBit 0 = true ∧ (st core0 ⟨3, mkKind 0 0 1⟩ (num 0) (num 0)).end0.testBit 1 = false := by
  decide +kernel
/-- R156: STEER with a zero control token sends $0 to destination B alone. -/
theorem test_steer_zero_goes_b : (match exec (.steer ⟨0, 0, 2, 0, 0, 0, 0, 0x400004, 0x400008⟩) (st core0 (num 3) (num 0) (num 0)) with
    | .next s => decide (s.agenda = [.event (.tokenArrival core0 .own ⟨2, 0, mkTag 0 1 5, num 3, []⟩) Site.zero])
    | _ => false) = true := by decide +kernel

/-- A gate of limit 2 with iterations 14, 15 in flight in a field of four bits; 15 is credited first, then 14. -/
theorem witness_GateCredits : let g : GateState := ⟨16, 14, 0, 2, false⟩
    g.k ≤ 64 ∧ g.k ≤ 2 ^ 4 ∧ g.base ≤ g.next ∧ g.next ≤ g.base + g.k ∧ g.mask.getLsbD 0 = false ∧ g.mask.getLsbD 1 = false ∧
      (g.base + 1) % 2 ^ 4 = 15 ∧ g.credit 4 15 = some ⟨16, 14, 2, 2, false⟩ ∧
      (GateState.mk 16 14 2 2 false).credit 4 14 = some ⟨16, 16, 0, 2, false⟩ ∧ (GateState.mk 16 14 2 2 false).credit 4 15 = none := by
  decide +kernel

/-- The record of a LOOPIN of limit 1. -/
def loopinRec : Rec := ⟨0, 0, 1, 2, 1, 0, 1, 0x400008, 0⟩
/-- A core with LOOPIN at node 0 and node 3, of limit 1, and no gate. -/
def ungated : State :=
  s3.modCore core0 fun k =>
    { k with elem := [(0, 0x0600_1240_0001_4000_0800_0000#96), (3, 0x0600_1240_0001_4000_0800_0000#96)] }
/-- The same core with its gate under an outer tag, in the core or in a wing. -/
def gatedAt (u : Word) (body : EntryBody) (wing : Option Nat) : State :=
  ungated.modCore core0 fun k => { k with store := [⟨0, u, body, wing⟩, ⟨3, u, body, wing⟩] }
/-- The same core with its gate in the core. -/
def gated (u : Word) (body : EntryBody) : State := gatedAt u body none
/-- All 32 probe slots busy. -/
def probesBusy (s : State) : State :=
  s.modCore core0 fun k => { k with probes := (List.range 32).map fun i => ⟨i, 0, .gate 1 0 s.cur⟩ }
/-- A first request, with room; one whose k is beyond its level of four bits; a request at a gate whose one iteration is in flight; one under
a curtain; one at a gate in the wings, with a probe slot and without; a tag that cannot be pushed. -/
theorem witness_LoopinRequests :
    (fires ungated Forms.loopin loopinRec = true ∧ (tagOp ungated.curAct.plan ungated.cur.tag 2 0).isSome = true ∧
      (ungated.core core0).gate 0 ungated.cur.tag = none ∧ (ungated.core core0).gateFar 0 ungated.cur.tag = false ∧
      (ungated.gateNow core0 0 ungated.cur.tag).k ≤ 2 ^ levelWidth (ungated.planOf core0 ungated.cur.tag) (depthOf ungated.cur.tag + 1) ∧
      ungated.curtained core0 ungated.cur.tag = false ∧
      (ungated.gateNow core0 0 ungated.cur.tag).next < (ungated.gateNow core0 0 ungated.cur.tag).base + (ungated.gateNow core0 0 ungated.cur.tag).k ∧
      (ungated.core core0).heldAt 0 ungated.cur.tag = []) ∧
    (let s := ungated.modCore core0 fun k => { k with elem := [(0, 0x0600_1240_0011_4000_0800_0000#96)] }
     fires s Forms.loopin { loopinRec with lit := 17 } = true ∧ 2 ^ levelWidth (s.planOf core0 s.cur.tag) (depthOf s.cur.tag + 1) <
       (s.gateNow core0 0 s.cur.tag).k) ∧
    (let s := gated (mkTag 0 1 5) (.gate 1 0 0 1 false)
     ((s.core core0).gate 0 s.cur.tag).isSome = true ∧ (s.gateNow core0 0 s.cur.tag).base + (s.gateNow core0 0 s.cur.tag).k ≤
       (s.gateNow core0 0 s.cur.tag).next) ∧
    ({ ungated with acts := [(7, { act0 with curtain := true })] } : State).curtained core0 ungated.cur.tag = true ∧
    (let s := gatedAt (mkTag 0 1 5) (.gate 1 0 0 1 false) (some 0)
     (s.core core0).gateFar 0 s.cur.tag = true ∧ (s.core core0).probes = [] ∧
       (∀ i < 32, ∃ x ∈ ((probesBusy s).core core0).probes, x.slot = i) ∧ ((probesBusy s).core core0).gateFar 0 s.cur.tag = true) ∧
    tagOp [4, 4] (mkTag 0 2 0x5F) 2 0 = none := by decide +kernel
/-- R159: the admitted iteration 0 leaves under the pushed tag, and the gate's next is 1. -/
theorem test_loopin_admits : (match exec (.loopin loopinRec) ungated with
    | .next s => decide (s.agenda = [.event (.tokenArrival core0 .own ⟨2, 0, mkTag 0 2 0x50, num 3, []⟩) Site.zero]) &&
        decide ((gateState ((s.core core0).gate 0 (mkTag 0 1 5)) 1).next = 1)
    | _ => false) = true := by decide +kernel
/-- A record inside the loop whose iteration 5 is the one in flight, one whose gate has none to credit, one whose index names no LOOPIN, one
whose gate is in the wings, and an ITER whose gate is gone, of a limit that its level holds and of one that it does not. -/
theorem witness_LoopRecordsRun :
    let s := gated (mkTag 0 0 0) (.gate 6 5 0 1 false)
    let r : Rec := { loopinRec with tag := 0, lit := 3 }
    tagOp s.curAct.plan s.cur.tag 3 0 = some (mkTag 0 0 0) ∧ tagOp [4, 4] (mkTag 0 0 0) 3 0 = none ∧
      (opcOfWord (s.recordAt core0 3)).toNat = 0x06 ∧ (opcOfWord (s.recordAt core0 4)).toNat ≠ 0x06 ∧
      fires s Forms.iter r = true ∧ fires s Forms.iter { r with sub := 1 } = true ∧
      fires s Forms.loopout { r with tag := 3 } = true ∧ fires s Forms.loopcr r = true ∧ (s.core core0).gateFar 3 (mkTag 0 0 0) = false ∧
      ((s.core core0).gate 3 (mkTag 0 0 0)).isSome = true ∧
      ((s.gateNow core0 3 (mkTag 0 0 0)).credit (levelWidth s.curAct.plan 1) (innerOf s.curAct.plan s.cur.tag)).isSome = true ∧
      ((gated (mkTag 0 0 0) (.gate 5 5 0 1 false)).gateNow core0 3 (mkTag 0 0 0)).credit 4 5 = none ∧
      ((gatedAt (mkTag 0 0 0) (.gate 6 5 0 1 false) (some 0)).core core0).gateFar 3 (mkTag 0 0 0) = true ∧
      (ungated.core core0).gate 3 (mkTag 0 0 0) = none ∧ ungated.gateLimit core0 3 ≤ 2 ^ levelWidth (ungated.planOf core0 (mkTag 0 0 0)) 1 ∧
      (let s := ungated.modCore core0 fun k => { k with elem := [(3, 0x0600_1240_0011_4000_0800_0000#96)] }
       2 ^ levelWidth (s.planOf core0 (mkTag 0 0 0)) (depthOf (mkTag 0 0 0) + 1) < s.gateLimit core0 3) := by decide +kernel

/-- CALL with and without a level to push; TAGGET of each part; TAGSET to a tag that the plan has and one it has not. -/
theorem witness_CallAndTagResults :
    (tagOp s3.curAct.plan s3.cur.tag 2 0).isSome = true ∧
    (tagOp s3.curAct.plan (mkTag 0 2 0x5F) 2 0 = none) ∧
    (∀ v ∈ ([0, 1, 2, 3] : List Nat), fires s3 Forms.tagget ⟨BitVec.ofNat 6 v, 0, 1, 0, 0, 0, 0, 0x400004, 0⟩ = true) ∧
    fires s3 Forms.tagget ⟨4, 0, 1, 0, 1, 0, 0, 0x400004, 0⟩ = true ∧
    tagOk s3.curAct.plan (mkTag 0 1 5) = true ∧ tagOk s3.curAct.plan (mkTag 0 3 5) = false := by decide +kernel
/-- R163: TAGGET .iter of a tag at depth 1 sends its innermost field. -/
theorem test_tagget_iter : (match exec (.tagget ⟨3, 0, 1, 0, 0, 0, 0, 0x400004, 0⟩) s3 with
    | .next s => decide (s.agenda.map (fun x => match x with | .event (.tokenArrival _ _ t) _ => t.opnd.val | _ => 0#64) = [5#64])
    | _ => false) = true := by decide +kernel

/-- RET with a return table of one entry, with an offset that its window lacks, and with a word that is no destination; RET at depth 0 of a
called activation that lives, with a caller's destination and with none, of one that has ended, and of one that was not called. -/
theorem witness_RetReturns :
    let r : Rec := ⟨0, 0, 1, 3, 2, 0, 0, 0, 0⟩
    let s : State := { s3 with mem := Memory.putN [] (4096 + 40) (leBytes 8 0x400004) }
    let callee (x : Act) : State := { s3 with cur := { s3.cur with tag := mkTag 0 0 0 }, acts := [(7, x)] }
    let d : Dest := ⟨core0, 0, 0x400004⟩
    fires s Forms.ret r = true ∧ tagOp s.curAct.plan s.cur.tag 3 0 = some (mkTag 0 0 0) ∧
      s.windowWord (litWindow r).1 ((litWindow r).2 + innerOf s.curAct.plan s.cur.tag) = some 0x400004 ∧ s.destBad core0 0x400004 = false ∧
      ({ s with acts := [(7, { act0 with wsizes := [(0, 5)] })] } : State).windowWord 0 5 = none ∧ s.destBad core0 0xC00000 = true ∧
      (let c := callee { act0 with origin := .call, pdest := some d }
       tagOp c.curAct.plan c.cur.tag 3 0 = none ∧ c.curAct? = some 7 ∧ (c.act 7).origin = .call ∧ (c.act 7).life = .live ∧
         (c.act 7).pdest = some d ∧ Assoc.get? (c.core core0).regions 0 = none ∧
         (c.tokenFrom core0 d.core d.node d.dst false (c.act 7).ptag c.cur.op0).isSome = true ∧
         c.check Forms.ret r = none ∧ c.check7 Forms.ret r = none) ∧
      (callee { act0 with origin := .call, pdest := none }).check Forms.ret r = none ∧
      (callee { act0 with origin := .call, life := .ending }).check Forms.ret r = none ∧
      (let c := callee act0
       c.curAct? = some 7 ∧ (c.act 7).origin ≠ .call ∧ c.check Forms.ret r = none ∧ c.check7 Forms.ret r = none) ∧
      ({ callee act0 with dies := [] } : State).curAct? = none := by decide +kernel
/-- R161: that RET sends $0 to node 1 under the popped tag. -/
theorem test_ret_returns : (match exec (.ret ⟨0, 0, 1, 3, 2, 0, 0, 0, 0⟩) { s3 with mem := Memory.putN [] (4096 + 40) (leBytes 8 0x400004) } with
    | .next s => decide (s.agenda = [.event (.tokenArrival core0 .own ⟨1, 0, mkTag 0 0 0, num 3, []⟩) Site.zero])
    | _ => false) = true := by decide +kernel

theorem witness_ChildrenStart :
    s3.freeColour die0 = some 1 ∧ fullDie.freeColour die0 = none ∧ fullDie.check Forms.spawn (rec_ Forms.spawn) = none ∧
    fullDie.check7 Forms.spawn (rec_ Forms.spawn) = none ∧ (s3.startChild .spawn false (s3.parentDest (rec_ Forms.spawn)) s3.curAct.spec none).isSome = true ∧
    (s3.startChild .call false (s3.parentDest (rec_ Forms.callCol)) s3.curAct.spec none).isSome = true :=
  ⟨by decide +kernel, full_die, by decide +kernel, by decide +kernel, by decide +kernel, by decide +kernel⟩

/-- PURGE of a free colour, of a live child, of an ending one, and of an activation that is no child; JOIN of both statuses; ENDG live and ending. -/
theorem witness_ActivationsEnd :
    let kid (l : Life) (p : Option Nat) : State :=
      { st core0 (num 1) (num 4) (num 5) with
        acts := [(7, act0), (9, { act0 with map := [(die0, 1)], life := l, parent := p })],
        dies := [(die0, { Die.reset with colours := [(0, 7), (1, 9)] })] }
    (kid .live (some 7)).owner? die0 2 = none ∧ (kid .live (some 7)).owner? die0 1 = some 9 ∧ (kid .live (some 7)).curAct? = some 7 ∧
      ((kid .live (some 7)).act 9).parent = some 7 ∧ ((kid .live (some 7)).act 9).life = .live ∧
      ((kid .ending (some 7)).act 9).life = .ending ∧ ((kid .live none).act 9).parent = none ∧
      fires (kid .live (some 7)) Forms.purge (rec_ Forms.purge) = true ∧
      (st core0 (num 256) (num 0) (num 0)).cur.op0.val.toNat % 256 = 0 ∧ s3.cur.op0.val.toNat % 256 ≠ 0 ∧
      ((kid .live none).act 7).life = .live ∧
      (({ s3 with acts := [(7, { act0 with life := .ending })] } : State).act 7).life = .ending := by decide +kernel
/-- R168: PURGE of the live child sends 1 and marks it. -/
theorem test_purge_child : (match exec (.purge (rec_ Forms.purge))
      { st core0 (num 1) (num 4) (num 5) with
        acts := [(7, act0), (9, { act0 with map := [(die0, 1)], parent := some 7 })],
        dies := [(die0, { Die.reset with colours := [(0, 7), (1, 9)] })] } with
    | .next s => decide ((s.act 9).life = .purging) && (s.agenda.any fun x => match x with
        | .event (.tokenArrival _ _ t) _ => decide (t.opnd.val = 1)
        | _ => false)
    | _ => false) = true := by decide +kernel

/-- CMB, VOTE, RNG raw, EVPOST with room and full, BNDRY at a scope that holds its destination and one that does not. -/
theorem witness_CollectiveResults :
    (rec_ Forms.rng).sub.toNat % 8 = 0 ∧ s3.curAct? = some 7 ∧
    ((s3.cluster ⟨0, 0, 0⟩).queues.getD 0 Queue.reset).recs.length < 1023 ∧
    fires s3 Forms.bndry ⟨0x10, 0, 1, 0, 0, 0, 0, 0x8440A1, 0⟩ = true ∧ s3.outOfScope 2 [0x8440A1, 0] = none ∧
    s3.outOfScope 0 [0x8440A1, 0] = some 0x8440A1 := by decide +kernel

/-! ## Integers and floats -/

/-- The near address of a byte of the core's scratchpad (R200). -/
def pad (off : Nat) : Nat := 0x90000000000000 + off
/-- The values of the tokens on their way. -/
def sentVals (o : Host.Outcome State Fault Refusal) : List Word :=
  match o with
  | .next s => s.agenda.filterMap fun x => match x with
    | .event (.tokenArrival _ _ t) _ => some t.opnd.val
    | _ => none
  | _ => []
/-- The sticky flags of activation 7 after an instruction. -/
def flagsOf (o : Host.Outcome State Fault Refusal) : Nat :=
  match o with
  | .next s => (s.act 7).flags.toNat
  | _ => 0

/-- R50, R176: INT32 addition wraps at 2^31, and clamps with SAT under `.sat`. -/
theorem test_add_wraps : sentVals (exec (.add okAdd) (st core0 (num 0x7FFFFFFF) (num 1) (num 0))) = [0xFFFFFFFF80000000#64] := by decide +kernel
theorem test_add_saturates : sentVals (exec (.add { okAdd with sub := 0x20 }) (st core0 (num 0x7FFFFFFF) (num 1) (num 0))) = [0x7FFFFFFF#64] ∧
    flagsOf (exec (.add { okAdd with sub := 0x20 }) (st core0 (num 0x7FFFFFFF) (num 1) (num 0))) = fSAT := by decide +kernel
theorem witness_IntegerArithmetic : 0 < 32 ∧ (intTy okAdd.typ.toNat) = (32, true) ∧ intMin 32 true ≤ 5 ∧ (5 : Int) ≤ intMax 32 true := by decide
/-- R51: a zero divisor gives all ones and raises IDZ; the most negative number over −1 wraps. -/
theorem test_div_zero : sentVals (exec (.div okAdd) (st core0 (num 7) (num 0) (num 0))) = [0xFFFFFFFFFFFFFFFF#64] ∧
    flagsOf (exec (.div okAdd) (st core0 (num 7) (num 0) (num 0))) = fIDZ := by decide +kernel
theorem test_div_wraps : sentVals (exec (.div okAdd) (st core0 (num 0x80000000) (num 0xFFFFFFFF) (num 0))) = [0xFFFFFFFF80000000#64] := by decide +kernel
theorem test_rem_sign : sentVals (exec (.rem okAdd) (st core0 (num 0xFFFFFFF9) (num 2) (num 0))) = [0xFFFFFFFFFFFFFFFF#64] := by decide +kernel
/-- The clauses of SHL meet at a shift of 31 and of 32, with and without `.sat`, of either sign; DIV and REM by 0 and not. -/
theorem witness_IntegerFields : (st core0 (num 1) (num 31) (num 0)).elem okAdd 1 < 32 ∧ 32 ≤ (st core0 (num 1) (num 32) (num 0)).elem okAdd 1 ∧
    0 < (st core0 (num 1) (num 32) (num 0)).intOperand okAdd 0 ∧ (st core0 (num 0x80000000) (num 32) (num 0)).intOperand okAdd 0 < 0 ∧
    ({ okAdd with sub := 0x20 } : Rec).sub.toNat.testBit 5 = true ∧ okAdd.sub.toNat.testBit 5 = false ∧
    (st core0 (num 1) (num 0) (num 0)).intOperand okAdd 1 = 0 ∧ s3.intOperand okAdd 1 ≠ 0 := by decide +kernel
/-- R177: SHL by 32 gives 0, and under `.sat` the end of the range; ROTL of INT8 by 9 is by 1. -/
theorem test_shl_all : sentVals (exec (.shl okAdd) (st core0 (num 1) (num 32) (num 0))) = [0#64] ∧
    sentVals (exec (.shl { okAdd with sub := 0x20 }) (st core0 (num 0x80000000) (num 32) (num 0))) = [0xFFFFFFFF80000000#64] := by decide +kernel
theorem test_rotl : sentVals (exec (.rotl { okAdd with typ := 4 }) (st core0 (num 0x81) (num 9) (num 0))) = [3#64] := by decide +kernel
/-- R178, R179: counts of zero are the width; BEXT sign-extends the field it takes. -/
theorem test_counts_of_zero : sentVals (exec (.clz { okAdd with ari := 1 }) (st core0 (num 0) (num 0) (num 0))) = [32#64] ∧
    sentVals (exec (.ctz { okAdd with ari := 1 }) (st core0 (num 0) (num 0) (num 0))) = [32#64] := by decide +kernel
theorem test_bext : sentVals (exec (.bext okAdd) (st core0 (num 0xF0) (num 0x404) (num 0))) = [0xFFFFFFFFFFFFFFFF#64] := by decide +kernel
/-- Conditions 0 to 5 of CMP, LEA with a scale of 192, LINE by 192. -/
theorem witness_CompareAndAddress : (∀ n ∈ ([0, 1, 2, 3, 4, 5] : List Nat), fires s3 Forms.cmp { okAdd with sub := BitVec.ofNat 6 n } = true) ∧
    fires s3 Forms.lea ⟨8, 3, 2, 0, 0, 0, 0, 0x400004, 0⟩ = true ∧ fires s3 Forms.line ⟨0, 7, 1, 0, 0, 0, 0, 0x400004, 0⟩ = true := by decide +kernel
/-- R181, R182: 3 + 4 × 192; line 1 and offset 8 of address 200. -/
theorem test_lea : sentVals (exec (.lea ⟨8, 3, 2, 0, 0, 0, 0, 0x400004, 0⟩) s3) = [771#64] := by decide +kernel
theorem test_line : sentVals (exec (.line ⟨0, 7, 1, 0, 0, 0, 0, 0x400004, 0x400008⟩) (st core0 (num 200) (num 0) (num 0))) = [1#64, 8#64] := by
  decide +kernel

/-- An FP32 ADD of two tokens. -/
def okFadd : Rec := { okAdd with typ := 8 }
/-- R52, R62: 1 + 2^-24 rounds to even, and to the next value above when rounding up; 1/3 in FP32. -/
theorem test_fadd_rounds : sentVals (exec (.fadd okFadd) (st core0 (num 0x3F800000) (num 0x33800000) (num 0))) = [0x3F800000#64] ∧
    flagsOf (exec (.fadd okFadd) (st core0 (num 0x3F800000) (num 0x33800000) (num 0))) = fNX := by decide +kernel
theorem test_fdiv_third : sentVals (exec (.fdiv okFadd) (st core0 (num 0x3F800000) (num 0x40400000) (num 0))) = [0x3EAAAAAB#64] := by decide +kernel
theorem test_fdiv_zero : sentVals (exec (.fdiv okFadd) (st core0 (num 0x3F800000) (num 0) (num 0))) = [0x7F800000#64] ∧
    flagsOf (exec (.fdiv okFadd) (st core0 (num 0x3F800000) (num 0) (num 0))) = fDZ := by decide +kernel
/-- The record's own mode, SR (5), and the activation's (7). -/
theorem witness_FloatRounded : fires s3 Forms.fadd okFadd = true ∧ fires s3 Forms.fadd { okFadd with sub := 0x28 } = true ∧
    fires s3 Forms.fadd { okFadd with sub := 0x38 } = true ∧ (0x28 : BitVec 6).toNat / 8 = 5 ∧ (0x38 : BitVec 6).toNat / 8 = 7 := by decide +kernel
theorem witness_FloatUnrounded : (readFlt (fmtOf 8) ((st core0 (num 0x7FC00000) (num 0) (num 0)).elem okFadd 0)).isNan = true ∧
    (readFlt (fmtOf 8) (s3.elem okFadd 0)).isNan = false := by decide +kernel
/-- R185: MIN of −0 and +0 is −0; FNEG of a NaN inverts its sign. -/
theorem test_fneg_nan : sentVals (exec (.fneg { okFadd with ari := 1 }) (st core0 (num 0x7FC00000) (num 0) (num 0))) = [0xFFC00000#64] := by
  decide +kernel
/-- FCVT to another type and to its own, of a number; CVT that clamps and that does not. -/
theorem witness_Conversions :
    let r : Rec := ⟨0, 8, 1, 0, 1, 0, 2, 0x400004, 0⟩
    fires s3 Forms.fcvt r = true ∧ r.lit.toNat % 16 ≠ r.typ.toNat ∧ fires s3 Forms.fcvt { r with lit := 8 } = true ∧
    (elemTy 8 = .flt fp32) ∧
    fires s3 Forms.cvt ⟨4, 8, 1, 0, 1, 0, 0, 0x400004, 0⟩ = true ∧
    (convElem (elemTy 8) (elemTy 0) 0 true 0 0x43800000).2.2 = true ∧ convSaturates (elemTy 8) (elemTy 0) true = true ∧
    (convElem (elemTy 8) (elemTy 0) 0 true 0 0x3F800000).2.2 = false := by decide +kernel
/-- R67: FP32 2.5 to INT32 rounds to even, 2. -/
theorem test_fcvt_int : sentVals (exec (.fcvt ⟨0, 8, 1, 0, 1, 0, 2, 0x400004, 0⟩) (st core0 (num 0x40200000) (num 0) (num 0))) = [2#64] := by
  decide +kernel

/-! ## Slices -/

/-- Operands that name one-row slices at rows 0, 2 and 4. -/
def sv : State := st core0 (sliceOp 0 0) (sliceOp 2 0) (sliceOp 4 0)
theorem witness_SliceElements : ((sv.core core0).lanes.wf = true) ∧ (0 + 0 ≤ 255) ∧ (List.replicate 64 1).length = (Slice.mk 0 0).count 32 ∧
    (Slice.mk 0 0).row + (Slice.mk 0 0).nrow < (Slice.mk 2 0).row := by decide +kernel
theorem witness_VectorPairs : sv.sliceAt (rec_ Forms.vadd) 0 = .ok ⟨0, 0⟩ ∧ (sv.spread (rec_ Forms.vadd) 1 ⟨0, 0⟩).isOk = true ∧
    fires sv Forms.vadd (rec_ Forms.vadd) = true ∧ fires sv Forms.vadd { rec_ Forms.vadd with typ := 8 } = true := by decide +kernel
/-- R283: VADD of a slice of ones and the scalar 2 over INT32 writes threes. -/
theorem test_vadd : (match exec (.vadd ⟨0, 2, 2, 0, 0, 0, 0, 0x400004, 0⟩)
      { st core0 (sliceOp 0 0) (num 2) (num 0) with cores := [(core0, { Core.reset with lanes := [(0, 1), (1024, 1)] })] } with
    | .next s => decide ((s.elems ⟨0, 0⟩ 32).take 3 = [3, 3, 2])
    | _ => false) = true := by decide +kernel
theorem witness_VectorOthers : sv.sliceAt (rec_ Forms.vsel) 0 = .ok ⟨0, 0⟩ ∧ (sv.spread (rec_ Forms.vsel) 1 ⟨0, 0⟩).isOk = true ∧
    (sv.spread (rec_ Forms.vsel) 2 ⟨0, 0⟩).isOk = true ∧ (sv.reduce (rec_ Forms.vred)).isOk = true := by decide +kernel
/-- Rows that match for VPERM, VPACK, VUNPK and VCPY; scalars for VSPLAT and VIOTA. -/
theorem witness_VectorMoves :
    (let s := st core0 (sliceOp 0 0) (sliceOp 2 0) (sliceOp 4 1)
     s.sliceAt (rec_ Forms.vpack) 0 = .ok ⟨0, 0⟩ ∧ s.sliceAt (rec_ Forms.vpack) 1 = .ok ⟨2, 0⟩ ∧ s.sliceAt (rec_ Forms.vpack) 2 = .ok ⟨4, 1⟩) ∧
    (let s := st core0 (sliceOp 0 1) (sliceOp 2 0) (sliceOp 4 0)
     s.sliceAt (rec_ Forms.vunpk) 0 = .ok ⟨0, 1⟩ ∧ s.sliceAt (rec_ Forms.vunpk) 2 = .ok ⟨4, 0⟩) ∧
    sv.sliceAt (rec_ Forms.vperm) 1 = .ok ⟨2, 0⟩ ∧ sv.sliceAt (rec_ Forms.vcpy) 1 = .ok ⟨2, 0⟩ ∧
    kindForm ((st core0 (sliceOp 0 0) (num 2) (num 0)).opnd (rec_ Forms.vsplat) 1).kind = 0 := by decide +kernel
/-- VCVT of 64 FP32 to INT8 fits a quarter of a row; QBLK, DQBLK, TERNPK and its `.unpk` with the rows that the rules give. -/
theorem witness_FormatSlices :
    ceilDiv ((Slice.mk 0 0).count 32 * 8) 2048 = 1 ∧
    (let r : Rec := ⟨0, 8, 3, 0, 1, 0, 11, 0x400004, 0x400008⟩
     sv.sliceAt r 0 = .ok ⟨0, 0⟩ ∧ sv.sliceAt r 1 = .ok ⟨2, 0⟩ ∧ sv.sliceAt r 2 = .ok ⟨4, 0⟩ ∧
       (0 : Nat) + 1 = ceilDiv (64 * (fmtOf 11).width) 2048 ∧ (0 : Nat) + 1 = ceilDiv 64 8192) ∧
    (0 : Nat) + 1 = ceilDiv 64 1024 ∧ (3 : Nat) + 1 = 4 * (0 + 1) ∧
    (∀ c ∈ (sv.elems ⟨2, 0⟩ 8).take 2, c ≠ 0xFF) := by decide +kernel
/-- TOPK of 3 entries with an index base that fits, and one that does not; TOPKM of two lists. -/
theorem witness_Selection :
    (let s := st core0 (sliceOp 0 0) (num 5) (sliceOp 4 1)
     s.sliceAt (rec_ Forms.topk) 0 = .ok ⟨0, 0⟩ ∧ s.sliceAt (rec_ Forms.topk) 2 = .ok ⟨4, 1⟩ ∧ 5 + 64 - 1 < 2 ^ 32 - 1 ∧
       kindForm (s.opnd (rec_ Forms.topk) 1).kind = 0) ∧
    (let s := st core0 (sliceOp 0 0) (num 0xFFFFFFFF) (sliceOp 4 1)
     2 ^ 32 - 1 ≤ (s.val (rec_ Forms.topk) 1).toNat % 2 ^ 32 + (s.elems ⟨0, 0⟩ 32).length - 1) ∧
    (let s := st core0 (sliceOp 0 1) (sliceOp 2 1) (sliceOp 4 1)
     s.sliceAt (rec_ Forms.topkm) 0 = .ok ⟨0, 1⟩ ∧ s.sliceAt (rec_ Forms.topkm) 1 = .ok ⟨2, 1⟩) ∧
    fires sv Forms.topk { rec_ Forms.topk with lit := 1 } = true ∧ fires sv Forms.topk { rec_ Forms.topk with lit := 64 } = true := by decide +kernel

/-! ## The memory unit -/

/-- A load or store at scratchpad address 64. -/
def sp (b d : Operand) : State := st core0 (num (pad 64)) b d
/-- One word at a scratchpad address; slices and lane addresses; a maintained byte; a page that no table maps, in precise and in stall mode; a
store into a ring buffer of a station. -/
theorem witness_MemoryRequests :
    (let s := sp (num 4) (num 5)
     (s.core core0).unitBusy = false ∧ s.displacement (rec_ Forms.st) = .ok (0, none) ∧ vaOf s.cur.op0.val 0 = some (pad 64) ∧
       checkNear core0 (pad 64) 4 = .ok () ∧ checkLine (pad 64) 4 = .ok () ∧ checkNear core0 (pad 64) 1 = .ok () ∧
       (s.coverAll core0 0 false true [(pad 64, 4)]).isOk = true) ∧
    (let s := sp (sliceOp 0 0) (sliceOp 2 0)
     (s.vecAccess (rec_ Forms.ldv)).isOk = true ∧ s.scalarAt (rec_ Forms.ldg) 0 = .ok (BitVec.ofNat 64 (pad 64)) ∧
       s.oneWord (rec_ Forms.ldg) 1 = .ok ⟨0, 0⟩ ∧ (laneAddrs core0 (BitVec.ofNat 64 (pad 64)) 0 (s.image ⟨0, 0⟩) 4).isOk = true ∧
       s.oneWord (rec_ Forms.sts) 2 = .ok ⟨2, 0⟩) ∧
    (s3.coverAll core0 0 false false [(4096, 4)]).isOk = false ∧
    (match s3.coverAll core0 0 true false [(4096, 4)] with | .ok (_, some _, _) => true | _ => false) = true ∧
    (match ({ s3 with cores := [(core0, { Core.reset with rings := [some (9, .visit 0), none] })] } : State).coverAll
        core0 0 false true [(pad 0x30000, 4)] with
      | .ok (ps, none, s) => (s.ringHit core0 .store ps).isSome
      | _ => false) = true := by decide +kernel
/-- R235: a load leaves the unit as one request, and its reply is to come. -/
theorem test_ld_asks : (match exec (.ld ⟨0, 2, 1, 0, 0, 0, 0, 0x400004, 0⟩) (sp (num 0) (num 0)) with
    | .next s => decide (((s.core core0).reqs.map (·.op)) = [.load]) && decide (s.agenda = [.event .loadReply ⟨core0, 8, 0, false⟩])
    | _ => false) = true := by decide +kernel
/-- R237: a store performed at a scratchpad writes its four bytes, and its acknowledgement follows. -/
theorem test_store_performs : (match exec (.st ⟨0, 2, 2, 0, 0, 0, 0, 0x400004, 0⟩) (sp (num 0x11223344) (num 0)) with
    | .next s => (match exec .writeAcknowledgement (sited { s with agenda := [] } core0 8 false) with
      | .next s => decide (s.mem.map (·.2) = [0x44, 0x33, 0x22, 0x11]) && decide (s.agenda.length = 1)
      | _ => false)
    | _ => false) = true := by decide +kernel

/-- WAVE: a new instance, a PENDING one and an open one; PF near and far; a pattern at a scratchpad address; copies; LSEND. -/
theorem witness_MemoryUnitRecords :
    (let s := s3
     (s.core core0).waves.length < 16 ∧ ((s.core core0).waves.find? fun _ => true) = none) ∧
    (s3.addrOf (rec_ Forms.pf) 1).isOk = true ∧ isNear 3 = false ∧ isNear (pad 0) = true ∧
    (let s := st core0 (num (pad 0)) (num 0) (num 0x400004)
     s.cur.op2.val.toNat < 2 ^ 24 ∧ s.destBad core0 0x400004 = false ∧ tagOk s.curAct.plan (mkTag 0 0 0) = true ∧
       checkNear core0 (pad 0) 64 = .ok () ∧ checkMultiple (pad 0) 64 = .ok () ∧ (s.coverAll core0 0 false false [(pad 0, 64)]).isOk = true ∧
       (s.bindLook (mkTag 0 1 5) (pad 0)).isOk = true ∧ s.destBad core0 0xC00000 = true ∧
       (s.bindLook (mkTag 0 1 5) 4096).isOk = false) ∧
    (let s := st core0 (num 0xA0000000000000) (num 0xA0000000001000) (num 96)
     (s.copyOps (rec_ Forms.cpy)).isOk = true ∧ (s.copyPages 0xA0000000000000 0xA0000000001000 96).isOk = true ∧
       (s.copyNear 0xA0000000000000 0xA0000000001000 96).isOk = true ∧
       checkMultiple 0xA0000000000000 4 = .ok () ∧ 96 % 4 = 0 ∧ s.reducible [] 0xA0000000000000 96 = true ∧
       s.rangeOk 4096 96 = true ∧ s.rangeOk (2 ^ 48) 96 = false) ∧
    (let s : State := { st core0 (num 0x1000) (num 0xA0000000001000) (num 96) with
        cores := [(core0, { Core.reset with far := [(0, 0x8000_0400_0000_0000#64)] })] }
     covers 3 core0 ⟨0, 0, 1, 0⟩ = true ∧ (Assoc.getD (s.core core0).far 0 0).toNat.testBit 63 = true ∧ isNear 0x1000 = false ∧
       (s.curAct?.bind fun x => s.colourOn x die0) ≠ none) ∧
    fires s3 Forms.cpy { rec_ Forms.cpy with sub := 1 } = true := by decide +kernel

/-- A core with one request, by what it does and whether it was performed. -/
def reqSt (op : MemOp) (done : Bool) : State :=
  sited { s3 with cores := [(core0, { Core.reset with reqs := [{
    id := 3, node := 0, inTag := mkTag 0 1 5, tag := mkTag 0 1 5, colour := 0, typ := 2, op := op, parts := [⟨pad 64, some (sharedPa ⟨0, 0, 0⟩ 64), 4, false⟩],
    got := [], data := leBytes 4 9, poison := false, dstA := 0x400004, dstB := 0, reply0 := zeroOp, wave := none, withheld := false,
    done := done, pages := [], after := none, stage := 0 }] })] } core0 3 false
/-- A request of no wave, and one that opens an instance. -/
theorem witness_MemoryRequests_waves : (s3.core s3.cur.core).waves.length < 16 ∧
    (∀ q ∈ ((reqSt .load false).core core0).reqs, q.wave = none ∧ q.after = none ∧ q.id = 3) := by decide +kernel
/-- A load that lacks its bytes and none holds back, one of a dead colour, one held back by an older store, a store to be performed and one
performed; a store to a line of a LOST region, and a load of one. -/
theorem witness_MemoryEvents :
    ((reqSt .load false).core core0).req? 3 ≠ none ∧
    (let s := reqSt .load false
     (s.core core0).reqs.all (fun q => !s.orphan core0 q && !s.holdsBack core0 q && (s.slicedLines q).isEmpty &&
         decide (s.lostLine core0 q false [] = none) &&
         (match (((s.askMerge core0 q).readAll core0 q).core core0).req? 3 with | some x => x.lacking.isEmpty && !x.poison | none => false)) = true ∧
      (s.core core0).reqs.all (fun q => ({ s with dies := [] } : State).orphan core0 q) = true ∧
      (s.core core0).reqs.all (fun q =>
        (s.modCore core0 fun k => { k with reqs := { q with id := 2, op := .store } :: k.reqs }).holdsBack core0 q) = true) ∧
    ((reqSt .store false).core core0).reqs.all (fun q => !q.done && q.op.isStore && !(reqSt .store false).holdsBack core0 q &&
      ((reqSt .store false).storeReady core0 q).1 && decide ((reqSt .store false).lostLine core0 q true [] = none)) = true ∧
    ((reqSt .store true).core core0).reqs.all (fun q => q.done && !(reqSt .store true).coarsePending core0 q) = true := by decide +kernel
/-- A wave's instance opened with its member ready; releases of scope 2 and 4, one that waits for a request and one behind another; a merge
window; a prefetch walk that fails. -/
theorem witness_MemoryEvents_others :
    (let q : MemReq := ⟨4, 0, 0, 0, 0, 0, .load, [], [], [], false, 0, 0, zeroOp, some (1, 0, 0, 0xFF), false, false, [], none, 0⟩
     let x : WaveInst := ⟨0, 1, true, 0, 0, 0xFF, [], [q]⟩
     x.waiting.find? x.ready = some q ∧ ({ x with lastOwn := 5 } : WaveInst).waiting.find? ({ x with lastOwn := 5 } : WaveInst).ready = none) ∧
    (let r : Release := ⟨5, 0, 4, [], [], false, [], false, none, [], false⟩
     4 ≤ r.scope ∧ r.probed = false ∧ ({ r with scope := 2 } : Release).scope < 4 ∧
       (let s := (reqSt .store false).modCore core0 fun k => { k with rels := [{ r with reqs := [3] }, { r with id := 6 }] }
        (∃ q ∈ (s.core core0).reqs ++ (s.core core0).waves.flatMap (·.waiting), q.id ∈ [3]) ∧ 5 ≠ 6)) ∧
    ((Die.reset).window? 3 = none) ∧ (({ Die.reset with windows := [⟨3, [], false⟩] } : Die).window? 3 ≠ none) ∧
    (let s : State := { s3 with dies := [(die0, { Die.reset with windows := [⟨3, [], false⟩] })] }
     s.windowServes die0 ⟨3, [], false⟩ = true) ∧
    (s3.translate die0 none 4096).1.isRight = true ∧ s3.hasRoom die0 3 = true := by decide +kernel

/-! ## Synchronisation -/

/-- The bytes of values at rising addresses: address, length, value. -/
def cells (l : List (Nat × Nat × Nat)) : Memory :=
  l.flatMap fun p => (List.range p.2.1).filterMap fun i =>
    if p.2.2 / 2 ^ (8 * i) % 256 = 0 then none else some (p.1 + i, BitVec.ofNat 8 (p.2.2 / 2 ^ (8 * i)))
/-- A state with bytes at an offset of core 0's scratchpad. -/
def onPad (s : State) (off n v : Nat) : State := { s with mem := cells [(sharedPa ⟨0, 0, 0⟩ off, n, v)] }

/-- A counter at 1 of 2 taken with no number ahead; a threshold met and one not; an active message of one beat at $1; the 64th armed send
and the 65th. -/
theorem witness_ReleasesAndCounters :
    (⟨2, 1, []⟩ : Counter).doneN + 1 = 2 ∧ 2 ∉ (⟨2, 1, []⟩ : Counter).ahead ∧ 2 + 1 ∉ (⟨2, 1, []⟩ : Counter).ahead ∧
    (let s := st core0 (num 0) (num (pad 64)) (num 0)
     (s.messageAt s.cur.op1.val).isOk = true ∧ s.cur.op0.val.toNat ≤ (s.counter ⟨0, 0, 0⟩ 0 0).doneN) ∧
    (let s := st core0 (num 1) (num (pad 64)) (num 0)
     (s.counter ⟨0, 0, 0⟩ 0 0).doneN < s.cur.op0.val.toNat ∧ (s.cluster ⟨0, 0, 0⟩).armed.length < 64 ∧
       64 ≤ (List.replicate 64 ()).length) ∧
    (∀ f ∈ [Forms.fence, Forms.rel, Forms.acq, Forms.tlinc, Forms.tlwait, Forms.tlread, Forms.tlarm], fires s3 f (rec_ f) = true) := by
  decide +kernel
/-- R382: the second number of a counter is 2, and DONE follows only in order. -/
theorem test_takes_numbers : (s3.takeNumber ⟨0, 0, 0⟩ 0 5).1 = 1 ∧ ((s3.takeNumber ⟨0, 0, 0⟩ 0 5).2.takeNumber ⟨0, 0, 0⟩ 0 5).1 = 2 ∧
    (((s3.takeNumber ⟨0, 0, 0⟩ 0 5).2.takeNumber ⟨0, 0, 0⟩ 0 5).2.completeNumber ⟨0, 0, 0⟩ 0 5 2).counter ⟨0, 0, 0⟩ 0 5 = ⟨2, 0, [2]⟩ := by
  decide +kernel
/-- R384: TLREAD of an untouched counter sends 0 and 0. -/
theorem test_tlread : sentVals (exec (.tlread { rec_ Forms.tlread with dstB := 0x400008 }) s3) = [0#64, 0#64] := by decide +kernel

/-- A barrier of colours 0 and 1 that colour 0 owes, has paid, or is the last to owe. -/
def bar (owed : List (BitVec 9)) : Barrier := ⟨1, 0, 0, [0, 1], owed, [], 0, false, false⟩
/-- That barrier in place 0 of the die, its handle in $0. -/
def barSt (b : Barrier) : State :=
  { st core0 (num 256) (num 1) (num 0) with dies := [(die0, { Die.reset with colours := [(0, 7)], barriers := [(0, b)], barInst := 1 })] }
theorem witness_Barriers :
    (let s := st core0 (num (pad 64)) (num 1) (num 0)
     fires s Forms.barinit (rec_ Forms.barinit) = true ∧ s.padAddr s.cur.op0.val (2 * 1) = .ok (pad 64) ∧
       checkMultiple (pad 64) 2 = .ok () ∧ s.membersOk [0] = true ∧ s.membersOk [1] = false ∧ s.membersOk [0, 0] = false ∧
       Assoc.get? (s.die die0).barriers 0 = none) ∧
    (let s := barSt (bar [0, 1])
     (Assoc.get? (s.die die0).barriers 0 ≠ none ∧ Assoc.get? (s.die die0).barriers 1 = none) ∧
     s.barrierOf s.cur.op0.val = .ok (0, bar [0, 1]) ∧ fires s Forms.bararr (rec_ Forms.bararr) = true ∧
       (bar [0, 1]).owed.filter (fun m => decide (m ≠ 0)) ≠ [] ∧ (bar [0]).owed.filter (fun m => decide (m ≠ 0)) = [] ∧
       0 ∉ (bar [1]).owed ∧ 0 ∈ (bar [1]).members ∧ 0 ∉ ({ bar [1] with members := [1] } : Barrier).members ∧
       s.barrierOf 0 = .error { cause := .permission } ∧ s.barrierOf 1 = .error { cause := .permission }) := by decide +kernel
/-- A die with all 256 barriers taken. -/
theorem witness_Barriers_full : ∀ i < 256, Assoc.get? ((List.range 256).map fun i => (i, bar [])) i ≠ none := by decide +kernel
/-- R388: the first BARINIT of a die gives barrier 0 under instance 1, with status 0. -/
theorem test_barinit : sentVals (exec (.barinit { rec_ Forms.barinit with dstB := 0x400008 }) (st core0 (num (pad 64)) (num 1) (num 0))) =
    [256#64, 0#64] := by decide +kernel

/-- Presence words, ATOM and ACAS at a shared scratchpad; ACAS of 16 bytes. -/
theorem witness_WordOperations :
    (let s := st core0 (num 0xA0000000000040) (num 4) (num 5)
     (s.core core0).unitBusy = false ∧ (s.presenceAt (rec_ Forms.itake)).isOk = true ∧ (s.presenceAt (rec_ Forms.iput)).isOk = true ∧
       (s.coverAll core0 0 s.curAct.stall true [(0xA0000000000040, 16)]).isOk = true ∧
       (s.atomAt (rec_ Forms.atom) 0 (elemSize (rec_ Forms.atom))).isOk = true ∧
       (s.coverAll core0 0 s.curAct.stall true [(0xA0000000000040, 4)]).isOk = true ∧
       (s.atomAt (rec_ Forms.acas) 0 16).isOk = true) ∧
    fires s3 Forms.itake (rec_ Forms.itake) = true ∧
    (let r : Rec := ⟨0, 3, 3, 0, 1, 0, 0x10000, 0x400004, 0⟩
     fires s3 Forms.acas r = true ∧ (decide (r.lk.toNat = 1) && r.lit.toNat.testBit 16) = true) := by decide +kernel
/-- The four states of a presence word; a request with a deferral pool, which queues a waiter, and without, which does not. -/
theorem witness_WordOperations_states :
    (presenceOf 0).state = 0 ∧ (presenceOf (2 ^ 62)).state = 1 ∧ (presenceOf (2 ^ 63)).state = 2 ∧ (presenceOf (3 * 2 ^ 62)).state = 3 ∧
    (let s := reqSt (.presence 0 0) false
     let p : State := { s with acts := [(7, { act0 with poolAct := 7, defer := 0x9000, defern := 2 })] }
     ∀ q ∈ (s.core core0).reqs,
       s.poolOf core0 q = some 0 ∧ s.queueWaiter core0 q true 64 (presenceOf 0) = none ∧ p.poolOf core0 q = some 7 ∧
         (p.queueWaiter core0 q true 64 (presenceOf 0)).isSome = true ∧ (p.queueWaiter core0 q true 64 (presenceOf (2 ^ 63))).isSome = true ∧
         p.queueWaiter core0 q true 64 (presenceOf (2 ^ 63 + 16383 * 2 ^ 48)) = none ∧ p.actOf? core0.dieId q.inTag = some 7 ∧
         s.poisonedRange die0 (sharedPa ⟨0, 0, 0⟩ 64) 4 = false) := by decide +kernel
/-- R393: UINT8 255 + 1 is 0; the lesser of INT8 −1 and 1 is −1. -/
theorem test_atoms : (atomOp 4 0 0xFF 1).1 = 0 ∧ (atomOp 0 4 0xFF 1).1 = 0xFF ∧ (atomOp 4 4 0xFF 1).1 = 1 := by decide +kernel

/-! ## The matrix engine -/

/-- A message of an instruction on the engine path of core 0. -/
def mat (f : Form) (a b d : Operand) : MatMsg := ((st core0 a b d).matOf f (rec_ f) (mkTag 0 1 5))
theorem witness_MatrixMessages : (s3.core core0).path.length < 16 ∧
    (let s : State := { s3 with cores := [(core0, { Core.reset with path := List.replicate 16 (mat Forms.aclr (num 0) (num 0) (num 0)) })] }
     16 ≤ (s.core core0).path.length) := by decide +kernel

/-- The engine of core 0 with a message on its path, or in its inbox at a stage, tile 0 claimed by colour 0. -/
def matSt (m : MatMsg) (onPath : Bool) (flag : Bool) : State :=
  sited { s3 with cores := [(core0, { Core.reset with
    aClaim := some 0 :: List.replicate 7 none, oClaim := some 0 :: List.replicate 15 none,
    path := if onPath then [m] else [], inbox := if onPath then [] else [m] })] } core0 m.id flag
/-- The reference of a tile. -/
def tile (i : Nat) : Operand := refOp true i
theorem witness_MatrixEvents :
    (let m := mat Forms.aclr (tile 0) (num 0) (num 0)
     ({ matSt m true false with cur := m.f } : State).matCheck m = .ok [] ∧ m.opc ∉ [0xB0, 0xBD] ∧
     (let x := mat Forms.aclr (tile 1) (num 0) (num 0)
      (({ matSt x true false with cur := x.f } : State).matCheck x).isOk = false) ∧
     ((matSt m false false).core core0).mayStart core0 m = true ∧
     ((matSt m false false).core core0).mayStart core0 { m with stage := 1 } = false ∧
     (({ matSt m false false with cur := m.f } : State).matBegin m).isOk = true ∧
     (let x := { m with stage := 1 }
      ((matSt x false false).core core0).inbox.find? (fun y => decide (y.id = x.id) && decide (y.stage = 1)) = some x ∧ x.opc ≠ 0xB6) ∧
     (let x := { m with stage := 1, retried := true }
      ((matSt x false true).core core0).inbox.find? (fun y => decide (y.id = x.id) && decide (y.stage = 1) && y.retried) = some x ∧
        ({ matSt x false true with cur := x.f } : State).curAct? = some 7 ∧ ((matSt x false true).act 7).life ≠ .purging ∧
        ({ matSt x false true with cur := x.f, dies := [] } : State).curAct? = none) ∧
     (let x := { m with stage := 3, outA := some (num 1), outB := some (num 2) }
      ((matSt x false false).core core0).inbox.find? (fun y => decide (y.id = x.id) && decide (y.stage = 3)) = some x ∧
        (matSt x false false).owner? die0 (colourOf x.f.tag) ≠ none ∧ (matSt x false false).dying die0 x.f.tag = false)) ∧
    (let m := { mat Forms.oclm (num 0) (num 0) (num 0) with r := { rec_ Forms.oclm with lit := 1 } }
     m.opc = 0xB0 ∧ ({ matSt m true false with cur := m.f } : State).matCheck m = .ok []) ∧
    (mat Forms.mma (num 0) (num 0) (num 0)).onArray = true ∧ (mat Forms.aclr (num 0) (num 0) (num 0)).onArray = false := by decide +kernel
/-- R299: OCLM of two slots takes o2 and o3, the lowest free aligned pair, as it is accepted. -/
theorem test_oclm : (match exec .matrixAccept
      (matSt { mat Forms.oclm (num 0) (num 0) (num 0) with r := { rec_ Forms.oclm with sub := 0, lit := 2 } } true false) with
    | .next s => decide (((s.core core0).oClaim.take 5) = [some 0, none, some 0, some 0, none]) &&
        decide (((s.core core0).inbox.map (·.stage)) = [3])
    | _ => false) = true := by decide +kernel

/-- An empty checkpoint, an online frame of one row, a token of one head. -/
theorem witness_MatrixResults :
    (((List.range 64).mapM fun j => rowOfBytes (([] : List Byte).drop (8192 + 16 * j))).isSome = true) ∧
    ((frameOf (List.replicate 16 0 ++ [1] ++ List.replicate 47 0)).isSome = true) ∧
    ((tokRows 1 (leBytes 8 0)).isSome = true) ∧
    (let m := mat Forms.smxr (tile 0) (num (pad 64)) (num 0)
     m.opc = 0xCC ∧ vaOf (m.op 1).val 0 = some (pad 64) ∧ (nearKey core0 (pad 64) (tokSize 0)).isSome = true) ∧
    (let m := mat Forms.amov (tile 0) (num 0) (num 0)
     m.opc = 0xB8) := by decide +kernel

/-! ## Shards and rings -/

/-- Package 0's shard tables at address 0: one sequence of one list (head dimension 1) whose one entry is page 1, two pages, a prefix index of
one set. Page 1 stands at slot 0 of core 0, OPEN, LOC as given. -/
def shardCells (loc : Nat) : Memory :=
  cells [(0, 8, 0x1000), (8, 8, 1), (16, 8, 0x2000), (24, 8, 2), (32, 8, 0x4000), (40, 8, 1), (0x1000, 8, 2 ^ 63 + 4 * 2 ^ 13),
    (0x1008, 8, 0x3000), (0x2020, 8, loc * 2 ^ 62), (0x3000, 8, 0x100), (0x3010, 4, 1)]
/-- A firing that finds those tables. -/
def shardSt (a b d : Operand) : State := { st core0 a b d with mem := shardCells 1 }
/-- A shard slot that holds page 1. -/
def slot1 : Slot := ⟨1, 0, 0, 0, 1, none, 0, mkTag 0 1 5, false, false, false⟩
/-- The head of a token image with LIST at 0x3000, colour 0, return to core 0. -/
def image0 : List Byte := (List.range 24).map (fun _ => 0) ++ leBytes 8 0x3000 ++ (List.range 200).map (fun _ => 0)
/-- A query token of activation 7. -/
def tok0 (buf : Option Nat) (slots : List (Nat × Nat)) : QTok := ⟨3, 7, image0, core0, [], slots, buf⟩
/-- A state with that token and a slot of core 0. -/
def ringSt (buf : Option Nat) (slots : List (Nat × Nat)) (y : Slot) (rings : List (Option (Nat × RingUse))) (n : Nat) : State :=
  sited { st core0 (num 0) (num 4) (num 5) with
    mem := shardCells 1, qtoks := [tok0 buf slots],
    cores := [(core0, { Core.reset with slots := some y :: List.replicate 7 none, rings := rings })] } core0 n false

/-- A table read of `n` bytes at `a`, a multiple of `m`, gets its parts (ShardTurns). -/
def tableRuns (s : State) (a : Word) (n m : Nat) : Bool :=
  match vaOf a 0 with
  | none => false
  | some va =>
    decide (checkNear s.cur.core va n = .ok ()) && decide (alignBase va % m = 0) &&
      (match s.coverAll s.cur.core s.cur.node s.curAct.stall false [(va, n)] with
        | .ok (_, none, _) => true
        | _ => false)

/-- A header with LIST, and without; a visit and a return of QFWD; the lookups of a sequence word; page 1 and page 2. -/
theorem witness_ShardRecords :
    headerOk image0 = true ∧ headerOk (List.replicate 64 0) = false ∧
    ((shardSt (num (pad 64)) (num 0) (num 0)).tokenImage (num (pad 64)).val).isOk = true ∧
    (let s := ringSt (some 0) [(0, 1)] slot1 [some (3, .visit 0), none] 3
     (s.core core0).rings.getD 0 none = some (3, .visit 0) ∧ ((s.slot? core0 0).map fun x => colourOf x.tag) = some 0 ∧
       bitsOf 0 63 48 = 0 ∧ bitsOf 0 19 1 = 0) ∧
    (let s := ringSt (some 0) [] slot1 [some (3, .returned), none] 3
     (s.core core0).rings.getD 0 none = some (3, .returned) ∧ (2 ^ 20).testBit 20 = true ∧
       ((s.tok? 3).map fun x => colourOf (hdrTag x.bytes)) = some 0) ∧
    (let s := shardSt (num 0) (num 0) (num 0)
     (s.seqOfWord die0 0).isOk = true ∧ (s.seqOfWord die0 (BitVec.ofNat 64 (2 ^ 40))).isOk = false ∧ s.npage die0 0x3000 = 1 ∧
       s.entryAt die0 0x3000 0 = 1 ∧ s.pidOk die0 1 = true ∧ s.pidOk die0 2 = false ∧ s.pxSet die0 0 = some 0x4000) := by decide +kernel
theorem witness_ShardRecords_more :
    (let s := st core0 (num 0xA0000000000000) (num 1) (num 1)
     (tableRuns s s.cur.op0.val 4 16 && tableRuns s s.cur.op0.val 8 4 && tableRuns s s.cur.op0.val (pxinsBytes 0) 16) = true ∧
       cuOk [0, 0] = true ∧ (s.cluster ⟨0, 0, 0⟩).seqr = none) ∧
    (⟨0, [0, 5], 4, 0, 0⟩ : TileSeq).next = some (0, 0, 4) ∧ (⟨0, [0, 5], 4, 1, 0⟩ : TileSeq).next = none ∧
    (let s := shardSt (num 1) (num 0x400004) (num (2 ^ 51))
     destClass (BitVec.ofNat 24 0x400004) = 1 ∧ destCanonical (BitVec.ofNat 24 0x400004) = true ∧
       s.pinStatus core0 0 1 none (mkTag 0 1 5) = 0 ∧ s.pinStatus core0 1 1 none (mkTag 0 1 5) ≠ 0) ∧
    (let s := st ctl0 (num 0) (num 0xB0000000000000) (num 5)
     fires s Forms.specbeg (rec_ Forms.specbeg) = true ∧ (s.specLog s.cur.op1.val 1).isOk = true ∧
       s.curAct? = some 7 ∧ (leastBelow 64 fun i => (Assoc.get? (s.die die0).handles i).isNone) = some 0 ∧
       (s.startChild .spec false (s.parentDest (rec_ Forms.specbeg)) true none).isSome = true ∧ Assoc.get? s.acts 7 ≠ none) := by decide +kernel
/-- R280: a table of one sequence of 5 rows in tiles of 4: tile 0 has 4 rows, tile 1 has 1. -/
theorem test_tiles : (⟨0, [0, 5], 4, 0, 0⟩ : TileSeq).next = some (0, 0, 4) ∧ (⟨0, [0, 5], 4, 0, 4⟩ : TileSeq).next = some (0, 4, 1) := by
  decide +kernel
/-- R331: KLOOK `.page` of the one entry sends its descriptor's word 0, and PID 1 over status 0. -/
theorem test_klook_page : sentVals (exec (.klookPage { rec_ Forms.klookPage with dstB := 0x400008 }) (shardSt (num 0) (num 0) (num 0))) =
    [0x4000000000000000#64, 0x100000000#64] := by decide +kernel
/-- R331: past the list's end it sends 0, and PID 0xFFFFFFFF over status 3. -/
theorem test_klook_end : sentVals (exec (.klookPage { rec_ Forms.klookPage with dstB := 0x400008 }) (shardSt (num 0) (num 1) (num 0))) =
    [0#64, 0xFFFFFFFF00000003#64] := by decide +kernel

/-- A shard instruction at its turn, on page 1. -/
def turnSt (opc pid fst : Nat) (slots : List (Option Slot)) : State :=
  sited { shardSt (num pid) (num 4) (num 5) with
    mem := cells [(16, 8, 0x2000), (24, 8, 2), (0x2020, 8, fst * 2 ^ 59)],
    cores := [(core0, { Core.reset with slots := slots, shardReqs :=
      [⟨3, opc, rec_ Forms.pgfrz, fir core0 (num pid) (num 4) (num 5), mkTag 0 1 5, 0, none, none, none, []⟩] })] } core0 3 false
theorem witness_ShardTurns :
    (let s := st core0 (num 0) (num 4) (num 0xA0000000000000)
     s.cur.op0.val.toNat % 2 ^ 26 = 0 ∧
     (let h : SpecHandle := ⟨7, 9, true, 0, [], 1, 0⟩
      ({ s with dies := [(die0, { Die.reset with colours := [(0, 7)], handles := [(0, h)] })] } : State).ownHandle = .ok (0, h) ∧
      ({ s with dies := [(die0, { Die.reset with colours := [(0, 7)], handles := [(0, { h with live := false })] })] } : State).ownHandle =
        .ok (0, { h with live := false }))) ∧
    (let s := shardSt (num 1) (num 4) (num 0xA0000000000000)
     s.pidOk die0 1 = true ∧ tableRuns s s.cur.op2.val (pxinsBytes (dFill (s.desc die0 1 0))) 16 = true) ∧
    (let s := shardSt (num 0) (sliceOp 0 0) (num 5)
     (s.scalarAt (rec_ Forms.kapp) 0).isOk = true ∧ s.sliceAt (rec_ Forms.kapp) 1 = .ok ⟨0, 0⟩ ∧ (s.seqOfWord die0 0).isOk = true ∧
       ceilDiv (2 * 1 * 1) 256 ≤ 0 + 1) ∧
    (∀ fst ∈ [0, 1, 2, 4], (let s := turnSt 0xD9 1 fst []
     s.pidOk die0 1 = true ∧ ∀ q ∈ (s.core core0).shardReqs, (s.reachTurn core0 q (some 1) none).2.turnTaken core0 (s.reachTurn core0 q (some 1) none).1 = false)) ∧
    dFst (1 * 2 ^ 59) < 2 ∧ dTent (1 * 2 ^ 59) = true ∧ dTent 0 = false ∧ 2 ≤ dFst (4 * 2 ^ 59) ∧
    (turnSt 0xD9 2 0 []).pidOk die0 2 = false ∧
    (let s := turnSt 0xD3 1 0 [some slot1]
     s.slot? core0 0 = some slot1 ∧ (s.core core0).waitingAt 0 = false ∧ (s.core core0).visiting 0 = false) := by decide +kernel
/-- R334, R336: PGFRZ of a page that does not exist is answered BADPID (1), with nothing outstanding any more. -/
theorem test_pgfrz_badpid : (match exec .shardTableTurn (turnSt 0xD9 2 0 []) with
    | .next s => decide (sentVals (.next s) = [1#64]) && decide ((s.core core0).shardReqs = [])
    | _ => false) = true := by decide +kernel

/-- A token that waits in no buffer, dead and live, with its slot held, evicting, held for another page, without a free buffer; a return
with and without a core; a page gone from its station; a refill and an eviction, that worked and that failed. -/
theorem witness_RingEvents :
    (let s := ringSt none [(0, 1)] slot1 [none, none] 3
     let x := tok0 none [(0, 1)]
     s.tok? 3 = some x ∧ s.tokDead x = false ∧ s.tokDead { x with act := 8 } = true ∧ s.slot? core0 0 = some slot1 ∧
       slot1.evicting = false ∧ slot1.pid = 1 ∧ (s.takeRing core0 3).1 = some 0 ∧ s.locOf core0 slot1 ≤ 1 ∧
       s.isCore (retCore x.bytes) = true ∧ x.returning = false ∧ (tok0 none []).returning = true ∧
       slot1.layer = bitsOf (hdr image0 0) 39 32 ∧ s.slot? core0 1 = none ∧
       s.isCore (retCore ((List.range 48).map (fun _ => 0) ++ leBytes 8 (200 * 2 ^ 29))) = false) ∧
    (let s := ringSt none [(0, 2)] slot1 [some (4, .returned), some (5, .returned)] 3
     (s.takeRing core0 3).1 = none ∧ (s.slot? core0 0).map (·.pid) ≠ some 2) ∧
    (let s : State := { ringSt none [] slot1 [none, none] 3 with mem := shardCells 2 }
     s.locOf core0 slot1 = 2) ∧
    (let y : Slot := { slot1 with refill := true, evicting := true }
     let s := ringSt none [] y [none, none] 0
     s.slot? core0 0 = some y ∧ s.site.m ≠ 1 ∧ ({ s with site := { s.site with m := 1 } } : State).site.m = 1) := by decide +kernel

/-! ## The system group -/

/-- A loaded image of one block with nothing in it, named 9. -/
def img9 : Image :=
  { id := 9, pa := 3, stall := false, spec := false, chorus := false, plan := [4, 4], pool := 0, wings := 0, blocks := [⟨core0, 0, [0], 0⟩],
    windows := [], fars := [], streams := [], classes := [], regions := [], choruses := [] }
/-- SYSRD and SYSWR at each register they know, EVGET with a record and without, LAUNCH, CFGINST with an image, PROMPT. -/
theorem witness_SystemRecords :
    (∀ n ∈ [0x000, 0x001, 0x002, 0x00A, 0x012, 0x020, 0x026, 0x040, 0x041, 0x042, 0x043, 0x080, 0x07F],
      fires s3 Forms.sysrd { rec_ Forms.sysrd with lit := BitVec.ofNat 20 n } = true ∧
      fires (st ctl0 (num 3) (num 4) (num 5)) Forms.syswr { rec_ Forms.syswr with lit := BitVec.ofNat 20 n } = true) ∧
    (num 5).val.toNat % 8 ≤ 5 ∧ 6 ≤ (num 6).val.toNat % 8 ∧
    (let s := st ctl0 (num (pad 64)) (num (2 ^ 19)) (num 0)
     s.padAddr s.cur.op0.val 32 = .ok (pad 64) ∧ checkMultiple (pad 64) 32 = .ok () ∧ (nearKey ctl0 (pad 64) 32).isSome = true ∧
       Queue.reset.take = none ∧ ({ Queue.reset with recs := [[0, 0, 0, 0]] } : Queue).take ≠ none ∧
       (s.messageAt s.cur.op0.val).isOk = true ∧ (s.messageAt 8).isOk = false ∧ ctlOf s.cur.op1.val = some ctl0 ∧ s.isCore ctl0 = true ∧ ctlOf 0 = none) ∧
    (let s : State := { st ctl0 (num 3) (num (2 ^ 63)) (num 0) with packages := [(0, { Package.reset with images := [img9] })] }
     ((s.pkg 0).images.find? fun x => decide (x.pa = s.cur.op0.val.toNat)) = some img9 ∧ s.cur.op1.val.getLsbD 63 = true ∧
       physClu s.cur.op1.val = ctl0.cluId ∧ s.inUse img9 s.cur.op1.val = false ∧
       ({ s with cores := [(core0, { Core.reset with owner := [(0, 0)] })],
                 acts := [(7, { act0 with clus := [ctl0.cluId] })] } : State).inUse img9 s.cur.op1.val = true) := by decide +kernel
/-- PROMPT at an address that its record port translates; a routine that is loaded and one that is not, its turn and its line. -/
theorem witness_SystemRecords_prompt :
    (let who : ReplyTo := ⟨ctl0, 0, 0, 0, 0⟩
     let x : Prompt := ⟨3, 21, 4, 0, who⟩
     let s (flag : Bool) : State := sited { st ctl0 (num 4096) (num 0) (num 0) with
        packages := [(0, { Package.reset with routines := [4] })],
        dies := [(die0, { Die.reset with
          colours := [(0, 7)], tlb := [⟨some (ctl0, 0), 0, 65536, 0, true, false⟩], prompts := [x, { x with id := 5, routine := 6 }] })] }
        ctl0 3 flag
     vaOf (s false).cur.op0.val 0 = some 4096 ∧ isNear 4096 = false ∧
       (match (s false).coverOne ctl0 0 false true 4096 1 with
         | .ok (ps, f, _) => f.isNone && decide (((ps.head?).bind (·.pa)) = some 4096) && !ps.any (·.nc)
         | .error _ => false) = true ∧
       (s false).isHbm 4096 = true ∧ (s false).isLost 21 = false ∧ (s false).joined 0 (homeDie 21).pkg = true ∧
       (∀ flag ∈ [false, true], (s flag).site.flag = flag ∧
         (((s flag).die die0).prompts.find? fun y => decide (y.id = (s flag).site.n)) = some x) ∧
       x.routine ∈ ((s false).pkg 0).routines ∧ 6 ∉ ((s false).pkg 0).routines ∧ ((s false).die die0).promptTurn x = true ∧
       ((s false).die die0).promptTurn { x with id := 5 } = false ∧ ((s false).holdLine die0 21 [0, 1, 2, 3]).1 = false ∧
       (((s false).modDie die0 fun y => { y with lines := [line21 .m none false false] }).holdLine die0 21 [0, 1, 2, 3]).1 = true) := by decide +kernel
/-- R191: COUNTERS start at 0, CORE.ID of core 0 of package 0 is 0, and CORE.ACT.COLOUR is the firing's colour. -/
theorem test_sysrd : sentVals (exec (.sysrd { rec_ Forms.sysrd with lit := 0x020 }) s3) = [0#64] ∧
    sentVals (exec (.sysrd { rec_ Forms.sysrd with lit := 0x043 }) s3) = [0#64] := by decide +kernel
/-- R191: an ordinary core may not write CORE.WINGCFG. -/
theorem test_syswr_permission : sentVals (exec (.syswr { rec_ Forms.syswr with lit := 0x012 }) s3) = [] ∧
    sentVals (exec (.syswr { rec_ Forms.syswr with lit := 0x042 }) s3) = [3#64] := by decide +kernel

/-! ## Start-up and power -/

/-- A state whose package 0 stands as given, with the site at core 0. -/
def pkgSt (x : Package) (n : Nat) (flag : Bool) : State := sited { s3 with packages := [(0, x)] } core0 n flag
/-- Every boot stage; links that may train; the host's accesses queued, bad and good, with a line at hand and without; old and new links. -/
theorem witness_StartUpEvents :
    (∀ n ∈ ([1, 2, 3, 4, 5, 0xE] : List (BitVec 4)), ((pkgSt { Package.reset with stage := n } 0 false).pkg 0).stage = n) ∧
    ((0x0100 : BitVec 16) ≤ 0x0100 ∧ (0x0100 : BitVec 16) ≤ 0x0101 ∧ Config.versions.1 ≤ 0x0101 ∧ 0x0101 ≤ Config.versions.2) ∧
    1 < s3.podSize ∧ ((s3.link 0 64).ver = 0) ∧ (s3.die die0).lines = [] ∧
    (let s := { pkgSt { Package.reset with
        stage := 5, links := [(64, { LinkSt.reset with ver := 0x0200, lanes := 8 })], hostQ := [.read 4032 8, .load 0] } 0 false with
          dies := [(die0, { Die.reset with lines := [line21 .m none false false] })] }
     (s.pkg 0).stage ≠ 0xE ∧ (s.link 0 64).ver ≠ 0 ∧ (s.pkg 0).hostQ = [.read 4032 8, .load 0] ∧
       s.hostBad 0 4032 8 false = false ∧ s.hostBad 0 4032 8 true = false ∧ s.hostBad 0 (2 ^ 51) 8 false = true ∧
       (s.drawRuns die0 (.host 0 0) [⟨0, some 4032, 8, false⟩]).1.isSome = true ∧
       (s3.drawRuns die0 (.host 0 0) [⟨0, some 4032, 8, false⟩]).1 = none ∧
       (s.writeReady die0 false 4032 8).1 = true ∧ s.hostApplied 0 = true ∧
       ({ s with packages := [(0, { s.pkg 0 with hostLines := [21] })],
                 dies := [(die0, { Die.reset with lines := [{ line21 .m none false false with pend := [(0, (0, none))] }] })] } :
         State).hostApplied 0 = false ∧
       0x0101 ≤ (s.link 0 64).ver ∧ (s.link 0 1).ver < 0x0101) ∧
    (let s : State := { s3 with dies := [(die0, { Die.reset with testing := [(2, 1)] })] }
     ((s.die die0).testing.any fun x => decide (x.1 = 2)) = true ∧ ((s.die die0).testing.any fun x => decide (x.1 = 3)) = false) ∧
    1 ≤ (sited s3 core0 7 false).site.n := by decide +kernel
/-- An image of R99's header and one empty section is accepted; where there is none, a report is given (R102). -/
theorem witness_StartUpEvents_image :
    (({ s3 with mem := cells [(0x9000, 4, 0x49444541), (0x9005, 1, 1), (0x9006, 2, 1), (0x9010, 8, 80), (0x9040, 2, 4), (0x9048, 8, 80)] } :
      State).judgeImage 0 0x9000).isOk = true ∧ (s3.judgeImage 0 0x9000).isOk = false := by decide +kernel
/-- R103, R104: a failed self-test fails the package with reason 1. -/
theorem test_boot_fails : (match exec (.bootTest 0 false true true false) s3 with
    | .next s => decide ((s.pkg 0).stage = 0xE) && decide ((s.pkg 0).reason = 1)
    | _ => false) = true := by decide +kernel
/-- R105: a channel of two good halves whose ranges meet at 0x0101 trains at 0x0101 with 8 lanes. -/
theorem test_training : (match exec (.linkTraining 0 1 0x0100 0x0101 true true)
      { s3 with packages := [(0, { Package.reset with stage := 3 }), (1, { Package.reset with stage := 3 })] } with
    | .next s => decide ((s.link 0 1).ver = 0x0101) && decide ((s.link 1 0).lanes = 8)
    | _ => false) = true := by decide +kernel

/-- Island 0 of package 0 as given. -/
def islSt (x : Island) (n : Nat) (flag : Bool) : State :=
  pkgSt { Package.reset with islands := x :: List.replicate 39 Island.reset } n flag
/-- The bands of temperature, the ways of a refresh, the power states. -/
theorem witness_PowerEvents :
    (∀ x ∈ [{ Island.reset with hot := true }, { Island.reset with down1 := true }, { Island.reset with point := 1 }, Island.reset],
      (islSt x 0 false).island 0 0 = x) ∧
    drawAt 0 0 ≤ allowance 0 200 0 ∧ allowance 0 900 0 < drawAt 1 0 ∧
    (let s := islSt { Island.reset with stopped := true, hot := true, since := 5 } 5 true
     (s.island 0 0).stopped = true ∧ (s.island 0 0).since = s.site.n) ∧
    ((sited s3 core0 4 false).site.n ≤ 4 ∧ (s3.core core0).power = .awake ∧ (s3.core core0).idle = true ∧ (s3.core core0).router = .awake ∧
      (s3.core core0).owner = []) ∧
    (let s : State := { s3 with cores := [(core0, { Core.reset with power := .drowsy, router := .drowsy, routerDeciding := true })] }
     (s.core core0).power = .drowsy ∧ (s.core core0).routerDeciding = true) ∧ s3.agenda = [] := by decide +kernel
/-- R438: a reading of 110 °C (880 eighths) stops an island; one of 120 °C stops the package. -/
theorem test_thermal : (match exec (.thermal 0 0 880) (islSt Island.reset 0 false) with
    | .next s => (s.island 0 0).stopped && (s.island 0 0).hot && !(s.pkg 0).stopped
    | _ => false) = true ∧
    (match exec (.thermal 0 0 960) (islSt Island.reset 0 false) with
    | .next s => (s.pkg 0).stopped
    | _ => false) = true := by decide +kernel

/-! ## Launches and graphs -/

/-- A START of image 9 with one placement entry, cluster 0 onto itself, at 0x5000, and its parameter block at 0x6000 (R109). -/
def startWords : List Word :=
  [0x01C0000000000000, 0, 9, 0x0010000000005000, 0x0080000000006000, 0, 0, 0, 0, 0x8000000000000000, 0, 0, 0, 0]
/-- Package 0 Ready with image 9, the placement in memory. -/
def launchSt : State :=
  { pkgSt { Package.reset with stage := 5, images := [img9] } 3 false with mem := cells [(0x5000, 8, 2 ^ 63)], acts := [], dies := [] }
/-- A held launch of it. -/
def held3 (ready : Bool) : Launch := ⟨3, startWords, ⟨.host, ctl0, 0, 0⟩, 0, none, ready, false, 0, 0, [], [0x8000000000000000], none, none⟩
theorem witness_LaunchEvents :
    (let s := launchSt
     let st (ws : List Word) : Nat := (s.startStatus ctl0 ws 0 []).1
     startOk startWords = true ∧ startField startWords 11 27 0 = 0 ∧ s.imageOf 0 9 = some img9 ∧
       s.placeOk ctl0 img9 (s.placement startWords) = true ∧ st startWords = 0 ∧ startOk (setAt startWords 12 1) = false ∧
       193 < startField (setAt startWords 9 0x8000032000000000) 9 41 34 ∧ st (setAt startWords 11 1) = 1 ∧ st (setAt startWords 2 8) = 2 ∧
       st (setAt startWords 3 0x0010000000005008) = 3 ∧ st (setAt startWords 5 (2 ^ 37)) = 5 ∧ st (setAt startWords 9 0) = 6 ∧
       (({ s with packages := [(0, { Package.reset with images := [{ img9 with windows := [(0, (0, []))] }] })] } : State).startStatus ctl0
         startWords 0 []).1 = 4) ∧
    (let s := sited { launchSt with clusters := [(ctl0.cluId, { Cluster.reset with launches := [(0, [held3 false])] })] } ctl0 3 false
     s.launch? s.site.core s.site.n = some (held3 false) ∧ s.installed ctl0 (held3 false) = false ∧ s.launch? ctl0 4 = none ∧
       s.launchImage ctl0 (held3 false) = some img9 ∧ ((held3 false).needed img9).all (fun e => !s.inUse img9 e) = true ∧
       (((held3 false).needed img9).filter fun e => !s.residentAt img9.id (held3 false).place e) ≠ [] ∧
       s.judge ctl0 (held3 false) = .wait ∧ { held3 false with blocking := true }.id < ({ held3 false with id := 4 } : Launch).id) ∧
    (let who : ReplyTo := ⟨ctl0, 0, 0, 0, 0⟩
     let s := pkgSt { Package.reset with cfgs := [(3, who)] } 3 true
     s.site.flag = true ∧ Assoc.get? (s.pkg 0).cfgs s.site.n = some who ∧ Assoc.get? (s.pkg 0).cfgs 4 = none) := by decide +kernel
/-- The same launch once it is installed: admitted on a cool island; with no operating point on a hot one. -/
theorem witness_LaunchEvents_admitted :
    (let r : Resident := ⟨9, ⟨0, 0, 0⟩, ⟨0, 0, 0⟩, [0x8000000000000000], 0⟩
     let s (hot : Bool) : State := { launchSt with
       packages := [(0, { Package.reset with
         images := [img9], resident := [r], islands := { Island.reset with hot := hot } :: List.replicate 39 Island.reset })] }
     (s false).installed ctl0 (held3 true) = true ∧ (s false).judge ctl0 (held3 true) = .granted ∧ (s true).judge ctl0 (held3 true) = .noPoint ∧
       (held3 true).since = none ∧ (held3 true).restore = none) := by decide +kernel

/-- A registered graph of one node, with a replay that has not run it. -/
def graph1 : TaskGraph := ⟨192, 5, 0, [8], [startWords.drop 2], [[]], 2, [⟨1, 0, [startWords.drop 2], [[]], [0], [], [], []⟩], [], false⟩
/-- A graph message to control core 0: words 2 and 3 as given. -/
def graphMsg (a b : Word) : Msg := ⟨[0, 0, a, b, 0, 0], ⟨.host, ctl0, 0, 0⟩, false, []⟩
/-- Control core 0 with that graph. -/
def graphSt (g : TaskGraph) : State := sited { launchSt with clusters := [(ctl0.cluId, { Cluster.reset with graphs := [g] })] } ctl0 5 false
theorem witness_GraphEvents :
    graphMsgOk (graphMsg 5 0) = true ∧ msgField (graphMsg 5 0) 2 15 0 = 5 ∧
    (let s := graphSt graph1
     s.graph? ctl0 5 = some graph1 ∧ s.graph? ctl0 6 = none ∧ graph1.dropped = false ∧ graph1.live.length < 4 ∧ graph1.heldQ = [] ∧
       (s.takeLaunch ctl0 (graphMsg 5 0)).2.graph? ctl0 5 = some graph1 ∧
       (graph1.live.find? fun x => decide (x.num = 1)) ≠ none ∧ (graph1.live.all fun x => graph1.ready x 0 && !graph1.ready x 1) = true ∧
       s.curtainOn ((s.placement (nodeStart (startWords.drop 2) 5 0)).map physClu) = false) ∧
    (graphSt { graph1 with heldQ := [(graphMsg 5 0, 0)] }).graph? ctl0 5 = some { graph1 with heldQ := [(graphMsg 5 0, 0)] } ∧
    graphMsgOk (graphMsg 6 8) = true ∧ (graphSt graph1).readGraph 0x7000 1 = none ∧
    bodyOk (startWords.drop 2) = true ∧ bodyPsize (startWords.drop 2) ≤ graph1.psizes.getD 0 0 := by decide +kernel
/-- A table of one node, without predecessors or successors, is read. -/
theorem witness_GraphEvents_table :
    (({ launchSt with mem := cells [(0x7000, 8, 8), (0x7008, 8, 9), (0x7010, 8, 0x0010000000005000), (0x7018, 8, 0x0080000000006000),
      (0x7040, 8, 2 ^ 63)] } : State).readGraph 0x7000 1).isSome = true := by decide +kernel
/-- R119: REPLAY of a graph that is not registered is answered, and holds nothing. -/
theorem test_replay_unknown : (match exec (.replay ctl0 (graphMsg 6 0)) (graphSt graph1) with
    | .next s => decide ((s.cluster ctl0.cluId).graphs = [graph1])
    | _ => false) = true := by decide +kernel

/-! ## Endings and the curtain -/

/-- Activation 7 at a stage of its life, its end to happen. -/
def endSt (x : Act) : State := sited { s3 with acts := [(7, x)] } ctl0 7 false
theorem witness_EndingEvents :
    (∀ x ∈ [act0, { act0 with life := .ending }, { act0 with life := .ending, discarded := true }, { act0 with life := .purging },
        { act0 with life := .purging, reached := [die0] }],
      Assoc.get? (endSt x).acts (endSt x).site.n = some x ∧ (endSt x).mayEnd 7 = true ∧ (endSt x).unwritten 7 = false) ∧
    Assoc.get? act0.map die0 = some 0 ∧ act0.curtain = false := by decide +kernel
/-- A line that activation 7 has dirty keeps it unwritten; a firing of its colour keeps it from ending. -/
theorem witness_EndingEvents_waits :
    (({ endSt { act0 with life := .ending } with dies := [(die0, { Die.reset with
        colours := [(0, 7)], lines := [{ line21 .m none false false with sectors := List.replicate 4 ⟨true, true, false, some 0⟩ }] })] } :
      State).unwritten 7 = true) ∧
    (({ endSt { act0 with life := .ending } with cores := [(core0, { Core.reset with
        ready := [fir core0 (num 0) (num 0) (num 0)] })] } : State).mayEnd 7 = false) := by decide +kernel
/-- R426: ENDG's retirement frees the colour of activation 7 on its die. -/
theorem test_retires : (match exec .completionTokenRetire (endSt { act0 with life := .ending, discarded := true }) with
    | .next s => decide ((s.die die0).colours = [])
    | _ => false) = true := by decide +kernel

/-- A curtain over activation 7. -/
def cur3 (area : Nat) (held saving full : Bool) : Curtain := ⟨3, 7, ctl0, ⟨ctl0, 0, 0, 0, 0⟩, area, held, false, full, saving, false⟩
/-- Control core 0 with it. -/
def curSt (a b : Nat) (xs : List Curtain) (x : Act) : State :=
  sited { st ctl0 (num a) (num b) (num 0) with
    acts := [(7, x)], packages := [(0, { Package.reset with curtains := xs })] } ctl0 3 false
theorem witness_CurtainRuns :
    (let s := curSt 0 0 [] act0
     s.owner? die0 0 = some 7 ∧ (s.act 7).parent = none ∧ s.curtainArea 7 0 = .ok 0 ∧ (s.act 7).life = .live ∧ s.curtainOf 7 = none ∧
       s.restoring ctl0 1 = false ∧ s.owner? die0 1 = none ∧ ((curSt 0 0 [] { act0 with parent := some 6 }).act 7).parent ≠ none ∧
       s.areaAt 0xC000 = .ok 0xC000 ∧ (s.areaAt 0xC001).isOk = false ∧ s.saveAt 0xC000 = none) ∧
    ((curSt 0 0 [] act0).curtainArea 7 (BitVec.ofNat 64 0xC000)).isOk = false ∧
    (∀ x ∈ [cur3 0 false false false, cur3 0 true false false, cur3 0xC000 false true false, cur3 0xC000 false false true],
      (curSt 0 0 [x] act0).curtain? 0 3 = some x ∧ (curSt 0 0 [x] act0).curtainOf 7 = some x) ∧
    ((curSt 0 0 [cur3 0 false false false] act0).regionRests 7 .drained = true ∧
      (curSt 0 0 [cur3 0 false false false] act0).regionRests 7 .frozen = true ∧ (curSt 0 0 [] act0).unwritten 7 = false) := by decide +kernel
/-- A save area large enough, with a header of its size; a saved region there, which CTXLD finds. -/
theorem witness_CurtainRuns_area :
    (let s : State := { curSt 1 0xC000 [] act0 with mem := cells [(0xC008, 8, 2 ^ 40)] }
     s.curtainArea 7 (BitVec.ofNat 64 0xC000) = .ok 0xC000) ∧
    (let v : Saved := ⟨3, 0xC000, [], [], [(7, act0)], [], [], [], [], [], [], [], [], [], [], [], [], [], []⟩
     let s : State := { curSt 1 0xC000 [] act0 with mem := cells [(0xC000, 8, 0x0100010056415341)], saves := [v] }
     s.saveAt (BitVec.ofNat 64 0xC000) = some v ∧ s.restoring ctl0 1 = false ∧ s.owner? die0 1 = none ∧ s.unfillable v = false) := by
  decide +kernel
/-- R409: CURTAIN of a colour that nothing holds sends 2. -/
theorem test_curtain_none : sentVals (exec (.curtain (rec_ Forms.curtain)) (curSt 1 0 [] act0)) = [2#64] := by decide +kernel

/-! ## Tokens and engines -/

/-- A token for node 0 of core 0. -/
def tk (port : Nat) (v : Nat) : Token := ⟨0, port, mkTag 0 1 5, num v, []⟩
/-- Core 0 with a record at node 0 and an entry waiting there. -/
def tokSt (r : BitVec 96) (es : List Entry) : State :=
  { s3 with cores := [(core0, { Core.reset with elem := [(0, r)], store := es })] }
/-- An entry of node 0 with a port filled. -/
def wait1 (pm : BitVec 3) : Entry := ⟨0, mkTag 0 1 5, .waiting pm (num 1) (num 2) zeroOp 0, none⟩
theorem witness_TokenEvents :
    (let s := tokSt 0x76_0410_0000_0040_0004_0000_00#96 [wait1 1]
     s.dying die0 (tk 0 1).tag = false ∧ s.coreRuns core0 = true ∧ (s.core core0).pathHold .own = [] ∧ (s.core core0).power ≠ .drowsy ∧
       decodeWord (s.recordAt core0 0) ≠ none ∧ (recOfWord (s.recordAt core0 0)).ari = 1 ∧ s.barred core0 (tk 0 1).tag = false ∧
       s.actOf? die0 (tk 0 1).tag = some 7 ∧ s.colourOn 7 die0 = some 0 ∧ s.colourOn 7 ⟨1, 0⟩ = none ∧
       (s.core core0).findEntry 0 (tk 0 1).tag false = some (wait1 1) ∧
       (wait1 1).body = .waiting 1 (num 1) (num 2) zeroOp 0 ∧ (wait1 2).body = .waiting 2 (num 1) (num 2) zeroOp 0 ∧
       (s.core core0).wayFree 0 = true ∧ (s.tryPlace core0 (wait1 1)).isSome = true ∧ s.backlog core0 = [] ∧ (s.core core0).ready.length < 256) ∧
    ({ s3 with acts := [(7, { act0 with life := .purging, reached := [die0] })] } : State).dying die0 (tk 0 1).tag = true ∧
    (let s : State := { s3 with cores := [(core0, { Core.reset with holdOwn := [wait1 1], power := .gated })] }
     s.coreRuns core0 = false ∧ (s.core core0).routerDeciding = false ∧ (s.core core0).pathHold .own = [wait1 1] ∧ (s.core core0).pathHeld .own (tk 0 1) = true ∧
       (s.core core0).pathHeld .network (tk 0 1) = false) ∧
    (let s : State := { s3 with cores := [(core0, { Core.reset with waiting := [(.own, tk 0 1)], holdAt := [(.own, 0)] })] }
     s.coreRuns core0 = true ∧ Assoc.get? (s.core core0).waiting .own = some (tk 0 1) ∧ tk 0 1 ≠ tk 1 1 ∧
       Assoc.get? (s.core core0).holdAt .own = some 0 ∧ (s.core core0).pathHeld .own (tk 0 1) = false ∧
       (s.core core0).pathHeld .own (tk 1 1) = true) ∧
    ({ s3 with acts := [(7, { act0 with heldBy := true })] } : State).barred core0 (tk 0 1).tag = true ∧
    s3.routed 0 0 = true ∧ s3.routed 0 1 = false ∧ decodeWord 0 = none := by decide +kernel
/-- A set with its eight ways taken; no wing, and a wing of one entry a set. -/
theorem witness_TokenEvents_full :
    (let es : List Entry := List.replicate 8 (wait1 1)
     let k : Core := { Core.reset with store := es }
     k.wayFree (wait1 1).set_ = false ∧ k.freeWing (wait1 1).set_ = none ∧
       ({ k with wingCfg := BitVec.ofNat 64 (2 ^ 52) } : Core).freeWing (wait1 1).set_ = some (wait1 1).set_) := by decide +kernel
/-- An entry that a probe finds in a wing. -/
theorem witness_TokenEvents_probe :
    (let e : Entry := { wait1 1 with wing := some (wait1 1).set_ }
     let s := sited { s3 with cores := [(core0, { Core.reset with store := [e], probes := [⟨2, e.set_, .arrival (tk 1 9) false⟩] })] } core0 2 false
     ((s.core core0).probes.find? fun x => decide (x.slot = s.site.n)) = some ⟨2, e.set_, .arrival (tk 1 9) false⟩ ∧ s.coreRuns core0 = true ∧
       (s.core core0).findEntry 0 (tk 1 9).tag true = some e) := by decide +kernel
/-- R434: a token for a DROWSY router waits for its wake; one that comes in the decision cycle abandons the decision, and the island counts it. -/
theorem test_router :
    (match exec (.tokenArrival core0 .network (tk 0 1)) { s3 with cores := [(core0, { Core.reset with router := .drowsy })] } with
    | .next s => decide (s.agenda = [.event .routerWake ⟨core0, 0, 0, false⟩, .event (.tokenArrival core0 .network (tk 0 1)) Site.zero])
    | _ => false) = true ∧
    (match exec (.tokenArrival core0 .network (tk 0 1)) { s3 with cores := [(core0, { Core.reset with routerDeciding := true })] } with
    | .next s => decide ((s.core core0).router = .awake) && decide ((s.island 0 0).abandon = 1)
    | _ => false) = true := by decide +kernel
/-- R133: the first token of an ADD waits on port 0; the second on port 1 completes its firing. -/
theorem test_matches : (match exec (.tokenArrival core0 .own (tk 0 1)) (tokSt 0x2000A00_00000_400004_000000#96 []) with
    | .next s => decide ((s.core core0).store.map (·.body) = [.waiting 1 (num 1) zeroOp zeroOp 0])
    | _ => false) = true ∧
    (match exec (.tokenArrival core0 .own (tk 1 2)) (tokSt 0x2000A00_00000_400004_000000#96
      [⟨0, mkTag 0 1 5, .waiting 1 (num 1) zeroOp zeroOp 0, none⟩]) with
    | .next s => decide ((s.core core0).store = []) && decide (((s.core core0).comps.map fun x => (x.2.op0, x.2.op1)) = [(num 1, num 2)])
    | _ => false) = true := by decide +kernel

/-- The copy engine of cluster 0, and a copy of 96 bytes between physical addresses from the host. -/
def eng0 : EngineId := ⟨.copy, core0⟩
/-- A COPY.P of n bytes. -/
def copyMsg (n : Nat) : Msg :=
  ⟨[0x0360000000000000, 0, 0x8000, 0x4000, BitVec.ofNat 64 n, 0, 0, 0], ⟨.host, core0, 0, 0⟩, true, []⟩
/-- That message accepted, with source bytes read and bytes sent as given. -/
def eng1 (begun : Bool) (got sent : Nat) : EngMsg :=
  ⟨3, copyMsg 96, 0, 0, 0, false, none, begun, (List.range got).map fun i => (BitVec.ofNat 8 i, false), sent, [], [], false⟩
/-- The engine with it. -/
def engSt (x : EngMsg) : State := { s3 with clusters := [(⟨0, 0, 0⟩, { Cluster.reset with copyIn := [x] })] }
/-- A host message that waits and one that is due; messages of each inbox; a message's checks, its reading that waits and that is whole, its
piece placed and written, or not yet. -/
theorem witness_EngineEvents :
    ((s3.link 0 hostLink).ver = 0 ∧ (copyMsg 96).sender.kind = .host) ∧
    (let s := pkgSt { Package.reset with stage := 5, links := [(64, { LinkSt.reset with ver := 0x0200 })] } 0 false
     (s.link 0 hostLink).ver ≠ 0 ∧ s.hostSettled 0 = true ∧ (s.pkg 0).stage = 5 ∧
       ({ s with packages := [(0, { s.pkg 0 with hostQ := [.load 0] })] } : State).hostSettled 0 = false) ∧
    copyOk (copyMsg 96) = true ∧ fromOrdinary (copyMsg 96) = false ∧ msgTle (copyMsg 96) = false ∧ (s3.inbox eng0).length < 16 ∧
    copyOk (copyMsg (2 ^ 40)) = false ∧ msgScope (copyMsg 96) < 4 ∧
    linkOk ⟨[0x0160000000000000, 0, 0, 0, 0, 0, 0, 0], ⟨.host, core0, 0, 0⟩, true, []⟩ = true ∧
    launchEvent ctl0 ⟨startWords, ⟨.host, core0, 0, 0⟩, false, []⟩ ≠ none ∧ launchOk ⟨startWords, ⟨.host, core0, 0, 0⟩, false, []⟩ = true ∧
    (let x := eng1 false 0 0
     let s := engSt x
     s.engMsg? eng0 3 = some x ∧ s.unsettled [] = [] ∧ (s.checkMsg eng0 (copyMsg 96)).isOk = true ∧ redMisaligned (copyMsg 96) = false ∧
       (match (s.readOn eng0 97 x).1 with | .waits => true | _ => false) = true ∧
       (match (s.readOn eng0 97 (eng1 true 96 0)).1 with | .whole => true | _ => false) = true) ∧
    (let x := eng1 true 96 0
     let s := engSt x
     let p := x.piece eng0 0x8000 false none
     (match (s.msgPlace eng0 x.msg true (msgDst x.msg) x.pieceLen).1 with
       | .ok (pa, _, _) => decide (pa = 0x8000) | .error _ => false) = true ∧ p.red = none ∧ x.sent < msgLen x.msg ∧
       x.sent + x.pieceLen ≤ x.got.length ∧ s.engMsg? p.engine p.msg = some x ∧ (pieceDie p).pkg = eng0.at_.pkg ∧ s.routed 0 0 = true ∧
       s.isLost (p.pa / 192) = false ∧ s.pieceWaits p = false ∧ p.poison = false ∧
       (s.writeReady die0 false p.pa p.bytes.length).1 = true ∧ msgLen (eng1 true 96 96).msg ≤ (eng1 true 96 96).sent) ∧
    olderGen 0 (pkgSt { Package.reset with podgen := 1 } 0 false |>.pkg 0).podgen = true := by decide +kernel
/-- A port that runs a stream of two elements, at its first and past its last; a port with one queued. -/
theorem witness_EngineEvents_streams :
    (let pat : List Word := [0x8000, 0x8000000000000000, BitVec.ofNat 64 (2 * 2 ^ 40 + 8), BitVec.ofNat 64 (2 ^ 40), BitVec.ofNat 64 (2 ^ 40),
       BitVec.ofNat 64 (2 ^ 40), 0, 0]
     let x : Stream := ⟨pat, core0, 0, mkTag 0 1 0, mkTag 0 1 0, 0, 0x400004, 0, 0, 0, 0, none, [⟨0, 65536, 0, true, false⟩]⟩
     let s (p : Port) : State := sited { s3 with clusters := [(⟨0, 0, 0⟩, { Cluster.reset with ports := [(1, p)] })] } core0 1 false
     ((s ⟨none, [x]⟩).port ⟨0, 0, 0⟩ 1 = ⟨none, [x]⟩) ∧ ((s ⟨some x, []⟩).port ⟨0, 0, 0⟩ 1).running = some x ∧
       (s ⟨some x, []⟩).actOf? die0 x.btag = some 7 ∧ ((s ⟨some x, []⟩).act 7).curtain = false ∧ x.status = 0 ∧
       x.pos < patTotal x.pat ∧ patTotal x.pat ≤ 2 ∧ ((s ⟨some x, []⟩).core (x.target ⟨0, 0, 0⟩)).scaleQ.length < 1024 ∧ ((s ⟨some x, []⟩).die die0).scaleNet = [] ∧
       patScales x.pat x.pos = [] ∧ s3.routed 0 0 = true ∧ (s ⟨some { x with btag := mkTag 1 1 0 }, []⟩).actOf? die0 (mkTag 1 1 0) = none ∧
       ((s ⟨some x, []⟩).engRuns ⟨0, 0, 0⟩ (portWho ⟨0, 0, 0⟩ 1) x.pages false false (patBytes x.pat + 1) (patAddr x.pat x.pos) (patBytes x.pat)
         []).1.isOk = true) := by decide +kernel
/-- R43: a matrix engine takes no active message; the record is posted and nothing else is to happen. -/
theorem test_inbox_reject :
    (match exec (.engineInboxAccept ⟨.matrix, core0⟩ { copyMsg 96 with sender := ⟨.armed, core0, 0, 0⟩ }) s3 with
    | .next s => decide ((s.cluster ⟨0, 0, 0⟩).copyIn = []) && decide (s.agenda = [])
    | _ => false) = true := by decide +kernel

/-! ## Coherence and directories -/

/-- A line's entry at package 0's directory. -/
def dirE (st : Perm) (t : Option Txn) : DirEntry := ⟨21, st, ⟨0, 1⟩, [], [], t, []⟩
/-- A transaction of die 0. -/
def txn0 (k : TxnKind) : Txn := ⟨k, ⟨21, die0, false, 0⟩, 1, true, false, false, [], false⟩
/-- Package 0 with that entry, die 0 with a copy of the line. -/
def cohSt (es : List DirEntry) (ls : List Line) (flag : Bool) : State :=
  sited { s3 with
    packages := [(0, { Package.reset with dir := es })], dies := [(die0, { Die.reset with colours := [(0, 7)], lines := ls })] } core0 21 flag
theorem witness_CoherenceEvents :
    (let s := cohSt [dirE .m none] [] false
     s.isLost 21 = false ∧ olderGen 0 (s.pkg 0).podgen = false ∧ (s.pkg (s.dirOf 21)).dirUp = true ∧ s.coarseFor die0 21 = false ∧
       s.entry? 0 21 = some (dirE .m none) ∧ (s.pkg 0).openTxns < 8192 ∧ (cohSt [] [] false).entry? 0 21 = none ∧
       ((s.pkg 0).dir.filter fun e => decide (dirSet e.line = dirSet 21)).length < 16) ∧
    (cohSt [dirE .s (some (txn0 .getx))] [] false).entry? 0 21 = some (dirE .s (some (txn0 .getx))) ∧
    ({ s3 with packages := [(0, { Package.reset with lost := true })] } : State).isLost 21 = true ∧
    olderGen 0 1 = true ∧ olderGen 1 1 = false ∧
    ({ s3 with packages := [(0, { Package.reset with coarse := [regionOf 21] })] } : State).coarseFor ⟨1, 0⟩ 21 = true ∧
    (∀ y ∈ [line21 .m none false false, line21 .m none false true, line21 .i (some .getx) false false, line21 .s (some .gets) false false,
        line21 .o none true false],
      ((cohSt [] [y] false).die die0).line? 21 = some y) ∧
    (∀ k ∈ [TxnKind.gets, .getx, .recall, .putm],
      (cohSt [dirE .s (some (txn0 k))] [] true).entry? 0 21 = some (dirE .s (some (txn0 k))) ∧ (txn0 k).opened = true) := by decide +kernel
/-- A full set and a full table of transactions; a request that waits for the line; the home's copy clean, dirty and none; requests of the home
die and of another; each state of an entry whose transaction opens; a copy a coarse region's die still shares. -/
theorem witness_CoherenceEvents_more :
    (let es := (List.range 16).map fun i => { dirE .s none with line := 2 ^ 20 * (i + 1) + (21 ^^^ (i + 1)) }
     16 ≤ (es.filter fun e => decide (dirSet e.line = dirSet 21)).length ∧ (cohSt es [] false).entry? 0 21 = none) ∧
    (let s : State := { s3 with packages := [(0, { Package.reset with waitQ := [.event (.gets ⟨21, ⟨0, 1⟩, true, 0⟩) Site.zero] })] }
     (s.pkg 0).waitQ.map Item.reqLine = [some 21] ∧ (⟨0, 1⟩ : DieId) ≠ homeDie 21 ∧ die0 = homeDie 21) ∧
    (cohSt [] [line21 .m none false false] false).homeHolds 21 = some false ∧
    (cohSt [] [{ line21 .m none false false with sectors := List.replicate 4 ⟨true, true, false, none⟩ }] false).homeHolds 21 = some true ∧
    (cohSt [] [] false).homeHolds 21 = none ∧ (cohSt [] [line21 .s none false false] false).stillShares die0 21 = true ∧
    (∀ st ∈ [Perm.i, .s, .o, .e, .m], ∀ k ∈ [TxnKind.gets, .getx, .recall, .putm],
      (cohSt [dirE st (some { txn0 k with opened := false })] [] false).entry? 0 21 =
        some (dirE st (some { txn0 k with opened := false }))) ∧
    (dirE .m none).recallsOwner false = true ∧ (dirE .s none).recallsOwner false = false ∧ (txn0 .getx).acks ≠ 0 ∧
    ({ line21 .s none true false with leaving := true } : Line).away = true ∧ (line21 .i (some .gets) false false).dropIt = false := by
  decide +kernel
/-- As many open transactions as the directory has slots. -/
theorem witness_CoherenceEvents_slots :
    8192 ≤ ({ Package.reset with dir := List.replicate 8192 (dirE .s (some (txn0 .gets))) } : Package).openTxns := by
  have h : (dirE .s (some (txn0 .gets))).txn.isSome = true := rfl
  rw [Package.openTxns, List.filter_replicate, if_pos h, List.length_replicate]
/-- R364: GETS of a line with no entry at an idle directory opens one transaction. -/
theorem test_gets_opens : (match exec (.gets ⟨21, ⟨0, 1⟩, false, 0⟩) (cohSt [] [] false) with
    | .next s => decide (((s.pkg 0).dir.map fun e => (e.line, e.txn.isSome)) = [(21, true)])
    | _ => false) = true := by decide +kernel
/-- R367: an invalidation gives up the copy and is acknowledged. -/
theorem test_invalidation : (match exec (.invalidation 0 21 die0 false) (cohSt [] [line21 .s none false false] false) with
    | .next s => decide (s.agenda = [.event (.invalidationAck 0 21 die0 false) Site.zero]) && decide (((s.die die0).line? 21).all fun y => y.perm = .i)
    | _ => false) = true := by decide +kernel

/-- Packages 0 and 1 as given, joined by links of version 2.0, closing or not; package 0's map names 1 as its mirror. -/
def dirSt (x y : Package) (closing : Bool) : State :=
  let up : LinkSt := { LinkSt.reset with ver := 0x0200, closing := closing }
  sited { s3 with
    packages := [(0, { x with dirmap := 0x9000, links := [(1, up)] }), (1, { y with links := [(0, up)] })],
    mem := cells [(0x9000, 8, 2 ^ 58)] } ⟨1, 0, 0, 0⟩ 0 false
/-- A directory with a mirror and without; taken over; acted for; LOST; one on which requests wait, in time and for too long; channels. -/
theorem witness_DirectoryEvents :
    (let s := dirSt Package.reset Package.reset false
     s.mirrorOf 0 = some 1 ∧ (s.pkg 0).dirUp = true ∧ (s.pkg 0).acting = [] ∧ (s.pkg 1).dirUp = true ∧ s3.mirrorOf 0 = none ∧
       (s.pkg 0).waiting = false ∧ 0 ∈ s.domain 1 ∧ (s.link 1 0).closing = false ∧ (s.link 1 0).retired = false) ∧
    (let s := dirSt { Package.reset with dirUp := false } Package.reset false
     (s.pkg 0).dirUp = false ∧ (s.pkg 0).lost = false ∧ (s.pkg 1).dirUp = true ∧
       (s.packages.find? fun x => decide (0 ∈ x.2.acting)) = none) ∧
    (let s := dirSt { Package.reset with lost := true } { Package.reset with dirUp := false } false
     (s.pkg 0).lost = true ∧ (s.pkg 1).dirUp = false) ∧
    (let s := dirSt { Package.reset with dirUp := false } { Package.reset with acting := [0] } false
     (s.packages.find? fun x => decide (0 ∈ x.2.acting)).isSome = true) ∧
    (let s := dirSt { Package.reset with dir := [{ dirE .s (some (txn0 .gets)) with queue := [.issue core0] }] } Package.reset false
     (s.pkg 0).waiting = true ∧ s.now < (s.pkg 0).progress + 20000 ∧
       (s.pkg 0).progress + 20000 ≤ ({ s with now := 20000 } : State).now) ∧
    (let s := dirSt Package.reset Package.reset true
     (s.link 1 0).closing = true) := by decide +kernel
/-- A token and a piece under an older generation, on their way and accepted. -/
theorem witness_generations :
    (let s := { dirSt { Package.reset with podgen := 1 } Package.reset false with site := ⟨core0, 0, 0, true⟩ }
     olderGen (BitVec.ofNat 16 s.site.n) (s.pkg 0).podgen = true ∧ s.joined 1 0 = true ∧ s.routed 1 0 = true) ∧
    (let p := { (eng1 true 96 0).piece eng0 0x8000 false (some 0xFFFF) with taken := true }
     let s := { dirSt Package.reset Package.reset true with agenda := [.event (.copyPieceArrival p) Site.zero] }
     s.olderOut eng0 0 = true ∧ s.olderTaken = true ∧ p.gen = some 0xFFFF ∧ olderGen 0xFFFF (s.pkg (pieceDie p).pkg).podgen = true ∧
       (dirSt Package.reset Package.reset true).olderTaken = false) := by decide +kernel
/-- Every region's count in an empty map stands as the package counts it. -/
theorem witness_DirectoryEvents_window : (s3.pkg 0).coarse = [] ∧
    (∀ r < 512, s3.dirMapWord 0 (regionWord r 1) % 2 ^ 32 = Assoc.getD (s3.pkg 0).recalls r 0) := by decide +kernel
/-- R377: a closing channel raises the map generation of every package by one. -/
theorem test_closing : (match exec .channelClosing (dirSt Package.reset Package.reset false) with
    | .next s => decide ((s.pkg 0).podgen = 1) && decide ((s.pkg 1).podgen = 1) && (s.link 1 0).closing
    | _ => false) = true := by decide +kernel

/-! ## Frames and reset -/

theorem witness_RegisterFrames : s3.AllScalar okAdd ∧ fires s3 Forms.add okAdd = true ∧ s3.mem.wf = true ∧ s3.isHbm (sharedPa ⟨0, 0, 0⟩ 0) = false ∧
    (match exec (.add okAdd) s3 with | .next _ => true | _ => false) = true := ⟨witness_AllScalar okAdd, by decide +kernel⟩
/-- Reset meets the invariant, and a state with something listed and to happen meets it and steps. -/
theorem witness_StepKeepsMemoryForm : State.reset.memOk = true ∧
    (let s : State := { launchSt with
       agenda := [.event (.hostAccess 0 .next) Site.zero],
       dies := [(die0, { Die.reset with lines := [{ line21 .m none false false with line := 0 }] })],
       packages := [(0, { Package.reset with
         stage := 5, links := [(64, { LinkSt.reset with ver := 0x0200 })], hostQ := [.write 0x40 [1, 0, 2]] })] }
     s.memOk = true ∧ (match step s with | .next t => t.memOk && decide (t.peek die0 0x40 3 = [1, 0, 2]) | _ => false) = true) := by decide +kernel
end Sys2Proof.Tests
end

section
/-! What one step does (R19, R92, R142, R144, R145, R438): what is next, and what becomes of it. -/

namespace Sys2Proof.Proofs.Step

open Sys2Proof Sys2Proof.Machine

/-! ## What is next -/

/-- Items that their islands hold back are passed over; the first that is not is next, and the others keep their order. -/
theorem nextItem_passes_halted {s : State} {it : Item} {post : List Item} (hit : s.halted it = false) :
    ∀ {pre : List Item}, (∀ y ∈ pre, s.halted y = true) → s.nextItem (pre ++ it :: post) = some (it, pre ++ post)
  | [], _ => by simp [State.nextItem, hit]
  | y :: pre, h => by
    have hy : s.halted y = true := h y List.mem_cons_self
    have ih := nextItem_passes_halted hit (post := post) fun z hz => h z (List.mem_cons_of_mem y hz)
    simp [State.nextItem, hy, ih]

theorem nextItem_all_halted {s : State} : ∀ {its : List Item}, (∀ y ∈ its, s.halted y = true) → s.nextItem its = none
  | [], _ => rfl
  | y :: its, h => by
    have hy : s.halted y = true := h y List.mem_cons_self
    have ih := nextItem_all_halted fun z hz => h z (List.mem_cons_of_mem y hz)
    simp [State.nextItem, hy, ih]

/-- A timer that may fire: its time has come and its island does not stand still (R19). -/
def Ready (s : State) (y : Timer) : Prop := y.due ≤ s.now ∧ s.halted (.event y.instr y.site) = false

theorem dueTimer_cons_ready {s : State} {y : Timer} (h : Ready s y) (ts : List Timer) : s.dueTimer (y :: ts) = some (y, ts) := by
  obtain ⟨hdue, hrun⟩ := h
  simp [State.dueTimer, hdue, hrun]

theorem dueTimer_cons_not_ready {s : State} {y : Timer} (h : ¬ Ready s y) (ts : List Timer) :
    s.dueTimer (y :: ts) = (s.dueTimer ts).map fun x => (x.1, y :: x.2) := by
  have hn : ¬ (y.due ≤ s.now ∧ (!s.halted (.event y.instr y.site)) = true) := by simpa [Ready] using h
  rw [State.dueTimer, if_neg hn]
  cases s.dueTimer ts <;> rfl

theorem dueTimer_passes_not_ready {s : State} {y : Timer} {post : List Timer} (hy : Ready s y) :
    ∀ {pre : List Timer}, (∀ z ∈ pre, ¬ Ready s z) → s.dueTimer (pre ++ y :: post) = some (y, pre ++ post)
  | [], _ => dueTimer_cons_ready hy post
  | z :: pre, h => by
    have ih := dueTimer_passes_not_ready hy (post := post) fun x hx => h x (List.mem_cons_of_mem z hx)
    rw [List.cons_append, dueTimer_cons_not_ready (h z List.mem_cons_self), ih]
    rfl

theorem dueTimer_none_ready {s : State} : ∀ {ts : List Timer}, (∀ y ∈ ts, ¬ Ready s y) → s.dueTimer ts = none
  | [], _ => rfl
  | y :: ts, h => by
    rw [dueTimer_cons_not_ready (h y List.mem_cons_self), dueTimer_none_ready fun z hz => h z (List.mem_cons_of_mem y hz)]
    rfl

/-! ## Islands (R19, R115, R438) -/

theorem lostItem_eq {s : State} {it : Item} {p i : Nat} (h : s.itemIsland it = some (p, i)) : s.lostItem it = (s.pkg p).stopped := by
  simp only [State.lostItem, h]

theorem halted_of_stopped_island {s : State} {it : Item} {p i : Nat} (h : s.itemIsland it = some (p, i))
    (hp : (s.pkg p).stopped = false) (hi : (s.island p i).stopped = true) : s.halted it = true := by
  simp [State.halted, h, hp, hi]

theorem not_halted_of_runs {s : State} {it : Item} {p i : Nat} (h : s.itemIsland it = some (p, i)) (hi : (s.island p i).stopped = false)
    (hc : ∀ c : CoreId, it = .issue c → (s.core c).power ≠ .gated) : s.halted it = false := by
  cases it with
  | issue c => simp [State.halted, h, hi, hc c rfl]
  | event i x => simp [State.halted, h, hi]

/-! ## What a step does with it -/

theorem step_timer {s : State} {y : Timer} {ts : List Timer} (h : s.tick.dueTimer s.tick.timers = some (y, ts)) :
    step s = happen (.event y.instr y.site) { s.tick with timers := ts } := by
  simp only [step, h]

theorem step_item {s : State} {it : Item} {rest : List Item} (ht : s.tick.dueTimer s.tick.timers = none)
    (h : s.tick.nextItem s.tick.agenda = some (it, rest)) : step s = happen it { s.tick with agenda := rest } := by
  simp only [step, ht, h]

theorem step_idle {s : State} (ht : s.tick.dueTimer s.tick.timers = none) (h : s.tick.nextItem s.tick.agenda = none) :
    step s = .next s.tick := by
  simp only [step, ht, h]

/-- An event between parties of the pod is performed at its site. -/
theorem happen_event {s : State} {i : Instr} {x : Site} (hi : i.partiesOk s.podSize = true) (hx : x.core.exists_ s.podSize = true)
    (hl : s.lostItem (.event i x) = false) : happen (.event i x) s = exec i { s with site := x } := by
  simp [happen, Item.partiesOk, hi, hx, hl]

theorem happen_lost {s : State} {it : Item} (hp : it.partiesOk s.podSize = true) (hl : s.lostItem it = true) :
    happen it s = .next s := by
  simp [happen, hp, hl]

theorem happen_issue {s : State} {c : CoreId} (hc : c.exists_ s.podSize = true) (hp : (s.pkg c.pkg).stopped = false) :
    happen (.issue c) s = issue c s := by
  have hl : s.lostItem (.issue c) = false := by rw [lostItem_eq (p := c.pkg) rfl, hp]
  simp [happen, Item.partiesOk, hc, hl]

/-- The state in which the firing f, taken from the head of a core's queue q, issues under its record w (R142, R144, R145). -/
def issuing (s : State) (c : CoreId) (f : Firing) (q : List Firing) (w : BitVec 96) : State :=
  ({ ((s.modCore c fun k => { k with ready := q }).refillSoon c) with cur := f }).constRead w

theorem fetch_ready {s : State} {c : CoreId} {f : Firing} {q : List Firing} (h : (s.core c).ready = f :: q) :
    s.fetch c = some (decodeWord (s.recordAt c f.node), issuing s c f q (s.recordAt c f.node)) := by
  simp only [State.fetch, h, issuing]

theorem issue_decoded {s : State} {c : CoreId} {f : Firing} {q : List Firing} {i : Instr} (h : (s.core c).ready = f :: q)
    (hi : decodeWord (s.recordAt c f.node) = some i) : issue c s = exec i (issuing s c f q (s.recordAt c f.node)) := by
  simp only [issue, fetch_ready h, hi]

theorem issue_reserved {s : State} {c : CoreId} {f : Firing} {q : List Firing} (h : (s.core c).ready = f :: q)
    (hi : decodeWord (s.recordAt c f.node) = none) :
    issue c s = .next ((issuing s c f q (s.recordAt c f.node)).faultCur { cause := .illegalRecord }) := by
  simp only [issue, fetch_ready h, hi]

/-- An event between parties of the pod is performed at its site, or lost with its package (R438). -/
theorem happen_event_cases {s : State} {i : Instr} {x : Site} (hi : i.partiesOk s.podSize = true)
    (hx : x.core.exists_ s.podSize = true) :
    (s.lostItem (.event i x) = false → happen (.event i x) s = exec i { s with site := x }) ∧
      (s.lostItem (.event i x) = true → happen (.event i x) s = .next s) :=
  ⟨happen_event hi hx, happen_lost (by simp [Item.partiesOk, hi, hx])⟩

theorem step_issue {s : State} {c : CoreId} {rest : List Item} (ht : s.tick.dueTimer s.tick.timers = none)
    (hn : s.tick.nextItem s.tick.agenda = some (.issue c, rest)) (hc : c.exists_ s.podSize = true) (hp : (s.pkg c.pkg).stopped = false) :
    step s = issue c { s.tick with agenda := rest } :=
  (step_item ht hn).trans (happen_issue hc hp)

/-- Settles O4, from the equations of `step`, `happen` and `issue` above, and by induction on the agenda and on the timers. -/
theorem stepRuns : Obligations.StepRuns := by
  unfold Obligations.StepRuns
  refine ⟨?issues, ?performs, ?idles, ?next⟩
  case issues =>
    intro s c rest f q t ht hn hc hp hq w s₁
    have hs := step_issue ht hn hc hp
    exact ⟨fun i hi => hs.trans (issue_decoded hq hi), fun hi => hs.trans (issue_reserved hq hi)⟩
  case performs =>
    intro s i x t hi hx
    refine ⟨fun due ts ht => ?_, fun rest ht hn => ?_⟩
    · rw [step_timer ht]
      exact happen_event_cases (s := { t with timers := ts }) hi hx
    · rw [step_item ht hn]
      exact happen_event_cases (s := { t with agenda := rest }) hi hx
  case idles => exact fun s ht hn => step_idle ht hn
  case next =>
    refine fun s its ts => ⟨?_, nextItem_all_halted, ⟨?_, dueTimer_none_ready⟩, fun it p i h => ⟨?_, ?_, fun _ => ?_⟩⟩
    · rintro pre post it rfl hpre hit
      exact nextItem_passes_halted hit hpre
    · rintro pre post y rfl hpre hy
      exact dueTimer_passes_not_ready hy hpre
    · rw [lostItem_eq h]
    · exact halted_of_stopped_island h
    · exact not_halted_of_runs h

end Sys2Proof.Proofs.Step
end

section
/-! The system group (R189 to R198): what each record of it does once it passes its checks, register by register. -/

namespace Sys2Proof.Proofs.System

open Sys2Proof Sys2Proof.Machine

/-! ## A firing whose operands are scalars (R152) -/

/-- What a record of all-scalar operands does: its effect under the result tag, once the operands have passed. -/
theorem fire_scalars_ok {f : Form} {r : Rec} {s s₁ s₂ : State} {t : Word} {eff : Word → State → Eff} (h : Fires f r s t s₁)
    (ha : s.AllScalar r) (he : eff t s₁ = .ok s₂) : (fire f r s fun t s => do s.scalars r; eff t s) = .next s₂ :=
  fire_ok h (by rw [h.scalars ha]; exact he)

theorem fire_scalars_error {f : Form} {r : Rec} {s s₁ : State} {t : Word} {x : Flt} {eff : Word → State → Eff} (h : Fires f r s t s₁)
    (ha : s.AllScalar r) (he : eff t s₁ = .error x) : (fire f r s fun t s => do s.scalars r; eff t s) = .next (s.faultCur x) :=
  fire_error h (by rw [h.scalars ha]; exact he)

/-! ## TRAP and BRK (R190) -/

theorem trap_faults {r : Rec} {s s₁ : State} {t : Word} (h : Fires Forms.trap r s t s₁) (ha : s.AllScalar r) :
    exec (.trap r) s = .next (s.faultCur { cause := .trap, info := s.cur.op0.val, aux := r.lit.toNat }) := by
  rw [← h.cur]; exact fire_scalars_error h ha rfl

theorem brk_faults {r : Rec} {s s₁ : State} {t : Word} (h : Fires Forms.brk r s t s₁) (ha : s.AllScalar r) :
    exec (.brk r) s = .next (s.faultCur { cause := .break_, info := s.cur.op0.val }) := by
  rw [← h.cur]; exact fire_scalars_error h ha rfl

/-! ## SYSRD (R191, R192) -/

theorem sysrd_sends {r : Rec} {s s₁ : State} {t w : Word} (h : Fires Forms.sysrd r s t s₁) (ha : s.AllScalar r)
    (hw : s₁.sysReg r.lit.toNat = some w) : exec (.sysrd r) s = .next (s₁.out r t (plainOp w)) :=
  fire_scalars_ok h ha (by simp only [hw])

theorem sysrd_refuses {r : Rec} {s s₁ : State} {t : Word} (h : Fires Forms.sysrd r s t s₁) (ha : s.AllScalar r)
    (hw : s₁.sysReg r.lit.toNat = none) : exec (.sysrd r) s = .next (s.faultCur { cause := .illegalRecord }) :=
  fire_scalars_error h ha (by simp only [hw])

/-- The registers of one word each that SYSRD sends, `CORE.ID` apart. -/
def wordRegs (s : State) : List (Nat × Word) :=
  let k := s.core s.cur.core
  [(0x001, k.phase), (0x012, k.wingCfg), (0x020, k.spill.setWidth 64), (0x021, k.probe.setWidth 64), (0x022, k.backlog.setWidth 64),
    (0x023, (s.holdCount s.cur.core).setWidth 64), (0x024, k.dup.setWidth 64), (0x025, k.nulls.setWidth 64), (0x026, k.vstat),
    (0x040, s.curAct.ctrl.setWidth 64), (0x041, s.curAct.flags.setWidth 64), (0x042, s.curAct.rng),
    (0x043, (colourOf s.cur.tag).setWidth 64), (0x080, BitVec.ofNat 64 (s.devBoot s.cur.core.pkg))]

theorem sysReg_wordRegs (s : State) : ∀ p ∈ wordRegs s, s.sysReg p.1 = some p.2 := by
  simp [wordRegs, State.sysReg]

theorem sysReg_coreId (s : State) : s.sysReg 0 = some (coreIdWord s.cur.core) := rfl

theorem sysReg_phmask0 (s : State) {i : Nat} (hi : i < 8) :
    s.sysReg (0x002 + i) = some ((s.core s.cur.core).phmask0.extractLsb' (64 * i) 64) := by
  have hr : 0x002 ≤ 0x002 + i ∧ 0x002 + i ≤ 0x009 := by omega
  simp only [State.sysReg]
  rw [if_neg (by omega), if_neg (by omega), if_pos hr, Nat.add_sub_cancel_left, maskWord]

theorem sysReg_phmask1 (s : State) {i : Nat} (hi : i < 8) :
    s.sysReg (0x00A + i) = some ((s.core s.cur.core).phmask1.extractLsb' (64 * i) 64) := by
  have hr : 0x00A ≤ 0x00A + i ∧ 0x00A + i ≤ 0x011 := by omega
  simp only [State.sysReg]
  rw [if_neg (by omega), if_neg (by omega), if_neg (by omega), if_pos hr, Nat.add_sub_cancel_left, maskWord]

/-- An index that R191 does not give names no register. -/
theorem sysReg_unlisted (s : State) {i : Nat}
    (hi : i ∉ List.range 0x13 ++ [0x020, 0x021, 0x022, 0x023, 0x024, 0x025, 0x026, 0x040, 0x041, 0x042, 0x043, 0x080]) :
    s.sysReg i = none := by
  simp only [List.mem_append, List.mem_range, List.mem_cons, List.not_mem_nil, or_false, not_or] at hi
  simp only [State.sysReg]
  repeat rw [if_neg (by omega)]

theorem coreField_eq {c : CoreId} : coreField c = if c.core < 192 then c.core else c.core - 192 := by
  by_cases h : c.core < 192
  · simp [coreField, CoreId.isCtl, h]
  · simp [coreField, CoreId.isCtl, h]

/-- `CORE.ID` as the sum of its fields at their places (R192). -/
theorem coreIdWord_toNat {c : CoreId} (hc : c.core < 194) :
    (coreIdWord c).toNat =
      b2n c.isCtl * 2 ^ 19 + c.pkg % 64 * 2 ^ 13 + c.die % 4 * 2 ^ 11 + c.clu % 8 * 2 ^ 8 + coreField c := by
  have hf : coreField c < 256 := by rw [coreField_eq]; split <;> omega
  have hb : b2n c.isCtl ≤ 1 := by unfold b2n; split <;> omega
  simp only [coreIdWord, putBits, Nat.shiftLeft_eq, BitVec.toNat_ofNat, Nat.mod_eq_of_lt hf]
  exact Nat.mod_eq_of_lt (by omega)

/-- The fields of `CORE.ID` (R192). -/
theorem coreIdWord_fields {c : CoreId} (hc : c.core < 194) :
    ((coreIdWord c).extractLsb' 0 8).toNat = (if c.core < 192 then c.core else c.core - 192) ∧
      ((coreIdWord c).extractLsb' 8 3).toNat = c.clu % 8 ∧ ((coreIdWord c).extractLsb' 11 2).toNat = c.die % 4 ∧
      ((coreIdWord c).extractLsb' 13 6).toNat = c.pkg % 64 ∧ (coreIdWord c).getLsbD 19 = decide (192 ≤ c.core) := by
  have hw := coreIdWord_toNat hc
  have hf : coreField c < 256 := by rw [coreField_eq]; split <;> omega
  have hb : b2n c.isCtl = if 192 ≤ c.core then 1 else 0 := by simp [b2n, CoreId.isCtl]
  rw [← coreField_eq]
  simp only [BitVec.extractLsb'_toNat, BitVec.getLsbD, Nat.testBit_eq_decide_div_mod_eq, Nat.shiftRight_eq_div_pow, hw]
  refine ⟨by omega, by omega, by omega, by omega, ?_⟩
  rw [decide_eq_decide, hb]
  split <;> omega

/-! ## SYSWR (R191) -/

/-- SYSWR writes its register, which leaves the firing that issues as it is, and sends $0. -/
theorem syswr_writes {r : Rec} {s s₁ s₂ : State} {t : Word} (h : Fires Forms.syswr r s t s₁) (ha : s.AllScalar r)
    (hw : s₁.setSysReg r.lit.toNat s.cur.op0.val = .ok s₂) (hc : s₂.cur = s₁.cur) :
    exec (.syswr r) s = .next (s₂.out r t (plainOp s.cur.op0.val)) :=
  fire_scalars_ok h ha (by simp only [h.cur, hw, bind, Except.bind, hc])

theorem syswr_refuses {r : Rec} {s s₁ : State} {t : Word} {x : Flt} (h : Fires Forms.syswr r s t s₁) (ha : s.AllScalar r)
    (hw : s₁.setSysReg r.lit.toNat s.cur.op0.val = .error x) : exec (.syswr r) s = .next (s.faultCur x) :=
  fire_scalars_error h ha (by simp only [h.cur, hw]; rfl)

/-- The counters and the vector status of a core, each with the core that writing it leaves: it returns to 0 (R191). -/
def clearedRegs (s : State) : List (Nat × Core) :=
  let c := s.cur.core
  let k := s.core c
  [(0x020, { k with spill := 0 }), (0x021, { k with probe := 0 }), (0x022, { k with backlog := 0 }),
    (0x023, { k with hold := 0, holdAt := k.holdAt.map fun x => (x.1, s.coreCycles c) }), (0x024, { k with dup := 0 }),
    (0x025, { k with nulls := 0 }), (0x026, { k with vstat := 0 })]

theorem setSysReg_clearedRegs (s : State) (v : Word) :
    ∀ p ∈ clearedRegs s, s.setSysReg p.1 v = .ok (s.setCore s.cur.core p.2) := by
  simp [clearedRegs, State.setSysReg]

theorem setSysReg_phase (s : State) (v : Word) : s.setSysReg 0x001 v =
    .ok ((s.setCore s.cur.core { s.core s.cur.core with phase := v &&& 3 }).laterAt .backlogRefill s.cur.core 0) := rfl

theorem setSysReg_wingCfg (s : State) (v : Word) : s.setSysReg 0x012 v =
    .ok (s.setCore s.cur.core { s.core s.cur.core with wingCfg := v &&& 0x7FFFFFFFFFFFFFFF }) := rfl

theorem setSysReg_phmask0 (s : State) (v : Word) {i : Nat} (hi : i < 8) : s.setSysReg (0x002 + i) v =
    .ok ((s.setCore s.cur.core { s.core s.cur.core with phmask0 := setMaskWord (s.core s.cur.core).phmask0 i v }).laterAt
      .backlogRefill s.cur.core 0) := by
  have hr : 0x002 ≤ 0x002 + i ∧ 0x002 + i ≤ 0x009 := by omega
  simp only [State.setSysReg]
  rw [if_neg (by omega), if_pos hr, Nat.add_sub_cancel_left]

theorem setSysReg_phmask1 (s : State) (v : Word) {i : Nat} (hi : i < 8) : s.setSysReg (0x00A + i) v =
    .ok ((s.setCore s.cur.core { s.core s.cur.core with phmask1 := setMaskWord (s.core s.cur.core).phmask1 i v }).laterAt
      .backlogRefill s.cur.core 0) := by
  have hr : 0x00A ≤ 0x00A + i ∧ 0x00A + i ≤ 0x011 := by omega
  simp only [State.setSysReg]
  rw [if_neg (by omega), if_neg (by omega), if_pos hr, Nat.add_sub_cancel_left]

theorem setSysReg_ctrl (s : State) {v : Word} (hv : v.toNat % 8 ≤ 5) :
    s.setSysReg 0x040 v = .ok (s.modCurAct fun a => { a with ctrl := v.setWidth 32 &&& 0x107 }) :=
  if_neg (by omega)

/-- A rounding code 6 or 7 is refused (R65). -/
theorem setSysReg_ctrl_refused (s : State) {v : Word} (hv : 6 ≤ v.toNat % 8) :
    s.setSysReg 0x040 v = .error { cause := .illegalRecord } :=
  if_pos hv

theorem setSysReg_flags (s : State) (v : Word) :
    s.setSysReg 0x041 v = .ok (s.modCurAct fun a => { a with flags := v.setWidth 32 &&& 0x3FF }) := rfl

theorem setSysReg_rng (s : State) (v : Word) : s.setSysReg 0x042 v = .ok (s.modCurAct fun a => { a with rng := v }) := rfl

/-- An index that R191 does not give, or gives to be read only, is refused. -/
theorem setSysReg_unlisted (s : State) (v : Word) {i : Nat}
    (hi : i ∉ (List.range 0x13).drop 1 ++ [0x020, 0x021, 0x022, 0x023, 0x024, 0x025, 0x026, 0x040, 0x041, 0x042]) :
    s.setSysReg i v = .error { cause := .illegalRecord } := by
  have hd : (List.range 0x13).drop 1 = List.range' 1 0x12 := by decide
  simp only [hd, List.mem_append, List.mem_range'_1, List.mem_cons, List.not_mem_nil, or_false, not_or] at hi
  simp only [State.setSysReg]
  repeat rw [if_neg (by omega)]

/-! ## TIME and EVGET (R193, R197) -/

theorem time_answers {r : Rec} {s s₁ : State} {t : Word} (h : Fires Forms.time r s t s₁) (ha : s.AllScalar r) :
    exec (.time r) s = .next (s₁.out r t (plainOp (BitVec.ofNat 64
      (if r.sub.toNat = 0 then s₁.time s.cur.core.pkg else s₁.ownCycles s.cur.core)))) := by
  rw [← h.cur]; exact fire_scalars_ok h ha rfl

section
variable {r : Rec} {s s₁ : State} {t : Word} {va key : Nat}

/-- EVGET of an empty queue sends 0. -/
theorem evget_empty (h : Fires Forms.evget r s t s₁) (ha : s.AllScalar r) (hva : s₁.padAddr s.cur.op0.val 32 = .ok va)
    (hm : checkMultiple va 32 = .ok ()) (hq : ((s₁.cluster s.cur.core.cluId).queues.getD r.sub.toNat Queue.reset).take = none) :
    exec (.evget r) s = .next (s₁.out r t (plainOp (BitVec.ofNat 64 0))) := by
  rw [← h.cur] at hva hq
  exact fire_scalars_ok h ha (by simp only [hva, hm, hq, bind, Except.bind]; rfl)

/-- EVGET moves a queue's oldest record into the scratchpad and sends 1. -/
theorem evget_moves {ws : List Word} {q : Queue} (h : Fires Forms.evget r s t s₁) (ha : s.AllScalar r)
    (hva : s₁.padAddr s.cur.op0.val 32 = .ok va) (hm : checkMultiple va 32 = .ok ()) (hk : nearKey s.cur.core va 32 = some key)
    (hq : ((s₁.cluster s.cur.core.cluId).queues.getD r.sub.toNat Queue.reset).take = some (ws, q)) :
    let x := s₁.cluster s.cur.core.cluId
    let s₂ := s₁.setCluster s.cur.core.cluId { x with queues := setAt x.queues r.sub.toNat q }
    exec (.evget r) s = .next ((s₂.keyWrite s.cur.core false key
      (ws.flatMap fun w => leBytes 8 w.toNat) (some (colourOf s.cur.tag))).out r t (plainOp (BitVec.ofNat 64 1))) := by
  rw [← h.cur] at hva hq hk ⊢
  exact fire_scalars_ok h ha (by simp only [hva, hm, hq, hk, bind, Except.bind]; rfl)
end

/-! ## LAUNCH (R194) -/

section
variable {r : Rec} {s s₁ : State} {t : Word} {ws : List Word}

theorem launch_bad_message {f : Flt} (h : Fires Forms.launch r s t s₁) (ha : s.AllScalar r)
    (hm : s₁.messageAt s.cur.op0.val = .error f) : exec (.launch r) s = .next (s.faultCur f) := by
  rw [← h.cur] at hm
  exact fire_scalars_error h ha (by simp only [hm, bind, Except.bind])

theorem launch_no_control (h : Fires Forms.launch r s t s₁) (ha : s.AllScalar r) (hm : s₁.messageAt s.cur.op0.val = .ok ws)
    (hc : ctlOf s.cur.op1.val = none) : exec (.launch r) s = .next (s.faultCur { cause := .illegalRecord }) := by
  rw [← h.cur] at hm hc
  exact fire_scalars_error h ha (by simp only [hm, hc, bind, Except.bind])

theorem launch_no_core {to_ : CoreId} (h : Fires Forms.launch r s t s₁) (ha : s.AllScalar r)
    (hm : s₁.messageAt s.cur.op0.val = .ok ws) (hc : ctlOf s.cur.op1.val = some to_) (hx : s₁.isCore to_ = false) :
    exec (.launch r) s = .next (s.faultCur { cause := .illegalRecord }) := by
  rw [← h.cur] at hm hc
  exact fire_scalars_error h ha (by simp only [hm, hc, hx, bind, Except.bind]; rfl)

/-- Holding a firing's tokens back leaves the firing as it is. -/
theorem heldTokens_cur (s : State) (r : Rec) (t : Word) (o : Operand) (reply : Bool) : (s.heldTokens r t o reply).2.cur = s.cur := by
  unfold State.heldTokens
  refine List.foldlRecOn (motive := fun x : List Item × State => x.2.cur = s.cur) _ _ rfl fun x hx d _ => ?_
  split <;> exact hx

/-- The message, and the reply after it, wait behind a release of cluster scope (R194, R348). -/
theorem launch_sends {to_ : CoreId} (h : Fires Forms.launch r s t s₁) (ha : s.AllScalar r)
    (hm : s₁.messageAt s.cur.op0.val = .ok ws) (hc : ctlOf s.cur.op1.val = some to_) (hx : s₁.isCore to_ = true) :
    let m : Msg := ⟨ws, ⟨.launch, s.cur.core, s.cur.node, s.cur.tag⟩, false, []⟩
    let x := s₁.heldTokens r t (plainOp 0)
    exec (.launch r) s = .next (x.2.startRelease s.cur.core (colourOf s.cur.tag) 2 false
      (.event (.engineInboxAccept (launchTarget to_ m) m) Site.zero :: x.1)) := by
  rw [← h.cur] at hm hc ⊢
  exact fire_scalars_ok h ha (by simp only [hm, hc, hx, bind, Except.bind, heldTokens_cur]; rfl)
end

/-! ## CFGINST (R195) -/

section
variable {r : Rec} {s s₁ : State} {t : Word} {x : Image}

/-- The image that the package of the firing's core holds at $0. -/
def imageAt (s : State) : Option Image := (s.pkg s.cur.core.pkg).images.find? fun x => decide (x.pa = s.cur.op0.val.toNat)

theorem cfginst_no_image (h : Fires Forms.cfginst r s t s₁) (ha : s.AllScalar r) (hi : imageAt s₁ = none) :
    exec (.cfginst r) s = .next (s₁.out r t (plainOp (BitVec.ofNat 64 2))) :=
  fire_scalars_ok h ha (by unfold imageAt at hi; simp only [hi])

theorem cfginst_elsewhere (h : Fires Forms.cfginst r s t s₁) (ha : s.AllScalar r) (hi : imageAt s₁ = some x)
    (he : s.cur.op1.val.getLsbD 63 = false ∨ physClu s.cur.op1.val ≠ s.cur.core.cluId) :
    exec (.cfginst r) s = .next (s₁.out r t (plainOp (BitVec.ofNat 64 3))) := by
  rw [← h.cur] at he
  unfold imageAt at hi
  refine fire_scalars_ok h ha ?_
  simp only [hi]
  rw [if_pos (by simpa using he)]

theorem cfginst_in_use (h : Fires Forms.cfginst r s t s₁) (ha : s.AllScalar r) (hi : imageAt s₁ = some x)
    (he : s.cur.op1.val.getLsbD 63 = true) (hp : physClu s.cur.op1.val = s.cur.core.cluId) (hu : s₁.inUse x s.cur.op1.val = true) :
    exec (.cfginst r) s = .next (s₁.out r t (plainOp (BitVec.ofNat 64 1))) := by
  rw [← h.cur] at he hp hu
  unfold imageAt at hi
  refine fire_scalars_ok h ha ?_
  simp only [hi]
  rw [if_neg (by simp [he, hp]), if_pos hu]

/-- The entries under which an image is resident on package p once e has been installed: e, then those of other clusters (log 77). -/
def entriesWith (s : State) (p : Nat) (x : Image) (e : Word) : List Word :=
  e :: ((s.pkg p).resident.filter fun y => decide (y.image = x.id)).flatMap fun y =>
    y.place.filter fun w => decide (imgClu w ≠ imgClu e)

/-- The image cluster is installed, and its INSTALL is due when the wake and transfer time has passed (R115, R195). -/
theorem cfginst_installs (h : Fires Forms.cfginst r s t s₁) (ha : s.AllScalar r) (hi : imageAt s₁ = some x)
    (he : s.cur.op1.val.getLsbD 63 = true) (hp : physClu s.cur.op1.val = s.cur.core.cluId) (hu : s₁.inUse x s.cur.op1.val = false) :
    let e := s.cur.op1.val
    let due := s₁.now + s₁.installTime x e
    let s₂ : State := { s₁ with free := s₁.free + 1, uid := s₁.uid + 1 }
    let s₃ := s₂.installClu x (entriesWith s₁ s.cur.core.pkg x e) e (49152 * Config.wingAt s₁.free) due
    exec (.cfginst r) s = .next ((s₃.modPkg s.cur.core.pkg fun p =>
      { p with cfgs := p.cfgs ++ [(s₁.uid, s₂.asker r t)] }).at_ due .install ⟨s.cur.core, s₁.uid, 0, true⟩) := by
  rw [← h.cur] at he hp hu ⊢
  unfold imageAt at hi
  refine fire_scalars_ok h ha ?_
  simp only [hi]
  rw [if_neg (by simp [he, hp]), if_neg (by simp [hu])]
  rfl
end

/-! ## PROMPT (R198) -/

theorem memFire_scalars_ok {f : Form} {r : Rec} {s s₁ s₂ : State} {t : Word} {eff : Word → State → Eff}
    (hb : (s.core s.cur.core).unitBusy = false) (h : Fires f r s t s₁) (ha : s.AllScalar r) (he : eff t s₁ = .ok s₂) :
    (memFire f r s fun t s => do s.scalars r; eff t s) = .next s₂ :=
  memFire_ok hb h (by rw [h.scalars ha]; exact he)

theorem memFire_scalars_error {f : Form} {r : Rec} {s s₁ : State} {t : Word} {x : Flt} {eff : Word → State → Eff}
    (hb : (s.core s.cur.core).unitBusy = false) (h : Fires f r s t s₁) (ha : s.AllScalar r) (he : eff t s₁ = .error x) :
    (memFire f r s fun t s => do s.scalars r; eff t s) = .next (s.faultCur x) :=
  memFire_error hb h (by rw [h.scalars ha]; exact he)

/-- While the memory unit accepts nothing, PROMPT waits at the head of its ready queue (R144, R216). -/
theorem prompt_waits {r : Rec} {s : State} (hb : (s.core s.cur.core).unitBusy = true) : exec (.prompt r) s = .next s.retryIssue :=
  if_pos hb

theorem prompt_near {r : Rec} {s s₁ : State} {t : Word} {va : Nat} (hb : (s.core s.cur.core).unitBusy = false)
    (h : Fires Forms.prompt r s t s₁) (ha : s.AllScalar r) (hv : vaOf s.cur.op0.val 0 = some va) (hn : isNear va = true) :
    exec (.prompt r) s = .next (s.faultCur (permAt va)) := by
  rw [← h.cur] at hv
  exact memFire_scalars_error hb h ha (by simp only [vaAt_ok hv, hn, bind, Except.bind]; rfl)

section
variable {r : Rec} {s s₁ s₂ : State} {t : Word} {va a : Nat} {ps : List MemPart} {f : Option Flt}

/-- PROMPT at a far address that its record port translates to the physical address a. -/
structure Prompts (r : Rec) (s : State) (t : Word) (s₁ : State) (va : Nat) (ps : List MemPart) (f : Option Flt) (s₂ : State) (a : Nat) :
    Prop where
  free    : (s.core s.cur.core).unitBusy = false
  fires   : Fires Forms.prompt r s t s₁
  scalars : s.AllScalar r
  addr    : vaOf s.cur.op0.val 0 = some va
  far     : isNear va = false
  covers  : s₁.coverOne s.cur.core s.cur.node false true va 1 = .ok (ps, f, s₂)
  phys    : ((ps.head?).bind (·.pa)) = some a

theorem Prompts.cur (h : Prompts r s t s₁ va ps f s₂ a) : s₂.cur = s.cur :=
  (State.coverOne_slices h.covers).cur.trans h.fires.cur

theorem prompt_no_line (h : Prompts r s t s₁ va ps f s₂ a) (hp : ps.any (·.nc) = true ∨ s₂.isHbm a = false) :
    exec (.prompt r) s = .next (s.faultCur (permAt va)) := by
  obtain ⟨hb, hf, ha, hv, hn, hcov, hpa⟩ := h
  rw [← hf.cur] at hv hcov
  refine memFire_scalars_error hb hf ha ?_
  simp only [vaAt_ok hv, hn, hcov, hpa, bind, Except.bind]
  rw [if_neg Bool.false_ne_true, if_pos (by simpa using hp)]

theorem prompt_unreachable (h : Prompts r s t s₁ va ps f s₂ a) (hnc : ps.any (·.nc) = false) (hm : s₂.isHbm a = true)
    (hx : s₂.isLost (a / 192) = true ∨ s₂.joined s.cur.core.pkg (homeDie (a / 192)).pkg = false) :
    exec (.prompt r) s = .next (s.faultCur { cause := .homeUnreachable, info := BitVec.ofNat 64 (a / 192 * 192) }) := by
  rw [← h.cur] at hx
  obtain ⟨hb, hf, ha, hv, hn, hcov, hpa⟩ := h
  rw [← hf.cur] at hv hcov
  refine memFire_scalars_error hb hf ha ?_
  simp only [vaAt_ok hv, hn, hcov, hpa, bind, Except.bind]
  rw [if_neg Bool.false_ne_true, if_neg (by simp [hnc, hm]), if_pos (by simpa using hx)]

/-- The routine joins those asked of the home die's prompters, and its turn is sought (R198). -/
theorem prompt_starts (h : Prompts r s t s₁ va ps f s₂ a) (hnc : ps.any (·.nc) = false) (hm : s₂.isHbm a = true)
    (hx : ¬ (s₂.isLost (a / 192) = true ∨ s₂.joined s.cur.core.pkg (homeDie (a / 192)).pkg = false)) :
    let d := homeDie (a / 192)
    exec (.prompt r) s = .next ((s₂.fresh.2.modDie d fun x =>
      { x with prompts := x.prompts ++ [⟨s₂.uid, a / 192, r.lit.toNat % 256, s.cur.op1.val, s₂.fresh.2.asker r t⟩] }).laterAt
        .promptRoutineEnd (dieCore0 d) s₂.uid 0 false) := by
  rw [← h.cur] at hx
  have hcur := h.cur
  obtain ⟨hb, hf, ha, hv, hn, hcov, hpa⟩ := h
  rw [← hf.cur] at hv hcov
  refine memFire_scalars_ok hb hf ha ?_
  simp only [vaAt_ok hv, hn, hcov, hpa, bind, Except.bind, ← hcur]
  rw [if_neg Bool.false_ne_true, if_neg (by simp [hnc, hm]), if_neg (by simpa using hx)]
  rfl
end

/-! ## The prompters (R12, R198) -/

section
variable {s : State} {x : Prompt}

/-- The routine that the event names, on the die at its site. -/
def Asked (s : State) (x : Prompt) : Prop := ((s.die s.site.core.dieId).prompts.find? fun y => decide (y.id = s.site.n)) = some x

theorem promptRoutineEnd_not_loaded (h : Asked s x) (hr : x.routine ∉ (s.pkg s.site.core.dieId.pkg).routines) :
    exec .promptRoutineEnd s = .next (s.promptDone s.site.core.dieId x 1) := by
  unfold Asked at h
  show execPromptRoutineEnd s = _
  simp only [execPromptRoutineEnd, h]
  rw [if_pos hr]

/-- The routine waits while one that was asked earlier stands on its slice's prompter (R12). -/
theorem promptRoutineEnd_no_turn (h : Asked s x) (hr : x.routine ∈ (s.pkg s.site.core.dieId.pkg).routines) (hf : s.site.flag = false)
    (ht : (s.die s.site.core.dieId).promptTurn x = false) :
    exec .promptRoutineEnd s = .next (s.laterAt .promptRoutineEnd (dieCore0 s.site.core.dieId) s.site.n) := by
  unfold Asked at h
  show execPromptRoutineEnd s = _
  simp only [execPromptRoutineEnd, h]
  rw [if_neg (not_not.2 hr), if_pos (by simp [hf]), if_neg (by simp [ht])]

/-- In its turn the routine locks its line, once the home slice holds the line alone and whole. -/
theorem promptRoutineEnd_turn (h : Asked s x) (hr : x.routine ∈ (s.pkg s.site.core.dieId.pkg).routines) (hf : s.site.flag = false)
    (ht : (s.die s.site.core.dieId).promptTurn x = true) :
    let d := s.site.core.dieId
    let y := s.holdLine d x.line [0, 1, 2, 3]
    (y.1 = true → exec .promptRoutineEnd s =
      .next ((y.2.modLine d x.line fun z => { z with locked := true }).laterAt .promptRoutineEnd (dieCore0 d) s.site.n 0 true)) ∧
    (y.1 = false → exec .promptRoutineEnd s = .next (y.2.laterAt .promptRoutineEnd (dieCore0 d) s.site.n)) := by
  intro d y
  have he : exec .promptRoutineEnd s = execPromptRoutineEnd s := rfl
  unfold Asked at h
  simp only [he, execPromptRoutineEnd, h]
  rw [if_neg (not_not.2 hr), if_pos (by simp [hf]), if_pos ht]
  rcases hy : s.holdLine d x.line [0, 1, 2, 3] with ⟨held, s'⟩
  simp only [y, hy]
  cases held
  · exact ⟨nofun, fun _ => rfl⟩
  · exact ⟨fun _ => rfl, nofun⟩

/-- At its end the line is unlocked with what the routine has written into it, and its result and status are sent: free values (log 9). -/
theorem promptRoutineEnd_ends (h : Asked s x) (hr : x.routine ∈ (s.pkg s.site.core.dieId.pkg).routines) (hf : s.site.flag = true) :
    let d := s.site.core.dieId
    exec .promptRoutineEnd s = .next (State.promptDone
      ((s.modLine d x.line fun z => { z with locked := false }).enterLine d x.line 0
        ((List.range 192).map fun i => Config.promptByte s.free i) ((s.actOf? x.who.core.dieId x.who.tag).bind fun a => s.colourOn a d))
      d x (if Config.promptEnds s.free then 0 else 2)) := by
  unfold Asked at h
  show execPromptRoutineEnd s = _
  simp only [execPromptRoutineEnd, h]
  rw [if_neg (not_not.2 hr), if_neg (by simp [hf])]
end

/-! ## The group -/

/-- Settles O47: register by register and case by case, from the equations above. -/
theorem systemRecords : Obligations.SystemRecords := by
  unfold Obligations.SystemRecords
  refine ⟨?records, ?prompters⟩
  case records =>
    intro r s s₁ t ha c k v fault answers
    refine ⟨fun h => trap_faults h ha, fun h => brk_faults h ha, fun h => ?sysrd, fun h => ?syswr, fun h h0 => ?time, fun h h0 => ?cycles,
      fun h va key hva hm hk => ?evget, fun h => ?launch, fun h => ?cfginst, prompt_waits, fun hb h va hv => ?prompt⟩
    case sysrd =>
      have hcur := h.cur
      refine ⟨fun p hp hl => ?_, fun i hi => ⟨fun hl => ?_, fun hl => ?_⟩, fun hl hc => ?_, fun hl => ?_⟩
      · have hp' : p ∈ wordRegs s₁ := by simpa only [wordRegs, hcur] using hp
        exact sysrd_sends h ha (hl ▸ sysReg_wordRegs s₁ p hp')
      · exact sysrd_sends h ha (by rw [hl, sysReg_phmask0 s₁ hi, hcur])
      · exact sysrd_sends h ha (by rw [hl, sysReg_phmask1 s₁ hi, hcur])
      · exact ⟨coreIdWord c, sysrd_sends h ha (by rw [hl, sysReg_coreId, hcur]), coreIdWord_fields hc⟩
      · exact sysrd_refuses h ha (sysReg_unlisted s₁ hl)
    case syswr =>
      have hcur := h.cur
      refine ⟨fun p hp hl => ?_, fun p hp hl => ?_, fun i hi => ⟨fun hl => ?_, fun hl => ?_⟩, fun hl => ⟨fun hv => ?_, fun hv => ?_⟩,
        fun hl => ?_, fun hl => ?_, fun hl => ?_⟩
      · have hp' : p ∈ clearedRegs s₁ := by simpa only [clearedRegs, hcur] using hp
        exact syswr_writes h ha (by rw [hl, setSysReg_clearedRegs s₁ v p hp', hcur]) rfl
      · simp only [List.mem_cons, List.not_mem_nil, or_false] at hp
        rcases hp with rfl | rfl
        · exact syswr_writes h ha (by rw [hl, setSysReg_phase, hcur]) rfl
        · exact syswr_writes h ha (by rw [hl, setSysReg_wingCfg, hcur]) rfl
      · exact syswr_writes h ha (by rw [hl, setSysReg_phmask0 s₁ v hi, hcur]) rfl
      · exact syswr_writes h ha (by rw [hl, setSysReg_phmask1 s₁ v hi, hcur]) rfl
      · exact syswr_writes h ha (by rw [hl, setSysReg_ctrl s₁ hv]) (State.modCurAct_cur ..)
      · exact syswr_refuses h ha (by rw [hl, setSysReg_ctrl_refused s₁ hv])
      · exact syswr_writes h ha (by rw [hl, setSysReg_flags]) (State.modCurAct_cur ..)
      · exact syswr_writes h ha (by rw [hl, setSysReg_rng]) (State.modCurAct_cur ..)
      · exact syswr_refuses h ha (setSysReg_unlisted s₁ v hl)
    case time => rw [time_answers h ha, if_pos h0]
    case cycles => rw [time_answers h ha, if_neg h0]
    case evget => exact ⟨evget_empty h ha hva hm, fun ws q' => evget_moves h ha hva hm hk⟩
    case launch =>
      refine ⟨fun f => launch_bad_message h ha, fun ws hm => ⟨launch_no_control h ha hm, fun to_ hc => ⟨?_, ?_⟩⟩⟩
      · exact launch_no_core h ha hm hc
      · exact launch_sends h ha hm hc
    case cfginst =>
      intro e img
      have himg : imageAt s₁ = img := by simp only [imageAt, h.cur, img, v, c]
      refine ⟨fun hi => cfginst_no_image h ha (himg.trans hi), fun x hi => ?_⟩
      have hx : imageAt s₁ = some x := himg.trans hi
      refine ⟨cfginst_elsewhere h ha hx, fun he hp => ⟨cfginst_in_use h ha hx he hp, fun hu => ?_⟩⟩
      exact cfginst_installs h ha hx he hp hu
    case prompt =>
      refine ⟨prompt_near hb h ha hv, fun a ps f s₂ hn hcov hpa => ?_⟩
      have hp : Prompts r s t s₁ va ps f s₂ a := ⟨hb, h, ha, hv, hn, hcov, hpa⟩
      exact ⟨prompt_no_line hp, prompt_unreachable hp, prompt_starts hp⟩
  case prompters =>
    intro s x hx d loaded ended y
    refine ⟨promptRoutineEnd_not_loaded hx, fun hr hf => ⟨promptRoutineEnd_no_turn hx hr hf, promptRoutineEnd_turn hx hr hf⟩, ?_⟩
    exact promptRoutineEnd_ends hx

end Sys2Proof.Proofs.System
end

section
/-! What the proofs about numbers share: effects in sequence, the scalar result that a record sends, and what raising flags and drawing random
numbers leave alone. -/

namespace Sys2Proof.Proofs.Numbers

open Sys2Proof Sys2Proof.Machine

/-! ## Effects in sequence (R92 step 7) -/

/-- An effect whose first part passes goes on with what that part gives. -/
theorem bind_ok {α β : Type} {e : Except Flt α} {a : α} {k : α → Except Flt β} (h : e = .ok a) : e >>= k = k a := by rw [h]; rfl

/-- An effect whose first part refuses ends with that fault. -/
theorem bind_error {α β : Type} {e : Except Flt α} {f : Flt} {k : α → Except Flt β} (h : e = .error f) : e >>= k = .error f := by
  rw [h]; rfl

/-! ## A scalar result (R152) -/

theorem end0_of_cur {s s₁ : State} (h : s₁.cur = s.cur) : s₁.end0 = s.end0 := by rw [State.end0, h, State.end0]

/-- A scalar result of a firing of s with its flags, from the state s₁ that its tag operation and its draw leave: the flags raised, then the
element sent to both destinations under the result tag. -/
def sent (r : Rec) (s s₁ : State) (t : Word) (y : Nat × Flg) : Host.Outcome State Fault Refusal :=
  .next ((s₁.raise y.2).out r t (typedOp r.typ.toNat s.end0 y.1))

/-! ## Draws and flags (R64, R66) -/

/-- A table with the value that a key has written again is the same table. -/
theorem set_of_get? {κ α : Type} [DecidableEq κ] (k : κ) (v : α) : ∀ m : List (κ × α), Assoc.get? m k = some v → Assoc.set m k v = m
  | [], h => nomatch h
  | (k', v') :: t, h => by
    by_cases hk : k' = k
    · subst hk
      obtain rfl : v' = v := by simpa [Assoc.get?] using h
      simp [Assoc.set]
    · simp only [Assoc.get?, hk, if_false] at h
      simp only [Assoc.set, hk, if_false, set_of_get? k v t h]

theorem modAct_id {s : State} {a : Nat} {f : Act → Act} (hf : ∀ x, f x = x) : s.modAct a f = s := by
  rcases s.modAct_cases a f with ⟨x, hx, h⟩ | ⟨_, h⟩
  · rw [h, hf x, State.setAct, set_of_get? _ _ _ hx]
  · exact h

theorem reserve_zero (s : State) : s.reserve 0 = s := by
  unfold State.reserve State.modCurAct
  split
  · exact modAct_id fun x => by simp
  · rfl

theorem act_modAct_ctrl {f : Act → Act} (hf : ∀ a, (f a).ctrl = a.ctrl) (s : State) (a b : Nat) :
    ((s.modAct a f).act b).ctrl = (s.act b).ctrl := by
  rcases s.modAct_cases a f with ⟨v, hv, h⟩ | ⟨_, h⟩
  · rw [h, State.act_setAct]
    split
    · rename_i hab
      rw [hf, ← hab, State.act, Assoc.getD, hv]; rfl
    · rfl
  · rw [h]

/-- Raising flags and drawing leave the control word of the firing's activation. -/
theorem modCurAct_ctrl {f : Act → Act} (hf : ∀ a, (f a).ctrl = a.ctrl) (s : State) : (s.modCurAct f).curAct.ctrl = s.curAct.ctrl := by
  unfold State.modCurAct
  cases hc : s.curAct? with
  | none => rfl
  | some a =>
    have hc' : (s.modAct a f).curAct? = some a := by
      rw [← hc]
      simp only [State.curAct?, State.actOf?, State.owner?, State.die, State.modAct_cur, State.modAct_dies]
    simp only [State.curAct, hc, hc']
    exact act_modAct_ctrl hf s a a

theorem raise_ctrl (s : State) (fl : Flg) : (s.raise fl).curAct.ctrl = s.curAct.ctrl :=
  modCurAct_ctrl (by intro; rfl) s

theorem reserve_ctrl (s : State) (n : Nat) : (s.reserve n).curAct.ctrl = s.curAct.ctrl :=
  modCurAct_ctrl (by intro; rfl) s

end Sys2Proof.Proofs.Numbers
end

section
/-! The scalar integer group (R50, R51, R176 to R180): the exact result wrapped or clamped, the shift and field forms bit by bit, and what each
record sends. -/

namespace Sys2Proof.Proofs.Integers

open Sys2Proof Sys2Proof.Machine Sys2Proof.Proofs.Numbers

/-! ## Wrapping and clamping (R50) -/

theorem wrapBits_cast (w : Nat) (x : Int) : ((wrapBits w x : Nat) : Int) = x % ((2 ^ w : Nat) : Int) :=
  Int.toNat_of_nonneg (Int.emod_nonneg _ (by positivity))

theorem wrapBits_lt (w : Nat) (x : Int) : wrapBits w x < 2 ^ w := by
  have h := Int.emod_lt_of_pos x (show (0 : Int) < ((2 ^ w : Nat) : Int) by positivity)
  rw [← wrapBits_cast] at h
  exact_mod_cast h

/-- A signed type reaches half of its 2^w values to each side of 0. -/
theorem two_pow_pred {w : Nat} (h : 0 < w) : 2 ^ w = 2 * 2 ^ (w - 1) := by
  rw [← pow_succ', Nat.sub_add_cancel h]

theorem intMin_le_intMax (w : Nat) (sg : Bool) : intMin w sg ≤ intMax w sg := by
  have h1 : 0 < 2 ^ w := by positivity
  have h2 : 0 < 2 ^ (w - 1) := by positivity
  cases sg <;> simp only [intMin, intMax, Bool.false_eq_true, if_true, if_false] <;> omega

/-- A value in its type's range is read back from its bits. -/
theorem readInt_wrapBits {w : Nat} {sg : Bool} {x : Int} (hw : 0 < w) (hlo : intMin w sg ≤ x) (hhi : x ≤ intMax w sg) :
    readInt w sg (wrapBits w x) = x := by
  have hp := two_pow_pred hw
  have hc := wrapBits_cast w x
  have hlt := wrapBits_lt w x
  cases sg with
  | false =>
    simp only [intMin, intMax, Bool.false_eq_true, if_false] at hlo hhi
    rw [Int.emod_eq_of_lt hlo (by omega)] at hc
    simp only [readInt, Bool.false_eq_true, if_false, Nat.mod_eq_of_lt hlt, hc]
  | true =>
    simp only [intMin, intMax, if_true] at hlo hhi
    simp only [readInt, if_true, toSigned, Nat.mod_eq_of_lt hlt]
    by_cases hx : 0 ≤ x
    · rw [Int.emod_eq_of_lt hx (by omega)] at hc
      rw [if_neg (by omega), hc]
    · rw [← Int.add_emod_right, Int.emod_eq_of_lt (by omega) (by omega)] at hc
      rw [if_pos (by omega), hc]
      omega

/-- Without `.sat` a result is its low bits, and no flag is raised. -/
theorem intResult_wrap (w : Nat) (sg : Bool) (x : Int) : intResult w sg false x = (wrapBits w x, 0) := rfl

theorem intResult_sat_in {w : Nat} {sg : Bool} {x : Int} (hlo : intMin w sg ≤ x) (hhi : x ≤ intMax w sg) :
    intResult w sg true x = (wrapBits w x, 0) := by
  simp [intResult, not_lt.2 hlo, not_lt.2 hhi]

theorem intResult_sat_above {w : Nat} {sg : Bool} {x : Int} (h : intMax w sg < x) :
    intResult w sg true x = (wrapBits w (intMax w sg), fSAT) := by
  simp [intResult, h]

theorem intResult_sat_below {w : Nat} {sg : Bool} {x : Int} (h : x < intMin w sg) :
    intResult w sg true x = (wrapBits w (intMin w sg), fSAT) := by
  have hm := intMin_le_intMax w sg
  simp [intResult, h, show ¬ intMax w sg < x by omega]

theorem intResult_wraps {w : Nat} {sg : Bool} {x : Int} (hw : 0 < w) :
    (intResult w sg false x).2 = 0 ∧ (intResult w sg false x).1 < 2 ^ w ∧
    (((intResult w sg false x).1 : Int) - x) % (2 ^ w : Nat) = 0 ∧
    (intMin w sg ≤ x → x ≤ intMax w sg → readInt w sg (intResult w sg false x).1 = x) := by
  rw [intResult_wrap]
  refine ⟨rfl, wrapBits_lt w x, ?_, readInt_wrapBits hw⟩
  rw [wrapBits_cast]
  exact Int.emod_eq_zero_of_dvd ((Int.mod_modEq x _).symm.dvd)

theorem intResult_clamps {w : Nat} {sg : Bool} {x : Int} (hw : 0 < w) :
    readInt w sg (intResult w sg true x).1 = max (intMin w sg) (min (intMax w sg) x) ∧
    ((intResult w sg true x).2 = fSAT ↔ x < intMin w sg ∨ intMax w sg < x) ∧
    ((intResult w sg true x).2 = 0 ↔ intMin w sg ≤ x ∧ x ≤ intMax w sg) := by
  have hm := intMin_le_intMax w sg
  have hf : fSAT ≠ 0 := by decide
  rcases lt_or_ge x (intMin w sg) with hb | hlo
  · rw [intResult_sat_below hb, readInt_wrapBits hw le_rfl hm]
    exact ⟨by omega, by simp [hb], by simp [hf]; omega⟩
  · rcases lt_or_ge (intMax w sg) x with ha | hhi
    · rw [intResult_sat_above ha, readInt_wrapBits hw hm le_rfl]
      exact ⟨by omega, by simp [ha], by simp [hf]; omega⟩
    · rw [intResult_sat_in hlo hhi, readInt_wrapBits hw hlo hhi]
      exact ⟨by omega, by simp [hf.symm]; omega, by simp [hlo, hhi]⟩

/-! ## What a record of the group sends (R152, R176) -/

section
variable {f : Form} {r : Rec} {s s₁ : State} {t : Word}

/-- A record of all-scalar operands whose effect is an integer result sends that result. -/
theorem fire_intOut {x : State → Nat × Flg} (h : Fires f r s t s₁) (ha : s.AllScalar r) :
    (fire f r s fun t s => do s.scalars r; intOut r t s (x s)) = sent r s s₁ t (x s₁) := by
  rw [sent, ← end0_of_cur h.cur]
  exact System.fire_scalars_ok h ha rfl

theorem intBin_sends {op : Nat → Nat → Nat × Flg} (h : Fires f r s t s₁) (ha : s.AllScalar r) :
    intBin f op r s = sent r s s₁ t (op (s₁.elem r 0) (s₁.elem r 1)) :=
  fire_intOut (x := fun s => op (s.elem r 0) (s.elem r 1)) h ha

theorem intUn_sends {op : Nat → Nat × Flg} (h : Fires f r s t s₁) (ha : s.AllScalar r) :
    intUn f op r s = sent r s s₁ t (op (s₁.elem r 0)) :=
  fire_intOut (x := fun s => op (s.elem r 0)) h ha

theorem abs_sends (h : Fires Forms.abs r s t s₁) (ha : s.AllScalar r) :
    exec (.abs r) s = sent r s s₁ t (intRes r.typ.toNat (satI r) |s₁.intOperand r 0|) := by
  rw [Int.abs_eq_natAbs]
  exact (show execAbs r s = _ from intUn_sends h ha)

end

/-- Settles O22: each record's exact result goes through `intResult`, which wraps it, or clamps it under `.sat`. -/
theorem integerArithmetic : Obligations.IntegerArithmetic := by
  refine ⟨fun w sg x hw => ⟨intResult_wraps hw, intResult_clamps hw⟩, ?_⟩
  intro r s s₁ t w sg a b c sat p hp hf ha
  simp only [List.mem_cons, List.not_mem_nil, or_false] at hp
  rcases hp with rfl | rfl | rfl | rfl | rfl | rfl | rfl
  · exact (show execAdd r s = _ from intBin_sends hf ha)
  · exact (show execSub r s = _ from intBin_sends hf ha)
  · exact (show execMul r s = _ from intBin_sends hf ha)
  · exact (show execMulh r s = _ from intBin_sends hf ha)
  · exact (show execNeg r s = _ from intUn_sends hf ha)
  · exact abs_sends hf ha
  · exact fire_intOut (x := fun s => intRes r.typ.toNat (satI r)
      (asInt r.typ.toNat (s.elem r 0) * asInt r.typ.toNat (s.elem r 1) + asInt r.typ.toNat (s.elem r 2))) hf ha

/-! ## Operands in their width -/

/-- An operand's element fits its integer type; a type that is no integer is read as 64 bits, which hold it. -/
theorem typWidth_le (typ : Nat) : typWidth typ ≤ (intTy typ).1 := by
  unfold typWidth intTy elemTy
  split <;> decide

theorem elem_lt (s : State) (r : Rec) (n : Nat) : s.elem r n < 2 ^ (intTy r.typ.toNat).1 :=
  lt_of_lt_of_le (Nat.mod_lt _ (by positivity)) (Nat.pow_le_pow_right (by decide) (typWidth_le _))

theorem typWidth_pos (typ : Nat) : 0 < typWidth typ := by
  unfold typWidth elemTy
  split <;> decide

theorem intTy_pos (typ : Nat) : 0 < (intTy typ).1 := lt_of_lt_of_le (typWidth_pos typ) (typWidth_le typ)

/-! ## SHL (R177) -/

theorem shlBits_below {typ a b : Nat} {sat : Bool} (h : b < (intTy typ).1) :
    shlBits typ sat a b = intRes typ sat (asInt typ a * 2 ^ b) := by
  have hb : b % 2 ^ (intTy typ).1 = b := Nat.mod_eq_of_lt (h.trans Nat.lt_two_pow_self)
  simp only [shlBits, hb, if_pos h, Nat.cast_pow, Nat.cast_ofNat]

theorem shlBits_beyond {typ a b : Nat} {sat : Bool} (hb : b < 2 ^ (intTy typ).1) (h : (intTy typ).1 ≤ b) :
    shlBits typ sat a b =
      if sat && decide (asInt typ a ≠ 0) then intRes typ true (asInt typ a * (2 ^ (2 * (intTy typ).1) : Nat)) else (0, 0) := by
  simp only [shlBits, Nat.mod_eq_of_lt hb, if_neg (not_lt.2 h)]

/-- A positive value moved by 2w places lies above every type's range. -/
theorem intMax_lt_shifted {w : Nat} {sg : Bool} {a : Int} (ha : 0 < a) : intMax w sg < a * ((2 ^ (2 * w) : Nat) : Int) := by
  have h1 : intMax w sg < ((2 ^ w : Nat) : Int) := by
    have := Nat.pow_le_pow_right (n := 2) (by decide) (Nat.sub_le w 1)
    cases sg <;> simp only [intMax, Bool.false_eq_true, if_true, if_false] <;> omega
  have h2 : 2 ^ w ≤ 2 ^ (2 * w) := Nat.pow_le_pow_right (by decide) (by omega)
  have h3 := mul_le_mul_of_nonneg_right (show (1 : Int) ≤ a by omega) (show (0 : Int) ≤ ((2 ^ (2 * w) : Nat) : Int) by positivity)
  omega

theorem shifted_lt_intMin {w : Nat} {sg : Bool} {a : Int} (hw : 0 < w) (ha : a < 0) :
    a * ((2 ^ (2 * w) : Nat) : Int) < intMin w sg := by
  have h1 : -((2 ^ (w - 1) : Nat) : Int) ≤ intMin w sg := by
    have : 0 < 2 ^ (w - 1) := by positivity
    cases sg <;> simp only [intMin, Bool.false_eq_true, if_true, if_false] <;> omega
  have h2 : 2 ^ (w - 1) < 2 ^ (2 * w) := Nat.pow_lt_pow_right (by decide) (by omega)
  have h3 := mul_le_mul_of_nonneg_right (show a ≤ -1 by omega) (show (0 : Int) ≤ ((2 ^ (2 * w) : Nat) : Int) by positivity)
  omega

/-- SHL by w or more places gives 0, or under `.sat` the end of the range that the value's sign points to. -/
theorem shlBits_end {typ a b : Nat} (hb : b < 2 ^ (intTy typ).1) (h : (intTy typ).1 ≤ b) :
    (∀ sat, sat = false ∨ asInt typ a = 0 → shlBits typ sat a b = (0, 0)) ∧
    (0 < asInt typ a → shlBits typ true a b = (wrapBits (intTy typ).1 (intMax (intTy typ).1 (intTy typ).2), fSAT)) ∧
    (asInt typ a < 0 → shlBits typ true a b = (wrapBits (intTy typ).1 (intMin (intTy typ).1 (intTy typ).2), fSAT)) := by
  refine ⟨fun sat hz => ?_, fun ha => ?_, fun ha => ?_⟩
  · rw [shlBits_beyond hb h, if_neg]
    rcases hz with rfl | hz <;> simp_all
  · rw [shlBits_beyond hb h, if_pos (by simp [ha.ne']), intRes, intResult_sat_above (intMax_lt_shifted ha)]
  · rw [shlBits_beyond hb h, if_pos (by simp [ha.ne]), intRes, intResult_sat_below (shifted_lt_intMin (intTy_pos typ) ha)]

/-! ## CTZ and BREV by their bits (R178) -/

/-- CTZ is the place of the lowest one bit, w where there is none. -/
theorem ctzBits_spec (w a : Nat) :
    ctzBits w a ≤ w ∧ (∀ i < ctzBits w a, a.testBit i = false) ∧ (ctzBits w a < w → a.testBit (ctzBits w a) = true) := by
  unfold ctzBits leastBelow
  cases h : (List.range w).find? fun i => a.testBit i with
  | none =>
    rw [List.find?_eq_none] at h
    exact ⟨le_rfl, fun i hi => by simpa using h i (List.mem_range.2 hi), fun hn => absurd hn (lt_irrefl w)⟩
  | some n =>
    obtain ⟨hn, hw, hlow⟩ := List.find?_range_eq_some.1 h
    exact ⟨(List.mem_range.1 hw).le, fun i hi => by simpa using hlow i hi, fun _ => hn⟩

/-- The reversal of the low k bits, bit by bit. -/
theorem brevBits_testBit (a i : Nat) : ∀ k, i < k → (brevBits k a).testBit i = a.testBit (k - 1 - i) := by
  have hsucc : ∀ k, brevBits (k + 1) a = 2 * brevBits k a + b2n (a.testBit k) := fun k => by
    rw [brevBits, List.range_succ, List.foldl_append, mul_comm]; rfl
  induction i with
  | zero =>
    intro k hk
    obtain ⟨k, rfl⟩ : ∃ j, k = j + 1 := ⟨k - 1, by omega⟩
    rw [hsucc, Nat.testBit_zero, show k + 1 - 1 - 0 = k by omega]
    cases a.testBit k <;> simp [b2n, Nat.add_mod]
  | succ i ih =>
    intro k hk
    obtain ⟨k, rfl⟩ : ∃ j, k = j + 1 := ⟨k - 1, by omega⟩
    have hdiv : (2 * brevBits k a + b2n (a.testBit k)) / 2 = brevBits k a := by
      cases a.testBit k <;> simp [b2n]
      omega
    rw [hsucc, Nat.testBit_succ, hdiv, ih k (by omega)]
    congr 1; omega

/-! ## BEXT and BINS (R179) -/

theorem bitField_eq (c : Word) : bitField c = (c.toNat % 64, min (c.toNat / 256 % 128) 64) := by
  simp [bitField, bitsOf, Nat.shiftRight_eq_div_pow]

theorem bextBits_eq (typ a : Nat) (c : Word) :
    let len := min (c.toNat / 256 % 128) 64
    bextBits typ a c = if len = 0 then 0
      else wrapBits (intTy typ).1
        (readInt len (intTy typ).2 (wrapBits len (asInt typ a / ((2 ^ (c.toNat % 64) : Nat) : Int)))) := by
  simp only [bextBits, bitField_eq]

/-- A number laid out as high bits, a field of `len` bits at `pos`, and low bits, read bit by bit. -/
theorem testBit_field {hi mid lo pos len i : Nat} (hm : mid < 2 ^ len) (hl : lo < 2 ^ pos) :
    (hi * 2 ^ (pos + len) + mid * 2 ^ pos + lo).testBit i =
      if i < pos then lo.testBit i else if i < pos + len then mid.testBit (i - pos) else hi.testBit (i - (pos + len)) := by
  have hx : hi * 2 ^ (pos + len) + mid * 2 ^ pos + lo = 2 ^ pos * (2 ^ len * hi + mid) + lo := by ring
  rw [hx, Nat.testBit_two_pow_mul_add _ hl, Nat.testBit_two_pow_mul_add _ hm]
  by_cases h1 : i < pos
  · rw [if_pos h1, if_pos h1]
  · rw [if_neg h1, if_neg h1]
    by_cases h2 : i < pos + len
    · rw [if_pos (by omega), if_pos h2]
    · rw [if_neg (by omega), if_neg h2, Nat.sub_sub]

/-- BINS keeps a's bits but for the field, which holds the low bits of b. -/
theorem binsBits_testBit {typ a b : Nat} (c : Word) (ha : a < 2 ^ (intTy typ).1) {i : Nat} (hi : i < (intTy typ).1) :
    let pos := c.toNat % 64
    let len := min (c.toNat / 256 % 128) 64
    (binsBits typ a b c).testBit i =
      if pos ≤ i ∧ i < pos + len then (wrapBits len (asInt typ b)).testBit (i - pos) else a.testBit i := by
  intro pos len
  simp only [binsBits, bitField_eq, Nat.mod_eq_of_lt ha, Nat.testBit_mod_two_pow, hi, decide_true, Bool.true_and]
  rw [testBit_field (wrapBits_lt _ _) (Nat.mod_lt _ (by positivity)), Nat.testBit_mod_two_pow, Nat.testBit_div_two_pow]
  by_cases h1 : i < pos
  · rw [if_pos h1, if_neg (by omega)]; simp [show i < c.toNat % 64 from h1]
  · rw [if_neg h1]
    by_cases h2 : i < pos + len
    · rw [if_pos h2, if_pos (by omega)]
    · rw [if_neg h2, if_neg (by omega)]
      congr 1; omega

/-! ## DIV and REM (R51) -/

theorem divBits_zero {typ a b : Nat} {sat : Bool} (h : asInt typ b = 0) :
    divBits typ sat a b = (2 ^ (intTy typ).1 - 1, fIDZ) := if_pos h

theorem divBits_nonzero {typ a b : Nat} {sat : Bool} (h : asInt typ b ≠ 0) :
    divBits typ sat a b = intRes typ sat ((asInt typ a).tdiv (asInt typ b)) := if_neg h

theorem remBits_zero {typ a b : Nat} (h : asInt typ b = 0) : remBits typ a b = (wrapBits (intTy typ).1 (asInt typ a), fIDZ) := if_pos h

theorem remBits_nonzero {typ a b : Nat} (h : asInt typ b ≠ 0) :
    remBits typ a b = (wrapBits (intTy typ).1 ((asInt typ a).tmod (asInt typ b)), 0) := if_neg h

/-! ## What each sends -/

section
variable {r : Rec} {s s₁ : State} {t : Word}

theorem shl_sends (h : Fires Forms.shl r s t s₁) (ha : s.AllScalar r) :
    exec (.shl r) s = sent r s s₁ t (shlBits r.typ.toNat (satI r) (s₁.elem r 0) (s₁.elem r 1)) :=
  (show execShl r s = _ from intBin_sends h ha)

theorem ctz_sends (h : Fires Forms.ctz r s t s₁) (ha : s.AllScalar r) :
    exec (.ctz r) s = sent r s s₁ t (ctzBits (intTy r.typ.toNat).1 (s₁.elem r 0), 0) :=
  (show execCtz r s = _ from intUn_sends h ha)

theorem brev_sends (h : Fires Forms.brev r s t s₁) (ha : s.AllScalar r) :
    exec (.brev r) s = sent r s s₁ t (brevBits (intTy r.typ.toNat).1 (s₁.elem r 0), 0) :=
  (show execBrev r s = _ from intUn_sends h ha)

theorem bext_sends (h : Fires Forms.bext r s t s₁) (ha : s.AllScalar r) :
    exec (.bext r) s = sent r s s₁ t (bextBits r.typ.toNat (s₁.elem r 0) (s₁.val r 1), 0) :=
  fire_intOut (x := fun s => (bextBits r.typ.toNat (s.elem r 0) (s.val r 1), 0)) h ha

theorem bins_sends (h : Fires Forms.bins r s t s₁) (ha : s.AllScalar r) :
    exec (.bins r) s = sent r s s₁ t (binsBits r.typ.toNat (s₁.elem r 0) (s₁.elem r 1) (s₁.val r 2), 0) :=
  fire_intOut (x := fun s => (binsBits r.typ.toNat (s.elem r 0) (s.elem r 1) (s.val r 2), 0)) h ha

theorem div_sends (h : Fires Forms.div r s t s₁) (ha : s.AllScalar r) :
    exec (.div r) s = sent r s s₁ t (divBits r.typ.toNat (satI r) (s₁.elem r 0) (s₁.elem r 1)) :=
  (show execDiv r s = _ from intBin_sends h ha)

theorem rem_sends (h : Fires Forms.rem r s t s₁) (ha : s.AllScalar r) :
    exec (.rem r) s = sent r s s₁ t (remBits r.typ.toNat (s₁.elem r 0) (s₁.elem r 1)) :=
  (show execRem r s = _ from intBin_sends h ha)

end

/-- Settles O24: each record sends its bit function, whose value is read off by case of the shift count, the field and the divisor. -/
theorem integerFields : Obligations.IntegerFields := by
  intro r s s₁ t w sg x a b sat res hs
  have hsent : ∀ y : Nat × Flg, sent r s s₁ t y = res y.2 y.1 := fun _ => rfl
  have hlt := elem_lt s₁ r
  refine ⟨fun h => ?_, fun h => ?_, fun h => ?_, fun h => ?_, fun h => ?_, fun h => ?_, fun h => ?_⟩
  · refine ⟨fun hb => ?_, fun hb hz => ?_, fun hb hsat ha => ?_, fun hb hsat ha => ?_⟩
    · rw [shl_sends h hs, shlBits_below hb]; rfl
    · rw [shl_sends h hs, (shlBits_end (hlt 1) hb).1 (satI r) hz, hsent]
    · rw [shl_sends h hs, show satI r = true from hsat, (shlBits_end (hlt 1) hb).2.1 ha, hsent]
    · rw [shl_sends h hs, show satI r = true from hsat, (shlBits_end (hlt 1) hb).2.2 ha, hsent]
  · obtain ⟨hle, hlow, hbit⟩ := ctzBits_spec w x
    exact ⟨_, hle, ctz_sends h hs, hlow, hbit⟩
  · exact ⟨_, brev_sends h hs, fun i hi => brevBits_testBit x i w hi⟩
  · exact ⟨_, bext_sends h hs, bextBits_eq ..⟩
  · exact ⟨_, bins_sends h hs, fun i hi => binsBits_testBit _ (hlt 0) hi⟩
  · refine ⟨fun hb => ?_, fun hb => ?_⟩
    · rw [div_sends h hs, divBits_zero hb, hsent]
    · rw [div_sends h hs, divBits_nonzero hb]; rfl
  · refine ⟨fun hb => ?_, fun hb => ?_⟩
    · rw [rem_sends h hs, remBits_zero hb, hsent]; rfl
    · rw [rem_sends h hs, remBits_nonzero hb, hsent]; rfl

end Sys2Proof.Proofs.Integers
end

section
/-! The rounded float instructions (R61 to R64, R184, R188): the mode, the draw, the flags and what is sent. -/

namespace Sys2Proof.Proofs.Floats

open Sys2Proof Sys2Proof.Machine Sys2Proof.Proofs.Numbers

/-! ## What a rounded instruction sends (R184, R188) -/

theorem rounding_cur (s : State) (r : Rec) : (s.rounding r).2.cur = s.cur := by
  simp only [State.rounding]
  split
  · exact s.reserve_cur 1
  · rfl

section
variable {f : Form} {r : Rec} {s s₁ : State} {t : Word}

theorem fltOut_sends (h : Fires f r s t s₁) (ha : s.AllScalar r) {y : State → Nat × Flg} :
    (fire f r s fun t s => do s.scalars r; fltOut r t (s.rounding r).2 (y s)) = sent r s (s₁.rounding r).2 t (y s₁) := by
  rw [sent, ← end0_of_cur ((rounding_cur s₁ r).trans h.cur)]
  exact System.fire_scalars_ok h ha rfl

theorem fltBin_sends {op : Fmt → Rnd → Nat → Nat → Nat × Flg} (h : Fires f r s t s₁) (ha : s.AllScalar r) :
    fltBin f op r s =
      sent r s (s₁.rounding r).2 t (op (fmtOf r.typ.toNat) (s₁.rounding r).1 (s₁.elem r 0) (s₁.elem r 1)) :=
  fltOut_sends (y := fun s => op (fmtOf r.typ.toNat) (s.rounding r).1 (s.elem r 0) (s.elem r 1)) h ha

theorem fltUn_sends {op : Fmt → Rnd → Nat → Nat × Flg} (h : Fires f r s t s₁) (ha : s.AllScalar r) :
    fltUn f op r s = sent r s (s₁.rounding r).2 t (op (fmtOf r.typ.toNat) (s₁.rounding r).1 (s₁.elem r 0)) :=
  fltOut_sends (y := fun s => op (fmtOf r.typ.toNat) (s.rounding r).1 (s.elem r 0)) h ha

theorem fma_sends (h : Fires Forms.fma r s t s₁) (ha : s.AllScalar r) :
    exec (.fma r) s = sent r s (s₁.rounding r).2 t
      (fmaBits (fmtOf r.typ.toNat) (s₁.rounding r).1 (s₁.elem r 0) (s₁.elem r 1) (s₁.elem r 2)) :=
  fltOut_sends (y := fun s => fmaBits (fmtOf r.typ.toNat) (s.rounding r).1 (s.elem r 0) (s.elem r 1) (s.elem r 2)) h ha

end

/-- Settles O26: each record's bit function is applied under the rounding and the draw of its firing, which `State.rounding` gives. -/
theorem floatRounded : Obligations.FloatRounded := by
  intro r s s₁ t f x y rm mode m s₂ p hp hf ha
  simp only [List.mem_cons, List.not_mem_nil, or_false] at hp
  rcases hp with rfl | rfl | rfl | rfl | rfl | rfl | rfl | rfl | rfl | rfl | rfl
  · exact (show execFadd r s = _ from fltBin_sends hf ha)
  · exact (show execFsub r s = _ from fltBin_sends hf ha)
  · exact (show execFmul r s = _ from fltBin_sends hf ha)
  · exact fma_sends hf ha
  · exact (show execFdiv r s = _ from fltBin_sends hf ha)
  · exact (show execFsqrt r s = _ from fltUn_sends hf ha)
  · exact (show execFrnd r s = _ from fltUn_sends hf ha)
  · exact (show execFexp2 r s = _ from fltUn_sends hf ha)
  · exact (show execFlog2 r s = _ from fltUn_sends hf ha)
  · exact (show execFrcp r s = _ from fltUn_sends hf ha)
  · exact (show execFrsq r s = _ from fltUn_sends hf ha)

end Sys2Proof.Proofs.Floats
end

section
/-! The scalar conversions FCVT and CVT (R67, R68, R187, R289): the draw that a rounding conversion takes, the element sent, and the overflow
report. -/

namespace Sys2Proof.Proofs.Conversions

open Sys2Proof Sys2Proof.Machine Sys2Proof.Proofs.Numbers

/-! ## The draw of a conversion (R63, log 34) -/

/-- The state of a firing whose scalar conversion rounds or does not: one draw reserved where it rounds and the mode is SR. -/
def drawn (s : State) (r : Rec) (rounds : Bool) : State :=
  if s.curAct.mode (r.sub.toNat / 8) = 5 ∧ rounds = true then s.reserve 1 else s

theorem rounding_drawn (s : State) (r : Rec) (b : Bool) : (if b then (s.rounding r).2 else s) = drawn s r b := by
  cases b <;> simp [State.rounding, drawn]

theorem vecRnd_drawn (s : State) (r : Rec) (b : Bool) : (s.vecRnd r (if b then 1 else 0)).2 = drawn s r b := by
  cases b <;> simp [State.vecRnd, drawn, reserve_zero]

theorem drawn_cur (s : State) (r : Rec) (b : Bool) : (drawn s r b).cur = s.cur := by
  unfold drawn
  split
  · exact s.reserve_cur 1
  · rfl

/-- The converted element of a firing: bits, flags, and whether it was clamped. -/
def converted (s : State) (r : Rec) : Nat × Flg × Bool :=
  convElem (elemTy r.typ.toNat) (elemTy (r.lit.toNat % 16)) (s.rounding r).1.mode (s.rounding r).1.sat (s.rounding r).1.draw (s.elem r 0)

/-! ## FCVT (R187) -/

section
variable {r : Rec} {s s₁ : State} {t : Word}

theorem fcvt_converts (h : Fires Forms.fcvt r s t s₁) (ha : s.AllScalar r) (hd : r.lit.toNat % 16 ≠ r.typ.toNat) :
    exec (.fcvt r) s =
      .next (((drawn s₁ r (convRounds (elemTy r.typ.toNat) (elemTy (r.lit.toNat % 16)))).raise (converted s₁ r).2.1).out r t
        (typedOp (r.lit.toNat % 16) s.end0 (converted s₁ r).1)) := by
  rw [← end0_of_cur h.cur, ← rounding_drawn]
  exact System.fire_scalars_ok h ha (if_neg hd)

/-- Between equal types FCVT sends the value that `sameType` keeps. -/
theorem fcvt_keeps {y : Nat × Flg} (h : Fires Forms.fcvt r s t s₁) (ha : s.AllScalar r) (hd : r.lit.toNat % 16 = r.typ.toNat)
    (hy : sameType (elemTy r.typ.toNat) (s₁.elem r 0) = y) :
    exec (.fcvt r) s = .next ((s₁.raise y.2).out r t
      ⟨holdScalar (elemTy r.typ.toNat) y.1, mkKind 0 (classOf (r.lit.toNat % 16)) s.end0⟩) := by
  have hop : typedOp (r.lit.toNat % 16) s₁.end0 y.1 =
      ⟨holdScalar (elemTy r.typ.toNat) y.1, mkKind 0 (classOf (r.lit.toNat % 16)) s₁.end0⟩ := by rw [typedOp, hd]
  rw [← end0_of_cur h.cur, ← hop, ← hy]
  exact System.fire_scalars_ok h ha (by simp only [if_pos hd])

theorem sameType_number {f : Fmt} {x : Nat} (h : (readFlt f x).isNan = false) : sameType (.flt f) x = (x, 0) := by
  simp [sameType, h]

theorem sameType_nan {f : Fmt} {x : Nat} (h : (readFlt f x).isNan = true) : sameType (.flt f) x = (f.qnan, snanFlag [readFlt f x]) := by
  simp [sameType, h]

theorem sameType_other {ty : ElemTy} {x : Nat} (h : ∀ f : Fmt, ty ≠ .flt f) : sameType ty x = (x, 0) := by
  cases ty with
  | flt f => exact absurd rfl (h f)
  | int w sg => rfl
  | tern => rfl

/-! ## CVT (R68, R289) -/

/-- CVT sends its element on A, and on B an overflow report where a saturating conversion clamped it. -/
theorem cvt_converts (h : Fires Forms.cvt r s t s₁) (ha : s.AllScalar r) :
    let src := elemTy r.typ.toNat
    let dst := elemTy (r.lit.toNat % 16)
    exec (.cvt r) s =
      .next ((((drawn s₁ r (convRounds src dst)).raise (converted s₁ r).2.1).emitA r t
        (typedOp (r.lit.toNat % 16) s.end0 (converted s₁ r).1)).emitOverflow r t
        (if (converted s₁ r).2.2 && convSaturates src dst (satF r) then some (0, s₁.elem r 0, false) else none)) := by
  intro src dst
  rw [← end0_of_cur ((drawn_cur s₁ r (convRounds src dst)).trans h.cur), ← vecRnd_drawn]
  exact System.fire_scalars_ok h ha rfl

end

/-- Settles O28: FCVT by whether its types are equal, CVT by whether it reports an overflow. -/
theorem conversions : Obligations.Conversions := by
  intro r s s₁ t ha src dt x rm mode y s₂ o
  refine ⟨fun h => ⟨fun hd => fcvt_converts h ha hd, fun hd => ?_⟩, fun h => ⟨fun hc => ?_, fun hc hsat => ?_⟩⟩
  · intro kept
    have hk : ∀ z : Nat × Flg, sameType src x = z → exec (.fcvt r) s = kept z.2 z.1 := fun _ hz => fcvt_keeps h ha hd hz
    refine ⟨fun f hf => ⟨fun hn => hk (x, 0) ?_, fun hn => hk (f.qnan, snanFlag [readFlt f x]) ?_⟩, fun hf => hk (x, 0) (sameType_other hf)⟩
    · rw [hf, sameType_number hn]
    · rw [hf, sameType_nan hn]
  · have hno : ((converted s₁ r).2.2 && convSaturates src (elemTy dt) (satF r)) = false := by
      rw [Bool.and_eq_false_iff]; exact hc
    rw [cvt_converts h ha, if_neg (by rw [hno]; decide)]
    rfl
  · have hyes : ((converted s₁ r).2.2 && convSaturates src (elemTy dt) (satF r)) = true := by
      rw [Bool.and_eq_true]; exact ⟨hc, hsat⟩
    rw [cvt_converts h ha, if_pos hyes]
    rfl

end Sys2Proof.Proofs.Conversions
end

section
/-! The elementwise vector instructions of one and of three operands, the comparisons and the reductions (R72, R283, R285 to R287). -/

namespace Sys2Proof.Proofs.Vectors

open Sys2Proof Sys2Proof.Machine Sys2Proof.Proofs.Numbers

/-! ## Running values (R72) -/

theorem redGo_length (typ op : Nat) (m : Nat → Rnd) : ∀ (xs : List Nat) (i acc : Nat), (redGo typ op m i acc xs).length = xs.length
  | [], _, _ => rfl
  | _ :: t, i, _ => congrArg (· + 1) (redGo_length typ op m t (i + 1) _)

theorem redAll_length (typ op : Nat) (m : Nat → Rnd) : ∀ xs : List Nat, (redAll typ op m xs).length = xs.length
  | [] => rfl
  | _ :: t => congrArg (· + 1) (redGo_length typ op m t 0 _)

/-- The value of place i is one step from the one before it, the accumulator standing before the first. -/
theorem redGo_step (typ op : Nat) (m : Nat → Rnd) : ∀ (xs : List Nat) (k acc i x : Nat) (fl : Flg) (y : Nat × Flg), xs[i]? = some x →
    ((acc, fl) :: redGo typ op m k acc xs)[i]? = some y → (redGo typ op m k acc xs)[i]? = some (redStep typ op (m (k + i)) y.1 x)
  | [], _, _, _, _, _, _, hx, _ => nomatch hx
  | a :: t, k, acc, 0, x, fl, y, hx, hy => by
    obtain rfl : a = x := by simpa using hx
    obtain rfl : (acc, fl) = y := by simpa using hy
    rfl
  | a :: t, k, acc, i + 1, x, fl, y, hx, hy => by
    have ih := redGo_step typ op m t (k + 1) (redStep typ op (m k) acc a).1 i x (redStep typ op (m k) acc a).2 y hx hy
    rw [show k + (i + 1) = k + 1 + i by omega]
    exact ih

theorem redAll_step {typ op : Nat} {m : Nat → Rnd} {xs : List Nat} {i x : Nat} {y : Nat × Flg} (hx : xs[i + 1]? = some x)
    (hy : (redAll typ op m xs)[i]? = some y) : (redAll typ op m xs)[i + 1]? = some (redStep typ op (m i) y.1 x) := by
  cases xs with
  | nil => exact nomatch hx
  | cons a t =>
    have h := redGo_step typ op m t 0 a i x 0 y hx hy
    rw [Nat.zero_add] at h
    exact h

/-- A reduction reads the slice of its record's first operand. -/
theorem reduce_slice {s s₂ : State} {r : Rec} {x z : Slice} {ys : List (Nat × Flg)} (hx : s.sliceAt r 0 = .ok x)
    (h : s.reduce r = .ok (z, ys, s₂)) : z = x := by
  simp only [State.reduce, hx, bind, Except.bind, Except.ok.injEq, Prod.mk.injEq] at h
  exact h.1.symm

/-! ## What each record writes and sends (R283) -/

/-- The elements of a result written over the slice of $0, its flags raised, and the slice's descriptor sent. -/
def wrote (r : Rec) (t : Word) (x : Slice) (s₂ : State) (cls : Nat) (ys : List (Nat × Flg)) : Host.Outcome State Fault Refusal :=
  .next (((s₂.putElems x (typWidth r.typ.toNat) (ys.map (·.1))).raise (orFlags ys)).out r t ⟨s₂.val r 0, mkKind 1 cls s₂.end0⟩)

section
variable {f : Form} {r : Rec} {s s₁ : State} {t : Word} {x : Slice} {bs cs : List Nat}

theorem vecUn_writes {draws : Bool} {iop : Nat → Bool → Nat → Nat × Flg} {fop : Fmt → Rnd → Nat → Nat × Flg} (h : Fires f r s t s₁)
    (hx : s₁.sliceAt r 0 = .ok x) :
    let typ := r.typ.toNat
    let es := s₁.elems x (typWidth typ)
    let v := s₁.vecRnd r (if draws && decide (8 ≤ typ) then es.length else 0)
    vecUn f draws iop fop r s = wrote r t x v.2 (classOf typ)
      (es.zipIdx.map fun p => if typ < 8 then iop typ (satF r) p.1 else fop (fmtOf typ) (v.1 p.2) p.1) :=
  fire_ok h (bind_ok hx)

theorem vcmp_writes (h : Fires Forms.vcmp r s t s₁) (hx : s₁.sliceAt r 0 = .ok x) (hb : s₁.spread r 1 x = .ok bs) :
    let typ := r.typ.toNat
    exec (.vcmp r) s = wrote r t x s₁ 1 (((s₁.elems x (typWidth typ)).zip bs).map fun p =>
      if typ < 8 then (b2n (cmpCond (r.sub.toNat % 8) (asInt typ p.1) (asInt typ p.2)), 0)
      else (b2n (vcmpFlt (fmtOf typ) (r.sub.toNat % 8) p.1 p.2).1, (vcmpFlt (fmtOf typ) (r.sub.toNat % 8) p.1 p.2).2)) :=
  fire_ok h ((bind_ok hx).trans (bind_ok hb))

theorem vsel_writes (h : Fires Forms.vsel r s t s₁) (hx : s₁.sliceAt r 0 = .ok x) (hb : s₁.spread r 1 x = .ok bs)
    (hc : s₁.spread r 2 x = .ok cs) :
    exec (.vsel r) s = wrote r t x s₁ (classOf r.typ.toNat)
      (((s₁.elems x (typWidth r.typ.toNat)).zip (bs.zip cs)).map fun p => (if p.1 ≠ 0 then p.2.1 else p.2.2, 0)) :=
  fire_ok h ((bind_ok hx).trans ((bind_ok hb).trans (bind_ok hc)))

theorem vfma_writes (h : Fires Forms.vfma r s t s₁) (hx : s₁.sliceAt r 0 = .ok x) (hb : s₁.spread r 1 x = .ok bs)
    (hc : s₁.spread r 2 x = .ok cs) :
    let es := s₁.elems x (typWidth r.typ.toNat)
    let v := s₁.vecRnd r es.length
    exec (.vfma r) s = wrote r t x v.2 (classOf r.typ.toNat)
      ((es.zip (bs.zip cs)).zipIdx.map fun p => fmaBits (fmtOf r.typ.toNat) (v.1 p.2) p.1.1 p.1.2.1 p.1.2.2) :=
  fire_ok h ((bind_ok hx).trans ((bind_ok hb).trans (bind_ok hc)))

variable {ys : List (Nat × Flg)} {s₂ : State}

theorem vscan_writes (h : Fires Forms.vscan r s t s₁) (hr : s₁.reduce r = .ok (x, ys, s₂)) :
    exec (.vscan r) s = wrote r t x s₂ (classOf r.typ.toNat) ys :=
  fire_ok h (by rw [hr]; rfl)

theorem vred_sends (h : Fires Forms.vred r s t s₁) (hr : s₁.reduce r = .ok (x, ys, s₂)) :
    exec (.vred r) s = .next ((s₂.raise (orFlags ys)).out r t (typedOp r.typ.toNat 0 ((ys.getLast?.map (·.1)).getD 0))) :=
  fire_ok h (by rw [hr]; rfl)

theorem vabs_writes (h : Fires Forms.vabs r s t s₁) (hx : s₁.sliceAt r 0 = .ok x) :
    let typ := r.typ.toNat
    exec (.vabs r) s = wrote r t x (s₁.vecRnd r 0).2 (classOf typ) ((s₁.elems x (typWidth typ)).zipIdx.map fun p =>
      if typ < 8 then intRes typ (satF r) |asInt typ p.1| else (p.1 % 2 ^ (fmtOf typ).mbits, 0)) := by
  simp only [Int.abs_eq_natAbs]
  exact (show execVabs r s = _ from vecUn_writes h hx)

end

/-- Settles O31: one lemma for the instructions of one operand, one for each of the others, and the steps of a reduction by induction
over its elements. -/
theorem vectorOthers : Obligations.VectorOthers := by
  refine ⟨fun typ op m xs => ⟨redAll_length typ op m xs, fun x hx => ?_, fun i x y => redAll_step⟩, ?_⟩
  · cases xs with
    | nil => exact nomatch hx
    | cons a t => exact congrArg (Option.map (·, 0)) hx
  intro r s s₁ t x hx typ w es f wrote
  refine ⟨fun p hp h => ?_, fun bs hb h => vcmp_writes h hx hb, fun bs cs hb hc => ⟨fun h => vsel_writes h hx hb hc,
    fun h => vfma_writes h hx hb hc⟩, fun z ys s₂ hr => ?_⟩
  · simp only [List.mem_cons, List.not_mem_nil, or_false] at hp
    rcases hp with rfl | rfl | rfl | rfl | rfl
    · exact vabs_writes h hx
    · exact (show execVneg r s = _ from vecUn_writes h hx)
    · exact (show execVexp2 r s = _ from vecUn_writes h hx)
    · exact (show execVrcp r s = _ from vecUn_writes h hx)
    · exact (show execVrsq r s = _ from vecUn_writes h hx)
  · obtain rfl := reduce_slice hx hr
    exact ⟨fun h => vscan_writes h hr, fun h => vred_sends h hr⟩

end Sys2Proof.Proofs.Vectors
end

section
/-! The elements of a slice (R49, R282): packing and unpacking, the lane bytes that an image takes, and a read after a write. -/

namespace Sys2Proof.Proofs.Slices

open Sys2Proof Sys2Proof.Machine

/-! ## Packed elements (R49) -/

/-- The number whose bytes `packElems` lays out: the elements side by side, w bits each, the first lowest. -/
def packed (w : Nat) (es : List Nat) : Nat := es.foldr (fun e acc => acc * 2 ^ w + e % 2 ^ w) 0

theorem packed_cons (w e : Nat) (es : List Nat) : packed w (e :: es) = 2 ^ w * packed w es + e % 2 ^ w := by
  rw [mul_comm]; rfl

theorem packed_lt (w : Nat) : ∀ es : List Nat, packed w es < 2 ^ (w * es.length)
  | [] => by simp [packed]
  | e :: es => by
    have ih := packed_lt w es
    have he : e % 2 ^ w < 2 ^ w := Nat.mod_lt _ (by positivity)
    rw [packed_cons, List.length_cons, Nat.mul_succ, Nat.add_comm (w * es.length) w, pow_add]
    calc 2 ^ w * packed w es + e % 2 ^ w < 2 ^ w * (packed w es + 1) := by rw [Nat.mul_succ]; omega
      _ ≤ 2 ^ w * 2 ^ (w * es.length) := Nat.mul_le_mul_left _ ih

/-- Field i of the packed number is element i. -/
theorem packed_field (w : Nat) : ∀ (es : List Nat) (i : Nat), i < es.length → packed w es / 2 ^ (w * i) % 2 ^ w = es[i]! % 2 ^ w
  | e :: es, 0, _ => by simp [packed_cons, Nat.add_mod]
  | e :: es, i + 1, hi => by
    have ih := packed_field w es i (Nat.lt_of_succ_lt_succ hi)
    have he : (2 ^ w * packed w es + e % 2 ^ w) / 2 ^ w = packed w es := by
      rw [Nat.mul_add_div (by positivity), Nat.div_eq_of_lt (Nat.mod_lt _ (by positivity)), Nat.add_zero]
    rw [packed_cons, Nat.mul_succ, Nat.add_comm (w * i) w, pow_add, ← Nat.div_div_eq_div_mul, he, ih]
    rfl

theorem leNat_append_zeros (n : Nat) : ∀ bs : List Byte, leNat (bs ++ List.replicate n 0) = leNat bs
  | [] => by
    induction n with
    | zero => rfl
    | succ n ih => simpa [List.replicate_succ, leNat] using ih
  | b :: t => by simp only [List.cons_append, leNat, leNat_append_zeros n t]

/-- The bytes of packed elements, whatever zeros follow them, read as one number. -/
theorem leNat_packElems (w : Nat) (es : List Nat) (n : Nat) : leNat (packElems w es ++ List.replicate n 0) = packed w es := by
  rw [leNat_append_zeros]
  refine (leNat_leBytes _ _).trans (Nat.mod_eq_of_lt ((packed_lt w es).trans_le ?_))
  rw [show (256 : Nat) = 2 ^ 8 from rfl, ← pow_mul]
  exact Nat.pow_le_pow_right (by decide) (by omega)

/-- Elements packed and unpacked again are the same in their width (R49). -/
theorem unpackElems_packElems (w : Nat) (es : List Nat) (n : Nat) :
    unpackElems (packElems w es ++ List.replicate n 0) w es.length = es.map (· % 2 ^ w) := by
  refine List.ext_getElem (by simp [unpackElems]) fun i h1 h2 => ?_
  have hi : i < es.length := by simpa using h2
  simp only [unpackElems, List.getElem_map, List.getElem_range, leNat_packElems, packed_field w es i hi, getElem!_pos es i hi]

theorem packElems_length (w : Nat) (es : List Nat) : (packElems w es).length = (w * es.length + 7) / 8 := length_leBytes _ _

/-! ## Lane bytes of an image (R282) -/

/-- The lane-slice offsets of one slice's image bytes are distinct. -/
theorem at_inj {x : Slice} (hx : x.row + x.nrow ≤ 255) {o p : Nat} (ho : o < x.size) (hp : p < x.size) (h : x.at_ o = x.at_ p) : o = p := by
  unfold Slice.size at ho hp
  unfold Slice.at_ at h
  omega

/-- The lane-slice offsets of slices that share no word are distinct. -/
theorem at_ne {x y : Slice} (hx : x.row + x.nrow ≤ 255) (hy : y.row + y.nrow ≤ 255)
    (h : x.row + x.nrow < y.row ∨ y.row + y.nrow < x.row) {o p : Nat} (ho : o < x.size) (hp : p < y.size) : x.at_ o ≠ y.at_ p := by
  unfold Slice.size at ho hp
  unfold Slice.at_
  omega

/-- An image byte lies in one of the slice's words. -/
theorem at_word (x : Slice) {o : Nat} (ho : o < x.size) :
    ∃ i j, i < 64 ∧ j ≤ x.nrow ∧ x.at_ o / 4 = (1024 * i + (x.row + j) * 4) / 4 := by
  unfold Slice.size at ho
  refine ⟨o / 4 % 64, o / 256, by omega, by omega, ?_⟩
  unfold Slice.at_
  omega

/-! ## Bytes written one after another -/

/-- A memory after the bytes g 0 to g (n − 1) are put at f 0 to f (n − 1). -/
def puts (f : Nat → Nat) (g : Nat → Byte) (m : Memory) (n : Nat) : Memory := (List.range n).foldl (fun m o => m.put (f o) (g o)) m

theorem puts_succ (f : Nat → Nat) (g : Nat → Byte) (m : Memory) (n : Nat) : puts f g m (n + 1) = (puts f g m n).put (f n) (g n) := by
  rw [puts, List.range_succ, List.foldl_append]; rfl

theorem puts_wf {f : Nat → Nat} {g : Nat → Byte} {m : Memory} (h : m.wf = true) : ∀ n, (puts f g m n).wf = true
  | 0 => h
  | n + 1 => by rw [puts_succ]; exact Memory.put_wf (puts_wf h n)

theorem get_puts_ne {f : Nat → Nat} {g : Nat → Byte} {m : Memory} (h : m.wf = true) {a : Nat} :
    ∀ n, (∀ o < n, f o ≠ a) → (puts f g m n).get a = m.get a
  | 0, _ => rfl
  | n + 1, hne => by
    rw [puts_succ, Memory.get_put (puts_wf h n), if_neg (Ne.symm (hne n (Nat.lt_succ_self n)))]
    exact get_puts_ne h n fun o ho => hne o (Nat.lt_succ_of_lt ho)

/-- A byte put at a place that no other byte shares is read there. -/
theorem get_puts {f : Nat → Nat} {g : Nat → Byte} {m : Memory} (h : m.wf = true) {o : Nat} :
    ∀ n, o < n → (∀ p < n, f p = f o → p = o) → (puts f g m n).get (f o) = g o
  | n + 1, ho, hinj => by
    rw [puts_succ, Memory.get_put (puts_wf h n)]
    split
    · rename_i he
      rw [hinj n (Nat.lt_succ_self n) he.symm]
    · rename_i he
      have hon : o < n := lt_of_le_of_ne (Nat.le_of_lt_succ ho) fun e => he (by rw [e])
      exact get_puts h n hon fun p hp => hinj p (Nat.lt_succ_of_lt hp)

/-! ## Images -/

theorem putImage_lanes (k : Core) (x : Slice) (bs : List Byte) :
    (k.putImage x bs).lanes = puts x.at_ (fun o => bs.getD o 0) k.lanes (min x.size bs.length) := rfl

theorem core_putElems (s : State) (x : Slice) (w : Nat) (es : List Nat) :
    (s.putElems x w es).core s.cur.core =
      (s.core s.cur.core).putImage x (packElems w es ++ List.replicate (x.size - (packElems w es).length) 0) :=
  State.core_modCore_same ..

/-- A whole image written is the image read. -/
theorem image_putImage {k : Core} {x : Slice} {bs : List Byte} (hk : k.lanes.wf = true) (hx : x.row + x.nrow ≤ 255)
    (hb : bs.length = x.size) : (k.putImage x bs).image x = bs := by
  refine List.ext_getElem (by simp [Core.image, hb]) fun o h1 h2 => ?_
  have ho : o < x.size := by simpa [Core.image] using h1
  simp only [Core.image, List.getElem_map, List.getElem_range, putImage_lanes, hb, Nat.min_self]
  rw [get_puts hk x.size ho fun p hp he => at_inj hx hp ho he, List.getD_eq_getElem _ _ h2]

theorem image_putImage_ne {k : Core} {x y : Slice} {bs : List Byte} (hk : k.lanes.wf = true) (hx : x.row + x.nrow ≤ 255)
    (hy : y.row + y.nrow ≤ 255) (h : x.row + x.nrow < y.row ∨ y.row + y.nrow < x.row) : (k.putImage x bs).image y = k.image y := by
  refine List.map_congr_left fun p hp => ?_
  rw [putImage_lanes]
  exact get_puts_ne hk _ fun o ho => at_ne hx hy h (lt_of_lt_of_le ho (Nat.min_le_left ..)) (List.mem_range.1 hp)

/-- A full slice of elements fits its image. -/
theorem packElems_fits {x : Slice} {w : Nat} {es : List Nat} (hl : es.length = x.count w) : (packElems w es).length ≤ x.size := by
  have h : w * es.length ≤ 8 * x.size := by rw [hl]; exact Nat.mul_div_le _ _
  rw [packElems_length]
  omega

/-- Settles O29: the image written is the packed elements and zeros, it is read back whole, and its bytes lie in the slice's words. -/
theorem sliceElements : Obligations.SliceElements := by
  intro s x w es hwf hx _ hl
  refine ⟨?_, fun y hy hd => ?_, fun a ha => ?_⟩
  · have hfit := packElems_fits hl
    show unpackElems (((s.putElems x w es).core s.cur.core).image x) w (x.count w) = _
    rw [core_putElems, image_putImage hwf hx (by simp; omega), ← hl, unpackElems_packElems]
  · show unpackElems (((s.putElems x w es).core s.cur.core).image y) w (y.count w) = _
    rw [core_putElems, image_putImage_ne hwf hx hy hd]
    rfl
  · rw [core_putElems, putImage_lanes]
    refine get_puts_ne hwf _ fun o ho he => ?_
    obtain ⟨i, j, hi, hj, hw⟩ := at_word x (lt_of_lt_of_le ho (Nat.min_le_left ..))
    exact ha i j hi hj (he ▸ hw)

end Sys2Proof.Proofs.Slices
end

section
/-! Format conversion over slices (R68, R289 to R292): VCVT and its overflow report, QBLK, DQBLK under NaN scales, TERNPK and its `.unpk`. -/

namespace Sys2Proof.Proofs.Formats

open Sys2Proof Sys2Proof.Machine Sys2Proof.Proofs.Numbers

/-! ## Slices of a given number of rows -/

theorem sliceRows_ok {s : State} {r : Rec} {x : Slice} {n rows : Nat} (hx : s.sliceAt r n = .ok x) (h : x.nrow + 1 = rows) :
    s.sliceRows r n rows = .ok x := by
  simp [State.sliceRows, hx, bind, Except.bind, h]

theorem sliceRows_refuses {s : State} {r : Rec} {x : Slice} {n rows : Nat} (hx : s.sliceAt r n = .ok x) (h : x.nrow + 1 ≠ rows) :
    s.sliceRows r n rows = .error (slotFault (s.opnd r n) n) := by
  simp [State.sliceRows, hx, bind, Except.bind, h]

/-! ## The overflow report (R68, log 33) -/

/-- A fold that keeps the smaller of two gives the least of a list. -/
theorem foldl_eq_min? {f : Option Nat → Nat → Option Nat} (h0 : ∀ l, f none l = some l) (h1 : ∀ k l, f (some k) l = some (min k l))
    (ls : List Nat) : ls.foldl f none = ls.min? := by
  have hs : ∀ (ls : List Nat) (k : Nat), ls.foldl f (some k) = some (ls.foldl min k) := by
    intro ls
    induction ls with
    | nil => exact fun _ => rfl
    | cons l t ih => exact fun k => by rw [List.foldl_cons, h1, ih, List.foldl_cons]
  cases ls with
  | nil => rfl
  | cons l t => rw [List.foldl_cons, h0, hs, List.min?_cons']

/-- The report of elements in ascending order names the first clamped element of the lowest clamped lane. -/
theorem overflowOf_lowest {w : Nat} {clamped : List (Nat × Nat)} {p : Nat × Nat} (hord : clamped.Pairwise fun a b => a.1 < b.1)
    (hp : p ∈ clamped)
    (hlow : ∀ q ∈ clamped, laneOf w p.1 < laneOf w q.1 ∨ (laneOf w p.1 = laneOf w q.1 ∧ p.1 ≤ q.1)) :
    overflowOf w clamped = some (laneOf w p.1, p.2, clamped.any fun q => decide (laneOf w q.1 ≠ laneOf w p.1)) := by
  have hmin : (clamped.map fun q => laneOf w q.1).min? = some (laneOf w p.1) := by
    refine List.min?_eq_some_iff.2 ⟨List.mem_map_of_mem hp, fun l hl => ?_⟩
    obtain ⟨q, hq, rfl⟩ := List.mem_map.1 hl
    exact (hlow q hq).elim le_of_lt fun h => h.1.le
  have hfind : (clamped.find? fun q => decide (laneOf w q.1 = laneOf w p.1)) = some p := by
    obtain ⟨as, bs, rfl⟩ := List.append_of_mem hp
    refine List.find?_eq_some_iff_append.2 ⟨by simp, as, bs, rfl, fun a ha => ?_⟩
    have hlt : a.1 < p.1 := (List.pairwise_append.1 hord).2.2 a ha p List.mem_cons_self
    rcases hlow a (List.mem_append_left _ ha) with h | h
    · simp [h.ne']
    · exact absurd h.2 (not_le.2 hlt)
  unfold overflowOf
  dsimp only
  rw [foldl_eq_min? (fun _ => rfl) (fun _ _ => rfl), hmin]
  dsimp only
  rw [hfind, List.any_map]
  rfl

theorem overflowOf_nil (w : Nat) : overflowOf w [] = none := rfl

/-! ## VCVT (R289) -/

section
variable {r : Rec} {s s₁ : State} {t : Word} {x y z : Slice}

/-- The elements of a VCVT in their order, each with its place and what its conversion gives. -/
def vcvtElems (s : State) (r : Rec) (x : Slice) : List ((Nat × Nat) × Nat × Flg × Bool) :=
  let src := elemTy r.typ.toNat
  let dst := elemTy (r.lit.toNat % 16)
  let es := s.elems x src.width
  let m := (s.vecRnd r (if convRounds src dst then es.length else 0)).1
  es.zipIdx.map fun p => (p, convElem src dst (m p.2).mode (m p.2).sat (m p.2).draw p.1)

/-- The places and source elements that were clamped. -/
def vcvtClamped (s : State) (r : Rec) (x : Slice) : List (Nat × Nat) :=
  ((vcvtElems s r x).filter fun q => q.2.2.2).map fun q => (q.1.2, q.1.1)

/-- A VCVT's results written over the slice y, their flags raised and y's descriptor sent on A. -/
def vcvtSent (s : State) (r : Rec) (t : Word) (x y : Slice) : State :=
  let src := elemTy r.typ.toNat
  let dt := r.lit.toNat % 16
  let s₂ := (s.vecRnd r (if convRounds src (elemTy dt) then (s.elems x src.width).length else 0)).2
  let ys := vcvtElems s r x
  ((s₂.putElems y (elemTy dt).width (ys.map fun p => p.2.1)).raise (orFlags (ys.map fun p => (p.2.1, p.2.2.1)))).emitA r t
    (s₂.descr r 1 (classOf dt))

/-- The rows that a VCVT's results take. -/
def vcvtRows (s : State) (r : Rec) (x : Slice) : Nat :=
  ceilDiv ((s.elems x (elemTy r.typ.toNat).width).length * (elemTy (r.lit.toNat % 16)).width) 2048

theorem vcvtClamped_ascends (s : State) (r : Rec) (x : Slice) : (vcvtClamped s r x).Pairwise fun a b => a.1 < b.1 := by
  have hidx (es : List Nat) : es.zipIdx.Pairwise fun a b => a.2 < b.2 :=
    List.pairwise_map.1 (by rw [List.zipIdx_map_snd]; exact List.pairwise_lt_range')
  have helems : (vcvtElems s r x).Pairwise fun a b => a.1.2 < b.1.2 := List.pairwise_map.2 (hidx _)
  exact List.pairwise_map.2 (helems.filter _)

theorem vcvt_refuses (h : Fires Forms.vcvt r s t s₁) (hx : s₁.sliceAt r 0 = .ok x) (hy : s₁.sliceAt r 1 = .ok y)
    (hrows : y.nrow + 1 ≠ vcvtRows s₁ r x) : exec (.vcvt r) s = .next (s.faultCur (slotFault (s₁.opnd r 1) 1)) :=
  fire_error h ((bind_ok hx).trans (bind_error (sliceRows_refuses hy hrows)))

theorem vcvt_sends (h : Fires Forms.vcvt r s t s₁) (hx : s₁.sliceAt r 0 = .ok x) (hy : s₁.sliceAt r 1 = .ok y)
    (hrows : y.nrow + 1 = vcvtRows s₁ r x) :
    exec (.vcvt r) s = .next ((vcvtSent s₁ r t x y).emitOverflow r t (overflowOf (elemTy r.typ.toNat).width
      (if convSaturates (elemTy r.typ.toNat) (elemTy (r.lit.toNat % 16)) (satF r) then vcvtClamped s₁ r x else []))) :=
  fire_ok h ((bind_ok hx).trans (bind_ok (sliceRows_ok hy hrows)))

/-! ## QBLK (R290) -/

/-- The blocks of a QBLK. -/
def qblkBlocks (s : State) (x : Slice) : List (List Nat) := blocks32 ((s.elems x 32).length / 32) (s.elems x 32)

/-- The draws of a QBLK reserved: one for each element of a block whose scale is a number. -/
def qblkRnd (s : State) (r : Rec) (x : Slice) : (Nat → Rnd) × State :=
  s.vecRnd r (32 * ((qblkBlocks s x).filter fun b => (blockScale (r.lit.toNat % 16) b).isSome).length)

/-- The quantised elements with their flags, and the scales. -/
def qblkElems (s : State) (r : Rec) (x : Slice) : List (Nat × Flg) × List Nat :=
  quantGo (fmtOf (r.lit.toNat % 16)) (r.lit.toNat % 16) (qblkRnd s r x).1 0 (qblkBlocks s x)

def qblkRows (s : State) (r : Rec) (x : Slice) : Nat := ceilDiv ((s.elems x 32).length * (fmtOf (r.lit.toNat % 16)).width) 2048

theorem qblk_refuses_elements (h : Fires Forms.qblk r s t s₁) (hx : s₁.sliceAt r 0 = .ok x) (hy : s₁.sliceAt r 1 = .ok y)
    (hrows : y.nrow + 1 ≠ qblkRows s₁ r x) : exec (.qblk r) s = .next (s.faultCur (slotFault (s₁.opnd r 1) 1)) :=
  fire_error h ((bind_ok hx).trans (bind_error (sliceRows_refuses hy hrows)))

theorem qblk_refuses_scales (h : Fires Forms.qblk r s t s₁) (hx : s₁.sliceAt r 0 = .ok x) (hy : s₁.sliceAt r 1 = .ok y)
    (hz : s₁.sliceAt r 2 = .ok z) (hrows : y.nrow + 1 = qblkRows s₁ r x) (hscales : z.nrow + 1 ≠ ceilDiv (s₁.elems x 32).length 8192) :
    exec (.qblk r) s = .next (s.faultCur (slotFault (s₁.opnd r 2) 2)) :=
  fire_error h ((bind_ok hx).trans ((bind_ok (sliceRows_ok hy hrows)).trans (bind_error (sliceRows_refuses hz hscales))))

theorem qblk_sends (h : Fires Forms.qblk r s t s₁) (hx : s₁.sliceAt r 0 = .ok x) (hy : s₁.sliceAt r 1 = .ok y)
    (hz : s₁.sliceAt r 2 = .ok z) (hrows : y.nrow + 1 = qblkRows s₁ r x) (hscales : z.nrow + 1 = ceilDiv (s₁.elems x 32).length 8192) :
    let dt := r.lit.toNat % 16
    let q := qblkElems s₁ r x
    exec (.qblk r) s = .next ((((((qblkRnd s₁ r x).2.putElems y (fmtOf dt).width (q.1.map (·.1))).putElems z 8 q.2).raise
      (orFlags q.1)).emitA r t (s₁.descr r 1 (classOf dt))).emitB r t (s₁.descr r 2 1)) :=
  fire_ok h ((bind_ok hx).trans ((bind_ok (sliceRows_ok hy hrows)).trans (bind_ok (sliceRows_ok hz hscales))))

/-! ## DQBLK (R60, R291) -/

theorem vecRnd_ctrl (s : State) (r : Rec) (n : Nat) : (s.vecRnd r n).2.curAct.ctrl = s.curAct.ctrl := by
  simp only [State.vecRnd]
  split
  · exact reserve_ctrl s n
  · rfl

theorem putElems_ctrl (s : State) (x : Slice) (w : Nat) (es : List Nat) : (s.putElems x w es).curAct.ctrl = s.curAct.ctrl := rfl

/-- The draws of a DQBLK reserved: one for each element of its result. -/
def dqblkRnd (s : State) (r : Rec) (z : Slice) : (Nat → Rnd) × State := s.vecRnd r (64 * (z.nrow + 1))

/-- The elements of a DQBLK with their flags, each scaled and rounded once. -/
def dqblkElems (s : State) (r : Rec) (x y z : Slice) : List (Nat × Flg) :=
  ((s.elems x (fmtOf (r.lit.toNat % 16)).width).take (64 * (z.nrow + 1))).zipIdx.map fun p =>
    let v := readFlt (fmtOf (r.lit.toNat % 16)) p.1
    let m := (dqblkRnd s r z).1 p.2
    let b := roundVal fp32 m.mode m.sat m.draw (scaledVal v ((s.elems y 8).getD (p.2 / 32) 0))
    (b.1, b.2 ||| snanFlag [v])

/-- The results of a DQBLK written over z, their flags raised. -/
def dqblkWrote (s : State) (r : Rec) (x y z : Slice) : State :=
  ((dqblkRnd s r z).2.putElems z 32 ((dqblkElems s r x y z).map (·.1))).raise (orFlags (dqblkElems s r x y z))

theorem dqblkWrote_ctrl (s : State) (r : Rec) (x y z : Slice) : (dqblkWrote s r x y z).curAct.ctrl = s.curAct.ctrl := by
  rw [dqblkWrote, raise_ctrl, putElems_ctrl]
  exact vecRnd_ctrl ..

def dqblkRows (r : Rec) (z : Slice) : Nat := ceilDiv (64 * (z.nrow + 1) * (fmtOf (r.lit.toNat % 16)).width) 2048

theorem dqblk_refuses_elements (h : Fires Forms.dqblk r s t s₁) (hx : s₁.sliceAt r 0 = .ok x) (hz : s₁.sliceAt r 2 = .ok z)
    (hrows : x.nrow + 1 ≠ dqblkRows r z) : exec (.dqblk r) s = .next (s.faultCur (slotFault (s₁.opnd r 0) 0)) :=
  fire_error h ((bind_ok hz).trans (bind_error (sliceRows_refuses hx hrows)))

theorem dqblk_refuses_scales (h : Fires Forms.dqblk r s t s₁) (hx : s₁.sliceAt r 0 = .ok x) (hy : s₁.sliceAt r 1 = .ok y)
    (hz : s₁.sliceAt r 2 = .ok z) (hrows : x.nrow + 1 = dqblkRows r z) (hscales : y.nrow + 1 ≠ ceilDiv (64 * (z.nrow + 1)) 8192) :
    exec (.dqblk r) s = .next (s.faultCur (slotFault (s₁.opnd r 1) 1)) :=
  fire_error h ((bind_ok hz).trans ((bind_ok (sliceRows_ok hx hrows)).trans (bind_error (sliceRows_refuses hy hscales))))

theorem dqblk_sends (h : Fires Forms.dqblk r s t s₁) (hx : s₁.sliceAt r 0 = .ok x) (hy : s₁.sliceAt r 1 = .ok y)
    (hz : s₁.sliceAt r 2 = .ok z) (hrows : x.nrow + 1 = dqblkRows r z) (hscales : y.nrow + 1 = ceilDiv (64 * (z.nrow + 1)) 8192) :
    exec (.dqblk r) s = .next (((dqblkWrote s₁ r x y z).nanScale
      (((s₁.elems y 8).take (64 * (z.nrow + 1) / 32)).any fun c => decide (c = 0xFF))).out r t ((dqblkRnd s₁ r z).2.descr r 2 2)) :=
  fire_ok h ((bind_ok hz).trans ((bind_ok (sliceRows_ok hx hrows)).trans (bind_ok (sliceRows_ok hy hscales))))

theorem nanScale_none {cs : List Nat} (h : ∀ c ∈ cs, c ≠ 0xFF) (s : State) : s.nanScale (cs.any fun c => decide (c = 0xFF)) = s := by
  have hany : (cs.any fun c => decide (c = 0xFF)) = false := by simpa using h
  rw [hany]; rfl

/-- A NaN scale raises NANSCALE, and posts NANSCALE_TRAP where NSTE asks for it. -/
theorem nanScale_hit {cs : List Nat} (h : 0xFF ∈ cs) (s : State) : s.nanScale (cs.any fun c => decide (c = 0xFF)) =
    if s.curAct.ctrl.getLsbD 8 then (s.raise fNANSCALE).faultCur { cause := .nanscaleTrap } else s.raise fNANSCALE := by
  have hany : (cs.any fun c => decide (c = 0xFF)) = true := List.any_eq_true.2 ⟨_, h, by decide⟩
  rw [hany, ← raise_ctrl s fNANSCALE]; rfl

/-! ## TERNPK and its `.unpk` (R292) -/

theorem ternpk_refuses (h : Fires Forms.ternpk r s t s₁) (hx : s₁.sliceAt r 0 = .ok x) (hy : s₁.sliceAt r 1 = .ok y)
    (hrows : y.nrow + 1 ≠ ceilDiv (s₁.elems x 32).length 1024) :
    exec (.ternpk r) s = .next (s.faultCur (slotFault (s₁.opnd r 1) 1)) :=
  fire_error h ((bind_ok hx).trans (bind_error (sliceRows_refuses hy hrows)))

theorem ternpk_sends (h : Fires Forms.ternpk r s t s₁) (hx : s₁.sliceAt r 0 = .ok x) (hy : s₁.sliceAt r 1 = .ok y)
    (hk : kindForm (s₁.opnd r 2).kind = 0) (hrows : y.nrow + 1 = ceilDiv (s₁.elems x 32).length 1024) :
    let es := (s₁.elems x 32).map (ternOf (s₁.elem r 2))
    exec (.ternpk r) s = .next (((s₁.putElems y 2 (es.map (·.1))).raise (orFlags es)).out r t (s₁.descr r 1 3)) :=
  fire_ok h ((bind_ok hx).trans ((bind_ok (sliceRows_ok hy hrows)).trans (bind_ok (if_pos hk))))

/-- What `.unpk` gives for a code of two bits. -/
def unpacked (c : Nat) : Nat × Flg := (if c = 1 then 1 else if c = 3 then 0xFF else 0, if c = 2 then fTERNRSV else 0)

theorem wrapBits_ternVal {c : Nat} (h : c < 4) : (wrapBits 8 (ternVal c), if c = 2 then fTERNRSV else 0) = unpacked c := by
  interval_cases c <;> rfl

theorem elems_lt {w : Nat} {c : Nat} (h : c ∈ s.elems x w) : c < 2 ^ w := by
  obtain ⟨i, -, rfl⟩ := List.mem_map.1 h
  exact Nat.mod_lt _ (by positivity)

theorem unpk_refuses (h : Fires Forms.ternpkUnpk r s t s₁) (hx : s₁.sliceAt r 0 = .ok x) (hy : s₁.sliceAt r 1 = .ok y)
    (hrows : y.nrow + 1 ≠ 4 * (x.nrow + 1)) : exec (.ternpkUnpk r) s = .next (s.faultCur (slotFault (s₁.opnd r 1) 1)) :=
  fire_error h ((bind_ok hx).trans (bind_error (sliceRows_refuses hy hrows)))

theorem unpk_sends (h : Fires Forms.ternpkUnpk r s t s₁) (hx : s₁.sliceAt r 0 = .ok x) (hy : s₁.sliceAt r 1 = .ok y)
    (hrows : y.nrow + 1 = 4 * (x.nrow + 1)) :
    let es := (s₁.elems x 2).map unpacked
    exec (.ternpkUnpk r) s = .next (((s₁.putElems y 8 (es.map (·.1))).raise (orFlags es)).out r t (s₁.descr r 1 0)) := by
  have hes : (s₁.elems x 2).map (fun c => (wrapBits 8 (ternVal c), if c = 2 then fTERNRSV else 0)) = (s₁.elems x 2).map unpacked :=
    List.map_congr_left fun c hc => wrapBits_ternVal (elems_lt hc)
  rw [← hes]
  exact fire_ok h ((bind_ok hx).trans (bind_ok (sliceRows_ok hy hrows)))

end

/-- Settles O33: each record by whether its slices have the rows that its rule gives; VCVT then by what saturated, DQBLK by its scales. -/
theorem formatSlices : Obligations.FormatSlices := by
  intro r s s₁ t x y z dt d slot
  refine ⟨fun h hx hy => ?_, fun h hx hy hz => ?_, fun h hx hy hz => ?_, fun h hx hy hk => ?_, fun h hx hy => ?_⟩
  · intro src es rows v ys clamped lane sent sat
    refine ⟨vcvt_refuses h hx hy, fun hrows hno => ?_, fun hrows hsat p hp hlow => ?_⟩
    · have hnone : (if convSaturates src (elemTy dt) (satF r) then vcvtClamped s₁ r x else []) = [] :=
        hno.elim (fun hs => if_neg (by rw [show convSaturates src (elemTy dt) (satF r) = false from hs]; decide))
          fun hc => ite_eq_right_iff.2 fun _ => hc
      rw [vcvt_sends h hx hy hrows, hnone]
      rfl
    · rw [vcvt_sends h hx hy hrows, if_pos (show convSaturates src (elemTy dt) (satF r) = true from hsat),
        overflowOf_lowest (vcvtClamped_ascends s₁ r x) hp hlow]
      rfl
  · exact ⟨qblk_refuses_elements h hx hy, qblk_refuses_scales h hx hy hz, qblk_sends h hx hy hz⟩
  · intro n v cs es wrote o fits
    refine ⟨dqblk_refuses_elements h hx hz, dqblk_refuses_scales h hx hy hz, fun hrows hscales => ?_⟩
    have hsent := dqblk_sends h hx hy hz hrows hscales
    have hctrl := dqblkWrote_ctrl s₁ r x y z
    refine ⟨fun hno => ?_, fun hhit => ⟨fun hoff => ?_, fun hon => ?_⟩⟩
    · rw [hsent, nanScale_none hno]; rfl
    · rw [hsent, nanScale_hit hhit, hctrl, hoff]; rfl
    · rw [hsent, nanScale_hit hhit, hctrl, hon]; rfl
  · exact ⟨ternpk_refuses h hx hy, ternpk_sends h hx hy hk⟩
  · exact ⟨unpk_refuses h hx hy, unpk_sends h hx hy⟩

end Sys2Proof.Proofs.Formats
end

section
/-! Records as words and bytes (R75, R90): what an opcode decodes to, and that encoding and decoding are each other's inverse. -/

namespace Sys2Proof.Proofs.Encoding

open Sys2Proof

/-! ## Opcodes (R90) -/

/-- A form's opcode and fields name the record instruction that has the form. Rows that share an opcode are told apart by the TAG and SUB
values that their forms allow, as the law of each says; every other record instruction is the only one of its opcode. -/
theorem ofOpcode_of_form {i : Instr} {f : Form} {r : Rec} (hf : i.form = some f) (hr : i.record = some r) (hw : r.wf f = true) :
    ofOpcode f.opc r = some i := by
  cases i with
  | call r => exact Laws.Opcode.call r _ _ hf hr hw
  | callCol r => exact Laws.Opcode.callCol r _ _ hf hr hw
  | ternpk r => exact Laws.Opcode.ternpk r _ _ hf hr hw
  | ternpkUnpk r => exact Laws.Opcode.ternpkUnpk r _ _ hf hr hw
  | olds r => exact Laws.Opcode.olds r _ _ hf hr hw
  | oldsQ r => exact Laws.Opcode.oldsQ r _ _ hf hr hw
  | klook r => exact Laws.Opcode.klook r _ _ hf hr hw
  | klookPage r => exact Laws.Opcode.klookPage r _ _ hf hr hw
  | kpin r => exact Laws.Opcode.kpin r _ _ hf hr hw
  | kpinUnpin r => exact Laws.Opcode.kpinUnpin r _ _ hf hr hw
  | pgmap r => exact Laws.Opcode.pgmap r _ _ hf hr hw
  | pgmapList r => exact Laws.Opcode.pgmapList r _ _ hf hr hw
  | seqtbl r => exact Laws.Opcode.seqtbl r _ _ hf hr hw
  | seqtblNext r => exact Laws.Opcode.seqtblNext r _ _ hf hr hw
  | _ => cases hf <;> cases hr <;> rfl

theorem form_opc_lt {i : Instr} {f : Form} (hf : i.form = some f) : f.opc < 256 := by
  cases i <;> cases hf <;> decide

/-- What an opcode decodes to has that opcode and carries the record's fields, all of them. -/
theorem form_of_ofOpcode {n : Nat} (hn : n < 256) {r : Rec} {i : Instr} (h : ofOpcode n r = some i) :
    i.record = some r ∧ ∃ f, i.form = some f ∧ f.opc = n := by
  interval_cases n
  all_goals cases h
  -- two rows share the opcode (R153, R284, R297, R312)
  any_goals split
  all_goals exact ⟨rfl, _, rfl, rfl⟩

/-- The reserved cells of the opcode table, row by row (R90). -/
def reserved : List Nat :=
  [0x00, 0x18, 0x19, 0x1A, 0x1B, 0x1C, 0x1D, 0x1E, 0x1F, 0x3D, 0x3E, 0x3F, 0x51, 0x52, 0x53, 0x54, 0x55, 0x56, 0x57, 0x77, 0x78,
    0x79, 0x7A, 0x7B, 0x7C, 0x7D, 0x7E, 0x7F, 0x93, 0x94, 0x95, 0x96, 0x97, 0xAC, 0xAD, 0xAE, 0xAF, 0xC0, 0xC1, 0xC2, 0xC3, 0xC4,
    0xC5, 0xC6, 0xC7, 0xDC, 0xDD, 0xDE, 0xDF, 0xE0, 0xE1, 0xE2, 0xE3, 0xE4, 0xE5, 0xE6, 0xE7, 0xE8, 0xE9, 0xEA, 0xEB, 0xEC, 0xED,
    0xEE, 0xEF, 0xFC, 0xFD, 0xFE, 0xFF]

/-- Whatever the fields, exactly the reserved opcodes decode to nothing. -/
theorem isNone_ofOpcode {n : Nat} (hn : n < 256) (r : Rec) : (ofOpcode n r).isNone = decide (n ∈ reserved) := by
  interval_cases n <;> rfl

/-! ## Words (R75) -/

theorem encode_eq {i : Instr} {w : BitVec 96} (h : encode i = some w) :
    ∃ f r, i.form = some f ∧ i.record = some r ∧ w = wordOf (BitVec.ofNat 8 f.opc) r := by
  unfold encode at h
  split at h
  · rename_i f r hf hr
    exact ⟨f, r, hf, hr, (Option.some.inj h).symm⟩
  · cases h

theorem wf_record {n : Nat} {i : Instr} {f : Form} {r : Rec} (hf : i.form = some f) (hr : i.record = some r) (hw : i.wf n = true) :
    r.wf f = true := by
  simpa only [Instr.wf, hf, hr] using hw

/-- The word of a well-formed record instruction decodes to it: its opcode and its fields stand in the word as they were laid. -/
theorem decodeWord_encode {n : Nat} {i : Instr} {w : BitVec 96} (hw : i.wf n = true) (h : encode i = some w) :
    decodeWord w = some i := by
  obtain ⟨f, r, hf, hr, rfl⟩ := encode_eq h
  have hopc : (BitVec.ofNat 8 f.opc).toNat = f.opc := by
    rw [BitVec.toNat_ofNat, Nat.mod_eq_of_lt (form_opc_lt hf)]
  rw [decodeWord, opcOfWord_wordOf, recOfWord_wordOf, hopc]
  exact ofOpcode_of_form hf hr (wf_record hf hr hw)

/-- A word that decodes is the word of what it decodes to. -/
theorem encode_decodeWord {w : BitVec 96} {i : Instr} (h : decodeWord w = some i) : encode i = some w := by
  obtain ⟨hr, f, hf, hopc⟩ := form_of_ofOpcode (opcOfWord w).isLt h
  simp only [encode, hf, hr, hopc, BitVec.ofNat_toNat, BitVec.setWidth_eq, wordOf_fields]

theorem decodeWord_none_iff (w : BitVec 96) : decodeWord w = none ↔ (opcOfWord w).toNat ∈ reserved := by
  rw [decodeWord, ← Option.isNone_iff_eq_none, isNone_ofOpcode (opcOfWord w).isLt, decide_eq_true_iff]

/-! ## Bytes (R3, R75) -/

/-- The 12 bytes of a word, least significant first, are decoded as the word, and what follows them is left. -/
theorem decode_leBytes (w : BitVec 96) (rest : List Byte) :
    decode (leBytes 12 w.toNat ++ rest) = (decodeWord w).map fun i => (i, rest) := by
  have hlen : (leBytes 12 w.toNat).length = 12 := length_leBytes 12 _
  have hword : BitVec.ofNat 96 (leNat (leBytes 12 w.toNat)) = w := by
    rw [leNat_leBytes, Nat.mod_eq_of_lt (w.isLt.trans_eq (by norm_num)), BitVec.ofNat_toNat, BitVec.setWidth_eq]
  have hlong : ¬ (leBytes 12 w.toNat ++ rest).length < 12 := by rw [List.length_append, hlen]; omega
  rw [decode, if_neg hlong, List.take_left' hlen, List.drop_left' hlen, hword]

/-- Settles O1, from the laws of each opcode, of the fields of a word, and of the bytes of a number. -/
theorem decodeOfEncode : Obligations.DecodeOfEncode := by
  unfold Obligations.DecodeOfEncode
  refine fun n i hw => ⟨fun w h => decodeWord_encode hw h, fun bs rest h => ?_⟩
  obtain ⟨w, he, rfl⟩ := Option.map_eq_some_iff.1 h
  exact ⟨length_leBytes 12 _, by rw [decode_leBytes, decodeWord_encode hw he]; rfl⟩

/-- Settles O2, opcode by opcode. -/
theorem encodeOfDecode : Obligations.EncodeOfDecode := by
  unfold Obligations.EncodeOfDecode
  exact ⟨fun w i h => encode_decodeWord h, decodeWord_none_iff⟩

/-- Settles O3: the fields of each word, read off it. -/
theorem wordsDecode : Obligations.WordsDecode := by
  unfold Obligations.WordsDecode
  exact ⟨rfl, rfl, rfl, rfl⟩

end Sys2Proof.Proofs.Encoding
end

section
/-! The checks of a firing (R91, R92, R152): what each step refuses, in their order, and that the first that fails gives the fault. -/

namespace Sys2Proof.Proofs.Checks

open Sys2Proof Sys2Proof.Machine

/-! ## Every record instruction fires through the checks of R92 -/

/-- The effect of a firing behind its tag operation, as the checks of R92 run it. -/
def tagged (r : Rec) (eff : Word → State → Eff) (s : State) : Eff :=
  match s.outTag r with
  | .error x => .error x
  | .ok (t, s') => eff t s'

theorem fire_eq_fireRaw (f : Form) (r : Rec) (s : State) (eff : Word → State → Eff) :
    fire f r s eff = fireRaw f r s (tagged r eff) := rfl

/-- While the memory unit accepts requests, its firing goes through the checks. -/
theorem memFire_eq_fireRaw {s : State} (hu : s.UnitsFree) (f : Form) (r : Rec) (eff : Word → State → Eff) :
    memFire f r s eff = fireRaw f r s (tagged r eff) := by
  rw [← fire_eq_fireRaw, memFire, hu.memory]; rfl

/-- While the engine's path has room, so does a matrix instruction's. -/
theorem matFire_eq_fireRaw {s : State} (hu : s.UnitsFree) (f : Form) (r : Rec) : ∃ eff : State → Eff, matFire f r s = fireRaw f r s eff :=
  ⟨_, (if_neg (Nat.not_le.2 hu.matrix)).trans (fire_eq_fireRaw f r s _)⟩

/-- Every record instruction whose unit is free does an effect of its own behind the checks of R92. -/
theorem exec_eq_fireRaw {i : Instr} {f : Form} {r : Rec} {s : State} (hf : i.form = some f) (hr : i.record = some r) (hu : s.UnitsFree) :
    ∃ eff : State → Eff, exec i s = fireRaw f r s eff := by
  cases i with
  | loopin r | iter r | loopout r | loopcr r | call r | callCol r | ret r | spawn r | specbeg r =>
    cases hf; cases hr
    dsimp only [exec]
    exact ⟨_, rfl⟩
  | ld r | st r | ldv r | stv r | ldg r | sts r | mnop r | wave r | pf r | lwb r | linv r | sbind r | scancel r | sstat r | cpy r | cpyr r
  | mcrd r | xlat r | tlbinv r | fence r | rel r | acq r | itake r | iput r | iread r | iclr r | atom r | acas r | lsend r | qsend r
  | qfwd r | klook r | klookPage r | kapp r | kpin r | kpinUnpin r | kevict r | kfill r | pxlook r | pxins r | pgmap r | pgmapList r
  | pgfrz r | pgnew r | seqtbl r | seqtblNext r | prompt r =>
    cases hf; cases hr
    exact ⟨_, memFire_eq_fireRaw hu _ _ _⟩
  | oclm r | orel r | old r | olds r | oldsQ r | mma r | mmat r | mmax r | aclr r | amov r | aadd r | acvt r | ackpt r | arst r | astat r
  | smxi r | smxu r | smxn r | smxm r | smxr r | smxw r | smxs r =>
    cases hf; cases hr
    exact matFire_eq_fireRaw hu _ _
  | _ =>
    cases hf <;> cases hr <;> exact ⟨_, fire_eq_fireRaw _ _ _ _⟩

/-- The first check that fails gives the fault, and the fault is precise (R92, R401). -/
theorem exec_failed_check {i : Instr} {f : Form} {r : Rec} {s : State} {x : Flt} (hf : i.form = some f) (hr : i.record = some r)
    (hu : s.UnitsFree) (hx : s.check f r = some x) : exec i s = .next (s.faultCur x) := by
  obtain ⟨eff, he⟩ := exec_eq_fireRaw hf hr hu
  rw [he, fireRaw_check hx]

/-- Settles O6, by the form of every record instruction's meaning. -/
theorem failedCheckFaults : Obligations.FailedCheckFaults := by
  unfold Obligations.FailedCheckFaults
  exact fun i f r s x hf hr hu hx => exec_failed_check hf hr hu hx

/-! ## The order of the checks -/

section

variable {f : Form} {r : Rec} {s : State}

theorem check_of_check3_false (h3 : s.check3 f r = false) : s.check f r = some { cause := .illegalRecord } := by
  simp only [State.check, h3, Bool.not_false, if_true]

theorem check_of_check4_false (h3 : s.check3 f r = true) (h4 : check4 f r = false) :
    s.check f r = some { cause := .reservedOpcode } := by
  simp [State.check, h3, h4]

theorem check_of_check5_false (h3 : s.check3 f r = true) (h4 : check4 f r = true) (h5 : s.check5 r = false) :
    s.check f r = some { cause := .badLiteralKind, info := BitVec.ofNat 64 r.lit.toNat } := by
  simp [State.check, h3, h4, h5]

theorem check_of_check6_false (h3 : s.check3 f r = true) (h4 : check4 f r = true) (h5 : s.check5 r = true)
    (h6 : s.check6 f r = false) : s.check f r = some { cause := .permission } := by
  simp [State.check, h3, h4, h5, h6]

theorem check_none (h3 : s.check3 f r = true) (h4 : check4 f r = true) (h5 : s.check5 r = true) (h6 : s.check6 f r = true) :
    s.check f r = none := by
  simp [State.check, h3, h4, h5, h6]

/-- A record with a reserved bit set is refused by step 3. -/
theorem check3_of_rsv (h : r.rsv ≠ 0) : s.check3 f r = false := by
  simp only [State.check3, decide_eq_false h, Bool.false_and]

/-- A record with TAG 7 or above is refused by step 3. -/
theorem check3_of_tag (h : 6 < r.tag.toNat) : s.check3 f r = false := by
  simp only [State.check3, decide_eq_false (Nat.not_le.2 h), Bool.and_false, Bool.false_and]

/-- Step 5 refuses LK 0b11, and a window word that the firing's activation does not give (R78, R80). -/
theorem check5_eq_false (h : r.lk.toNat = 3 ∨ (r.lk.toNat = 2 ∧ s.windowWord (litWindow r).1 (litWindow r).2 = none)) :
    s.check5 r = false := by
  rcases h with h | ⟨h, hw⟩
  · simp only [State.check5, h]
  · simp only [State.check5, h, hw, Option.isSome_none]

end

/-! ## Privilege (R91, R191) -/

theorem privileged_forms {i : Instr} {f : Form} (hf : i.form = some f) :
    f.priv = true ↔ f.opc ∈ [0xF4, 0xF5, 0xF6, 0xF7, 0xF8, 0xF9, 0xFB, 0x92, 0xD4, 0xA9] := by
  cases i <;> cases hf <;> decide

section

variable {f : Form} {r : Rec} {s : State}

theorem isCtl_ordinary {c : CoreId} (h : c.core < 192) : c.isCtl = false := by
  simp [CoreId.isCtl, h]

/-- A privileged record is refused on an ordinary core. -/
theorem check6_of_priv (hp : f.priv = true) (hc : s.cur.core.core < 192) : s.check6 f r = false := by
  simp [State.check6, hp, isCtl_ordinary hc]

/-- SPECBEG is refused without the speculation grant. -/
theorem check6_of_no_grant (ho : f.opc = 0xA9) (hg : s.curAct.grant = false) : s.check6 f r = false := by
  simp [State.check6, ho, hg]

/-- SYSWR is refused on an ordinary core where R191 marks its register privileged. -/
theorem check6_of_sysPriv (ho : f.opc = 0xF3) (hc : s.cur.core.core < 192) (hp : s.sysPriv r = true) : s.check6 f r = false := by
  simp [State.check6, ho, isCtl_ordinary hc, hp]

theorem mod_bit_ne {v w : Word} (h : v.getLsbD 1 ≠ w.getLsbD 1) : v.toNat / 2 % 2 ≠ w.toNat / 2 % 2 := by
  intro he
  apply h
  simp only [BitVec.getLsbD, Nat.testBit_eq_decide_div_mod_eq, pow_one, he]

/-- The registers that R191 marks privileged: the masks and `CORE.WINGCFG`, and `CORE.PHASE` where MODE changes. -/
theorem sysPriv_of_register (h : (0x002 ≤ r.lit.toNat ∧ r.lit.toNat ≤ 0x012) ∨
    (r.lit.toNat = 0x001 ∧ s.cur.op0.val.getLsbD 1 ≠ (s.core s.cur.core).phase.getLsbD 1)) : s.sysPriv r = true := by
  rcases h with ⟨hlo, hhi⟩ | ⟨hl, hm⟩
  · simp [State.sysPriv, hlo, hhi]
  · simp [State.sysPriv, hl, mod_bit_ne hm]

end

/-! ## Operands that are no scalars (R152) -/

/-- An instruction that takes its operands as scalars refuses the first token operand that is none. -/
theorem fire_refuses_nonscalar {f : Form} {r : Rec} {s s₁ : State} {t : Word} {n : Nat} {eff : Word → State → Eff} (h : Fires f r s t s₁)
    (hn : n < r.ari.toNat) (hk : kindForm (s.tokenOp n).kind ≠ 0) (hm : ∀ m < n, kindForm (s.tokenOp m).kind = 0) :
    (fire f r s fun t s => do s.scalars r; eff t s) =
      .next (s.faultCur { cause := .operandSlot, info := (s.tokenOp n).val, detail := n }) := by
  have hop : ∀ m, s₁.tokenOp m = s.tokenOp m := State.tokenOp_cur h.cur
  refine fire_error h (Numbers.bind_error ?_)
  rw [State.scalars_error hn (by rwa [hop]) fun m hlt => by rw [hop]; exact hm m hlt, hop]
  rfl

/-- Settles O7, check by check; the refusal of operands is one lemma over the twenty instructions. -/
theorem checkOrder : Obligations.CheckOrder := by
  unfold Obligations.CheckOrder
  refine ⟨fun f r s => ⟨check_of_check3_false, check_of_check4_false, fun h3 h4 h5 => check_of_check5_false h3 h4 (check5_eq_false h5),
    check_none, check3_of_rsv, check3_of_tag⟩, fun i f hf => privileged_forms hf, ?privilege, ?operands⟩
  case privilege =>
    intro i f r s hf hr hu h3 h4 h5 v phase h
    refine exec_failed_check hf hr hu (check_of_check6_false h3 h4 h5 ?_)
    rcases h with ⟨hp, hc⟩ | ⟨ho, hg⟩ | ⟨ho, hc, hreg⟩
    · exact check6_of_priv hp hc
    · exact check6_of_no_grant ho hg
    · exact check6_of_sysPriv ho hc (sysPriv_of_register hreg)
  case operands =>
    intro r s s₁ t n hn hk hm
    simp only [List.forall_mem_cons, List.not_mem_nil, false_imp_iff, implies_true, and_true]
    and_intros <;> exact fun h => fire_refuses_nonscalar h hn hk hm

end Sys2Proof.Proofs.Checks
end

section
/-! Start-up (R103, R105, R107): what link training does with a package number that is also the number of the host link. -/

namespace Sys2Proof.Proofs.StartUp

open Sys2Proof Sys2Proof.Machine

/-- Package 0 in Recovery, and a package listed under number 64, the number that links use for the host, at stage Map. -/
def recoveryBeside64 : State :=
  { State.reset with packages := [(0, { Package.reset with stage := 0xE }), (64, { Package.reset with stage := 0x3 })] }

/-- The version at which package 0 holds its link of number 64 after an outcome; 0 while it is down. -/
def version0 : Host.Outcome State Fault Refusal → BitVec 16
  | .next s => (s.link 0 hostLink).ver
  | _ => 0

/-- Refutes O48: its clause on links between packages says that nothing happens where one of the two is not at stages Map to Ready, and
leaves the package's own number p free but for q ≠ p. With p = 64, the host link's number, a package q in Recovery takes p for its host
link, which R103 lets it train, and both ends come up. -/
theorem not_startUpEvents : ¬ Obligations.StartUpEvents := by
  unfold Obligations.StartUpEvents
  rintro ⟨_, _, hlink, _⟩
  obtain ⟨_, hpeers, _⟩ := hlink recoveryBeside64 64 0 0x0100 0x0100 true true
  obtain ⟨_, hdown⟩ := hpeers (by decide) (by decide) (by decide)
  have hstays : exec (.linkTraining 64 0 0x0100 0x0100 true true) recoveryBeside64 = .next recoveryBeside64 := hdown (.inr (by decide))
  have htrained : version0 (exec (.linkTraining 64 0 0x0100 0x0100 true true) recoveryBeside64) = 0x0100 := by decide
  have hbefore : version0 (.next recoveryBeside64) = 0 := by decide
  rw [hstays, hbefore] at htrained
  exact absurd htrained (by decide)

end Sys2Proof.Proofs.StartUp
end

section
/-! The machine right after power-on (R103, R115, R148, R197): every part reads as its unlisted value. -/

namespace Sys2Proof.Proofs.Reset

open Sys2Proof Sys2Proof.Machine

/-- A core that the state does not list differs from `Core.reset` in the power of it and of its router alone (R115). -/
theorem unlisted_eq (c : CoreId) :
    Core.unlisted c =
      { Core.reset with power := if c.isCtl = true then .awake else .gated, router := if c.isCtl = true then .awake else .gated } := by
  unfold Core.unlisted
  split <;> rfl

theorem reset_core (c : CoreId) : State.reset.core c = Core.unlisted c := rfl

theorem reset_pkg (p : Nat) : State.reset.pkg p = Package.reset := rfl

theorem reset_cluster (k : CluId) : State.reset.cluster k = Cluster.reset := rfl

/-- No die holds a line and no memory lists a byte. -/
theorem reset_peekByte (d : DieId) (a : Nat) : State.reset.peekByte d a = 0 := rfl

/-- Settles O60: what the state lists is empty, and what it does not list reads as the reset value of its part. -/
theorem resetState : Obligations.ResetState := by
  unfold Obligations.ResetState
  refine ⟨rfl, rfl, rfl, rfl, rfl, fun p => ?packages, fun c n => ?counters, fun c => ?cores, fun k => ?clusters, reset_peekByte, rfl⟩
  case packages =>
    rw [reset_pkg]
    exact ⟨rfl, Nat.zero_sub _, rfl, rfl⟩
  case counters =>
    rw [reset_core, unlisted_eq]
    rfl
  case cores =>
    rw [reset_core, unlisted_eq]
    exact ⟨rfl, rfl, rfl, rfl, rfl, rfl, rfl⟩
  case clusters =>
    rw [reset_cluster]
    rfl

end Sys2Proof.Proofs.Reset
end

section
/-! Power and temperature (R115, R125 to R127, R433 to R438): what islands, cores and routers do, event by event. -/

namespace Sys2Proof.Proofs.Power

open Sys2Proof Sys2Proof.Machine

/-! ## Allowances (R125) -/

theorem allowance_hot {i c : Nat} {t : Int} (h : 840 ≤ t) : allowance i t c = 0 := by
  have h0 : (min (min 840 (max 0 (840 - t))).toNat 80) = 0 := by omega
  simp only [allowance, h0, Nat.zero_min, Nat.mul_zero, Nat.zero_div]

theorem allowance_full {i c : Nat} {t : Int} (ht : t ≤ 760) (hc : c ≤ 90) : allowance i t c = 100 * Config.islandCap i := by
  have h80 : min (min (min 840 (max 0 (840 - t))).toNat 80) (8 * min (100 - c) 10) = 80 := by omega
  simp only [allowance, h80]
  omega

theorem allowance_le (i c : Nat) (t : Int) : allowance i t c ≤ 100 * Config.islandCap i := by
  have h80 : min (min (min 840 (max 0 (840 - t))).toNat 80) (8 * min (100 - c) 10) ≤ 80 := by omega
  unfold allowance
  rw [Nat.mul_comm 100]
  exact Nat.div_le_of_le_mul (by rw [Nat.mul_comm 80]; exact Nat.mul_le_mul_left _ h80)

/-! ## Operating points (R126, R127) -/

theorem setPoint_same {s : State} {p i pt : Nat} (h : pt = (s.island p i).point) : s.setPoint p i pt = s := if_pos h.symm

/-- A new point takes the slower of the two clocks at once, and its own 2 µs later. -/
theorem setPoint_new {s : State} {p i pt : Nat} (h : pt ≠ (s.island p i).point) :
    s.setPoint p i pt = (s.modIsland p i fun x =>
      { x.settled s.now with point := pt, clock := max x.clock pt, changes := satAdd x.changes 1 }).at_
        (s.now + 2000) .clockChangeDone ⟨pkgCore p, i, 0, false⟩ := if_neg (Ne.symm h)

section
variable {s : State} {p i : Nat}

/-- The allowance that a refresh gives an island (R125). -/
def nextAllowance (s : State) (p i : Nat) : Nat := allowance i (s.island p i).temp (s.island p i).current

/-- The state in which an island has taken its allowance, its windows ended and its energy counted (R125, R437). -/
def allowed (s : State) (p i : Nat) : State :=
  s.modIsland p i fun x =>
    { x with allow := nextAllowance s p i, current := 0, force5 := false, down1 := false,
             energy := satAdd x.energy (drawAt x.committed x.point / 10) }

theorem refreshIsland_hot (h : (s.island p i).hot = true) : s.refreshIsland p i = allowed s p i := if_pos h

theorem refreshIsland_down (h : (s.island p i).hot = false) (hd : (s.island p i).down1 = true) :
    s.refreshIsland p i = (allowed s p i).setPoint p i (min 5 ((s.island p i).point + 1)) :=
  (if_neg (by simp [h])).trans (if_pos hd)

theorem refreshIsland_up (h : (s.island p i).hot = false) (hd : (s.island p i).down1 = false) (hp : 0 < (s.island p i).point)
    (hf : drawAt (s.island p i).committed ((s.island p i).point - 1) ≤ nextAllowance s p i) :
    s.refreshIsland p i = (allowed s p i).setPoint p i ((s.island p i).point - 1) :=
  (if_neg (by simp [h])).trans ((if_neg (by simp [hd])).trans (if_pos ⟨hp, hf⟩))

theorem refreshIsland_stays (h : (s.island p i).hot = false) (hd : (s.island p i).down1 = false)
    (hf : (s.island p i).point = 0 ∨ nextAllowance s p i < drawAt (s.island p i).committed ((s.island p i).point - 1)) :
    s.refreshIsland p i = allowed s p i := by
  have hn : ¬ (0 < (s.island p i).point ∧ drawAt (s.island p i).committed ((s.island p i).point - 1) ≤ nextAllowance s p i) := by omega
  exact (if_neg (by simp [h])).trans ((if_neg (by simp [hd])).trans (if_neg hn))
end

/-! ## Droop and current (R437) -/

/-- An island that has measured a peak, which the next refresh judges. -/
def peakMeasured (s : State) : State :=
  s.modIsland s.site.core.pkg s.site.n fun x => { x with current := max x.current s.site.m }

theorem currentPeak_counts {s : State} (h : s.site.m ≤ 110) : exec .currentPeak s = .next (peakMeasured s) :=
  congrArg Host.Outcome.next (if_neg (Nat.not_lt.2 h))

theorem currentPeak_forces {s : State} (h : 110 < s.site.m) :
    exec .currentPeak s = .next (((peakMeasured s).modIsland s.site.core.pkg s.site.n fun x => { x with force5 := true }).setPoint
      s.site.core.pkg s.site.n 5) :=
  congrArg Host.Outcome.next (if_pos h)

theorem packagePowerWindow_within {s : State} (h : s.site.n ≤ Config.packageLimit) : exec .packagePowerWindow s = .next s :=
  congrArg Host.Outcome.next (if_pos h)

theorem packagePowerWindow_above {s : State} (h : Config.packageLimit < s.site.n) :
    exec .packagePowerWindow s =
      .next ((List.range 32).foldl (fun s i => s.modIsland s.site.core.pkg i fun x => { x with down1 := true }) s) :=
  congrArg Host.Outcome.next (if_neg (Nat.not_le.2 h))

/-! ## Temperature (R424, R438) -/

section
variable {s : State} {p i : Nat} {t : Int}

/-- The state in which a reading of an island's temperature is recorded, its junction watched (R424, R438). -/
def measured (s : State) (p i : Nat) (t : Int) : State :=
  (s.modIsland p i fun x => { x with temp := t, tmax := if x.tmax.toInt < t then BitVec.ofInt 64 t else x.tmax }).junctionWatch p i t

theorem measured_now : (measured s p i t).now = s.now := by
  unfold measured State.junctionWatch
  split <;> rfl

theorem thermal_ten_ms_stops (hm : s.site.flag = true) (hs : (s.island p i).stopped = true) (ht : (s.island p i).since = s.site.n) :
    exec (.thermal p i t) s = .next (s.stopPackage p i (s.island p i).temp) :=
  congrArg Host.Outcome.next ((if_pos hm).trans (if_pos ⟨hs, ht⟩))

theorem thermal_ten_ms_over (hm : s.site.flag = true) (h : (s.island p i).stopped = false ∨ (s.island p i).since ≠ s.site.n) :
    exec (.thermal p i t) s = .next s :=
  congrArg Host.Outcome.next ((if_pos hm).trans (if_neg (by simpa [imp_iff_not_or] using h)))

/-- The four bands of a reading, by its thresholds in 1/8 °C, and the states of the island in each (R438). -/
theorem thermal_reading (hm : s.site.flag = false) :
    exec (.thermal p i t) s = .next (
      if 960 ≤ t then (measured s p i t).stopPackage p i t
      else if 880 ≤ t then
        if (s.island p i).stopped = true then measured s p i t
        else
          (((measured s p i t).modIsland p i fun x => { x.settled s.now with stopped := true, hot := true }).thermalRecord
            p i 2 t).at_ (s.now + 10000000) (.thermal p i t) ⟨pkgCore p, s.now, 0, true⟩
      else if (s.island p i).stopped = true then
        if t < 800 then
          ((measured s p i t).modIsland p i fun x =>
            { x with stopped := false, hot := false, point := 5, clock := 5, since := s.now }).thermalRecord p i 3 t
        else measured s p i t
      else if 840 ≤ t then
        if (s.island p i).hot = true then measured s p i t
        else (((measured s p i t).modIsland p i fun x => { x with hot := true }).setPoint p i 5).thermalRecord p i 1 t
      else (measured s p i t).modIsland p i fun x => { x with hot := false }) := by
  rw [← measured_now]
  exact congrArg Host.Outcome.next (if_neg (by simp [hm]))
end

/-! ## Quiet cores and routers (R433, R434) -/

section
variable {s : State}

theorem coreDrowsy_stops (hp : (s.core s.site.core).power = .awake) (hi : (s.core s.site.core).idle = true) :
    exec .coreDrowsy s = .next (s.setCore s.site.core { s.core s.site.core with power := .drowsy, drowsyAt := s.now }) :=
  congrArg Host.Outcome.next (if_pos ⟨hp, hi⟩)

theorem coreDrowsy_stays (h : (s.core s.site.core).power ≠ .awake ∨ (s.core s.site.core).idle = false) :
    exec .coreDrowsy s = .next s :=
  congrArg Host.Outcome.next (if_neg (by simpa [imp_iff_not_or] using h))

theorem routerDrowsy_decides (hm : s.site.flag = false) (hr : (s.core s.site.core).router = .awake) :
    exec .routerDrowsy s =
      .next ((s.setCore s.site.core { s.core s.site.core with routerDeciding := true }).laterAt .routerDrowsy s.site.core 0 0 true) :=
  congrArg Host.Outcome.next ((if_neg (by simp [hm])).trans (if_pos hr))

theorem routerDrowsy_not_awake (hm : s.site.flag = false) (hr : (s.core s.site.core).router ≠ .awake) : exec .routerDrowsy s = .next s :=
  congrArg Host.Outcome.next ((if_neg (by simp [hm])).trans (if_neg hr))

theorem routerDrowsy_stops (hm : s.site.flag = true) (hd : (s.core s.site.core).routerDeciding = true) :
    exec .routerDrowsy s =
      .next (s.setCore s.site.core { s.core s.site.core with router := .drowsy, routerDeciding := false, routerAt := s.now }) :=
  congrArg Host.Outcome.next ((if_pos hm).trans (if_pos hd))

theorem routerDrowsy_abandoned (hm : s.site.flag = true) (hd : (s.core s.site.core).routerDeciding = false) :
    exec .routerDrowsy s = .next s :=
  congrArg Host.Outcome.next ((if_pos hm).trans (if_neg (by simp [hd])))
end

/-! ## Gating (R115) -/

section
variable {s : State}

/-- An ordinary core that no resident configuration uses and that is not gated yet. -/
def Unused (s : State) : Prop :=
  s.site.core.core < 192 ∧ (s.core s.site.core).owner = [] ∧ (s.core s.site.core).power ≠ .gated

/-- Nothing stands in the core of the site, and no token is on its way to it. -/
def Quiet (s : State) : Prop :=
  (s.core s.site.core).idle = true ∧ ∀ (path : Path) (t : Token) (x : Site), Item.event (.tokenArrival s.site.core path t) x ∉ s.agenda

theorem not_unused_iff :
    (s.site.core.isCtl = true ∨ (!(s.core s.site.core).owner.isEmpty) = true ∨ (s.core s.site.core).power = .gated) ↔ ¬ Unused s := by
  simp only [Unused, CoreId.isCtl, decide_eq_true_eq, Bool.not_eq_true', List.isEmpty_eq_false_iff]
  rw [← Nat.not_lt]
  tauto

theorem powerGate_used (h : ¬ Unused s) : exec .powerGate s = .next s :=
  congrArg Host.Outcome.next (if_pos (not_unused_iff.2 h))

theorem powerGate_waits (hu : Unused s) (h : ¬ Quiet s) : exec .powerGate s = .next (s.laterAt .powerGate s.site.core 0) := by
  refine congrArg Host.Outcome.next ((if_neg fun hn => not_unused_iff.1 hn hu).trans (if_pos ?_))
  by_cases hi : (s.core s.site.core).idle = true
  · obtain ⟨path, t, x, hmem⟩ : ∃ path t x, Item.event (.tokenArrival s.site.core path t) x ∈ s.agenda := by
      simpa [Quiet, hi] using h
    exact .inr (List.any_eq_true.2 ⟨_, hmem, decide_eq_true rfl⟩)
  · exact .inl (by simpa using hi)

theorem powerGate_gates (hu : Unused s) (h : Quiet s) :
    exec .powerGate s = .next (s.setCore s.site.core
      { s.core s.site.core with
        power := .gated, router := .gated, routerDeciding := false,
        gateAt := (s.island s.site.core.pkg (coreIsland s.site.core)).tenths s.now }) := by
  obtain ⟨hidle, hway⟩ := h
  refine congrArg Host.Outcome.next ((if_neg fun hn => not_unused_iff.1 hn hu).trans (if_neg ?_))
  rintro (hi | hb)
  · simp [hidle] at hi
  · obtain ⟨it, hmem, hit⟩ := List.any_eq_true.1 hb
    split at hit
    next c path t x => exact hway path t x (of_decide_eq_true hit ▸ hmem)
    next => exact Bool.false_ne_true hit

/-- An install wakes a gated core with its router, and counts the time for which it was gated (R115, R197). -/
theorem wakeCore_gated {c : CoreId} (h : (s.core c).power = .gated) :
    s.wakeCore c = s.setCore c
      { s.core c with
        power := .awake, router := .awake, drowsyAt := s.now, routerAt := s.now,
        lost := (s.core c).lost + ((s.island c.pkg (coreIsland c)).tenths s.now - (s.core c).gateAt) } :=
  if_neg (not_not.2 h)
end

/-- Settles O49, event by event; a reading of an island by the four bands of `thermal_reading`. -/
theorem powerEvents : Obligations.PowerEvents := by
  unfold Obligations.PowerEvents
  refine ⟨fun i c t => ⟨allowance_hot, allowance_full, allowance_le i c t⟩, fun s p i pt => ⟨setPoint_same, setPoint_new⟩,
    fun s p i => ⟨refreshIsland_hot, refreshIsland_down, refreshIsland_up, refreshIsland_stays⟩, fun s => ?islands,
    fun s p i t => ?thermal, fun s => ?cores⟩
  case islands =>
    exact ⟨rfl, rfl, rfl, rfl, ⟨currentPeak_counts, currentPeak_forces⟩, packagePowerWindow_within, packagePowerWindow_above⟩
  case thermal =>
    refine ⟨thermal_ten_ms_stops, thermal_ten_ms_over, fun hm => ?_⟩
    rw [thermal_reading hm]
    refine ⟨fun h => ?fatal, fun hlo hhi hs => ?tooHot, fun h hs => ?cooled, fun hlo hhi hs => ?stays,
      fun hlo hhi hs => ⟨fun hh => ?held, fun hh => ?hot⟩, fun h hs => ?normal⟩
    case fatal => rw [if_pos h]; rfl
    case tooHot => rw [if_neg (by omega), if_pos hlo, if_neg (by simp [hs])]; rfl
    case cooled => rw [if_neg (by omega), if_neg (by omega), if_pos hs, if_pos h]; rfl
    case stays => rw [if_neg (by omega), if_neg (by omega : ¬ t < 800), if_pos hs, if_pos hs, ite_self]; rfl
    case held => rw [if_neg (by omega), if_neg (by omega), if_neg (by simp [hs]), if_pos hlo, if_pos hh]; rfl
    case hot => rw [if_neg (by omega), if_neg (by omega), if_neg (by simp [hs]), if_pos hlo, if_neg (by simp [hh])]; rfl
    case normal => rw [if_neg (by omega), if_neg (by omega), if_neg (by simp [hs]), if_neg (by omega)]; rfl
  case cores =>
    refine ⟨coreDrowsy_stops, coreDrowsy_stays, fun h => ?wakes, fun h => ?awake, routerDrowsy_decides, routerDrowsy_not_awake,
      routerDrowsy_stops, routerDrowsy_abandoned, fun h => ?abandons, fun hd h => ?routerWakes, fun hd h => ?routerAwake,
      ⟨powerGate_gates, powerGate_waits, powerGate_used⟩, fun h => ?notGated, wakeCore_gated⟩
    case wakes => exact congrArg Host.Outcome.next (if_pos h)
    case awake => exact congrArg Host.Outcome.next (if_neg h)
    case abandons => exact congrArg Host.Outcome.next (if_pos h)
    case routerWakes => exact congrArg Host.Outcome.next ((if_neg (by simp [hd])).trans (if_pos h))
    case routerAwake => exact congrArg Host.Outcome.next ((if_neg (by simp [hd])).trans (if_neg h))
    case notGated => exact if_pos h

end Sys2Proof.Proofs.Power
end

section
/-! Task graphs (R118 to R123): what each of their messages does, check by check. -/

namespace Sys2Proof.Proofs.Graphs

open Sys2Proof Sys2Proof.Machine

/-! ## Room in a control core's storage (R118) -/

/-- A walk that takes each element or passes it over ends with what it began with or with an element. -/
theorem mem_of_foldl_eq_some {α : Type} {f : Option α → α → Option α} (hf : ∀ m x, f m x = some x ∨ f m x = m) {a : α} :
    ∀ (xs : List α) (acc : Option α), xs.foldl f acc = some a → acc = some a ∨ a ∈ xs
  | [], _, h => .inl h
  | x :: xs, acc, h => by
    rcases mem_of_foldl_eq_some hf xs _ h with h | h
    · rcases hf acc x with hx | hx
      · exact .inr (by rw [hx] at h; cases h; exact List.mem_cons_self)
      · exact .inl (hx ▸ h)
    · exact .inr (List.mem_cons_of_mem x h)

theorem firstFit_fits {used : List (Nat × Nat)} {lo hi n a : Nat} (h : firstFit used lo hi n = some a) :
    a + n ≤ hi ∧ ∀ u ∈ used, a + n ≤ u.1 ∨ u.1 + u.2 ≤ a := by
  have hmem := (mem_of_foldl_eq_some (fun m x => ?_) _ _ h).resolve_left (by simp)
  · simpa using (List.mem_filter.1 hmem).2
  · cases m with
    | none => exact .inl rfl
    | some b => exact (min_choice x b).imp (congrArg some) (congrArg some)

/-- Where a graph's copies are placed, they lie apart from those of the core's other graphs, and within its storage. -/
theorem storePlace_fits {s : State} {c : CoreId} {g : TaskGraph} {a : Nat} (h : s.storePlace c g = some a) :
    (∀ y ∈ (s.cluster c.cluId).graphs, y.ctl = c.core → a + 8 * g.space ≤ y.base ∨ y.base + 8 * y.space ≤ a) ∧
      a + 8 * g.space ≤ s.storeOf c + 8 * (s.pkg c.pkg).storeLen := by
  obtain ⟨hroom, hapart⟩ := firstFit_fits h
  refine ⟨fun y hy hctl => hapart (y.base, 8 * y.space) ?_, hroom⟩
  exact List.mem_map.2 ⟨y, List.mem_filter.2 ⟨hy, decide_eq_true hctl⟩, rfl⟩

/-! ## The messages -/

section
variable {s s₁ : State} {c : CoreId} {m : Msg} {num : Nat} (hx : s.takeLaunch c m = (num, s₁))
include hx

/-! ### GRAPHREG (R118) -/

theorem graphreg_refused
    (h : graphMsgOk m = false ∨ msgField m 3 63 16 ≠ 0 ∨ msgField m 2 51 0 % 8 ≠ 0 ∨ msgField m 3 15 0 = 0 ∨
      s₁.graph? c (msgField m 3 15 0) ≠ none) :
    exec (.graphreg c m) s = .next (s₁.endGraphMsg c m num 1 (msgField m 3 15 0) 0 0) := by
  show execGraphreg c m s = _
  simp only [execGraphreg, hx]
  rw [if_pos (by simpa [Option.isSome_iff_ne_none] using h)]

/-- A GRAPHREG whose own fields are legal, and whose TGID is free (R118). -/
structure Registers (s₁ : State) (c : CoreId) (m : Msg) : Prop where
  ok    : graphMsgOk m = true
  zero  : msgField m 3 63 16 = 0
  table : msgField m 2 51 0 % 8 = 0
  tgid  : msgField m 3 15 0 ≠ 0
  free  : s₁.graph? c (msgField m 3 15 0) = none

omit hx in
theorem Registers.not_refused (h : Registers s₁ c m) :
    ¬ ((!graphMsgOk m) = true ∨ msgField m 3 63 16 ≠ 0 ∨ msgField m 2 51 0 % 8 ≠ 0 ∨ msgField m 3 15 0 = 0 ∨
      (s₁.graph? c (msgField m 3 15 0)).isSome = true) := by
  obtain ⟨hok, hzero, htable, htgid, hfree⟩ := h
  simp [hok, hzero, htable, htgid, hfree]

theorem graphreg_unreadable (h : Registers s₁ c m) (hr : s₁.readGraph (msgField m 2 51 0) (msgField m 2 63 52 + 1) = none) :
    exec (.graphreg c m) s = .next (s₁.endGraphMsg c m num 1 (msgField m 3 15 0) 0 0) := by
  show execGraphreg c m s = _
  simp only [execGraphreg, hx]
  rw [if_neg h.not_refused]
  simp only [hr]

/-- A graph as its table gives it, with no replay yet and no place (R118). -/
def newGraph (c : CoreId) (tgid : Nat) (xs : List NodeRec) : TaskGraph :=
  { ctl := c.core, tgid := tgid, base := 0, psizes := xs.map fun x => bodyPsize x.body, bodies := xs.map (·.body),
    succs := xs.map (·.succs), nextNum := 1, live := [], heldQ := [], dropped := false }

theorem graphreg_no_room {xs : List NodeRec} (h : Registers s₁ c m)
    (hr : s₁.readGraph (msgField m 2 51 0) (msgField m 2 63 52 + 1) = some xs)
    (hp : s₁.storePlace c (newGraph c (msgField m 3 15 0) xs) = none) :
    exec (.graphreg c m) s = .next (s₁.endGraphMsg c m num 0x0A (msgField m 3 15 0) 0 0) := by
  show execGraphreg c m s = _
  unfold newGraph at hp
  simp only [execGraphreg, hx]
  rw [if_neg h.not_refused]
  simp only [hr, hp]

theorem graphreg_registers {xs : List NodeRec} {a : Nat} (h : Registers s₁ c m)
    (hr : s₁.readGraph (msgField m 2 51 0) (msgField m 2 63 52 + 1) = some xs)
    (hp : s₁.storePlace c (newGraph c (msgField m 3 15 0) xs) = some a) :
    exec (.graphreg c m) s = .next ((s₁.modCluster c.cluId fun k =>
      { k with graphs := k.graphs ++ [{ newGraph c (msgField m 3 15 0) xs with base := a }] }).endGraphMsg c m num 0
        (msgField m 3 15 0) 0 0) := by
  show execGraphreg c m s = _
  unfold newGraph at hp
  simp only [execGraphreg, hx]
  rw [if_neg h.not_refused]
  simp only [hr, hp, newGraph]

/-! ### REPLAY and GRAPHDROP (R119, R121) -/

theorem replay_refused (h : graphMsgOk m = false ∨ msgField m 2 63 16 ≠ 0 ∨ msgField m 3 63 0 ≠ 0) :
    exec (.replay c m) s = .next (s₁.endGraphMsg c m num 1 (msgField m 2 15 0) 0 0) := by
  show execReplay c m s = _
  simp only [execReplay, hx]
  rw [if_pos (by simpa using h)]

theorem graphdrop_refused (h : graphMsgOk m = false ∨ msgField m 2 63 16 ≠ 0 ∨ msgField m 3 63 0 ≠ 0) :
    exec (.graphdrop c m) s = .next (s₁.endGraphMsg c m num 1 (msgField m 2 15 0) 0 0) := by
  show execGraphdrop c m s = _
  simp only [execGraphdrop, hx]
  rw [if_pos (by simpa using h)]

omit hx in
theorem not_refused (hok : graphMsgOk m = true) (h2 : msgField m 2 63 16 = 0) (h3 : msgField m 3 63 0 = 0) :
    ¬ ((!graphMsgOk m) = true ∨ msgField m 2 63 16 ≠ 0 ∨ msgField m 3 63 0 ≠ 0) := by
  simp [hok, h2, h3]

section
variable (hok : graphMsgOk m = true) (h2 : msgField m 2 63 16 = 0) (h3 : msgField m 3 63 0 = 0)
include hok h2 h3

theorem replay_unknown (hg : s₁.graph? c (msgField m 2 15 0) = none) :
    exec (.replay c m) s = .next (s₁.endGraphMsg c m num 9 (msgField m 2 15 0) 0 0) := by
  show execReplay c m s = _
  simp only [execReplay, hx]
  rw [if_neg (not_refused hok h2 h3)]
  simp only [hg]

theorem graphdrop_unknown (hg : s₁.graph? c (msgField m 2 15 0) = none) :
    exec (.graphdrop c m) s = .next (s₁.endGraphMsg c m num 9 (msgField m 2 15 0) 0 0) := by
  show execGraphdrop c m s = _
  simp only [execGraphdrop, hx]
  rw [if_neg (not_refused hok h2 h3)]
  simp only [hg]

variable {g : TaskGraph} (hg : s₁.graph? c (msgField m 2 15 0) = some g)
include hg

/-- A REPLAY of a known graph: refused once the graph is dropped, held behind others or while four are live, else accepted (R119). -/
theorem replay_known :
    exec (.replay c m) s = .next (
      if g.dropped = true then s₁.endGraphMsg c m num 9 (msgField m 2 15 0) 0 0
      else if 4 ≤ g.live.length ∨ (!g.heldQ.isEmpty) = true then
        s₁.modGraph c (msgField m 2 15 0) fun y => { y with heldQ := y.heldQ ++ [(m, num)] }
      else s₁.acceptReplay c m num g) := by
  show execReplay c m s = _
  simp only [execReplay, hx]
  rw [if_neg (not_refused hok h2 h3)]
  simp only [hg]

/-- A GRAPHDROP of a known graph: refused once the graph is dropped (R121). -/
theorem graphdrop_known :
    exec (.graphdrop c m) s = .next (
      if g.dropped = true then s₁.endGraphMsg c m num 9 (msgField m 2 15 0) 0 0
      else ((s₁.modGraph c (msgField m 2 15 0) fun y => { y with dropped := true }).freeGraph c (msgField m 2 15 0)).endGraphMsg c m num 0
        (msgField m 2 15 0) 0 0) := by
  show execGraphdrop c m s = _
  simp only [execGraphdrop, hx]
  rw [if_neg (not_refused hok h2 h3)]
  simp only [hg]
end
end

/-! ### PATCH (R121) -/

section
variable {s s₁ : State} {c : CoreId} {m : Msg} {num : Nat} (hx : s.takeLaunch c m = (num, s₁))
include hx

/-- What PATCH reserves is zero, and the body that it names is aligned (R121, R122). -/
def PatchOk (m : Msg) : Prop :=
  graphMsgOk m = true ∧ msgField m 2 63 28 = 0 ∧ msgField m 3 63 52 = 0 ∧ msgField m 3 51 0 % 8 = 0

omit hx in
theorem not_patchOk_iff :
    ((!graphMsgOk m) = true ∨ msgField m 2 63 28 ≠ 0 ∨ msgField m 3 63 52 ≠ 0 ∨ msgField m 3 51 0 % 8 ≠ 0) ↔ ¬ PatchOk m := by
  simp only [PatchOk, not_and_or, Bool.not_eq_true', Bool.not_eq_true, ne_eq]

theorem patch_refused (h : ¬ PatchOk m) :
    exec (.patch c m) s = .next (s₁.endGraphMsg c m num 1 (msgField m 2 15 0) (msgField m 2 27 16) 0) := by
  show execPatch c m s = _
  simp only [execPatch, hx]
  rw [if_pos (not_patchOk_iff.2 h)]

theorem patch_unknown (h : PatchOk m) (hg : s₁.graph? c (msgField m 2 15 0) = none) :
    exec (.patch c m) s = .next (s₁.endGraphMsg c m num 9 (msgField m 2 15 0) (msgField m 2 27 16) 0) := by
  show execPatch c m s = _
  simp only [execPatch, hx]
  rw [if_neg fun hn => not_patchOk_iff.1 hn h]
  simp only [hg]

/-- A PATCH of a known graph: refused once the graph is dropped, where it has no such node or the body is ill-formed, and where the body's
parameter block exceeds the room of the first; else the body is replaced (R121). -/
theorem patch_known (h : PatchOk m) {g : TaskGraph} (hg : s₁.graph? c (msgField m 2 15 0) = some g) :
    let tgid := msgField m 2 15 0
    let node := msgField m 2 27 16
    let body := s₁.wordsAt (msgField m 3 51 0) 12
    exec (.patch c m) s = .next (
      if g.dropped = true then s₁.endGraphMsg c m num 9 tgid node 0
      else if g.bodies.length ≤ node ∨ (!bodyOk body) = true then s₁.endGraphMsg c m num 1 tgid node 0
      else if g.psizes.getD node 0 < bodyPsize body then s₁.endGraphMsg c m num 0x0A tgid node 0
      else (s₁.modGraph c tgid fun y => { y with bodies := setAt y.bodies node body }).endGraphMsg c m num 0 tgid node 0) := by
  show execPatch c m s = _
  simp only [execPatch, hx]
  rw [if_neg fun hn => not_patchOk_iff.1 hn h]
  simp only [hg]
end

/-! ## Node dispatch (R119, R120, R407) -/

section
variable {s : State} {c : CoreId} {tg replay node : Nat} {g : TaskGraph} {x : Replay}

/-- The window bases at the head of a node's copied parameter block; an ill-formed one leaves its window unbound (R110, R120). -/
def copiedWindows (x : Replay) (node : Nat) : List Nat :=
  (List.range 8).map fun i =>
    let w := ((x.params.getD node []).getD i 0).toNat
    if w < 2 ^ 52 ∧ w % 8 = 0 then w else 0

/-- The state in which a node of a replay runs. -/
def nodeRunning (s : State) (c : CoreId) (tg replay node : Nat) : State :=
  s.modGraph c tg fun g => g.modReplay replay fun x =>
    { x with todo := x.todo.filter fun n => decide (n ≠ node), running := x.running ++ [node] }

/-- A node of a live replay: it stays where it is not ready, is looked at again while its copy or a curtain holds it back, else is launched. -/
theorem nodeDispatch_eq (hg : s.graph? c tg = some g) (hl : (g.live.find? fun x => decide (x.num = replay)) = some x) :
    let ws := nodeStart (x.bodies.getD node []) tg node
    exec (.taskgraphNodeDispatch c tg replay node) s = .next (
      if (!g.ready x node) = true then s
      else if s.copying g x node = true ∨ s.curtainOn ((s.placement ws).map physClu) = true then
        s.later (.taskgraphNodeDispatch c tg replay node)
      else (nodeRunning s c tg replay node).acceptStart c ⟨ws, ⟨.host, c, 0, 0⟩, false, []⟩ replay (copiedWindows x node)) := by
  show execTaskgraphNodeDispatch c tg replay node s = _
  simp only [execTaskgraphNodeDispatch, hg, Option.bind_some, hl, Option.map_some]
  rfl
end

/-! ## The end of a replay (R119, R121) -/

section
variable {s : State}

theorem replayRelease_unknown (h : s.graph? s.site.core s.site.n = none) : exec .replayRelease s = .next s := by
  show execReplayRelease s = _
  simp only [execReplayRelease, h]

variable {g : TaskGraph} (hg : s.graph? s.site.core s.site.n = some g)
include hg

theorem replayRelease_none_held (h : g.heldQ = []) : exec .replayRelease s = .next (s.freeGraph s.site.core s.site.n) := by
  show execReplayRelease s = _
  simp only [execReplayRelease, hg, h]

/-- The oldest held replay is accepted once fewer than four are live. -/
theorem replayRelease_held {m : Msg} {num : Nat} {rest : List (Msg × Nat)} (h : g.heldQ = (m, num) :: rest) :
    exec .replayRelease s = .next (
      if 4 ≤ g.live.length then s
      else (s.modGraph s.site.core s.site.n fun y => { y with heldQ := rest }).acceptReplay s.site.core m num { g with heldQ := rest }) := by
  show execReplayRelease s = _
  simp only [execReplayRelease, hg, h]
end

/-- Settles O51, message by message. -/
theorem graphEvents : Obligations.GraphEvents := by
  unfold Obligations.GraphEvents
  refine ⟨fun s c m => ?graphreg, fun s c m => ?replay, fun s c m => ?patch, fun s c tg replay node g x hg hl => ?dispatch,
    fun s g hg => ?release, fun s => replayRelease_unknown⟩
  case graphreg =>
    have hx : s.takeLaunch c m = (_, _) := Prod.mk.eta.symm
    refine ⟨graphreg_refused hx, fun hok hzero htable htgid hfree => ?_⟩
    have h : Registers (s.takeLaunch c m).2 c m := ⟨hok, hzero, htable, htgid, hfree⟩
    refine ⟨graphreg_unreadable hx h, fun xs hr => ⟨graphreg_no_room hx h hr, fun a hp => ?_⟩⟩
    obtain ⟨hapart, hroom⟩ := storePlace_fits hp
    exact ⟨hapart, hroom, graphreg_registers hx h hr hp⟩
  case replay =>
    have hx : s.takeLaunch c m = (_, _) := Prod.mk.eta.symm
    refine ⟨fun h => ⟨replay_refused hx h, graphdrop_refused hx h⟩, fun hok h2 h3 => ⟨fun hg =>
      ⟨replay_unknown hx hok h2 h3 hg, graphdrop_unknown hx hok h2 h3 hg⟩, fun g hg => ?_⟩⟩
    have hreplay := replay_known hx hok h2 h3 hg
    have hdrop := graphdrop_known hx hok h2 h3 hg
    refine ⟨fun hd => ?_, fun hd => ?_⟩
    · rw [if_pos hd] at hreplay hdrop
      exact ⟨hreplay, hdrop⟩
    · rw [if_neg (by simp [hd])] at hreplay hdrop
      refine ⟨fun h => ?_, fun hlive hheld => ?_, hdrop⟩
      · rwa [if_pos (by simpa using h)] at hreplay
      · rwa [if_neg (by simp [hlive, hheld])] at hreplay
  case patch =>
    have hx : s.takeLaunch c m = (_, _) := Prod.mk.eta.symm
    refine ⟨patch_refused hx, fun h => ⟨patch_unknown hx h, fun g hg => ?_⟩⟩
    have hpatch := patch_known hx h hg
    dsimp only at hpatch
    refine ⟨fun hd => ?_, fun hd => ?_⟩
    · rwa [if_pos hd] at hpatch
    · rw [if_neg (by simp [hd])] at hpatch
      refine ⟨fun hbad => ?_, fun hnode hbody => ?_⟩
      · rwa [if_pos (by simpa using hbad)] at hpatch
      · rw [if_neg (by simp [hnode, hbody])] at hpatch
        exact ⟨fun hsize => by rwa [if_pos hsize] at hpatch, fun hsize => by rwa [if_neg (Nat.not_lt.2 hsize)] at hpatch⟩
  case dispatch =>
    have hnode := nodeDispatch_eq (node := node) hg hl
    dsimp only at hnode
    refine ⟨fun hr => ?_, fun hr => ?_⟩
    · rwa [if_pos (by simpa using hr)] at hnode
    · rw [if_neg (by simp [hr])] at hnode
      refine ⟨fun h => ?_, fun hcopy hcurtain => ?_⟩
      · rwa [if_pos h] at hnode
      · rwa [if_neg (not_or.2 ⟨ne_true_of_eq_false hcopy, ne_true_of_eq_false hcurtain⟩)] at hnode
  case release =>
    refine ⟨fun m num rest hq hlive => ?_, fun hq hlive => ?_, replayRelease_none_held hg⟩
    · rw [replayRelease_held hg hq, if_neg (Nat.not_le.2 hlive)]
    · obtain ⟨⟨m, num⟩, rest, hq⟩ := List.exists_cons_of_ne_nil hq
      rw [replayRelease_held hg hq, if_pos hlive]

end Sys2Proof.Proofs.Graphs
end

section
/-! Launches (R109 to R117, R126, R127, R195): how a START is checked, what an install writes, and when a held launch is admitted. -/

namespace Sys2Proof.Proofs.Launches

open Sys2Proof Sys2Proof.Machine

/-! ## START (R109, R110) -/

theorem exec_start (s : State) (c : CoreId) (m : Msg) :
    exec (.start c m) s = .next (s.acceptStart c m 0 (s.paramWindows (startField m.words 4 51 0))) := rfl

section
variable {s s₁ : State} {c : CoreId} {m : Msg} {replay num st : Nat} {windows : List Nat} {es : List Word}
  (hx : s.takeLaunch c m = (num, s₁)) (hst : s₁.startStatus c m.words replay windows = (st, es))
include hx hst

theorem acceptStart_refused (h : st ≠ 0) :
    s.acceptStart c m replay windows = (s₁.launchEnded c m.words st 0 0 replay).endLaunch c m num st := by
  unfold State.acceptStart
  simp only [hx, hst]
  rw [if_pos h]

theorem acceptStart_held (h : st = 0) :
    s.acceptStart c m replay windows = s₁.hold c
      { id := 0, words := m.words, sender := m.sender, num := num, since := none, ready := false, blocking := false, replay := replay,
        reissues := 0, windows := windows, place := es, of_ := none, restore := none } := by
  unfold State.acceptStart
  simp only [hx, hst]
  rw [if_neg (not_not.2 h)]
end

section
variable {s : State} {c : CoreId} {ws : List Word} {replay : Nat} {windows : List Nat}

/-- Order 1 of R110, for a START of a replay or of none. -/
def Legal (ws : List Word) (replay : Nat) : Prop := startOk ws = true ∧ (replay ≠ 0 ∨ startField ws 11 27 0 = 0)

theorem not_legal_iff : ((!startOk ws) = true ∨ replay = 0 ∧ startField ws 11 27 0 ≠ 0) ↔ ¬ Legal ws replay := by
  simp only [Legal, not_and_or, not_or, not_not, Bool.not_eq_true', Bool.not_eq_true]

/-- Only a core of the cluster can be the entry (R110). -/
theorem startOk_entry_core (h : startOk ws = true) : startField ws 9 41 34 < 194 := by
  simp only [startOk, Bool.and_eq_true, decide_eq_true_eq] at h
  omega

theorem startStatus_illegal (h : ¬ Legal ws replay) : s.startStatus c ws replay windows = (1, []) := if_pos (not_legal_iff.2 h)

variable (h : Legal ws replay)
include h

theorem startStatus_no_image (hi : s.imageOf c.pkg (ws.getD 2 0) = none) : s.startStatus c ws replay windows = (2, []) := by
  unfold State.startStatus
  rw [if_neg fun hn => not_legal_iff.1 hn h]
  simp only [hi]

/-- The checks of R110 in which the image takes part, in their order. -/
theorem startStatus_image {x : Image} (hi : s.imageOf c.pkg (ws.getD 2 0) = some x) :
    s.startStatus c ws replay windows =
      if (!s.placeOk c x (s.placement ws)) = true then (3, s.placement ws)
      else if (x.windows.any fun w => decide (windows.getD w.1 0 = 0)) = true then (4, s.placement ws)
      else if startField ws 5 37 37 = 1 ∧ (!x.spec) = true then (5, s.placement ws)
      else if startField ws 9 63 63 = 0 ∨ (x.at? (startEntry ws).1 (startEntry ws).2.1).isNone = true then (6, s.placement ws)
      else (0, s.placement ws) := by
  unfold State.startStatus
  rw [if_neg fun hn => not_legal_iff.1 hn h]
  simp only [hi]
end

/-! ## What an install writes (R113, R134) -/

/-- A table after values were set at the keys from `first` up, m of them. -/
theorem get?_setRange {α : Type} (first : Nat) (v : Nat → α) (e : List (Nat × α)) (n : Nat) : ∀ m : Nat,
    Assoc.get? ((List.range m).foldl (fun e i => Assoc.set e (first + i) (v i)) e) n =
      if first ≤ n ∧ n < first + m then some (v (n - first)) else Assoc.get? e n
  | 0 => by rw [if_neg (by omega)]; rfl
  | m + 1 => by
    rw [List.range_succ, List.foldl_append, List.foldl_cons, List.foldl_nil]
    by_cases hn : first + m = n
    · subst hn
      rw [Assoc.get?_set_same, if_pos (by omega), Nat.add_sub_cancel_left]
    · rw [Assoc.get?_set_ne _ _ _ _ hn, get?_setRange first v e n m]
      simp only [show (n < first + (m + 1)) ↔ n < first + m by omega]

theorem putBlock_elem (k : Core) (x : Image) (b : Block) (n : Nat) :
    Assoc.get? (k.putBlock x b).elem n =
      if b.first ≤ n ∧ n < b.first + b.recs.length then some (b.recs.getD (n - b.first) 0) else Assoc.get? k.elem n := by
  rw [← get?_setRange b.first fun i => b.recs.getD i 0]
  exact congrArg (Assoc.get? · n) (List.foldl_hom Core.elem fun _ _ => rfl).symm

theorem putBlock_owner (k : Core) (x : Image) (b : Block) (n : Nat) :
    Assoc.get? (k.putBlock x b).owner n =
      if b.first ≤ n ∧ n < b.first + b.recs.length then some x.id else Assoc.get? k.owner n := by
  rw [← get?_setRange b.first fun _ => x.id]
  exact congrArg (Assoc.get? · n) (List.foldl_hom Core.owner fun _ _ => rfl).symm

/-- A walk over a list keeps what each of its steps keeps. -/
theorem foldl_keeps {σ α β : Type} {p : σ → β} {f : σ → α → σ} (h : ∀ s a, p (f s a) = p s) : ∀ (xs : List α) (s : σ),
    p (xs.foldl f s) = p s
  | [], _ => rfl
  | a :: xs, s => (foldl_keeps h xs (f s a)).trans (h s a)

theorem putBlock_far (k : Core) (x : Image) (b : Block) : (k.putBlock x b).far = k.far := by
  refine foldl_keeps (p := Core.far) (fun _ _ => ?_) _ k
  rfl

/-- The far table stays where the image has none for the core. -/
theorem install_far_of_none {k : Core} {x : Image} {b : Block} (es : List Word) (wing : Nat) (h : ∀ f ∈ x.fars, f.1 ≠ b.at_) :
    (k.install x es b wing).far = k.far := by
  refine (if_neg fun hany => ?_).trans (putBlock_far k x b)
  obtain ⟨f, hf, he⟩ := List.any_eq_true.1 hany
  exact h f hf (of_decide_eq_true he)

/-! ### An install takes no time of its own: its end is a timer's (R115) -/

theorem displace_now (s : State) (k : CluId) (gone : List Word) : (s.displace k gone).now = s.now := by
  unfold State.displace
  refine foldl_keeps (p := State.now) (fun s c => ?_) _ s
  dsimp only
  split_ifs <;> rfl

theorem wakeCore_now (s : State) (c : CoreId) : (s.wakeCore c).now = s.now := by
  unfold State.wakeCore
  dsimp only
  split_ifs <;> rfl

theorem installClu_now (s : State) (x : Image) (es : List Word) (e : Word) (wing due : Nat) :
    (s.installClu x es e wing due).now = s.now := by
  unfold State.installClu
  rw [State.modPkg_now, foldl_keeps (p := State.now) fun s b => ?_, displace_now]
  rw [State.modCore_now, wakeCore_now]

/-- Each cluster is complete at the same time, given from when the install began. -/
theorem installAll_due (x : Image) (es : List Word) (wing : Word → Nat) (wait : Nat) : ∀ (todo : List Word) (s : State),
    todo.foldl (fun s e => s.installClu x es e (wing e) (s.now + wait)) s =
      todo.foldl (fun s₁ e => s₁.installClu x es e (wing e) (s.now + wait)) s
  | [], _ => rfl
  | e :: todo, s => by
    rw [List.foldl_cons, List.foldl_cons, installAll_due x es wing wait todo, installClu_now]

/-! ## INSTALL (R113 to R115, R195) -/

theorem endCfginst_none {s : State} {p id : Nat} (h : Assoc.get? (s.pkg p).cfgs id = none) : s.endCfginst p id = s := by
  simp only [State.endCfginst, h]

theorem endCfginst_some {s : State} {p id : Nat} {who : ReplyTo} (h : Assoc.get? (s.pkg p).cfgs id = some who) :
    s.endCfginst p id =
      (s.modPkg p fun x => { x with cfgs := Assoc.erase x.cfgs id }).replyBoth who (plainOp 0) (plainOp 0) := by
  simp only [State.endCfginst, h]

/-- With the mark of its site, an INSTALL is the end of a CFGINST. -/
theorem install_marked {s : State} (hm : s.site.flag = true) :
    exec .install s = .next (s.endCfginst s.site.core.pkg s.site.n) := congrArg Host.Outcome.next (if_pos hm)

section
variable {s : State} (hm : s.site.flag = false)
include hm

theorem install_gone (hl : s.launch? s.site.core s.site.n = none) : exec .install s = .next s := by
  show execInstall s = _
  simp only [execInstall, hm, hl, Bool.false_eq_true, if_false]

variable {y : Launch} (hl : s.launch? s.site.core s.site.n = some y)
include hl

theorem install_done (hi : s.installed s.site.core y = true) :
    exec .install s =
      .next ((s.modLaunch s.site.core s.site.n fun y => { y with ready := true }).laterAt .admission s.site.core s.site.n) := by
  show execInstall s = _
  simp only [execInstall, hm, hl, hi, Bool.false_eq_true, if_false, if_true]

variable (hi : s.installed s.site.core y = false)
include hi

theorem install_no_image (hx : s.launchImage s.site.core y = none) :
    exec .install s = .next (s.laterAt .install s.site.core s.site.n) := by
  show execInstall s = _
  simp only [execInstall, hm, hl, hi, hx, Bool.false_eq_true, if_false]

/-- The clusters that an install of a launch has yet to write. -/
def toInstall (s : State) (y : Launch) (x : Image) : List Word := (y.needed x).filter fun e => !s.residentAt x.id y.place e

/-- The longest wake and transfer time of the clusters that an install writes (R115). -/
def longest (s : State) (x : Image) (todo : List Word) : Nat := (todo.map fun e => s.installTime x e).foldl max 0

/-- Where the wing areas of the cores of a placement entry begin (R112, R134). -/
def wingOf (y : Launch) (x : Image) (e : Word) : Nat :=
  startField y.words 8 51 0 + ((leastBelow y.place.length fun i => decide (y.place.getD i 0 = e)).getD 0) * 194 * x.wingCap * 48

/-- An install that is not complete: it waits where nothing is left to write or a live activation uses what it would write, else writes each
cluster, and its launch goes on when the longest of their times has passed. -/
theorem install_image {x : Image} (hx : s.launchImage s.site.core y = some x) :
    exec .install s = .next (
      if (toInstall s y x).isEmpty = true ∨ ((toInstall s y x).any fun e => s.inUse x e) = true then
        s.laterAt .install s.site.core s.site.n
      else
        ((toInstall s y x).foldl (fun s₁ e => s₁.installClu x y.place e (wingOf y x e) (s.now + longest s x (toInstall s y x))) s).at_
          (s.now + longest s x (toInstall s y x)) .admission ⟨s.site.core, s.site.n, 0, true⟩) := by
  rw [← installAll_due]
  show execInstall s = _
  simp only [execInstall, hm, hl, hi, hx, Bool.false_eq_true, if_false]
  rw [foldl_keeps (p := State.now) fun _ _ => ?_]
  · rfl
  · exact installClu_now ..
end

/-- The longest time is no shorter than any, and is that of some cluster. -/
theorem longest_spec (s : State) (x : Image) {todo : List Word} (h : todo ≠ []) :
    (∀ e ∈ todo, s.installTime x e ≤ longest s x todo) ∧ ∃ e ∈ todo, s.installTime x e = longest s x todo := by
  obtain ⟨hmem, hle⟩ := List.max?_eq_some_iff.1 (List.max?_cons' (x := 0) (xs := todo.map fun e => s.installTime x e))
  have hle' : ∀ e ∈ todo, s.installTime x e ≤ longest s x todo := fun e he =>
    hle _ (List.mem_cons_of_mem 0 (List.mem_map_of_mem he))
  refine ⟨hle', ?_⟩
  rcases List.mem_cons.1 hmem with h0 | hmem
  · obtain ⟨e, t, rfl⟩ := List.exists_cons_of_ne_nil h
    have he := hle' e List.mem_cons_self
    exact ⟨e, List.mem_cons_self, Nat.le_antisymm he (h0.le.trans (Nat.zero_le _))⟩
  · exact List.mem_map.1 hmem

/-! ## Admission (R116, R117, R127) -/

/-- The state once the dispatcher of the site's control core has considered its held launches. -/
def considered (s : State) : State :=
  let s₁ := if s.site.flag then s.modLaunch s.site.core s.site.n fun y => { y with ready := true } else s
  s₁.consider s.site.core (s₁.launches s.site.core)

theorem admission_gone {s : State} (h : (considered s).launch? s.site.core s.site.n = none) :
    exec .admission s = .next (considered s) := by
  show execAdmission s = _
  unfold considered at h ⊢
  simp only [execAdmission, h]

section
variable {s : State} {y : Launch} (h : (considered s).launch? s.site.core s.site.n = some y)
include h

theorem admission_held :
    exec .admission s = .next (
      if y.ready = true ∧ (!(considered s).installed s.site.core y) = true then
        ((considered s).modLaunch s.site.core s.site.n fun y => { y with ready := false }).laterAt .install s.site.core s.site.n
      else (considered s).laterAt .admission s.site.core s.site.n) := by
  show execAdmission s = _
  unfold considered at h ⊢
  simp only [execAdmission, h]

/-- An image that was replaced while its launch was held is installed again (R113, R116). -/
theorem admission_installs_again (hr : y.ready = true) (hi : (considered s).installed s.site.core y = false) :
    exec .admission s = .next
      (((considered s).modLaunch s.site.core s.site.n fun y => { y with ready := false }).laterAt .install s.site.core s.site.n) := by
  rw [admission_held h, if_pos (by simp [hr, hi])]

theorem admission_waits (hr : y.ready = false ∨ (considered s).installed s.site.core y = true) :
    exec .admission s = .next ((considered s).laterAt .admission s.site.core s.site.n) := by
  rw [admission_held h, if_neg (by simpa [imp_iff_not_or] using hr)]
end

/-- A blocking launch accepted before, at any control core, shares an island with this one (R127). -/
def Blocked (s : State) (y : Launch) : Prop :=
  ∃ k ∈ s.clusters, ∃ l ∈ k.2.launches, ∃ z ∈ l.2, z.blocking = true ∧ z.id < y.id ∧ ∃ x ∈ Launch.clus s z, x ∈ Launch.clus s y

theorem blockedOut_iff (s : State) (y : Launch) : s.blockedOut y = true ↔ Blocked s y := by
  simp only [State.blockedOut, Blocked, List.any_eq_true, Bool.and_eq_true, decide_eq_true_eq, and_assoc]

section
variable {s : State} {c : CoreId} {y : Launch} {ys : List Launch}

theorem consider_blocked (h : Blocked s y) : s.consider c (y :: ys) = s.consider c ys := by
  rw [State.consider, if_pos ((blockedOut_iff s y).2 h)]

variable (h : ¬ Blocked s y)
include h

theorem consider_granted (hj : s.judge c y = .granted) : s.consider c (y :: ys) = s.admitLaunch c y := by
  rw [State.consider, if_neg (mt (blockedOut_iff s y).1 h)]
  simp only [hj]

theorem consider_wait (hj : s.judge c y = .wait) : s.consider c (y :: ys) = s.consider c ys := by
  rw [State.consider, if_neg (mt (blockedOut_iff s y).1 h)]
  simp only [hj]

theorem consider_still_no_point (hj : s.judge c y = .noPoint) (hs : y.since ≠ none) : s.consider c (y :: ys) = s.consider c ys := by
  obtain ⟨t, ht⟩ := Option.ne_none_iff_exists'.1 hs
  rw [State.consider, if_neg (mt (blockedOut_iff s y).1 h)]
  simp only [hj, ht]

/-- The 1 ms after which a launch becomes blocking begins when the dispatcher first finds no point for it (R127). -/
theorem consider_no_point (hj : s.judge c y = .noPoint) (hs : y.since = none) :
    s.consider c (y :: ys) =
      ((s.modLaunch c y.id fun y => { y with since := some s.now }).at_ (s.now + 1000000) .launchBlocking ⟨c, y.id, 0, false⟩).consider c
        ys := by
  rw [State.consider, if_neg (mt (blockedOut_iff s y).1 h)]
  simp only [hj, hs]
end

/-- What R116 and R127 ask of a START or a reissue. -/
theorem judge_granted_iff {s : State} {c : CoreId} {y : Launch} (hr : y.restore = none) :
    s.judge c y = .granted ↔
      y.ready = true ∧ s.installed c y = true ∧ (∀ k ∈ Launch.clus s y, (s.cluIsland k).hot = false) ∧
        (y.watts = 0 ∨ ∀ k ∈ Launch.clus s y, (s.cluIsland k).pointFor y.watts ≠ none) ∧ ∀ d ∈ Launch.dies s y, s.freeColour d ≠ none := by
  simp only [State.judge, hr]
  split_ifs with hready hhot hpoint hcolour
  · refine iff_of_false (by simp) fun ⟨hr, hi, _⟩ => ?_
    simp [hr, hi] at hready
  · refine iff_of_false (by simp) fun ⟨_, _, hcool, _⟩ => ?_
    obtain ⟨k, hk, hkhot⟩ := List.any_eq_true.1 hhot
    exact Bool.false_ne_true ((hcool k hk).symm.trans hkhot)
  · refine iff_of_false (by simp) fun ⟨_, _, _, hfits, _⟩ => ?_
    obtain ⟨hwatts, hany⟩ := hpoint
    obtain ⟨k, hk, hnone⟩ := List.any_eq_true.1 hany
    exact hfits.resolve_left hwatts k hk (Option.isNone_iff_eq_none.1 hnone)
  · refine iff_of_false (by simp) fun ⟨_, _, _, _, hfree⟩ => ?_
    obtain ⟨d, hd, hnone⟩ : ∃ d ∈ Launch.dies s y, s.freeColour d = none := by simpa using hcolour
    exact hfree d hd hnone
  · obtain ⟨hr, hi⟩ : y.ready = true ∧ s.installed c y = true := by simpa using hready
    refine iff_of_true rfl ⟨hr, hi, ?_, ?_, ?_⟩
    · simpa using hhot
    · simpa [imp_iff_not_or] using hpoint
    · simpa [Option.isSome_iff_ne_none] using hcolour

/-- Settles O50: the checks of R110 in their order, the tables that a block's records write, each end of an INSTALL, and admission. -/
theorem launchEvents : Obligations.LaunchEvents := by
  unfold Obligations.LaunchEvents
  refine ⟨fun s c m => ?start, fun s c ws replay windows => ?checks, fun k x b n hn => ?writes, fun s hm => ?ends,
    fun s hm hl => install_gone hm hl, fun s y hm hl => ?installs, fun s => ?admits, fun s c y ys => ?considers⟩
  case start =>
    have hx : s.takeLaunch c m = (_, _) := Prod.mk.eta.symm
    have hst : (s.takeLaunch c m).2.startStatus c m.words 0 (s.paramWindows (startField m.words 4 51 0)) = (_, _) :=
      Prod.mk.eta.symm
    refine ⟨fun h => ?_, fun h => ?_⟩
    · rw [exec_start, acceptStart_refused hx hst h]
    · rw [exec_start, acceptStart_held hx hst h]
  case checks =>
    refine ⟨fun h => ?_, fun hcore h => ?_, fun h => ⟨fun hi => ?_, fun x hi => ?_⟩⟩
    · rw [startStatus_illegal h]
    · exact absurd (startOk_entry_core h.1) (by omega)
    · rw [startStatus_no_image h hi]
    · rw [startStatus_image h hi]
      refine ⟨fun hp => ?place, fun hp => ?_⟩
      case place => rw [if_pos (by simpa using hp)]
      rw [if_neg (by simp [hp])]
      refine ⟨fun hw => ?window, fun hw => ?_⟩
      case window => rw [if_pos (by simpa using hw)]
      rw [if_neg (by simpa using hw)]
      refine ⟨fun hg hs => ?spec, fun hs => ?_⟩
      case spec => rw [if_pos (by simp [hg, hs])]
      rw [if_neg (by simpa [imp_iff_not_or] using hs)]
      refine ⟨fun he => ?entry, fun hv he => ?_⟩
      case entry => rw [if_pos (by simpa using he)]
      rw [if_neg (by simp [hv, he])]
  case writes =>
    rw [putBlock_elem, putBlock_owner]
    refine ⟨fun i hi hni => ?_, fun hend => ?_, fun es wing => install_far_of_none es wing⟩
    · have hsub : n - b.first = i := by omega
      rw [if_pos (by omega), if_pos (by omega), hsub]
      simp [hi]
    · rw [if_neg (by omega)]
  case ends =>
    refine ⟨fun h => ?_, fun who h => ?_⟩
    · rw [install_marked hm, endCfginst_none h]
    · rw [install_marked hm, endCfginst_some h]
  case installs =>
    refine ⟨install_no_image hm hl, install_done hm hl, fun x hi hx => ?_⟩
    have hinstall := install_image hm hl hi hx
    refine ⟨fun h => ?_, fun hne hfree => ?_⟩
    · exact hinstall.trans (congrArg Host.Outcome.next (if_pos (h.imp List.isEmpty_iff.2 List.any_eq_true.2)))
    · rw [if_neg (by simpa using ⟨hne, hfree⟩)] at hinstall
      obtain ⟨hle, hsome⟩ := longest_spec s x hne
      exact ⟨wingOf y x, longest s x (toInstall s y x), hle, hsome, hinstall⟩
  case admits =>
    exact ⟨admission_gone, fun y hy => ⟨admission_installs_again hy, admission_waits hy⟩, rfl⟩
  case considers =>
    exact ⟨consider_blocked, fun h => ⟨consider_granted h, consider_wait h, consider_still_no_point h, consider_no_point h⟩,
      judge_granted_iff⟩

end Sys2Proof.Proofs.Launches
end

section
/-! What a firing sends once it issues (R144, R147, R151, R298): its result to both destinations, a chain link's result ahead of everything
else, and the message of a matrix or softmax record to its engine's path. -/

namespace Sys2Proof.Proofs.Issuing

open Sys2Proof Sys2Proof.Machine

/-! ## A token sent from a record (R23, R348) -/

@[simp] theorem countNull_cur (s : State) (c : CoreId) : (s.countNull c).cur = s.cur := rfl

@[simp] theorem startRelease_cur (s : State) (c : CoreId) (col : BitVec 9) (scope : Nat) (blocks : Bool) (held : List Item) :
    (s.startRelease c col scope blocks held).cur = s.cur := rfl

/-- Sending a token leaves the firing that issues as it is. -/
@[simp] theorem sendFrom_cur (s : State) (c : CoreId) (node : Nat) (dst : BitVec 24) (t : Word) (o : Operand) :
    (s.sendFrom c node dst t o).cur = s.cur := by
  unfold State.sendFrom State.sendItem
  split
  · exact countNull_cur s c
  · split
    · exact State.laterAll_cur s _
    · exact startRelease_cur s c _ _ _ _

theorem leads_null {dst : BitVec 24} (h : destClass dst = 0) (s : State) (c : CoreId) (node : Nat) : s.leads c node dst = none := by
  have hcls : dst.toNat / 2 ^ 22 = 0 := h
  simp only [State.leads, State.target, hcls]

/-- A null destination counts its token and sends nothing (R23, R146). -/
theorem sendFrom_null {dst : BitVec 24} (h : destClass dst = 0) (s : State) (c : CoreId) (node : Nat) (t : Word) (o : Operand) :
    s.sendFrom c node dst t o = s.countNull c := by
  simp only [State.sendFrom, State.tokenItem, State.tokenFrom, leads_null h, State.sendItem]

/-! ## Chain links (R147) -/

/-- A token is a chain link's when a control core's record of one input, with DSTA on the own core and DSTB null, sends it to a destination on
the own core below 32 consecutive links. -/
theorem chains_iff {s : State} {r : Rec} {dst : BitVec 24} : s.chains r dst = true ↔
    192 ≤ s.cur.core.core ∧ r.ari.toNat = 1 ∧ destClass r.dstA = 1 ∧ destClass r.dstB = 0 ∧ destClass dst = 1 ∧ s.cur.link < 32 := by
  simp only [State.chains, CoreId.isCtl, Bool.and_eq_true, decide_eq_true_eq, and_assoc]

theorem emit_chained {s : State} {r : Rec} {dst : BitVec 24} (h : s.chains r dst = true) (t : Word) (o : Operand) :
    s.emit r dst t o =
      s.nextUp (.chainLink s.cur.core ⟨dst.toNat / 4 % 4096, dst.toNat % 4, t, o, []⟩ (s.cur.link + 1)) := by
  have hn : bitsOf dst.toNat 13 2 = dst.toNat / 4 % 4096 := by
    rw [bitsOf, Nat.shiftRight_eq_div_pow]; rfl
  rw [State.emit, if_pos h, hn]

theorem emit_sent {s : State} {r : Rec} {dst : BitVec 24} (h : ¬ s.chains r dst = true) (t : Word) (o : Operand) :
    s.emit r dst t o = s.sendFrom s.cur.core s.cur.node dst t o := by
  rw [State.emit, if_neg h]

/-- A record whose result is no chain link's sends it to A, then to B (R151). -/
theorem out_sent {s : State} {r : Rec}
    (h : s.cur.core.core < 192 ∨ r.ari.toNat ≠ 1 ∨ destClass r.dstB ≠ 0 ∨ 32 ≤ s.cur.link) (t : Word) (o : Operand) :
    s.out r t o = (s.sendFrom s.cur.core s.cur.node r.dstA t o).sendFrom s.cur.core s.cur.node r.dstB t o := by
  have hno : ∀ (s' : State) (dst : BitVec 24), s'.cur = s.cur → ¬ s'.chains r dst = true := by
    intro s' dst hcur
    rw [chains_iff, hcur]
    omega
  rw [State.out, State.emitA, State.emitB, emit_sent (hno s r.dstA rfl), emit_sent (hno _ r.dstB (sendFrom_cur ..)), sendFrom_cur]

/-- A chain link's result goes before everything else that is to happen; its null DSTB is counted (R147). -/
theorem out_chained {s : State} {r : Rec} (h : s.chains r r.dstA = true) (t : Word) (o : Operand) :
    s.out r t o =
      (s.nextUp (.chainLink s.cur.core ⟨r.dstA.toNat / 4 % 4096, r.dstA.toNat % 4, t, o, []⟩ (s.cur.link + 1))).countNull
        s.cur.core := by
  obtain ⟨-, -, -, hB, -, -⟩ := chains_iff.1 h
  have hno : ∀ s' : State, ¬ s'.chains r r.dstB = true := fun s' => by rw [chains_iff]; omega
  rw [State.out, State.emitA, State.emitB, emit_chained h, emit_sent (hno _), sendFrom_null hB, State.nextUp_cur]

/-- Settles O12, by whether the result is a chain link's. -/
theorem resultsSent : Obligations.ResultsSent := by
  unfold Obligations.ResultsSent
  exact fun s r t o => ⟨fun h => out_sent h t o, fun hctl hari hA hB hlink =>
    out_chained (chains_iff.2 ⟨hctl, hari, hA, hB, hA, hlink⟩) t o⟩

/-! ## Messages to the matrix engine (R144, R298) -/

/-- Every matrix and softmax instruction of a record, with its form. -/
def matrixForms (r : Rec) : List (Instr × Form) :=
  [(.oclm r, Forms.oclm), (.orel r, Forms.orel), (.old r, Forms.old), (.olds r, Forms.olds), (.oldsQ r, Forms.oldsQ),
    (.mma r, Forms.mma), (.mmat r, Forms.mmat), (.mmax r, Forms.mmax), (.aclr r, Forms.aclr), (.amov r, Forms.amov),
    (.aadd r, Forms.aadd), (.acvt r, Forms.acvt), (.ackpt r, Forms.ackpt), (.arst r, Forms.arst), (.astat r, Forms.astat),
    (.smxi r, Forms.smxi), (.smxu r, Forms.smxu), (.smxn r, Forms.smxn), (.smxm r, Forms.smxm), (.smxr r, Forms.smxr),
    (.smxw r, Forms.smxw), (.smxs r, Forms.smxs)]

/-- Each of them does nothing but hand its message to the engine: the two lists of what they do agree, arm by arm. -/
theorem exec_matrixForms (r : Rec) (s : State) : ∀ p ∈ matrixForms r, exec p.1 s = matFire p.2 r s :=
  List.map_inj_left.1 rfl

/-- Where the path has room, a firing that passes its checks puts its message behind the others (R298). -/
theorem matFire_room {f : Form} {r : Rec} {s s₁ : State} {t : Word} (hroom : (s.core s.cur.core).path.length < 16)
    (h : Fires f r s t s₁) : matFire f r s =
      .next ((s₁.fresh.2.modCore s.cur.core fun k => { k with path := k.path ++ [s₁.matOf f r t] }).laterAt .matrixAccept s.cur.core 0) := by
  rw [matFire, if_neg (Nat.not_le.2 hroom), ← h.cur]
  exact fire_ok h rfl

/-- While the path holds 16 messages, the firing waits at the head of the ready queue (R144). -/
theorem matFire_full {s : State} (hfull : 16 ≤ (s.core s.cur.core).path.length) (f : Form) (r : Rec) :
    matFire f r s = .next s.retryIssue :=
  if_pos hfull

/-- Settles O41, by the room on the engine's path. -/
theorem matrixMessages : Obligations.MatrixMessages := by
  unfold Obligations.MatrixMessages
  intro r s s₁ t p hp
  have hexec : exec p.1 s = matFire p.2 r s := exec_matrixForms r s p hp
  exact ⟨fun hroom h => hexec.trans (matFire_room hroom h), fun hfull => hexec.trans (matFire_full hfull p.2 r)⟩

end Sys2Proof.Proofs.Issuing
end

section
/-! The requests of the memory unit (R215, R216, R229 to R242, R258): what handing one over does, and the request that each load, store and
cache record makes. -/

namespace Sys2Proof.Proofs.Requests

open Sys2Proof Sys2Proof.Machine

/-! ## A request handed over (R232, R235) -/

@[simp] theorem retouch_agenda (s : State) (c : CoreId) : (s.retouch c).agenda = s.agenda := rfl

@[simp] theorem retouch_reqs (s : State) (c : CoreId) : ((s.retouch c).core c).reqs = (s.core c).reqs := by
  rw [State.retouch, State.core_modCore_same]

/-- A request behind no release stands behind the core's earlier ones, and its performance is the last thing that is to happen. -/
theorem leaveUnit_unreleased {q : MemReq} (h : q.after = none) (s : State) (c : CoreId) :
    (s.leaveUnit c q).agenda = s.agenda ++ [.event q.op.poll ⟨c, q.id, 0, false⟩] ∧
      ((s.leaveUnit c q).core c).reqs = (s.core c).reqs ++ [q] := by
  rw [State.leaveUnit, h]
  dsimp only
  split
  · exact ⟨rfl, by rw [State.core_modCore_same]; rfl⟩
  · exact ⟨rfl, by rw [retouch_reqs, State.core_modCore_same]; rfl⟩

theorem handsOver_unordered {q : MemReq} (h : q.wave = none) (s : State) :
    s.handsOver q = .ok (s.fresh.2.leaveUnit s.cur.core q) := by
  simp only [State.handsOver, h]

theorem handsOver_ordered {q : MemReq} {w : Nat × Nat × Nat × Nat} (h : q.wave = some w) (s : State) :
    s.handsOver q = s.fresh.2.joinWave s.cur.core q w := by
  simp only [State.handsOver, h]

/-- An access whose WAVE has not come, and which no other of its wave has preceded, makes its wave PENDING (R234). -/
theorem joinWave_pending {s : State} {c : CoreId} {q : MemReq} {w : Nat × Nat × Nat × Nat}
    (hnew : ∀ x ∈ (s.core c).waves, x.tag = q.inTag → x.region ≠ w.1) (hroom : (s.core c).waves.length < 16) :
    s.joinWave c q w =
      .ok (s.modCore c fun k => { k with waves := k.waves ++ [⟨q.inTag, w.1, false, 0, 0, 0xFF, [], [q]⟩] }) := by
  have hfind : (s.core c).waves.find? (fun x => decide (x.tag = q.inTag) && decide (x.region = w.1)) = none :=
    List.find?_eq_none.2 fun x hx => by simpa using hnew x hx
  unfold State.joinWave
  dsimp only
  rw [hfind]
  exact if_neg (Nat.not_le.2 hroom)

/-! ## Requests refused and withheld (R215, R216, R258) -/

section
variable {r : Rec} {s s₂ : State} {t : Word} {op : MemOp} {wr : Bool} {rs : List (Nat × Nat)} {data : List Byte} {o : Operand}
  {w : Option (Nat × Nat × Nat × Nat)} {ps : List MemPart}

theorem makeReq_precise_fault {x : Flt} (h : s.coverAll s.cur.core s.cur.node s.curAct.stall wr rs = .error x) :
    s.makeReq r t op wr rs data o w = .error x := by
  simp only [State.makeReq, h, bind, Except.bind]

theorem makeReq_ring {f : Option Flt} {p : MemPart} (h : s.coverAll s.cur.core s.cur.node s.curAct.stall wr rs = .ok (ps, f, s₂))
    (hp : s₂.ringHit s.cur.core op ps = some p) : s.makeReq r t op wr rs data o w = .error (permAt p.va) := by
  simp only [State.makeReq, h, hp, bind, Except.bind]
  rfl

/-- In stall mode an access that fails stays in the unit as a withheld request, and its STALL record is posted (R216). -/
theorem makeReq_withheld {x : Flt} (h : s.coverAll s.cur.core s.cur.node s.curAct.stall wr rs = .ok (ps, some x, s₂))
    (hr : s₂.ringHit s.cur.core op ps = none) :
    let q := { s₂.reqOf r t op ps data o none with withheld := true }
    s.makeReq r t op wr rs data o none =
      .ok ((s₂.fresh.2.stallRecord s.cur.core q x).modCore s.cur.core fun k => { k with reqs := k.reqs ++ [q] }) := by
  simp only [State.makeReq, h, hr, bind, Except.bind]
  rfl

/-! ## What the records ask for (R229 to R242) -/

/-- A record whose effect is to make a request hands that request over, once its bytes are covered. -/
theorem memFire_asks {s₁ s₃ : State} {f : Form} {eff : Word → State → Eff} {pg : List Leaf} {af : Option Nat}
    (hb : (s.core s.cur.core).unitBusy = false) (h : Fires f r s t s₁) (he : eff t s₁ = s₁.makeReq r t op wr rs data o w pg af)
    (hc : s₁.coverAll s.cur.core s.cur.node s₁.curAct.stall wr rs = .ok (ps, none, s₂)) (hr : s₂.ringHit s.cur.core op ps = none)
    (h3 : s₂.handsOver (s₂.reqOf r t op ps data o w pg af) = .ok s₃) : memFire f r s eff = .next s₃ := by
  rw [← h.cur] at hc hr
  exact memFire_ok hb h (he.trans (State.makeReq_ok hc hr h3))
end

theorem ok_of_isOk {ε α : Type} {e : Except ε α} (h : e.isOk = true) : ∃ a, e = .ok a := by
  cases e with
  | error _ => cases h
  | ok a => exact ⟨a, rfl⟩

/-- The address of a record that displaces $0, once its operands and its near form have passed (R229, R230). -/
theorem addrOf_fires {f : Form} {r : Rec} {s s₁ : State} {t d : Word} {w : Option (Nat × Nat × Nat × Nat)} {va n : Nat}
    (h : Fires f r s t s₁) (ha : s.AllScalar r) (hd : s₁.displacement r = .ok (d, w)) (hv : vaOf s.cur.op0.val d = some va)
    (hn : checkNear s.cur.core va n = .ok ()) : s₁.addrOf r n = .ok va := by
  rw [← h.cur] at hv hn
  simp only [State.addrOf, h.scalars ha, hd, vaAt_ok hv, hn, bind, Except.bind]

section
variable {r : Rec} {s s₁ s₂ s₃ : State} {t d : Word} {w : Option (Nat × Nat × Nat × Nat)} {va : Nat} {ps : List MemPart}
  (hb : (s.core s.cur.core).unitBusy = false) (hd : s₁.displacement r = .ok (d, w))
include hb

/-! ### LDV, MCRD and STV (R238, R240) -/

section
variable {x : Slice} (hx : s₁.vecAccess r = .ok (x, va, w))
include hx

theorem ldv_asks (h : Fires Forms.ldv r s t s₁)
    (hc : s₁.coverAll s.cur.core s.cur.node s₁.curAct.stall false [(va, x.size)] = .ok (ps, none, s₂))
    (h3 : s₂.handsOver (s₂.reqOf r t (.loadVec x.row x.nrow false) ps [] (sliceReply r x) w) = .ok s₃) : exec (.ldv r) s = .next s₃ :=
  memFire_asks hb h (by rw [hx]; rfl) hc rfl h3

theorem mcrd_asks (h : Fires Forms.mcrd r s t s₁)
    (hc : s₁.coverAll s.cur.core s.cur.node s₁.curAct.stall false [(va, x.size)] = .ok (ps, none, s₂))
    (h3 : s₂.handsOver (s₂.reqOf r t (.loadVec x.row x.nrow true) ps [] (sliceReply r x) w) = .ok s₃) : exec (.mcrd r) s = .next s₃ :=
  memFire_asks hb h (by rw [hx]; rfl) hc rfl h3

theorem stv_asks (h : Fires Forms.stv r s t s₁)
    (hc : s₁.coverAll s.cur.core s.cur.node s₁.curAct.stall true [(va, x.size)] = .ok (ps, none, s₂))
    (hr : s₂.ringHit s.cur.core .storeVec ps = none)
    (h3 : s₂.handsOver (s₂.reqOf r t .storeVec ps (s₁.image x) zeroOp w) = .ok s₃) : exec (.stv r) s = .next s₃ :=
  memFire_asks hb h (by rw [hx]; rfl) hc hr h3
end

include hd

/-! ### LD and ST (R237) -/

section
variable (ha : s.AllScalar r) (hv : vaOf s.cur.op0.val d = some va) (hn : checkNear s.cur.core va (elemSize r) = .ok ())
  (hl : checkLine va (elemSize r) = .ok ())
include ha hv hn hl

theorem ld_asks (h : Fires Forms.ld r s t s₁)
    (hc : s₁.coverAll s.cur.core s.cur.node s₁.curAct.stall false [(va, elemSize r)] = .ok (ps, none, s₂))
    (h3 : s₂.handsOver (s₂.reqOf r t .load ps [] zeroOp w) = .ok s₃) : exec (.ld r) s = .next s₃ := by
  refine memFire_asks hb h ?_ hc rfl h3
  rw [← h.cur] at hv hn
  simp only [h.scalars ha, hd, vaAt_ok hv, hn, hl, bind, Except.bind]

theorem st_asks (h : Fires Forms.st r s t s₁)
    (hc : s₁.coverAll s.cur.core s.cur.node s₁.curAct.stall true [(va, elemSize r)] = .ok (ps, none, s₂))
    (hr : s₂.ringHit s.cur.core .store ps = none)
    (h3 : s₂.handsOver (s₂.reqOf r t .store ps (leBytes (elemSize r) (s₁.elem r 1)) zeroOp w) = .ok s₃) :
    exec (.st r) s = .next s₃ := by
  refine memFire_asks hb h ?_ hc hr h3
  rw [← h.cur] at hv hn
  simp only [h.scalars ha, hd, vaAt_ok hv, hn, hl, bind, Except.bind]
end

/-! ### LDG and STS (R239) -/

/-- Lanes by rising address, the lower lane first where two are equal. -/
def byAddress (ls : List (Nat × Nat)) : List (Nat × Nat) := sortBy (fun a b => decide (a.2 < b.2)) ls

section
variable {base : Word} {x : Slice} {ls : List (Nat × Nat)} (hbase : s₁.scalarAt r 0 = .ok base) (hx : s₁.oneWord r 1 = .ok x)
  (hls : laneAddrs s.cur.core base d (s₁.image x) (elemSize r) = .ok ls)
include hbase hx hls

theorem ldg_asks (h : Fires Forms.ldg r s t s₁)
    (hc : s₁.coverAll s.cur.core s.cur.node s₁.curAct.stall false ((byAddress ls).map fun p => (p.2, elemSize r)) = .ok (ps, none, s₂))
    (h3 : s₂.handsOver (s₂.reqOf r t (.gather x.row ((byAddress ls).map (·.1))) ps [] (sliceReply r x) w) = .ok s₃) :
    exec (.ldg r) s = .next s₃ := by
  refine memFire_asks hb h ?_ hc rfl h3
  rw [← h.cur] at hls
  simp only [hbase, hx, hd, hls, bind, Except.bind]
  rfl

/-- The walk that STS makes of its pages in ascending order passes, in stall mode because it is not made (R215). -/
theorem sts_asks {y : Slice} (h : Fires Forms.sts r s t s₁) (hy : s₁.oneWord r 2 = .ok y)
    (hup : s₁.curAct.stall = true ∨
      (s₁.coverAll s.cur.core s.cur.node false true ((byAddress ls).map fun p => (p.2, elemSize r))).isOk = true)
    (hc : s₁.coverAll s.cur.core s.cur.node s₁.curAct.stall true (ls.map fun p => (p.2, elemSize r)) = .ok (ps, none, s₂))
    (hr : s₂.ringHit s.cur.core .scatter ps = none)
    (h3 : s₂.handsOver (s₂.reqOf r t .scatter ps (ls.flatMap fun p => leBytes (elemSize r) (laneWord (s₁.image y) p.1)) zeroOp w) = .ok s₃) :
    exec (.sts r) s = .next s₃ := by
  refine memFire_asks hb h ?_ hc hr h3
  rw [← h.cur] at hls hup
  by_cases hs : s₁.curAct.stall = true
  · simp only [hbase, hx, hy, hd, hls, if_pos hs, bind, Except.bind]
  · obtain ⟨z, hz⟩ := ok_of_isOk (hup.resolve_left hs)
    unfold byAddress at hz
    simp only [hbase, hx, hy, hd, hls, if_neg hs, hz, bind, Except.bind]
end

/-! ### MNOP, LWB and LINV (R236, R242) -/

theorem mnop_asks (h : Fires Forms.mnop r s t s₁) (h3 : s₁.handsOver (s₁.reqOf r t .mnop [] [] s.cur.op0 w) = .ok s₃) :
    exec (.mnop r) s = .next s₃ := by
  refine memFire_asks (wr := false) (rs := []) hb h ?_ rfl rfl h3
  simp only [hd, bind, Except.bind, h.cur]

section
variable (ha : s.AllScalar r) (hv : vaOf s.cur.op0.val d = some va) (hn : checkNear s.cur.core va 1 = .ok ())
include ha hv hn

theorem lwb_asks (h : Fires Forms.lwb r s t s₁)
    (hc : s₁.coverAll s.cur.core s.cur.node s₁.curAct.stall false [(va, 1)] = .ok (ps, none, s₂)) :
    exec (.lwb r) s = .next (s₂.fresh.2.leaveUnit s.cur.core (s₂.reqOf r t .writeBack ps [] zeroOp none)) := by
  have hcur : s₂.cur = s.cur := (State.coverAll_slices hc).cur.trans h.cur
  rw [← hcur]
  refine memFire_asks hb h ?_ hc rfl (handsOver_unordered rfl _)
  simp only [addrOf_fires h ha hd hv hn, bind, Except.bind]

theorem linv_asks (h : Fires Forms.linv r s t s₁)
    (hc : s₁.coverAll s.cur.core s.cur.node s₁.curAct.stall (decide (r.sub.toNat % 2 = 1)) [(va, 1)] = .ok (ps, none, s₂)) :
    exec (.linv r) s =
      .next (s₂.fresh.2.leaveUnit s.cur.core (s₂.reqOf r t (.invalidate (decide (r.sub.toNat % 2 = 1))) ps [] zeroOp none)) := by
  have hcur : s₂.cur = s.cur := (State.coverAll_slices hc).cur.trans h.cur
  rw [← hcur]
  refine memFire_asks hb h ?_ hc rfl (handsOver_unordered rfl _)
  simp only [addrOf_fires h ha hd hv hn, bind, Except.bind]
end
end

/-- Settles O35: what becomes of a request, and record by record the one that each makes. -/
theorem memoryRequests : Obligations.MemoryRequests := by
  unfold Obligations.MemoryRequests
  refine ⟨fun s q hw ha => ?leaves, fun s q w hw hnew hroom => ?waits, fun r s s₂ t op wr rs data o w ps x => ?made,
    fun r s s₁ s₂ s₃ t d w va ps x y ls hb hd => ?records⟩
  case leaves => exact ⟨_, handsOver_unordered hw s, leaveUnit_unreleased ha _ _⟩
  case waits =>
    refine ⟨_, (handsOver_ordered hw s).trans (joinWave_pending hnew hroom), rfl, ?_⟩
    rw [State.core_modCore_same]
    rfl
  case made => exact ⟨makeReq_precise_fault, fun p => makeReq_ring, makeReq_withheld⟩
  case records =>
    refine ⟨fun ha hv hn hl => ⟨ld_asks hb hd ha hv hn hl, st_asks hb hd ha hv hn hl⟩,
      fun hx => ⟨ldv_asks hb hx, mcrd_asks hb hx, stv_asks hb hx⟩,
      fun base hbase hx hls => ⟨ldg_asks hb hd hbase hx hls, sts_asks hb hd hbase hx hls⟩,
      mnop_asks hb hd, fun ha hv hn => ⟨lwb_asks hb hd ha hv hn, fun h b hbit hc => ?_⟩⟩
    subst hbit
    exact linv_asks hb hd ha hv hn h hc

end Sys2Proof.Proofs.Requests
end

section
/-! What the memory unit does beside loads and stores (R217, R232, R241, R244 to R253, R386): WAVE, PF, the stream ports, translations, and the
copies that it sends. -/

namespace Sys2Proof.Proofs.UnitRecords

open Sys2Proof Sys2Proof.Machine Sys2Proof.Proofs.System Sys2Proof.Proofs.Requests

/-! ## WAVE (R232, R234) -/

@[simp] theorem fault_cur (s : State) (k : CluId) (src : Source) (stall : Bool) (c : CoreId) (node : Nat) (tag : Word) (f : Flt) :
    (s.fault k src stall c node tag f).cur = s.cur := rfl

@[simp] theorem rejectAbove_cur (c : CoreId) (qs : List MemReq) (s : State) : (s.rejectAbove c qs).cur = s.cur := by
  unfold State.rejectAbove
  induction qs generalizing s with
  | nil => rfl
  | cons q t ih => rw [List.foldl_cons, ih, fault_cur]

/-- What stands, on the core of a firing of a WAVE record, for the firing's tag and the record's region (R232). -/
def waveOf (s : State) (f : Firing) (r : Rec) : Option WaveInst :=
  (s.core f.core).waves.find? fun x => decide (x.tag = f.tag) && decide (x.region = bitsOf r.lit.toNat 13 6)

/-- OWN of an access (R231). -/
def ownOf (q : MemReq) : Nat :=
  match q.wave with
  | some v => v.2.2.1
  | none => 0

theorem elim_wave_eq (q : MemReq) : (q.wave.elim 0 fun v => v.2.2.1) = ownOf q := by
  unfold ownOf
  cases q.wave <;> rfl

section
variable {r : Rec} {s s₁ : State} {t : Word} (hb : (s.core s.cur.core).unitBusy = false) (h : Fires Forms.wave r s t s₁)
include hb h

theorem wave_new (hw : waveOf s₁ s.cur r = none) (hroom : (s₁.core s.cur.core).waves.length < 16) :
    exec (.wave r) s = .next ((s₁.modCore s.cur.core fun y =>
      { y with waves := y.waves ++ [⟨s.cur.tag, bitsOf r.lit.toNat 13 6, true, r.lit.toNat % 64, 0, 0xFF, [], []⟩] }).out r t
        s.cur.op0) := by
  unfold waveOf at hw
  rw [← h.cur] at hw hroom ⊢
  refine memFire_ok hb h ?_
  simp only [hw]
  exact if_neg (Nat.not_le.2 hroom)

theorem wave_no_room (hw : waveOf s₁ s.cur r = none) (hfull : 16 ≤ (s₁.core s.cur.core).waves.length) :
    exec (.wave r) s = .next (s.faultCur { cause := .loopGate }) := by
  unfold waveOf at hw
  rw [← h.cur] at hw hfull
  refine memFire_error hb h ?_
  simp only [hw]
  exact if_pos hfull

theorem wave_open_already {x : WaveInst} (hw : waveOf s₁ s.cur r = some x) (ho : x.opened = true) :
    exec (.wave r) s = .next (s.faultCur { cause := .illegalRecord }) := by
  unfold waveOf at hw
  rw [← h.cur] at hw
  refine memFire_error hb h ?_
  simp only [hw, if_pos ho]

/-- A PENDING wave opens: its members above LAST fault on their own records, and the others are looked at (R234). -/
theorem wave_opens_pending {x : WaveInst} (hw : waveOf s₁ s.cur r = some x) (ho : x.opened = false) :
    exec (.wave r) s = .next ((((s₁.modCore s.cur.core fun y => { y with waves := y.waves.map fun z => if z = x then
        { x with opened := true, last := r.lit.toNat % 64,
                 waiting := x.waiting.filter fun q => decide (ownOf q ≤ r.lit.toNat % 64) } else z }).rejectAbove s.cur.core
          (x.waiting.filter fun q => decide (r.lit.toNat % 64 < ownOf q))).later
      (.waveAccessPerform s.cur.core s.cur.tag (bitsOf r.lit.toNat 13 6))).out r t s.cur.op0) := by
  unfold waveOf at hw
  rw [← h.cur] at hw ⊢
  refine memFire_ok hb h ?_
  simp only [hw, ho]
  rw [if_neg Bool.false_ne_true, rejectAbove_cur]
  rfl
end

/-! ## PF (R241) -/

section
variable {r : Rec} {s s₁ : State} {t : Word} {va : Nat} (hb : (s.core s.cur.core).unitBusy = false) (h : Fires Forms.pf r s t s₁)
  (hva : s₁.addrOf r 1 = .ok va)
include hb h hva

theorem pf_near (hn : isNear va = true) : exec (.pf r) s = .next ((s₁.countNull s.cur.core).out r t (plainOp 0)) := by
  rw [← h.cur]
  refine memFire_ok hb h ?_
  simp only [hva, bind, Except.bind, if_pos hn]

theorem pf_far (hn : isNear va = false) :
    exec (.pf r) s = .next ((s₁.later (.pageWalkComplete s.cur.core.dieId (.prefetch s.cur.core va))).out r t (plainOp 0)) := by
  rw [← h.cur]
  refine memFire_ok hb h ?_
  simp only [hva, bind, Except.bind, hn]
  rfl
end

/-! ## Stream ports (R217, R246, R247) -/

theorem b2n_le_one (b : Bool) : b2n b ≤ 1 := by cases b <;> decide

theorem decide_b2n (b : Bool) : decide (b2n b = 1) = b := by cases b <;> decide

/-- The word that SSTAT sends of a port (R247). -/
def portWord (p : Port) : Word :=
  BitVec.ofNat 64 (putBits ((p.running.elim 0 fun x => x.sent) % 2 ^ 32) 32 + putBits (p.queued.length % 4) 8
    + putBits (b2n p.running.isSome) 7 + putBits (b2n (p.running.elim false fun x => x.stall.isSome)) 6)

/-- That word as the sum of its fields at their places (R247). -/
theorem portWord_toNat (p : Port) : (portWord p).toNat = (p.running.elim 0 fun x => x.sent) % 2 ^ 32 * 2 ^ 32
    + p.queued.length % 4 * 2 ^ 8 + b2n p.running.isSome * 2 ^ 7 + b2n (p.running.elim false fun x => x.stall.isSome) * 2 ^ 6 := by
  have hruns := b2n_le_one p.running.isSome
  have hstalls := b2n_le_one (p.running.elim false fun x => x.stall.isSome)
  simp only [portWord, putBits, Nat.shiftLeft_eq, BitVec.toNat_ofNat]
  exact Nat.mod_eq_of_lt (by omega)

theorem portWord_fields (p : Port) :
    ((portWord p).extractLsb' 32 32).toNat = (p.running.elim 0 fun x => x.sent % 2 ^ 32) ∧
      ((portWord p).extractLsb' 8 2).toNat = p.queued.length % 4 ∧ (portWord p).getLsbD 7 = p.running.isSome ∧
      (portWord p).getLsbD 6 = p.running.elim false fun x => x.stall.isSome := by
  have hw := portWord_toNat p
  have hruns := b2n_le_one p.running.isSome
  have hstalls := b2n_le_one (p.running.elim false fun x => x.stall.isSome)
  refine ⟨?_, ?_, ?_, ?_⟩
  · have hsent : (p.running.elim 0 fun x => x.sent % 2 ^ 32) = (p.running.elim 0 fun x => x.sent) % 2 ^ 32 := by
      cases p.running <;> rfl
    rw [BitVec.extractLsb'_toNat, Nat.shiftRight_eq_div_pow, hw, hsent]
    omega
  · rw [BitVec.extractLsb'_toNat, Nat.shiftRight_eq_div_pow, hw]
    omega
  · rw [BitVec.getLsbD, Nat.testBit_eq_decide_div_mod_eq, ← decide_b2n p.running.isSome, hw, decide_eq_decide]
    omega
  · rw [BitVec.getLsbD, Nat.testBit_eq_decide_div_mod_eq, ← decide_b2n (p.running.elim false _), hw, decide_eq_decide]
    omega

section
variable {r : Rec} {s s₁ : State} {t : Word} (hb : (s.core s.cur.core).unitBusy = false) (ha : s.AllScalar r)
include hb ha

theorem scancel_all (h : Fires Forms.scancel r s t s₁) (hr : r.sub.toNat % 2 = 0) :
    let k := s.cur.core.cluId
    let p := s₁.port k r.lit.toNat
    let xs := p.running.toList ++ p.queued
    exec (.scancel r) s =
      .next (((s₁.setPort k r.lit.toNat ⟨none, []⟩).cancelStreams k xs).out r t (plainOp (BitVec.ofNat 64 xs.length))) := by
  rw [← h.cur]
  refine memFire_scalars_ok hb h ha ?_
  have hrun : ∀ x : Option Stream, (if x.isSome then none else x) = none := fun x => by cases x <;> rfl
  have hall : ¬ r.sub.toNat % 2 = 1 := by omega
  dsimp only
  rw [if_neg hall, hrun]

theorem scancel_queued (h : Fires Forms.scancel r s t s₁) (hr : r.sub.toNat % 2 = 1) :
    let k := s.cur.core.cluId
    let p := s₁.port k r.lit.toNat
    exec (.scancel r) s = .next (((s₁.setPort k r.lit.toNat ⟨p.running, []⟩).cancelStreams k p.queued).out r t
      (plainOp (BitVec.ofNat 64 p.queued.length))) := by
  rw [← h.cur]
  refine memFire_scalars_ok hb h ha ?_
  dsimp only
  rw [if_pos hr]
  rfl

theorem sstat_sends (h : Fires Forms.sstat r s t s₁) :
    exec (.sstat r) s = .next (s₁.out r t (plainOp (portWord (s₁.port s.cur.core.cluId r.lit.toNat)))) := by
  rw [← h.cur]
  refine memFire_scalars_ok hb h ha ?_
  unfold portWord
  cases hrun : (s₁.port s₁.cur.core.cluId r.lit.toNat).running <;> simp only [hrun, Option.elim]

/-! ## XLAT and TLBINV (R252, R253) -/

theorem xlat_sends (h : Fires Forms.xlat r s t s₁) {d : Word} {w : Option (Nat × Nat × Nat × Nat)}
    (hd : s₁.displacement r = .ok (d, w)) :
    let x := s₁.xlat s.cur.core (s.cur.op0.val + d)
    exec (.xlat r) s = .next ((x.2.emitA r t (plainOp x.1.1)).emitB r t (plainOp x.1.2)) := by
  rw [← h.cur]
  exact memFire_scalars_ok hb h ha (by simp only [hd, bind, Except.bind])

theorem tlbinv_removes (h : Fires Forms.tlbinv r s t s₁) {va : Nat}
    (hva : if r.sub.toNat % 2 = 1 then va = 0 else vaOf s.cur.op0.val 0 = some va) :
    let all := decide (r.sub.toNat % 2 = 1)
    exec (.tlbinv r) s = .next (((s₁.scopeDies (r.sub.toNat / 8) s.cur.core).foldl (fun s d =>
      (s.modDie d fun x => { x with tlb := x.tlb.filter fun e => !all && !e.holds va }).retryDie d all va) s₁).out r t (plainOp 0)) := by
  rw [← h.cur] at hva ⊢
  refine memFire_scalars_ok hb h ha ?_
  dsimp only
  split at hva
  · next hall =>
    subst hva
    rw [if_pos (decide_eq_true hall)]
    rfl
  · next hone =>
    rw [if_neg (by simpa using hone), vaAt_ok hva]
    rfl
end

/-! ## SBIND (R244) -/

section
variable {r : Rec} {s s₁ : State} {t : Word} (hb : (s.core s.cur.core).unitBusy = false) (h : Fires Forms.sbind r s t s₁)
  (ha : s.AllScalar r)
include hb h ha

theorem sbind_bad_destination
    (hbad : 2 ^ 24 ≤ s.cur.op2.val.toNat ∨ s₁.destBad s.cur.core (BitVec.ofNat 24 s.cur.op2.val.toNat) = true) :
    exec (.sbind r) s = .next (s.faultCur { cause := .illegalRecord }) := by
  rw [← h.cur] at hbad
  exact memFire_scalars_error hb h ha (if_pos hbad)

/-- The tag of a stream's completion: the firing's colour, with the depth and the fields of $1 (R244). -/
def streamTag (f : Firing) : Word := mkTag (colourOf f.tag) (depthOf f.op1.val) (stackOf f.op1.val)

variable (hlt : s.cur.op2.val.toNat < 2 ^ 24) (hdst : s₁.destBad s.cur.core (BitVec.ofNat 24 s.cur.op2.val.toNat) = false)
include hlt hdst

theorem sbind_bad_tag (htag : tagOk s₁.curAct.plan (streamTag s.cur) = false) :
    exec (.sbind r) s = .next (s.faultCur { cause := .tagOverflow }) := by
  unfold streamTag at htag
  rw [← h.cur] at hlt hdst htag
  refine memFire_scalars_error hb h ha ?_
  simp only [hdst, htag]
  rw [if_neg (by simpa using hlt)]
  rfl

variable {va : Nat} (htag : tagOk s₁.curAct.plan (streamTag s.cur) = true) (hva : vaOf s.cur.op0.val 0 = some va)
  (hn : checkNear s.cur.core va 64 = .ok ()) (hm : checkMultiple va 64 = .ok ())
include htag hva hn hm

theorem sbind_bad_pattern {x : Flt} (hx : s₁.bindLook t va = .error x) : exec (.sbind r) s = .next (s.faultCur x) := by
  unfold streamTag at htag
  rw [← h.cur] at hlt hdst htag hva hn
  refine memFire_scalars_error hb h ha ?_
  simp only [hdst, htag, vaAt_ok hva, hn, hm, hx, bind, Except.bind]
  rw [if_neg (by simpa using hlt)]
  rfl

theorem sbind_asks {bs : List Byte} {pages : List Leaf} {qs : List MemPart} {s₃ : State} (hx : s₁.bindLook t va = .ok (bs, pages))
    (hc : s₁.coverAll s.cur.core s.cur.node s₁.curAct.stall false [(va, 64)] = .ok (qs, none, s₃)) :
    exec (.sbind r) s = .next (s₃.fresh.2.leaveUnit s.cur.core
      (s₃.reqOf r t (.pattern r.lit.toNat (streamTag s.cur) (BitVec.ofNat 24 s.cur.op2.val.toNat)) qs bs zeroOp none pages (some 2))) := by
  have hcur : s₃.cur = s₁.cur := (State.coverAll_slices hc).cur
  unfold streamTag at htag ⊢
  rw [← h.cur] at hlt hdst htag hva hn hc ⊢
  refine memFire_scalars_ok hb h ha ?_
  simp only [hdst, htag, vaAt_ok hva, hn, hm, hx, bind, Except.bind]
  rw [if_neg (by simpa using hlt), if_neg (by decide)]
  refine State.makeReq_ok hc (State.ringHit_load s₃ s₁.cur.core (.pattern ..) qs rfl) ?_
  rw [handsOver_unordered rfl, hcur]
end

/-! ## CPY, CPYR and LSEND (R248, R249, R386) -/

/-- An active message leaves a core of a cluster for an engine there, behind a release of the core's earlier writes at scope cluster (R348). -/
def sendsBehind (s : State) (c : CoreId) (kind : EngineKind) (m : Msg) : State :=
  s.startRelease c (colourOf s.cur.tag) 2 false [.event (.engineInboxAccept (clusterEngine kind c.cluId) m) Site.zero]

section
variable {r : Rec} {s s₁ : State} {t dst src : Word} {len : Nat} (hb : (s.core s.cur.core).unitBusy = false)
  (hops : s₁.copyOps r = .ok (dst, src, len))
include hb hops

theorem cpyPhys_sends (h : Fires Forms.cpy r s t s₁) (hp : r.sub.toNat % 2 = 1)
    (hr : len = 0 ∨ (s₁.rangeOk dst.toNat len = true ∧ s₁.rangeOk src.toNat len = true)) :
    exec (.cpy r) s = .next (sendsBehind s₁ s.cur.core .copy
      (s₁.copyMsg r t 3 (dst.toNat % 2 ^ 56) (src.toNat % 2 ^ 56) len 0 [])) := by
  rw [← h.cur]
  refine memFire_ok hb h ?_
  have hdst : len = 0 ∨ s₁.rangeOk dst.toNat len = true := hr.imp_right And.left
  have hsrc : len = 0 ∨ s₁.rangeOk src.toNat len = true := hr.imp_right And.right
  simp only [hops, bind, Except.bind]
  rw [if_pos hp, if_neg (by simpa [Decidable.or_iff_not_imp_left] using hdst),
    if_neg (by simpa [Decidable.or_iff_not_imp_left] using hsrc)]
  rfl

theorem cpyPhys_out_of_range (h : Fires Forms.cpy r s t s₁) (hp : r.sub.toNat % 2 = 1) (hlen : len ≠ 0)
    (hr : s₁.rangeOk dst.toNat len = false ∨ s₁.rangeOk src.toNat len = false) :
    exec (.cpy r) s = .next (s.faultCur (addrFault (if s₁.rangeOk dst.toNat len = true then src else dst))) := by
  refine memFire_error hb h ?_
  simp only [hops, bind, Except.bind]
  rw [if_pos hp]
  cases hd : s₁.rangeOk dst.toNat len with
  | false => rw [if_pos (by simp [hlen])]; rfl
  | true =>
    have hs : s₁.rangeOk src.toNat len = false := hr.resolve_left (by simp [hd])
    rw [if_neg (by simp), if_pos (by simp [hlen, hs])]
    rfl

section
variable {a b : Nat} {pages : List Leaf} (hdst : vaOf dst 0 = some a) (hsrc : vaOf src 0 = some b) (hn : s₁.copyNear a b len = .ok ())
  (hp : s₁.copyPages a b len = .ok pages)
include hdst hsrc hn hp

theorem cpy_sends (h : Fires Forms.cpy r s t s₁) (hv : r.sub.toNat % 2 = 0) :
    exec (.cpy r) s = .next (sendsBehind s₁ s.cur.core .copy (s₁.copyMsg r t 1 a b len 0 pages)) := by
  rw [← h.cur]
  refine memFire_ok hb h ?_
  have hphys : ¬ r.sub.toNat % 2 = 1 := by omega
  simp only [hops, vaAt_ok hdst, vaAt_ok hsrc, hn, hp, bind, Except.bind]
  rw [if_neg hphys]
  rfl

theorem cpyr_sends (h : Fires Forms.cpyr r s t s₁) (hma : checkMultiple a (elemSize r) = .ok ())
    (hmb : checkMultiple b (elemSize r) = .ok ()) (hlen : len % elemSize r = 0)
    (hred : s₁.curAct.stall = true ∨ s₁.reducible pages a len = true) :
    exec (.cpyr r) s = .next (sendsBehind s₁ s.cur.core .copy (s₁.copyMsg r t 2 a b len (r.sub.toNat % 8) pages)) := by
  rw [← h.cur]
  refine memFire_ok hb h ?_
  simp only [hops, vaAt_ok hdst, vaAt_ok hsrc, hn, hma, hmb, hp, bind, Except.bind]
  rw [if_neg (not_not.2 hlen), if_neg (by simpa [Decidable.or_iff_not_imp_left] using hred)]
  rfl

/-- The place that a far-table entry names, less the core (R85, R386). -/
def farPlace (e : Nat) : CoreId := ⟨bitsOf e 52 47, bitsOf e 46 45, bitsOf e 44 42, 0⟩

theorem lsend_sends (h : Fires Forms.lsend r s t s₁) {e : Nat}
    (he : (Assoc.getD (s₁.core s.cur.core).far (r.lit.toNat % 64) 0).toNat = e) (hvalid : e.testBit 63 = true)
    (hcov : s₁.covers (r.sub.toNat / 8) s.cur.core (farPlace e) = true)
    (hcol : (s₁.curAct?.bind fun x => s₁.colourOn x (farPlace e).dieId) ≠ none) (hfar : isNear a = false) :
    exec (.lsend r) s = .next (sendsBehind s₁ s.cur.core .link (s₁.linkMsg r t (farPlace e).cluId a b len pages)) := by
  subst he
  unfold farPlace at hcov hcol ⊢
  rw [← h.cur] at hvalid hcov hcol ⊢
  refine memFire_ok hb h ?_
  simp only [hops, vaAt_ok hdst, vaAt_ok hsrc, hn, hp, hvalid, hcov, hfar, Option.isNone_iff_eq_none, if_neg hcol, bind, Except.bind]
  rfl
end
end

/-- Settles O36, record by record and case by case. -/
theorem memoryUnitRecords : Obligations.MemoryUnitRecords := by
  unfold Obligations.MemoryUnitRecords
  intro r s s₁ t hb c k sends
  refine ⟨fun h => ?wave, fun h va hva => ⟨pf_near hb h hva, pf_far hb h hva⟩,
    fun h ha => ⟨scancel_all hb ha h, scancel_queued hb ha h⟩, fun h ha => ⟨_, sstat_sends hb ha h, portWord_fields _⟩,
    fun h ha d w => xlat_sends hb ha h, fun h ha va => tlbinv_removes hb ha h, fun h ha => ?sbind,
    fun dst src len a b pages hops => ?copies⟩
  case wave =>
    refine ⟨wave_new hb h, wave_no_room hb h, fun x => wave_open_already hb h, fun x low high hw ho hlow hhigh => ?_⟩
    simp only [elim_wave_eq] at hlow hhigh
    subst hlow hhigh
    exact wave_opens_pending hb h hw ho
  case sbind =>
    refine ⟨sbind_bad_destination hb h ha, fun hlt hdst => ⟨sbind_bad_tag hb h ha hlt hdst, fun va htag hva hn hm => ⟨fun x => ?_, ?_⟩⟩⟩
    · exact sbind_bad_pattern hb h ha hlt hdst htag hva hn hm
    · exact fun bs pages qs s₃ => sbind_asks hb h ha hlt hdst htag hva hn hm
  case copies =>
    exact ⟨cpyPhys_sends hb hops, cpyPhys_out_of_range hb hops, fun hdst hsrc hn hp =>
      ⟨cpy_sends hb hops hdst hsrc hn hp, cpyr_sends hb hops hdst hsrc hn hp, fun h e => lsend_sends hb hops hdst hsrc hn hp h⟩⟩

end Sys2Proof.Proofs.UnitRecords
end

section
/-! The events of the memory unit (R209, R216, R227, R233 to R235, R237, R241, R342, R347, R358, R383, R387): what each does, case by case. -/

namespace Sys2Proof.Proofs.MemoryEvents

open Sys2Proof Sys2Proof.Machine

/-! ## LOAD_REPLY (R227, R235, R237, R376) -/

section
variable {s : State} {q : MemReq}

/-- The request of the site's core that the event names. -/
def Named (s : State) (q : MemReq) : Prop := (s.core s.site.core).req? s.site.n = some q

theorem loadReply_dead (hq : Named s q) (ho : s.orphan s.site.core q = true) :
    exec .loadReply s = .next (s.dropReq s.site.core s.site.n) := by
  unfold Named at hq
  show execLoadReply s = _
  simp only [execLoadReply, hq]
  rw [if_pos ho]

theorem loadReply_held_back (hq : Named s q) (ho : s.orphan s.site.core q = false) (hh : s.holdsBack s.site.core q = true) :
    exec .loadReply s = .next (s.laterAt .loadReply s.site.core s.site.n) := by
  unfold Named at hq
  show execLoadReply s = _
  simp only [execLoadReply, hq, ho, hh]
  rfl

/-- A read of a live colour that nothing holds back. -/
structure Reads (s : State) (q : MemReq) : Prop where
  named : Named s q
  alive : s.orphan s.site.core q = false
  free  : s.holdsBack s.site.core q = false

/-- The first line, of those with bytes that a read still lacks, at which it cannot reach a home (R376). -/
def lostTo (s : State) (q : MemReq) : Option Nat :=
  s.lostLine s.site.core q false ((s.slicedLines q).filter fun l => q.lacking.any fun k => decide (k / 192 = l))

theorem loadReply_lost (h : Reads s q) {l : Nat} (hl : lostTo s q = some l) :
    exec .loadReply s = .next (s.failReq s.site.core q l) := by
  obtain ⟨hq, ho, hh⟩ := h
  unfold Named at hq
  unfold lostTo at hl
  show execLoadReply s = _
  simp only [execLoadReply, hq, ho, hh, hl]
  rfl

/-- What a read does with the bytes that it has once it has taken and asked for what it can (R227, R235). -/
theorem loadReply_takes (h : Reads s q) (hl : lostTo s q = none) {q' : MemReq}
    (hq' : ((((s.askMerge s.site.core q).readAll s.site.core q).core s.site.core).req? s.site.n) = some q') :
    let c := s.site.core
    let s₁ := (s.askMerge c q).readAll c q
    exec .loadReply s = .next (
      if q'.lacking ≠ [] then s₁.laterAt .loadReply c s.site.n
      else if q'.poison = true then (s₁.dropReq c s.site.n).consumePoison c q'.node q'.inTag (s₁.poisonAt q')
      else s₁.finishLoad c q') := by
  obtain ⟨hq, ho, hh⟩ := h
  unfold Named at hq
  unfold lostTo at hl
  show execLoadReply s = _
  simp only [execLoadReply, hq, ho, hh, hl, hq']
  cases q'.lacking <;> rfl

/-! ## WRITE_ACKNOWLEDGEMENT (R235, R237, R342, R370) -/

theorem writeAcknowledgement_done (hq : Named s q) (hd : q.done = true) :
    let c := s.site.core
    exec .writeAcknowledgement s = .next (
      if s.coarsePending c q = true then s.laterAt .writeAcknowledgement c q.id
      else if s.orphan c q = true then s.dropReq c q.id
      else s.finishReq c q (plainOp 0)) := by
  unfold Named at hq
  show execWriteAcknowledgement s = _
  simp only [execWriteAcknowledgement, hq, if_pos hd]

theorem writeAcknowledgement_to_do (hq : Named s q) (hd : q.done = false) :
    let c := s.site.core
    exec .writeAcknowledgement s = .next (
      if s.holdsBack c q = true then s.laterAt .writeAcknowledgement c q.id else s.writeStep c q) := by
  unfold Named at hq
  show execWriteAcknowledgement s = _
  simp only [execWriteAcknowledgement, hq, hd, Bool.false_eq_true, if_false]

/-- The ordinary stores are ST, STV and STS. -/
theorem isStore_cases {o : MemOp} (h : o.isStore = true) : o = .store ∨ o = .storeVec ∨ o = .scatter := by
  cases o <;> simp_all [MemOp.isStore]

/-- An ordinary store fails where it cannot reach a home; else it is performed once its slices can take it (R210, R376). -/
theorem writeStep_store (h : q.op.isStore = true) (s : State) (c : CoreId) :
    (∀ l : Nat, s.lostLine c q true (s.slicedLines q) = some l → s.writeStep c q = s.failReq c q l) ∧
    (s.lostLine c q true (s.slicedLines q) = none →
      (∀ s₁ : State, s.storeReady c q = (true, s₁) → s.writeStep c q =
        ((s₁.storeParts c (some q.colour) q.parts q.data).modReq c q.id fun y => { y with done := true }).laterAt
          .writeAcknowledgement c q.id) ∧
      (∀ s₁ : State, s.storeReady c q = (false, s₁) → s.writeStep c q = s₁.laterAt .writeAcknowledgement c q.id)) := by
  refine ⟨fun l hl => ?_, fun hl => ⟨fun s₁ hr => ?_, fun s₁ hr => ?_⟩⟩
  · rcases isStore_cases h with ho | ho | ho <;> simp only [State.writeStep, ho, hl]
  · rcases isStore_cases h with ho | ho | ho <;> simp only [State.writeStep, ho, hl, hr, if_true]
  · rcases isStore_cases h with ho | ho | ho <;> simp only [State.writeStep, ho, hl, hr] <;> rfl
end

/-! ## WAVE_ACCESS_PERFORM (R233, R234) -/

section
variable {s : State} {c : CoreId} {tag : Word} {region : Nat} {x : WaveInst}
  (hx : ((s.core c).waves.find? fun y => decide (y.tag = tag) && decide (y.region = region) && y.opened) = some x)
include hx

theorem waveAccessPerform_none_ready (hr : x.waiting.find? x.ready = none) : exec (.waveAccessPerform c tag region) s = .next s := by
  show execWaveAccessPerform c tag region s = _
  simp only [execWaveAccessPerform, hx, hr]

variable {q : MemReq} {v : Nat × Nat × Nat × Nat} (hr : x.waiting.find? x.ready = some q) (hv : q.wave = some v)
include hr hv

/-- With OWN = LAST the wave closes (R234). -/
theorem waveAccessPerform_last (hl : v.2.2.1 = x.last) : exec (.waveAccessPerform c tag region) s =
    .next ((s.modCore c fun k => { k with waves := k.waves.erase x }).leaveUnit c q) := by
  obtain ⟨rg, pred, own, succ⟩ := v
  dsimp only at hl
  show execWaveAccessPerform c tag region s = _
  simp only [execWaveAccessPerform, hx, hr, hv, if_pos hl]
  rw [if_neg (by simp [hl])]
  rfl

theorem waveAccessPerform_next (hl : v.2.2.1 ≠ x.last) :
    let y : WaveInst := { x with lastOwn := v.2.2.1, lastSucc := v.2.2.2, did := v.2.2.1 :: x.did, waiting := x.waiting.erase q }
    let s₁ := (s.modCore c fun k => { k with waves := k.waves.map fun z => if z = x then y else z }).leaveUnit c q
    exec (.waveAccessPerform c tag region) s =
      .next (if y.waiting.any y.ready = true then s₁.later (.waveAccessPerform c tag region) else s₁) := by
  obtain ⟨rg, pred, own, succ⟩ := v
  dsimp only at hl
  show execWaveAccessPerform c tag region s = _
  simp only [execWaveAccessPerform, hx, hr, hv, ne_eq, hl, not_false_eq_true, true_and]
  rfl
end

/-! ## RELEASE_COMPLETE (R347, R348, R358, R383) -/

/-- A request that the release waits to see answered, or to see leave, is still there. -/
def Awaits (k : Core) (x : Release) : Prop :=
  (∃ q ∈ k.reqs ++ k.waves.flatMap (·.waiting), q.id ∈ x.reqs) ∨ ∃ q ∈ k.staying, q.id ∈ x.leave

theorem awaits_iff (k : Core) (x : Release) :
    ((k.reqs ++ k.waves.flatMap (·.waiting)).any (fun q => decide (q.id ∈ x.reqs)) = true ∨
      k.staying.any (fun q => decide (q.id ∈ x.leave)) = true) ↔ Awaits k x := by
  simp only [List.any_eq_true, decide_eq_true_eq, Awaits]

theorem not_probing {x : Release} (h : x.scope < 4 ∨ x.probed = true) : ¬ (4 ≤ x.scope ∧ (!x.probed) = true) := by
  rintro ⟨hscope, hnew⟩
  rcases h with h | h
  · omega
  · simp [h] at hnew

/-- A release lets go what it holds, but for the tokens that a saved region keeps (R358). -/
def letsGo (s : State) (c : CoreId) (x : Release) : State :=
  (s.modCore c fun k => { k with kept := k.kept ++ x.held.filter fun it => x.kept && Item.isToken it }).laterAll
    (x.held.filter fun it => !(x.kept && Item.isToken it))

section
variable {s : State} {x : Release} {rs : List Release} (hrels : (s.core s.site.core).rels = x :: rs)
include hrels

theorem releaseComplete_behind (hid : x.id ≠ s.site.n) (hlater : ∃ y ∈ rs, y.id = s.site.n) :
    exec .releaseComplete s = .next (s.laterAt .releaseComplete s.site.core s.site.n) := by
  show execReleaseComplete s = _
  simp only [execReleaseComplete, hrels, if_pos hid]
  rw [if_pos (by simpa using hlater)]

variable (hid : x.id = s.site.n)
include hid

theorem releaseComplete_awaits (ha : Awaits (s.core s.site.core) x) :
    exec .releaseComplete s = .next (s.laterAt .releaseComplete s.site.core s.site.n) := by
  show execReleaseComplete s = _
  simp only [execReleaseComplete, hrels]
  rw [if_neg (not_not.2 hid), if_pos ((awaits_iff _ _).2 ha), hid]

variable (ha : ¬ Awaits (s.core s.site.core) x)
include ha

/-- At package or pod scope the probe of the die's slices finds the lines that hold writes (R347). -/
theorem releaseComplete_probes (hsc : 4 ≤ x.scope) (hp : x.probed = false) :
    exec .releaseComplete s = .next ((s.modCore s.site.core fun k =>
      { k with rels := { x with probed := true, lines := (s.die s.site.core.dieId).pendLines } :: rs }).laterAt
        .releaseComplete s.site.core s.site.n) := by
  show execReleaseComplete s = _
  simp only [execReleaseComplete, hrels]
  rw [if_neg (not_not.2 hid), if_neg ((awaits_iff _ _).not.2 ha), if_pos (by simp [hsc, hp]), hid]
  rfl

variable (hsc : x.scope < 4 ∨ x.probed = true)
include hsc

theorem releaseComplete_unapplied (hl : x.lines ≠ []) :
    exec .releaseComplete s = .next (s.laterAt .releaseComplete s.site.core s.site.n) := by
  show execReleaseComplete s = _
  simp only [execReleaseComplete, hrels]
  rw [if_neg (not_not.2 hid), if_neg ((awaits_iff _ _).not.2 ha), if_neg (not_probing hsc), if_pos (by simpa using hl), hid]

/-- A release that waits for nothing more completes: its counter number first, where its colour is live, then what it held leaves (R383). -/
theorem releaseComplete_completes (hl : x.lines = []) :
    let c := s.site.core
    let s₁ := s.modCore c fun k => { k with rels := rs }
    exec .releaseComplete s = .next (letsGo (match x.tlc with
      | some (ctr, m) => if (s.owner? c.dieId x.colour).isSome then s₁.completeNumber c.cluId x.colour ctr m else s₁
      | none => s₁) c x) := by
  show execReleaseComplete s = _
  simp only [execReleaseComplete, hrels]
  rw [if_neg (not_not.2 hid), if_neg ((awaits_iff _ _).not.2 ha), if_neg (not_probing hsc), if_neg (by simp [hl])]
  rfl
end

/-! ## MERGE_WINDOW_CLOSE (R209, R210) -/

section
variable {s : State} {w : MergeWin} (hw : (s.die s.site.core.dieId).window? s.site.n = some w)
include hw

theorem mergeWindowClose_closes (h : s.windowServes s.site.core.dieId w = true ∨ s.unreachable s.site.core.dieId s.site.n false = true) :
    exec .mergeWindowClose s = .next ((s.closeWindow s.site.core.dieId s.site.n).touchLine s.site.core.dieId s.site.n) := by
  show execMergeWindowClose s = _
  simp only [execMergeWindowClose, hw]
  rw [if_pos h]

theorem mergeWindowClose_asks (hs : s.windowServes s.site.core.dieId w = false)
    (hu : s.unreachable s.site.core.dieId s.site.n false = false) :
    exec .mergeWindowClose s = .next ((s.fillFor s.site.core.dieId s.site.n (s.windowOffs w)).laterAt .mergeWindowClose
      (dieCore0 s.site.core.dieId) s.site.n) := by
  show execMergeWindowClose s = _
  simp only [execMergeWindowClose, hw]
  rw [if_neg (by simp [hs, hu])]
end

/-! ## REMOTE_ADVANCE (R387) -/

theorem remoteAdvance_dead {s : State} {k : CluId} {col : BitVec 9} (h : s.owner? k.dieId col = none) (ctr : Nat) :
    exec (.remoteAdvance k col ctr) s = .next s := by
  show execRemoteAdvance k col ctr s = _
  simp only [execRemoteAdvance, h]

theorem remoteAdvance_completes {s : State} {k : CluId} {col : BitVec 9} (h : s.owner? k.dieId col ≠ none) (ctr : Nat) :
    exec (.remoteAdvance k col ctr) s = .next ((s.takeNumber k col ctr).2.completeNumber k col ctr (s.takeNumber k col ctr).1) := by
  obtain ⟨a, ha⟩ := Option.ne_none_iff_exists'.1 h
  show execRemoteAdvance k col ctr s = _
  simp only [execRemoteAdvance, ha]

/-! ## PAGE_WALK_COMPLETE of a prefetch (R214, R241) -/

section
variable {s s' : State} {x : DieId} {va : Nat}

theorem prefetch_untranslated {lv : Nat} (h : s.translate x none va = (.inr lv, s')) (y : CoreId) :
    exec (.pageWalkComplete x (.prefetch y va)) s = .next (s'.countNull y) := by
  show execPageWalkComplete x (.prefetch y va) s = _
  simp only [execPageWalkComplete, h]

/-- A prefetch asks nothing at pa: no slice serves it, no home can be reached, or its die keeps it in coarse mode (R241, R370). -/
def Idle (s : State) (x : DieId) (lf : Leaf) (pa : Nat) : Prop :=
  lf.nc = true ∨ s.isHbm pa = false ∨ s.unreachable x (pa / 192) false = true ∨ s.coarseFor x (pa / 192) = true

variable {lf : Leaf} (h : s.translate x none va = (.inl lf, s'))
include h

theorem prefetch_idle (hi : Idle s' x lf (lf.pbase + (va - lf.vbase))) (y : CoreId) :
    exec (.pageWalkComplete x (.prefetch y va)) s = .next (s'.countNull y) := by
  show execPageWalkComplete x (.prefetch y va) s = _
  simp only [execPageWalkComplete, h]
  rw [if_pos (by simpa [Idle] using hi)]

/-- Where the slice does not hold the line, the prefetch asks for its sector, once the line finds room (R241). -/
theorem prefetch_asks (hi : ¬ Idle s' x lf (lf.pbase + (va - lf.vbase)))
    (hline : (s'.die x).line? ((lf.pbase + (va - lf.vbase)) / 192) = none) (y : CoreId) :
    let pa := lf.pbase + (va - lf.vbase)
    exec (.pageWalkComplete x (.prefetch y va)) s = .next (if s'.hasRoom x (pa / 192) = true then s'.wantSectors x (pa / 192) [sectorOf pa]
      else s'.later (.pageWalkComplete x (.prefetch y va))) := by
  show execPageWalkComplete x (.prefetch y va) s = _
  simp only [execPageWalkComplete, h]
  rw [if_neg (by simpa [Idle] using hi), hline]
end

/-- Settles O37, event by event and case by case. -/
theorem memoryEvents : Obligations.MemoryEvents := by
  unfold Obligations.MemoryEvents
  intro s c n d
  refine ⟨fun q hq => ⟨loadReply_dead hq, fun ho => ⟨loadReply_held_back hq ho, fun hh => ?load⟩, fun hd => ?acknowledge, fun hd => ?write⟩,
    fun tag region x q v hx => ?wave, fun x rs hrels => ⟨releaseComplete_behind hrels, fun hid => ?release⟩,
    fun w hw => ⟨mergeWindowClose_closes hw, mergeWindowClose_asks hw⟩,
    fun k col ctr => ⟨fun h => remoteAdvance_dead h ctr, fun h => remoteAdvance_completes h ctr⟩, fun x y va m => ?walk, rfl⟩
  case load =>
    have hreads : Reads s q := ⟨hq, ho, hh⟩
    refine ⟨fun l => loadReply_lost hreads, fun q' hlost hq' => ?_⟩
    have htakes := loadReply_takes hreads hlost hq'
    refine ⟨fun hl => ?_, fun hl hp => ?_, fun hl hp => ?_⟩
    · rw [htakes, if_pos hl]
    · rw [htakes, if_neg (not_not.2 hl), if_neg (by simp [hp])]
    · rw [htakes, if_neg (not_not.2 hl), if_pos hp]
  case acknowledge =>
    have hdone := writeAcknowledgement_done hq hd
    refine ⟨fun hc => ?_, fun hc ho => ?_, fun hc ho => ?_⟩
    · rw [hdone, if_pos hc]
    · rw [hdone, if_neg (by simp [c, hc]), if_neg (by simp [c, ho])]
    · rw [hdone, if_neg (by simp [c, hc]), if_pos ho]
  case write =>
    have hdo := writeAcknowledgement_to_do hq hd
    have hstep (hh : s.holdsBack c q = false) : exec .writeAcknowledgement s = .next (s.writeStep c q) := by
      rw [hdo, if_neg (by simp [c, hh])]
    refine ⟨fun hh => by rw [hdo, if_pos hh], hstep, fun hh hst => ?_⟩
    obtain ⟨hlost, hready⟩ := writeStep_store hst s c
    refine ⟨fun l hl => by rw [hstep hh, hlost l hl], fun hl => ?_⟩
    obtain ⟨hperformed, hwaits⟩ := hready hl
    exact ⟨fun s₁ h => by rw [hstep hh, hperformed s₁ h], fun s₁ h => by rw [hstep hh, hwaits s₁ h]⟩
  case wave =>
    exact ⟨waveAccessPerform_none_ready hx, fun hr hv => ⟨waveAccessPerform_last hx hr hv, waveAccessPerform_next hx hr hv⟩⟩
  case release =>
    refine ⟨releaseComplete_awaits hrels hid, releaseComplete_probes hrels hid, fun ha hsc => ⟨releaseComplete_unapplied hrels hid ha hsc,
      fun hl htlc => ?_, fun ctr m hl htlc => ⟨fun hlive => ?_, fun hdead => ?_⟩⟩⟩
    · rw [releaseComplete_completes hrels hid ha hsc hl, htlc]
      rfl
    · rw [releaseComplete_completes hrels hid ha hsc hl, htlc]
      dsimp only
      rw [if_pos (Option.isSome_iff_ne_none.2 hlive)]
      rfl
    · rw [releaseComplete_completes hrels hid ha hsc hl, htlc]
      dsimp only
      rw [if_neg (Option.not_isSome_iff_eq_none.2 hdead)]
      rfl
  case walk =>
    refine ⟨fun lv s' h => prefetch_untranslated h y, fun lf s' h => ⟨fun hi => prefetch_idle h hi y, fun hi hline => ?_⟩, rfl⟩
    have hasks := prefetch_asks h hi hline y
    refine ⟨fun hroom => ?_, fun hroom => ?_⟩
    · rw [hasks, if_pos hroom]
    · rw [hasks, if_neg (by simp [hroom])]

end Sys2Proof.Proofs.MemoryEvents
end

section
/-! The shard instructions that act as they issue, and SPECBEG (R312, R324, R327, R328, R331, R333, R339, R395): what each does once it passes
its checks, case by case. -/

namespace Sys2Proof.Proofs.Shards

open Sys2Proof Sys2Proof.Machine Sys2Proof.Proofs.System

/-! ## What they share (R144, R216, R312) -/

/-- A firing of the memory unit waits at the head of its ready queue while the unit accepts nothing (R144, R216). -/
theorem memFire_waits {f : Form} {r : Rec} {s : State} (hb : (s.core s.cur.core).unitBusy = true) (eff : Word → State → Eff) :
    memFire f r s eff = .next s.retryIssue :=
  if_pos hb

/-- A status sent to both destinations (R312). -/
def answered (r : Rec) (t : Word) (st : Nat) (s : State) : State := s.out r t (plainOp (BitVec.ofNat 64 st))

theorem statusOut_eq (r : Rec) (t : Word) (st : Nat) (s : State) : statusOut r t st s = .ok (answered r t st s) := rfl

theorem seqOperand_ok {w : Word} (h : w.toNat % 2 ^ 26 = 0) : seqOperand w = .ok () := if_pos h

theorem seqOperand_refused {w : Word} (h : w.toNat % 2 ^ 26 ≠ 0) : seqOperand w = .error { cause := .illegalRecord } := if_neg h

/-! ## What KLOOK reads and sends (R266, R331) -/

/-- The list that word 0 of a token's header names (R266, R331). -/
def listNamed (s : State) (d : DieId) (w : Nat) : Except Nat Seq := s.seqOf d (bitsOf w 63 40) (bitsOf w 39 32) (bitsOf w 31 26)

/-- What the page form of KLOOK sends: a descriptor word, and a PID over a status (R331). -/
def pageSent (r : Rec) (t : Word) (w pid st : Nat) (s : State) : State :=
  (s.emitA r t (plainOp (BitVec.ofNat 64 w))).emitB r t (plainOp (BitVec.ofNat 64 (putBits pid 32 + st)))

/-! ## What KPIN reads of its firing (R333) -/

/-- An ENTRY that KPIN takes: a canonical token slot of its own core (R333). -/
def EntryLegal (e : Nat) : Prop := e < 2 ^ 24 ∧ destClass (BitVec.ofNat 24 e) = 1 ∧ destCanonical (BitVec.ofNat 24 e) = true

theorem entryLegal_iff (e : Nat) :
    EntryLegal e ↔ ¬ (2 ^ 24 ≤ e ∨ destClass (BitVec.ofNat 24 e) ≠ 1 ∨ (!destCanonical (BitVec.ofNat 24 e)) = true) := by
  simp [EntryLegal]

/-- The scratchpad position that the literal of a KPIN gives, if any (R333). -/
def pinPos (r : Rec) : Option Nat := if r.lit.toNat.testBit 3 then some (bitsOf r.lit.toNat 5 4) else none

/-- The tag of the slot that a firing pins: $2 in the firing's colour (R333). -/
def pinTag (f : Firing) : Word := BitVec.ofNat 64 (withBits f.op2.val.toNat 63 55 (colourOf f.tag).toNat)

/-- The status of the KPIN that a firing makes (R333). -/
def pinAnswer (s : State) (r : Rec) (f : Firing) : Nat := s.pinStatus f.core (r.lit.toNat % 8) f.op0.val.toNat (pinPos r) (pinTag f)

section
variable {r : Rec} {s s₁ : State} {t : Word} (hb : (s.core s.cur.core).unitBusy = false) (ha : s.AllScalar r)
include hb ha

/-! ## QSEND (R327) -/

section
variable (h : Fires Forms.qsend r s t s₁)
include h

theorem qsend_no_image {f : Flt} (hi : s₁.tokenImage s.cur.op0.val = .error f) : exec (.qsend r) s = .next (s.faultCur f) := by
  rw [← h.cur] at hi
  exact memFire_scalars_error hb h ha (by simp only [hi, bind, Except.bind])

variable {va : Nat} {bs : List Byte} (hi : s₁.tokenImage s.cur.op0.val = .ok (va, bs))
include hi

theorem qsend_bad_header (hk : headerOk bs = false) : exec (.qsend r) s = .next (answered r t 6 s₁) := by
  rw [← h.cur] at hi
  refine memFire_scalars_ok hb h ha ?_
  simp only [hi, hk, bind, Except.bind]
  rfl

theorem qsend_sends (hk : headerOk bs = true) :
    let bs' := sentHeader bs s.cur.core (colourOf s.cur.tag) (decide (s₁.curAct.origin = .spec))
    let x : QTok := ⟨s₁.uid, s₁.curAct?.getD 0, bs', s.cur.core, circuit bs', [], none⟩
    exec (.qsend r) s = .next (answered r t 0 (({ s₁ with uid := s₁.uid + 1, qtoks := s₁.qtoks ++ [x] }).moveOn s₁.uid)) := by
  rw [← h.cur] at hi ⊢
  refine memFire_scalars_ok hb h ha ?_
  simp only [hi, hk, bind, Except.bind]
  rfl
end

/-! ## QFWD (R328) -/

section
variable (h : Fires Forms.qfwd r s t s₁)
include h

theorem qfwd_reserved_bits (hv : bitsOf s.cur.op0.val.toNat 63 48 ≠ 0 ∨ bitsOf s.cur.op0.val.toNat 19 1 ≠ 0) :
    exec (.qfwd r) s = .next (s.faultCur { cause := .illegalRecord }) := by
  rw [← h.cur] at hv
  exact memFire_scalars_error hb h ha (if_pos hv)

variable (hhi : bitsOf s.cur.op0.val.toNat 63 48 = 0) (hlo : bitsOf s.cur.op0.val.toNat 19 1 = 0)
include hhi hlo

theorem qfwd_ends_return {q : Nat} (hq : (s₁.core s.cur.core).rings.getD (s.cur.op0.val.toNat % 2) none = some (q, .returned))
    (hbit : s.cur.op0.val.toNat.testBit 20 = true)
    (hcol : ((s₁.tok? q).map fun x => colourOf (hdrTag x.bytes)) = some (colourOf s.cur.tag)) :
    exec (.qfwd r) s = .next (answered r t 0 ((s₁.dropTok q).freeRing s.cur.core (s.cur.op0.val.toNat % 2))) := by
  rw [← h.cur] at hhi hlo hq hbit hcol ⊢
  refine memFire_scalars_ok hb h ha ?_
  dsimp only
  rw [if_neg (by simp [hhi, hlo]), hq]
  dsimp only
  rw [if_neg (by simp [hbit, hcol]), statusOut_eq]

theorem qfwd_ends_visit {q i : Nat} (hq : (s₁.core s.cur.core).rings.getD (s.cur.op0.val.toNat % 2) none = some (q, .visit i))
    (hbit : s.cur.op0.val.toNat.testBit 20 = false)
    (hcol : ((s₁.slot? s.cur.core i).map fun x => colourOf x.tag) = some (colourOf s.cur.tag)) :
    let c := s.cur.core
    let b := s.cur.op0.val.toNat % 2
    let bs := s₁.keyBytes c (ringKey c b) ((s₁.tok? q).elim 0 fun x => x.bytes.length)
    let s₂ := (s₁.modTok q fun x => { x with bytes := bs, buf := none, slots := x.slots.drop 1 }).freeRing c b
    exec (.qfwd r) s = .next (answered r t 0
      (if (s₂.tok? q).elim false fun x => !x.slots.isEmpty then s₂.laterAt .visitStart c q else s₂.moveOn q)) := by
  rw [← h.cur] at hhi hlo hq hbit hcol ⊢
  refine memFire_scalars_ok hb h ha ?_
  dsimp only
  rw [if_neg (by simp [hhi, hlo]), hq]
  dsimp only
  rw [if_neg (by simp [hbit, hcol]), statusOut_eq]

/-- A buffer that holds neither a visit nor a return of the firing's colour, as its value says which, is OPERAND_SLOT. -/
theorem qfwd_refuses
    (hret : ∀ q : Nat, (s₁.core s.cur.core).rings.getD (s.cur.op0.val.toNat % 2) none = some (q, .returned) →
      s.cur.op0.val.toNat.testBit 20 = true → ((s₁.tok? q).map fun x => colourOf (hdrTag x.bytes)) ≠ some (colourOf s.cur.tag))
    (hvis : ∀ q i : Nat, (s₁.core s.cur.core).rings.getD (s.cur.op0.val.toNat % 2) none = some (q, .visit i) →
      s.cur.op0.val.toNat.testBit 20 = false → ((s₁.slot? s.cur.core i).map fun x => colourOf x.tag) ≠ some (colourOf s.cur.tag)) :
    exec (.qfwd r) s = .next (s.faultCur (slotFault s.cur.op0 0)) := by
  rw [← h.cur] at hhi hlo hret hvis ⊢
  refine memFire_scalars_error hb h ha ?_
  dsimp only
  rw [if_neg (by simp [hhi, hlo])]
  match hq : (s₁.core s₁.cur.core).rings.getD (s₁.cur.op0.val.toNat % 2) none with
  | none => rfl
  | some (q, .waiting i n) => rfl
  | some (q, .visit i) =>
    refine if_pos (Decidable.or_iff_not_imp_left.2 fun hbit => hvis q i hq ?_)
    simpa using hbit
  | some (q, .returned) =>
    refine if_pos (Decidable.or_iff_not_imp_left.2 fun hbit => hret q hq ?_)
    simpa using hbit
end

/-! ## KLOOK (R331) -/

section
variable (h : Fires Forms.klookPage r s t s₁)
include h

theorem klookPage_bad_operand (hv : s.cur.op0.val.toNat % 2 ^ 26 ≠ 0) :
    exec (.klookPage r) s = .next (s.faultCur { cause := .illegalRecord }) := by
  rw [← h.cur] at hv
  exact memFire_scalars_error hb h ha (by simp only [seqOperand_refused hv, bind, Except.bind])

variable (hv : s.cur.op0.val.toNat % 2 ^ 26 = 0)
include hv

theorem klookPage_no_list {st : Nat} (hx : s₁.seqOfWord s.cur.core.dieId s.cur.op0.val = .error st) :
    exec (.klookPage r) s = .next (pageSent r t 0 noPage st s₁) := by
  rw [← h.cur] at hv hx
  refine memFire_scalars_ok hb h ha ?_
  simp only [seqOperand_ok hv, hx, bind, Except.bind]
  rfl

variable {x : Seq} (hx : s₁.seqOfWord s.cur.core.dieId s.cur.op0.val = .ok x)
include hx

theorem klookPage_past_end
    (hend : s₁.npage s.cur.core.dieId x.list ≤ s.cur.op1.val.toNat ∨ s₁.entryAt s.cur.core.dieId x.list s.cur.op1.val.toNat = noPage) :
    exec (.klookPage r) s = .next (pageSent r t 0 noPage 3 s₁) := by
  rw [← h.cur] at hv hx hend
  refine memFire_scalars_ok hb h ha ?_
  simp only [seqOperand_ok hv, hx, bind, Except.bind]
  exact if_pos hend

variable (hlt : s.cur.op1.val.toNat < s₁.npage s.cur.core.dieId x.list)
  (hpage : s₁.entryAt s.cur.core.dieId x.list s.cur.op1.val.toNat ≠ noPage)
include hlt hpage

theorem klookPage_bad_pid (hp : s₁.pidOk s.cur.core.dieId (s₁.entryAt s.cur.core.dieId x.list s.cur.op1.val.toNat) = false) :
    exec (.klookPage r) s = .next (pageSent r t 0 noPage 1 s₁) := by
  rw [← h.cur] at hv hx hlt hpage hp
  refine memFire_scalars_ok hb h ha ?_
  simp only [seqOperand_ok hv, hx, bind, Except.bind]
  rw [if_neg (not_or.2 ⟨Nat.not_le.2 hlt, hpage⟩), if_pos (by simp [hp])]
  rfl

theorem klookPage_sends (hp : s₁.pidOk s.cur.core.dieId (s₁.entryAt s.cur.core.dieId x.list s.cur.op1.val.toNat) = true) :
    let d := s.cur.core.dieId
    let pid := s₁.entryAt d x.list s.cur.op1.val.toNat
    exec (.klookPage r) s = .next (pageSent r t (s₁.desc d pid 0) pid 0 s₁) := by
  rw [← h.cur] at hv hx hlt hpage hp ⊢
  refine memFire_scalars_ok hb h ha ?_
  simp only [seqOperand_ok hv, hx, bind, Except.bind]
  rw [if_neg (not_or.2 ⟨Nat.not_le.2 hlt, hpage⟩), if_neg (by simp [hp])]
  rfl
end

section
variable (h : Fires Forms.klook r s t s₁)
include h

theorem klook_no_image {f : Flt} (hi : s₁.tokenImage s.cur.op0.val = .error f) : exec (.klook r) s = .next (s.faultCur f) := by
  rw [← h.cur] at hi
  exact memFire_scalars_error hb h ha (by simp only [hi, bind, Except.bind])

variable {va : Nat} {bs : List Byte} (hi : s₁.tokenImage s.cur.op0.val = .ok (va, bs))
include hi

theorem klook_no_list {st : Nat} (hx : listNamed s₁ s.cur.core.dieId (hdr bs 0) = .error st) :
    exec (.klook r) s = .next (answered r t st s₁) := by
  unfold listNamed at hx
  rw [← h.cur] at hi hx
  refine memFire_scalars_ok hb h ha ?_
  simp only [hi, hx, bind, Except.bind]
  rfl

variable {x : Seq} (hx : listNamed s₁ s.cur.core.dieId (hdr bs 0) = .ok x)
include hx

theorem klook_mismatch (hd : bitsOf (hdr bs 0) 21 14 + 1 ≠ x.d) : exec (.klook r) s = .next (answered r t 6 s₁) := by
  unfold listNamed at hx
  rw [← h.cur] at hi hx
  refine memFire_scalars_ok hb h ha ?_
  simp only [hi, hx, bind, Except.bind]
  exact if_pos hd

variable (hd : bitsOf (hdr bs 0) 21 14 + 1 = x.d) {k : Nat} (hk : nearKey s.cur.core (va + 8) 24 = some k)
include hd hk

theorem klook_ring_byte (hr : s₁.ringByte s.cur.core k = true) :
    exec (.klook r) s = .next (s.faultCur { cause := .permission, info := BitVec.ofNat 64 va }) := by
  unfold listNamed at hx
  rw [← h.cur] at hi hx hk hr
  refine memFire_scalars_error hb h ha ?_
  simp only [hi, hx, hk, bind, Except.bind]
  rw [if_neg (not_not.2 hd), if_pos hr]
  rfl

theorem klook_writes (hr : s₁.ringByte s.cur.core k = false) :
    let d := s.cur.core.dieId
    exec (.klook r) s = .next (answered r t 0 (s₁.keyWrite s.cur.core false k (leBytes 8 (s₁.peekWord d (x.list + 8)).toNat
      ++ leBytes 8 (withBits (s₁.listLow d x.list) 7 0 0) ++ leBytes 8 x.list) (some (colourOf s.cur.tag)))) := by
  unfold listNamed at hx
  rw [← h.cur] at hi hx hk hr ⊢
  refine memFire_scalars_ok hb h ha ?_
  simp only [hi, hx, hk, bind, Except.bind]
  rw [if_neg (not_not.2 hd), if_neg (by simp [hr])]
  rfl
end

/-! ## SEQTBL `.next` (R280, R339) -/

section
variable (h : Fires Forms.seqtblNext r s t s₁)
include h

theorem seqtblNext_unloaded (hx : (s₁.cluster s.cur.core.cluId).seqr = none) :
    exec (.seqtblNext r) s = .next (answered r t 12 s₁) := by
  rw [← h.cur] at hx
  refine memFire_scalars_ok hb h ha ?_
  simp only [hx]
  rfl

variable {x : TileSeq} (hx : (s₁.cluster s.cur.core.cluId).seqr = some x)
include hx

theorem seqtblNext_busy (hc : x.colour ≠ colourOf s.cur.tag) : exec (.seqtblNext r) s = .next (answered r t 7 s₁) := by
  rw [← h.cur] at hx hc
  refine memFire_scalars_ok hb h ha ?_
  simp only [hx]
  exact if_pos hc

variable (hc : x.colour = colourOf s.cur.tag)
include hc

theorem seqtblNext_done (hn : x.next = none) : exec (.seqtblNext r) s = .next (answered r t 12 s₁) := by
  rw [← h.cur] at hx hc
  refine memFire_scalars_ok hb h ha ?_
  simp only [hx, hn]
  exact if_neg (not_not.2 hc)

theorem seqtblNext_tile {i row n : Nat} (hn : x.next = some (i, row, n)) :
    exec (.seqtblNext r) s = .next (answered r t (putBits row 40 + putBits i 30 + putBits (n - 1) 25)
      (s₁.modCluster s.cur.core.cluId fun y => { y with seqr := some { x with seq := i, row := row + n } })) := by
  rw [← h.cur] at hx hc ⊢
  refine memFire_scalars_ok hb h ha ?_
  simp only [hx, hn]
  exact if_neg (not_not.2 hc)
end

/-! ## KPIN (R333) -/

section
variable (h : Fires Forms.kpin r s t s₁)
include h

theorem kpin_bad_entry (he : ¬ EntryLegal s.cur.op1.val.toNat) : exec (.kpin r) s = .next (s.faultCur { cause := .illegalRecord }) := by
  rw [← h.cur] at he
  exact memFire_scalars_error hb h ha (if_pos (not_not.1 ((entryLegal_iff _).not.1 he)))

variable (he : EntryLegal s.cur.op1.val.toNat)
include he

theorem kpin_bad_pid (hp : s₁.pidOk s.cur.core.dieId s.cur.op0.val.toNat = false) : exec (.kpin r) s = .next (answered r t 1 s₁) := by
  rw [← h.cur] at he hp
  refine memFire_scalars_ok hb h ha ?_
  dsimp only
  rw [if_neg ((entryLegal_iff _).1 he), if_pos (by simp [hp])]
  rfl

variable (hp : s₁.pidOk s.cur.core.dieId s.cur.op0.val.toNat = true)
include hp

theorem kpin_refuses (hst : pinAnswer s₁ r s.cur ≠ 0) : exec (.kpin r) s = .next (answered r t (pinAnswer s₁ r s.cur) s₁) := by
  rw [← h.cur] at he hp hst ⊢
  refine memFire_scalars_ok hb h ha ?_
  dsimp only
  rw [if_neg ((entryLegal_iff _).1 he), if_neg (by simp [hp])]
  exact if_pos hst

theorem kpin_pins (hst : pinAnswer s₁ r s.cur = 0) :
    let d := s.cur.core.dieId
    let pid := s.cur.op0.val.toNat
    let w := s₁.desc d pid 3
    exec (.kpin r) s = .next (answered r t 0 (s₁.setSlot s.cur.core (r.lit.toNat % 8) (some ⟨pid, bitsOf w 17 2, bitsOf w 31 24,
      bitsOf w 23 18, BitVec.ofNat 2 (dLoc (s₁.desc d pid 0)), pinPos r, BitVec.ofNat 24 s.cur.op1.val.toNat, pinTag s.cur, false, false,
      false⟩))) := by
  rw [← h.cur] at he hp hst ⊢
  refine memFire_scalars_ok hb h ha ?_
  dsimp only
  rw [if_neg ((entryLegal_iff _).1 he), if_neg (by simp [hp])]
  exact if_neg (not_not.2 hst)
end
end

/-! ## SPECBEG (R395) -/

/-- The lowest free handle of a die, of its 64 (R395). -/
def freeHandle (s : State) (d : DieId) : Option Nat := leastBelow 64 fun i => (Assoc.get? (s.die d).handles i).isNone

/-- The parent's random counter as it was, and the child's from there, under the handle (R395). -/
def opened (s s₂ : State) (id handle : Nat) : State :=
  (s₂.modCurAct fun a => { a with rng := s.curAct.rng }).modAct id fun a =>
    { a with rng := s.curAct.rng, rng0 := s.curAct.rng, handle := some (s.cur.core.dieId, handle) }

section
variable {r : Rec} {s : State} (h : Passes Forms.specbeg r s) (ha : s.AllScalar r)
include h ha

theorem specbeg_no_log {f : Flt} (hl : s.specLog s.cur.op1.val r.lit.toNat = .error f) :
    exec (.specbeg r) s = .next (s.faultCur f) := by
  show execSpecbeg r s = _
  exact fireRaw_error h (by simp only [State.scalars_ok ha, hl, bind, Except.bind])

variable {ps : List MemPart} (hl : s.specLog s.cur.op1.val r.lit.toNat = .ok ps)
include hl

theorem specbeg_no_colour (hc : s.startChild .spec false (s.parentDest r) true none = none) :
    exec (.specbeg r) s = .next (s.faultCur { cause := .colourExhausted }) := by
  show execSpecbeg r s = _
  exact fireRaw_error h (by simp only [State.scalars_ok ha, hl, hc, bind, Except.bind])

variable {t : Word} {id : Nat} {s₂ : State} (hc : s.startChild .spec false (s.parentDest r) true none = some (t, id, s₂))
include hc

theorem specbeg_no_handle (hf : freeHandle s s.cur.core.dieId = none) :
    exec (.specbeg r) s = .next (s.faultCur { cause := .specConflict }) := by
  unfold freeHandle at hf
  show execSpecbeg r s = _
  exact fireRaw_error h (by simp only [State.scalars_ok ha, hl, hc, hf, bind, Except.bind])

theorem specbeg_opens {i : Nat} (hf : freeHandle s s.cur.core.dieId = some i) :
    let s₃ := opened s s₂ id i
    exec (.specbeg r) s = .next ((s₃.modDie s.cur.core.dieId fun x =>
      { x with handles := Assoc.set x.handles i ⟨s₃.curAct?.getD 0, id, true, s.curAct.rng, ps, r.lit.toNat, 0⟩ }).firstToken r t id
        (plainOp s.cur.op0.val)) := by
  unfold freeHandle at hf
  show execSpecbeg r s = _
  refine fireRaw_ok h ?_
  simp only [State.scalars_ok ha, hl, hc, hf, bind, Except.bind, State.modDie_cur, State.modAct_cur, State.modCurAct_cur,
    State.startChild_cur hc]
  rfl
end

/-- Settles O44, record by record and case by case. -/
theorem shardRecords : Obligations.ShardRecords := by
  unfold Obligations.ShardRecords
  intro r s s₁ t c d col status faults
  refine ⟨fun hb i hi => ?waits, fun hb ha => ⟨fun h => ?qsend, fun h => ?qfwd, fun h => ?page, fun h => ?klook, fun h => ?next,
    fun h => ?kpin⟩, fun h ha => ?specbeg⟩
  case waits =>
    simp only [List.mem_cons, List.not_mem_nil, or_false] at hi
    rcases hi with rfl | rfl | rfl | rfl | rfl | rfl <;> exact memFire_waits hb _
  case qsend =>
    exact ⟨fun f => qsend_no_image hb ha h, fun va bs hi => ⟨qsend_bad_header hb ha h hi, qsend_sends hb ha h hi⟩⟩
  case qfwd =>
    exact ⟨qfwd_reserved_bits hb ha h, fun hhi hlo => ⟨fun q => qfwd_ends_return hb ha h hhi hlo,
      fun q i => qfwd_ends_visit hb ha h hhi hlo, qfwd_refuses hb ha h hhi hlo⟩⟩
  case page =>
    exact ⟨klookPage_bad_operand hb ha h, fun hv => ⟨fun st => klookPage_no_list hb ha h hv, fun x hx =>
      ⟨klookPage_past_end hb ha h hv hx, klookPage_bad_pid hb ha h hv hx, klookPage_sends hb ha h hv hx⟩⟩⟩
  case klook =>
    exact ⟨fun f => klook_no_image hb ha h, fun va bs hi => ⟨fun st => klook_no_list hb ha h hi, fun x hx =>
      ⟨klook_mismatch hb ha h hi hx, fun k hd hk => ⟨klook_ring_byte hb ha h hi hx hd hk, klook_writes hb ha h hi hx hd hk⟩⟩⟩⟩
  case next =>
    exact ⟨seqtblNext_unloaded hb ha h, fun x hx => ⟨seqtblNext_busy hb ha h hx, seqtblNext_done hb ha h hx,
      fun i row n hc => seqtblNext_tile hb ha h hx hc⟩⟩
  case kpin =>
    exact ⟨kpin_bad_entry hb ha h, fun he => ⟨kpin_bad_pid hb ha h he, kpin_refuses hb ha h he, kpin_pins hb ha h he⟩⟩
  case specbeg =>
    exact ⟨fun f => specbeg_no_log h ha, fun ps hl => ⟨specbeg_no_colour h ha hl, fun t' id s₂ hc =>
      ⟨specbeg_no_handle h ha hl hc, fun i => specbeg_opens h ha hl hc⟩⟩⟩

end Sys2Proof.Proofs.Shards
end

section
/-! Query tokens, visits, refills and evictions (R259, R268 to R274, R333): what each event of the rings does, case by case. -/

namespace Sys2Proof.Proofs.Rings

open Sys2Proof Sys2Proof.Machine

/-! ## Tokens that are gone, and tokens whose activation is (R269) -/

section
variable {s : State}

theorem queryTokenStationArrival_gone (hx : s.tok? s.site.n = none) : exec .queryTokenStationArrival s = .next s := by
  show execQueryTokenStationArrival s = _
  simp only [execQueryTokenStationArrival, hx]

theorem visitStart_gone (hx : s.tok? s.site.n = none) : exec .visitStart s = .next s := by
  show execVisitStart s = _
  simp only [execVisitStart, hx]

theorem tokenReturn_gone (hx : s.tok? s.site.n = none) : exec .tokenReturn s = .next s := by
  show execTokenReturn s = _
  simp only [execTokenReturn, hx]

variable {x : QTok} (hx : s.tok? s.site.n = some x)
include hx

theorem queryTokenStationArrival_dead (hd : s.tokDead x = true) : exec .queryTokenStationArrival s = .next (s.discardTok s.site.n) := by
  show execQueryTokenStationArrival s = _
  simp only [execQueryTokenStationArrival, hx, if_pos hd]

theorem visitStart_dead (hd : s.tokDead x = true) : exec .visitStart s = .next (s.discardTok s.site.n) := by
  show execVisitStart s = _
  simp only [execVisitStart, hx, if_pos hd]

theorem tokenReturn_discards (hd : s.tokDead x = true ∨ s.isCore (retCore x.bytes) = false) :
    exec .tokenReturn s = .next (s.discardTok s.site.n) := by
  show execTokenReturn s = _
  simp only [execTokenReturn, hx]
  rw [if_pos (by simpa using hd)]
end

/-! ## QUERY_TOKEN_STATION_ARRIVAL (R268 to R270) -/

/-- The list that a token's header names (R266). -/
def listOf (x : QTok) : Nat := hdr x.bytes 3 % 2 ^ 52

/-- The slots of a token's station that hold pages of its list, in ascending order of the pages' places, each with its page (R270). -/
def slotsFor (s : State) (x : QTok) : List (Nat × Nat) :=
  let w := hdr x.bytes 0
  let hits := (List.range 8).filterMap fun i =>
    match s.slot? x.at_ i with
    | some y =>
      if y.layer = bitsOf w 39 32 ∧ y.hg = bitsOf w 31 26 ∧ y.pidx < bitsOf (hdr x.bytes 2) 23 8
        ∧ s.entryAt x.at_.dieId (listOf x) y.pidx = y.pid then some (y.pidx, (i, y.pid)) else none
    | none => none
  (sortBy (fun (a b : Nat × (Nat × Nat)) => decide (a.1 < b.1)) hits).map (·.2)

/-- The list's entries for those slots read through the slices of the station's die (R270). -/
def entriesRead (s : State) (x : QTok) : State :=
  ((slotsFor s x).filterMap fun y => s.slot? x.at_ y.1).foldl
    (fun s y => s.readThrough x.at_.dieId (listOf x + 16 + 4 * y.pidx / 8 * 8) 8) s

theorem queryTokenStationArrival_arrives {s : State} {x : QTok} (hx : s.tok? s.site.n = some x) (hd : s.tokDead x = false) :
    exec .queryTokenStationArrival s = .next (if (slotsFor s x).isEmpty then (entriesRead s x).moveOn s.site.n
      else ((entriesRead s x).modTok s.site.n fun z => { z with slots := slotsFor s x }).laterAt .visitStart x.at_ s.site.n) := by
  show execQueryTokenStationArrival s = _
  simp only [execQueryTokenStationArrival, hx, hd]
  rfl

/-! ## VISIT_START (R270, R271, R273) -/

/-- A token that is in no ring buffer and at a core stands there for a visit. -/
theorem stands_at {x : QTok} {c : CoreId} (hb : x.buf = none) (hat : x.at_ = c) : ¬ (x.buf.isSome = true ∨ x.at_ ≠ c) := by
  simp [hb, hat]

/-- A page that its slot holds still. -/
theorem slot_holds {o : Option Slot} {y : Slot} {pid : Nat} (hy : o = some y) (hpid : y.pid = pid) :
    (o.filter fun z => decide (z.pid = pid)) = some y := by
  simp [hy, hpid]

/-- A page that its slot holds no more. -/
theorem slot_lost {o : Option Slot} {pid : Nat} (hy : ∀ y : Slot, o = some y → y.pid ≠ pid) :
    (o.filter fun z => decide (z.pid = pid)) = none := by
  simpa [Option.filter_eq_none_iff] using hy

/-- A token's bytes in the ring buffer b that it has taken (R271). -/
def entered (s : State) (c : CoreId) (x : QTok) (n b : Nat) : State :=
  (s.keyWrite c false (ringKey c b) x.bytes none).modTok n fun z => { z with buf := some b }

section
variable {s : State} {x : QTok} (hx : s.tok? s.site.n = some x) (hd : s.tokDead x = false)
include hx hd

theorem visitStart_elsewhere (h : x.buf ≠ none ∨ x.at_ ≠ s.site.core) : exec .visitStart s = .next s := by
  show execVisitStart s = _
  simp only [execVisitStart, hx, hd]
  rw [if_neg Bool.false_ne_true, if_pos (by simpa [Option.isSome_iff_ne_none] using h)]

variable (hb : x.buf = none) (hat : x.at_ = s.site.core)
include hb hat

theorem visitStart_no_slot (hs : x.slots = []) : exec .visitStart s = .next (if x.route.isEmpty then s else s.moveOn s.site.n) := by
  show execVisitStart s = _
  simp only [execVisitStart, hx, hd, if_neg (stands_at hb hat), hs]
  rfl

variable {i pid : Nat} {rest : List (Nat × Nat)} (hs : x.slots = (i, pid) :: rest)
include hs

/-- A page that its slot holds no more is passed by (R270). -/
theorem visitStart_passes_by (hy : ∀ y : Slot, s.slot? s.site.core i = some y → y.pid ≠ pid) :
    let s₁ := s.modTok s.site.n fun z => { z with slots := rest }
    exec .visitStart s = .next (if rest.isEmpty then s₁.moveOn s.site.n else s₁.laterAt .visitStart s.site.core s.site.n) := by
  show execVisitStart s = _
  simp only [execVisitStart, hx, hd, if_neg (stands_at hb hat), hs, slot_lost hy]
  rfl

variable {y : Slot} (hy : s.slot? s.site.core i = some y) (hpid : y.pid = pid)
include hy hpid

theorem visitStart_evicting (he : y.evicting = true) : exec .visitStart s = .next (s.laterAt .visitStart s.site.core s.site.n) := by
  show execVisitStart s = _
  simp only [execVisitStart, hx, hd, if_neg (stands_at hb hat), hs, slot_holds hy hpid, he]
  rfl

variable (he : y.evicting = false)
include he

theorem visitStart_no_ring {s₁ : State} (hr : s.takeRing s.site.core s.site.n = (none, s₁)) : exec .visitStart s = .next s₁ := by
  show execVisitStart s = _
  simp only [execVisitStart, hx, hd, if_neg (stands_at hb hat), hs, slot_holds hy hpid, he, hr]
  rfl

theorem visitStart_takes {b : Nat} {s₁ : State} (hr : s.takeRing s.site.core s.site.n = (some b, s₁)) :
    let c := s.site.core
    let n := s.site.n
    let s₂ := entered s₁ c x n b
    exec .visitStart s = .next (if s₂.locOf c y ≤ 1 then s₂.beginVisit c n b i y
      else ((s₂.fresh.2.bumpHdr c b 47 32).setRing c b (some (n, .waiting i s₂.uid))).startRefill c i) := by
  show execVisitStart s = _
  simp only [execVisitStart, hx, hd, if_neg (stands_at hb hat), hs, slot_holds hy hpid, he, hr]
  rfl
end

/-! ## TOKEN_RETURN (R272) -/

section
variable {s : State} {x : QTok} (hx : s.tok? s.site.n = some x) (hd : s.tokDead x = false) (hc : s.isCore (retCore x.bytes) = true)
include hx hd hc

theorem tokenReturn_not_returning (hr : x.returning = false) : exec .tokenReturn s = .next s := by
  show execTokenReturn s = _
  simp only [execTokenReturn, hx, hd, hc, hr]
  rfl

variable (hr : x.returning = true)
include hr

theorem tokenReturn_no_ring {s₁ : State}
    (ht : (s.modTok s.site.n fun z => { z with at_ := retCore x.bytes }).takeRing (retCore x.bytes) s.site.n = (none, s₁)) :
    exec .tokenReturn s = .next s₁ := by
  show execTokenReturn s = _
  simp only [execTokenReturn, hx, hd, hc, hr, ht]
  rfl

theorem tokenReturn_enters {b : Nat} {s₁ : State}
    (ht : (s.modTok s.site.n fun z => { z with at_ := retCore x.bytes }).takeRing (retCore x.bytes) s.site.n = (some b, s₁)) :
    let c := retCore x.bytes
    let w := hdr x.bytes 6
    exec .tokenReturn s = .next (((entered s₁ c x s.site.n b).setRing c b (some (s.site.n, .returned))).later
      (.tokenArrival c .network ⟨bitsOf w 28 17, bitsOf w 16 15, hdrTag x.bytes, plainOp (visitValue 0 0 0 true b), []⟩)) := by
  show execTokenReturn s = _
  simp only [execTokenReturn, hx, hd, hc, hr, ht]
  rfl
end

/-! ## A page's copy that still waits changes only what slices change (R259, R362) -/

theorem site_of_onlySlices {s s' : State} (h : s.OnlySlices s') : s'.site = s.site := by rw [h]

theorem lineReady_slices (s : State) (d : DieId) (l : Nat) : s.OnlySlices (s.lineReady d l).2 := by
  unfold State.lineReady
  split
  · split <;> rfl
  · rfl

theorem writeReady_slices (s : State) (d : DieId) (nc : Bool) (pa n : Nat) : s.OnlySlices (s.writeReady d nc pa n).2 := by
  unfold State.writeReady
  split
  · rfl
  · exact List.foldlRecOn (motive := fun y : Bool × State => s.OnlySlices y.2) _ _ rfl
      fun y hy i _ => hy.trans (lineReady_slices ..)

theorem drawRuns_slices (s : State) (d : DieId) (who : Reader) (ps : List MemPart) : s.OnlySlices (s.drawRuns d who ps).2 := by
  unfold State.drawRuns
  dsimp only
  split_ifs
  · exact State.OnlySlices.trans (b := s.modDie d _) rfl (State.OnlySlices.foldl (fun s p => s.readThrough_slices ..) _ _)
  · rfl
  · exact State.OnlySlices.trans (b := (s.modDie d _).modDie d _) rfl (State.OnlySlices.foldl (fun s p => s.fillFor_slices ..) _ _)

theorem copyPage_none_slices {s s' : State} {c : CoreId} {i src dst : Nat} (h : s.copyPage c i src dst = (none, s')) :
    s.OnlySlices s' := by
  have hdraw := drawRuns_slices s c.dieId (.page c i) [⟨src, some src, 49152, false⟩]
  unfold State.copyPage at h
  dsimp only at h
  generalize s.drawRuns c.dieId (.page c i) [⟨src, some src, 49152, false⟩] = x at h hdraw
  match x with
  | (none, s₁) => cases h; exact hdraw
  | (some bs, s₁) =>
    dsimp only at h
    split at h
    · cases h; exact hdraw.trans (writeReady_slices s₁ c.dieId false dst 49152)
    · cases h

/-! ## REFILL_COMPLETE (R259, R273, R274) -/

/-- The copy that a refill makes of its page, to the place that the slot names (R259, R333). -/
def refillCopy (s : State) (y : Slot) : Option Bool × State :=
  s.copyPage s.site.core s.site.n (s.desc s.site.core.dieId y.pid 2 % 2 ^ 52) (s.pagePlace s.site.core y)

section
variable {s : State}

theorem refillComplete_no_slot (hy : s.slot? s.site.core s.site.n = none) : exec .refillComplete s = .next s := by
  show execRefillComplete s = _
  simp only [execRefillComplete, hy]

variable {y : Slot} (hy : s.slot? s.site.core s.site.n = some y)
include hy

theorem refillComplete_no_refill (hr : y.refill = false) : exec .refillComplete s = .next s := by
  show execRefillComplete s = _
  simp only [execRefillComplete, hy, hr]
  rfl

variable (hr : y.refill = true)
include hr

theorem refillComplete_failed (hm : s.site.m = 1) :
    let c := s.site.core
    let n := s.site.n
    let s₁ := (s.setLoc c n y.pid 2).modSlot c n fun z => { z with refill := false }
    exec .refillComplete s = .next (((s₁.core c).waiters n).foldl (fun s w => s.failRefill c y w.1) s₁) := by
  show execRefillComplete s = _
  simp only [execRefillComplete, hy, hr, hm]
  rfl

variable (hm : s.site.m ≠ 1)
include hm

/-- While its copy waits a refill is tried again, with the status that it came with: a copy leaves the site as it is. -/
theorem refillComplete_waits (hz : (refillCopy s y).1 = none) :
    exec .refillComplete s = .next ((refillCopy s y).2.laterAt .refillComplete s.site.core s.site.n s.site.m) := by
  have hsite : (refillCopy s y).2.site = s.site := site_of_onlySlices (copyPage_none_slices (Prod.ext hz rfl))
  have hcopy : refillCopy s y = (none, (refillCopy s y).2) := Prod.ext hz rfl
  rw [← congrArg Site.m hsite]
  unfold refillCopy at hcopy ⊢
  show execRefillComplete s = _
  simp only [execRefillComplete, hy, hr, if_neg hm]
  rw [hcopy]
  rfl

theorem refillComplete_copied {bad : Bool} (hz : (refillCopy s y).1 = some bad) :
    let c := s.site.core
    let n := s.site.n
    let d := c.dieId
    let to_ := s.pagePlace c y
    let z := refillCopy s y
    let s₁ := if z.2.desc d y.pid 1 % 2 ^ 52 = to_ then z.2 else z.2.setDesc d y.pid 1 to_
    let s₂ := (s₁.setLoc c n y.pid (if y.pos.isSome then 0 else 1)).modSlot c n fun z => { z with refill := false, poisoned := bad }
    exec .refillComplete s = .next (((s₂.core c).waiters n).foldl (fun s w =>
      if (s.tok? w.1).any s.tokDead then s.discardTok w.1 else s.beginVisit c w.1 w.2 n y) s₂) := by
  have hcopy : refillCopy s y = (some bad, (refillCopy s y).2) := Prod.ext hz rfl
  unfold refillCopy at hcopy ⊢
  show execRefillComplete s = _
  simp only [execRefillComplete, hy, hr, if_neg hm]
  rw [hcopy]
  rfl
end

/-! ## EVICTION_COPY_COMPLETE (R259, R334) -/

/-- The copy that an eviction makes of its page to BACK; none is made where its addresses name nothing (R259, R334). -/
def evictionCopy (s : State) (y : Slot) : Option Bool × State :=
  let d := s.site.core.dieId
  if decide (s.site.m = 1) then (some false, s)
  else s.copyPage s.site.core s.site.n (s.desc d y.pid 1 % 2 ^ 52) (s.desc d y.pid 2 % 2 ^ 52)

section
variable {s : State}

theorem evictionCopyComplete_no_slot (hy : s.slot? s.site.core s.site.n = none) : exec .evictionCopyComplete s = .next s := by
  show execEvictionCopyComplete s = _
  simp only [execEvictionCopyComplete, hy]

variable {y : Slot} (hy : s.slot? s.site.core s.site.n = some y)
include hy

theorem evictionCopyComplete_no_eviction (he : y.evicting = false) : exec .evictionCopyComplete s = .next s := by
  show execEvictionCopyComplete s = _
  simp only [execEvictionCopyComplete, hy, he]
  rfl

variable (he : y.evicting = true)
include he

theorem evictionCopyComplete_waits (hz : (evictionCopy s y).1 = none) :
    exec .evictionCopyComplete s = .next ((evictionCopy s y).2.laterAt .evictionCopyComplete s.site.core s.site.n) := by
  have hcopy : evictionCopy s y = (none, (evictionCopy s y).2) := Prod.ext hz rfl
  unfold evictionCopy at hcopy ⊢
  show execEvictionCopyComplete s = _
  simp only [execEvictionCopyComplete, hy, he]
  rw [hcopy]
  rfl

theorem evictionCopyComplete_copied (hz : (evictionCopy s y).1 ≠ none) :
    let c := s.site.core
    let n := s.site.n
    let bad := decide (s.site.m = 1)
    let z := evictionCopy s y
    let s₁ := (if bad then z.2 else z.2.setLoc c n y.pid 2).modSlot c n fun z => { z with evicting := false }
    exec .evictionCopyComplete s = .next ((s₁.cores.map Prod.fst).foldl (fun s k =>
      ((s.core k).shardReqs.filter fun q => decide (q.opc = 0xD4) && decide (q.stage = 2) && decide (q.pid = some y.pid)).foldl
        (fun s q => (s.toStage k q (if bad then 4 else 3)).laterAt .shardTableTurn k q.id) s) s₁) := by
  obtain ⟨poison, hpoison⟩ := Option.ne_none_iff_exists'.1 hz
  have hcopy : evictionCopy s y = (some poison, (evictionCopy s y).2) := Prod.ext hpoison rfl
  unfold evictionCopy at hcopy ⊢
  show execEvictionCopyComplete s = _
  simp only [execEvictionCopyComplete, hy, he]
  rw [hcopy]
  rfl
end

/-- Settles O46, event by event and case by case. -/
theorem ringEvents : Obligations.RingEvents := by
  unfold Obligations.RingEvents
  intro s c d n
  refine ⟨fun hx => ⟨queryTokenStationArrival_gone hx, visitStart_gone hx, tokenReturn_gone hx⟩,
    fun x hx => ⟨fun hd => ⟨queryTokenStationArrival_dead hx hd, visitStart_dead hx hd, tokenReturn_discards hx (.inl hd)⟩,
      fun hd => ?live⟩,
    fun hy => ⟨refillComplete_no_slot hy, evictionCopyComplete_no_slot hy⟩,
    fun y hy => ⟨refillComplete_no_refill hy, refillComplete_failed hy, fun hr hm => ?refill, evictionCopyComplete_no_eviction hy,
      fun he => ⟨evictionCopyComplete_waits hy he, evictionCopyComplete_copied hy he⟩⟩⟩
  case live =>
    refine ⟨queryTokenStationArrival_arrives hx hd, visitStart_elsewhere hx hd, fun hb hat => ⟨visitStart_no_slot hx hd hb hat,
      fun i pid rest hs => ⟨visitStart_passes_by hx hd hb hat hs, fun y hy hpid => ⟨visitStart_evicting hx hd hb hat hs hy hpid,
        fun he => ⟨fun s₁ => visitStart_no_ring hx hd hb hat hs hy hpid he, fun b s₁ hr => ?visit⟩⟩⟩⟩,
      fun hc => tokenReturn_discards hx (.inr hc), tokenReturn_not_returning hx hd,
      fun hc hr => ⟨fun s₁ => tokenReturn_no_ring hx hd hc hr, fun b s₁ => tokenReturn_enters hx hd hc hr⟩⟩
    have htakes := visitStart_takes hx hd hb hat hs hy hpid he hr
    exact ⟨fun hloc => htakes.trans (congrArg _ (if_pos hloc)), fun hloc => htakes.trans (congrArg _ (if_neg (Nat.not_le.2 hloc)))⟩
  case refill => exact ⟨refillComplete_waits hy hr hm, fun bad => refillComplete_copied hy hr hm⟩

end Sys2Proof.Proofs.Rings
end

section
/-! The elementwise vector instructions of two operands, and the instructions that move and fill slices (R283, R285, R286, R288). -/

namespace Sys2Proof.Proofs.VectorPairs

open Sys2Proof Sys2Proof.Machine Sys2Proof.Proofs.Numbers Sys2Proof.Proofs.Vectors Sys2Proof.Proofs.Formats

/-! ## Elementwise instructions of two operands (R283, R285, R286) -/

section
variable {f : Form} {draws : Bool} {iop : Nat → Bool → Nat → Nat → Nat × Flg} {fop : Fmt → Rnd → Nat → Nat → Nat × Flg}
  {r : Rec} {s s₁ : State} {t : Word} {x : Slice} {bs : List Nat}

/-- The roundings of an elementwise instruction over x, one draw for each float element where its results are rounded, and the state with
the draws reserved (R64, R285). -/
def pairRnd (s : State) (r : Rec) (x : Slice) (draws : Bool) : (Nat → Rnd) × State :=
  s.vecRnd r (if draws && decide (8 ≤ r.typ.toNat) then (s.elems x (typWidth r.typ.toNat)).length else 0)

/-- The result of each pair: an element of x and its partner of the list bs, in order. -/
def pairResults (s : State) (r : Rec) (x : Slice) (bs : List Nat) (op : Nat → Nat → Nat → Nat × Flg) : List (Nat × Flg) :=
  ((s.elems x (typWidth r.typ.toNat)).zip bs).zipIdx.map fun p => op p.2 p.1.1 p.1.2

theorem vecBin_writes (h : Fires f r s t s₁) (hx : s₁.sliceAt r 0 = .ok x) (hb : s₁.spread r 1 x = .ok bs) :
    vecBin f draws iop fop r s = wrote r t x (pairRnd s₁ r x draws).2 (classOf r.typ.toNat) (pairResults s₁ r x bs fun i a b =>
      if r.typ.toNat < 8 then iop r.typ.toNat (satF r) a b else fop (fmtOf r.typ.toNat) ((pairRnd s₁ r x draws).1 i) a b) :=
  fire_ok h ((bind_ok hx).trans (bind_ok hb))

/-- On an integer type each pair gives the integer operation's result. -/
theorem vecBin_int (h : Fires f r s t s₁) (hx : s₁.sliceAt r 0 = .ok x) (hb : s₁.spread r 1 x = .ok bs) (ht : r.typ.toNat < 8) :
    vecBin f draws iop fop r s = wrote r t x (pairRnd s₁ r x draws).2 (classOf r.typ.toNat)
      (pairResults s₁ r x bs fun _ a b => iop r.typ.toNat (satF r) a b) := by
  rw [vecBin_writes h hx hb]
  simp only [if_pos ht]

/-- On a float type each pair gives the float operation's result under its own rounding. -/
theorem vecBin_float (h : Fires f r s t s₁) (hx : s₁.sliceAt r 0 = .ok x) (hb : s₁.spread r 1 x = .ok bs) (ht : 8 ≤ r.typ.toNat) :
    vecBin f draws iop fop r s = wrote r t x (pairRnd s₁ r x draws).2 (classOf r.typ.toNat)
      (pairResults s₁ r x bs fun i a b => fop (fmtOf r.typ.toNat) ((pairRnd s₁ r x draws).1 i) a b) := by
  rw [vecBin_writes h hx hb]
  simp only [if_neg (Nat.not_lt.2 ht)]

end

/-- Settles O30: one lemma for every instruction of two operands, on an integer and on a float type. -/
theorem vectorPairs : Obligations.VectorPairs := by
  unfold Obligations.VectorPairs
  intro r s s₁ t x bs hx hb typ es sat f done
  simp only [List.forall_mem_cons, List.not_mem_nil, false_imp_iff, implies_true, and_true]
  refine ⟨fun ht => ?int, fun ht => ?float⟩
  case int =>
    dsimp only [exec]
    and_intros <;> exact fun h => vecBin_int h hx hb ht
  case float =>
    dsimp only [exec]
    and_intros <;> exact fun h => vecBin_float h hx hb ht

/-! ## Moving and filling (R288) -/

section
variable {r : Rec} {s s₁ : State} {t : Word} {x y z : Slice}

/-- Elements written over the slice d of operand n, and its descriptor sent. -/
def moved (s : State) (r : Rec) (t : Word) (n : Nat) (d : Slice) (w : Nat) (es : List Nat) (cls : Nat) : Host.Outcome State Fault Refusal :=
  .next ((s.putElems d w es).out r t (s.descr r n cls))

theorem scalarAt_ok {s : State} {n : Nat} (hk : kindForm (s.opnd r n).kind = 0) : s.scalarAt r n = .ok (s.val r n) := if_pos hk

theorem vperm_moves (h : Fires Forms.vperm r s t s₁) (hx : s₁.sliceAt r 0 = .ok x) (hy : s₁.sliceAt r 1 = .ok y) (hrows : y.nrow = x.nrow) :
    exec (.vperm r) s = moved s₁ r t 0 x 32 ((s₁.elems y 32).zipIdx.map fun p =>
      if p.1.testBit 31 then 0 else (s₁.elems x 32).getD (p.2 / 64 * 64 + p.1 % 64) 0) (classOf r.typ.toNat) :=
  fire_ok h ((bind_ok hx).trans (bind_ok (sliceRows_ok hy (congrArg (· + 1) hrows))))

theorem vsplat_fills (h : Fires Forms.vsplat r s t s₁) (hx : s₁.sliceAt r 0 = .ok x) (hk : kindForm (s₁.opnd r 1).kind = 0) :
    exec (.vsplat r) s = moved s₁ r t 0 x (typWidth r.typ.toNat) (List.replicate (x.count (typWidth r.typ.toNat)) (s₁.elem r 1))
      (classOf r.typ.toNat) :=
  fire_ok h ((bind_ok hx).trans (bind_ok (scalarAt_ok hk)))

theorem viota_fills (h : Fires Forms.viota r s t s₁) (hx : s₁.sliceAt r 0 = .ok x) (hk : kindForm (s₁.opnd r 1).kind = 0) :
    exec (.viota r) s = moved s₁ r t 0 x (typWidth r.typ.toNat) ((List.range (x.count (typWidth r.typ.toNat))).map fun e =>
      (s₁.elem r 1 + e) % 2 ^ typWidth r.typ.toNat) (classOf r.typ.toNat) :=
  fire_ok h ((bind_ok hx).trans (bind_ok (scalarAt_ok hk)))

theorem vpack_interleaves (h : Fires Forms.vpack r s t s₁) (hx : s₁.sliceAt r 0 = .ok x) (hy : s₁.sliceAt r 1 = .ok y)
    (hrows : y.nrow = x.nrow) (hz : s₁.sliceAt r 2 = .ok z) (hdouble : z.nrow + 1 = 2 * (x.nrow + 1)) :
    exec (.vpack r) s = moved s₁ r t 2 z (typWidth r.typ.toNat)
      (interleave (s₁.elems x (typWidth r.typ.toNat)) (s₁.elems y (typWidth r.typ.toNat))) (classOf r.typ.toNat) :=
  fire_ok h ((bind_ok hx).trans ((bind_ok (sliceRows_ok hy (congrArg (· + 1) hrows))).trans (bind_ok (sliceRows_ok hz hdouble))))

theorem vcpy_copies (h : Fires Forms.vcpy r s t s₁) (hx : s₁.sliceAt r 0 = .ok x) (hy : s₁.sliceAt r 1 = .ok y) (hrows : y.nrow = x.nrow) :
    exec (.vcpy r) s = moved s₁ r t 1 y 8 (s₁.elems x 8) (bitsOf s.cur.op0.kind.toNat 4 3) := by
  rw [← h.cur]
  exact fire_ok h ((bind_ok hx).trans (bind_ok (sliceRows_ok hy (congrArg (· + 1) hrows))))

/-! ### VUNPK -/

theorem vunpk_splits (h : Fires Forms.vunpk r s t s₁) (hx : s₁.sliceAt r 0 = .ok x) (hy : s₁.sliceAt r 1 = .ok y)
    (hz : s₁.sliceAt r 2 = .ok z) (hrows : z.nrow = y.nrow) (hdouble : x.nrow + 1 = 2 * (y.nrow + 1)) :
    let w := typWidth r.typ.toNat
    let es := s₁.elems x w
    exec (.vunpk r) s = .next ((((s₁.putElems y w (evens es)).putElems z w (evens (es.drop 1))).emitA r t
      (s₁.descr r 1 (classOf r.typ.toNat))).emitB r t (s₁.descr r 2 (classOf r.typ.toNat))) :=
  fire_ok h ((bind_ok hx).trans ((bind_ok hy).trans ((bind_ok (sliceRows_ok hz (congrArg (· + 1) hrows))).trans
    (if_neg (not_not.2 hdouble)))))

/-- The elements of even and of odd position, taken alternately, are the list again. -/
theorem interleave_evens : ∀ es : List Nat, Even es.length → interleave (evens es) (evens (es.drop 1)) = es
  | [], _ => rfl
  | [_], h => absurd h Nat.not_even_one
  | [_, _], _ => rfl
  | a :: b :: c :: t, h => by
    have ih := interleave_evens (c :: t) (by simpa [Nat.even_add_one] using h)
    exact congrArg (a :: b :: ·) ih

/-- A record that fires is of a type that its form has (R92 step 4). -/
theorem typ_mem_of_fires {f : Form} (h : Fires f r s t s₁) : r.typ.toNat ∈ f.typs := by
  by_contra hno
  have h4 : check4 f r = false := by simp [check4, hno]
  cases h3 : s.check3 f r
  · exact nomatch (Checks.check_of_check3_false h3).symm.trans h.checks
  · exact nomatch (Checks.check_of_check4_false h3 h4).symm.trans h.checks

/-- A type of VI or VF has a width that divides a slice's word of 2,048 bits. -/
theorem typWidth_dvd_of_typV {typ : Nat} (h : typ ∈ Forms.typV) : typWidth typ ∣ 2048 := by
  revert typ
  decide

theorem elems_length (s : State) (x : Slice) (w : Nat) : (s.elems x w).length = x.count w := by
  simp [State.elems, unpackElems]

/-- A slice of twice a number of words holds an even number of elements. -/
theorem count_even {w n : Nat} (hw : w ∣ 2048) (hx : x.nrow + 1 = 2 * n) : Even (x.count w) := by
  obtain ⟨k, hk⟩ := hw
  have hpos : 0 < w := Nat.pos_of_dvd_of_pos ⟨k, hk⟩ (by decide)
  have hbits : 8 * x.size = w * (k * n + k * n) := by
    calc 8 * x.size = 2048 * (2 * n) := by rw [Slice.size, hx]; omega
      _ = w * (k * n + k * n) := by rw [hk]; ring
  exact ⟨k * n, by rw [Slice.count, hbits, Nat.mul_div_cancel_left _ hpos]⟩

end

/-- Settles O32, instruction by instruction; VUNPK's halves taken alternately are its source, whose elements are even in number. -/
theorem vectorMoves : Obligations.VectorMoves := by
  unfold Obligations.VectorMoves
  intro r s s₁ t x y z hx w cls wrote
  refine ⟨fun h => vperm_moves h hx, fun hk => ⟨fun h => vsplat_fills h hx hk, fun h => viota_fills h hx hk⟩,
    fun h => vpack_interleaves h hx, fun h hy hz hrows hdouble => ?vunpk, fun h => vcpy_copies h hx⟩
  case vunpk =>
    have heven : Even (s₁.elems x w).length := by
      rw [elems_length]
      exact count_even (typWidth_dvd_of_typV (typ_mem_of_fires h)) hdouble
    exact ⟨_, _, interleave_evens _ heven, vunpk_splits h hx hy hz hrows hdouble⟩

end Sys2Proof.Proofs.VectorPairs
end

section
/-! Selection (R310, R311): the rank of entries as an order of keys, and what TOPK and TOPKM write. -/

namespace Sys2Proof.Proofs.Selection

open Sys2Proof Sys2Proof.Machine Sys2Proof.Proofs.Numbers Sys2Proof.Proofs.Formats Sys2Proof.Proofs.VectorPairs

/-! ## Exact values on the line of extended reals (R74) -/

/-- The number that an exact value stands for, its cut part left out; 0 for a NaN. -/
noncomputable def place : Val → EReal
  | .nan _ => 0
  | .inf neg => if neg then ⊥ else ⊤
  | .fin neg m e _ => (((if neg then -(m : ℝ) else m) * 2 ^ e : ℝ) : EReal)

theorem over_eq_place {e e₀ : Int} (h : e₀ ≤ e) (neg : Bool) (m : Nat) (c : Bool) :
    place (.fin neg m e c) = ((((Val.fin neg m e c).over e₀ : ℤ) * 2 ^ e₀ : ℝ) : EReal) := by
  have hpow : (2 : ℝ) ^ e = 2 ^ (e - e₀).toNat * 2 ^ e₀ := by
    rw [← zpow_natCast, Int.toNat_of_nonneg (by omega), ← zpow_add₀ two_ne_zero, sub_add_cancel]
  cases neg <;> simp [place, Val.over, hpow, mul_assoc]

/-- Finite values compare as their integers over a common power of two do. -/
theorem cmp_fin (n k : Bool) (m m' : Nat) (e e' : Int) (c c' : Bool) :
    (Val.fin n m e c).cmp (.fin k m' e' c') =
      if (Val.fin n m e c).over (min e e') < (Val.fin k m' e' c').over (min e e') then -1
      else if (Val.fin n m e c).over (min e e') = (Val.fin k m' e' c').over (min e e') then 0 else 1 := by
  simp only [Val.cmp, ← min_def, sub_neg, sub_eq_zero]

/-- Comparison of values that are no NaN is comparison of their places. -/
theorem cmp_neg_iff {a b : Val} (ha : a.isNan = false) (hb : b.isNan = false) : a.cmp b < 0 ↔ place a < place b := by
  cases a with
  | nan => exact nomatch ha
  | inf n =>
    cases b with
    | nan => exact nomatch hb
    | inf k => cases n <;> cases k <;> simp [Val.cmp, place]
    | fin k m e c => cases n <;> simp [Val.cmp, place, EReal.bot_lt_coe]
  | fin n m e c =>
    cases b with
    | nan => exact nomatch hb
    | inf k => cases k <;> simp [Val.cmp, place, EReal.coe_lt_top]
    | fin k m' e' c' =>
      have hpos : (0 : ℝ) < 2 ^ min e e' := by positivity
      rw [over_eq_place (min_le_left e e'), over_eq_place (min_le_right e e'), EReal.coe_lt_coe_iff, mul_lt_mul_iff_left₀ hpos,
        Int.cast_lt, cmp_fin]
      split_ifs <;> simp [*]

/-- A comparison the other way round has the other sign. -/
theorem cmp_swap (a b : Val) : b.cmp a = -a.cmp b := by
  cases a with
  | nan => cases b with
    | inf k => cases k <;> rfl
    | _ => rfl
  | inf n => cases b with
    | inf k => cases n <;> cases k <;> rfl
    | _ => cases n <;> rfl
  | fin n m e c => cases b with
    | nan => rfl
    | inf k => cases k <;> rfl
    | fin k m' e' c' =>
      rw [cmp_fin, cmp_fin, min_comm]
      split_ifs <;> omega

theorem cmp_pos_iff {a b : Val} (ha : a.isNan = false) (hb : b.isNan = false) : 0 < a.cmp b ↔ place b < place a := by
  rw [← cmp_neg_iff hb ha, cmp_swap]
  omega

/-! ## The rank (R310) -/

/-- How good an element is, as a key: a NaN is worst, and the smaller of two places is better where the rank takes the least. -/
noncomputable def goodness (typ : Nat) (mn : Bool) (a : Nat) : WithBot EReal :=
  let v := if typ = 8 then readFlt fp32 a else .ofInt (asInt typ a)
  if v.isNan then ⊥ else ((if mn then -place v else place v : EReal) : WithBot EReal)

theorem place_ofInt (x : Int) : place (.ofInt x) = ((x : ℝ) : EReal) := by
  have habs : (x.natAbs : ℝ) = |(x : ℝ)| := by rw [Nat.cast_natAbs, Int.cast_abs]
  by_cases hx : x < 0
  · have hr : (x : ℝ) < 0 := Int.cast_lt_zero.2 hx
    simp [Val.ofInt, place, hx, habs, abs_of_neg hr]
  · have hr : (0 : ℝ) ≤ x := Int.cast_nonneg (not_lt.1 hx)
    simp [Val.ofInt, place, hx, habs, abs_of_nonneg hr]

/-- One value key is better than another where its goodness is larger. -/
theorem keyBetter_iff (typ : Nat) (mn : Bool) (a b : Nat) : keyBetter typ mn a b = true ↔ goodness typ mn b < goodness typ mn a := by
  by_cases ht : typ = 8
  · simp only [keyBetter, goodness, if_pos ht]
    cases ha : (readFlt fp32 a).isNan <;> cases hb : (readFlt fp32 b).isNan <;> cases mn <;>
      simp [cmp_neg_iff, cmp_pos_iff, ha, hb, WithBot.bot_lt_coe]
  · have hint : ∀ x : Int, (Val.ofInt x).isNan = false := fun _ => rfl
    simp only [keyBetter, goodness, if_neg ht, hint, place_ofInt]
    cases mn <;> simp

/-- An entry ranks above another where it is not empty and the other is, or is better, or as good with the lower index. -/
theorem ranksAbove_iff {typ : Nat} {mn : Bool} {a b : Nat × Nat} : ranksAbove typ mn a b = true ↔
    a.2 ≠ 2 ^ 32 - 1 ∧ (b.2 = 2 ^ 32 - 1 ∨ goodness typ mn b.1 < goodness typ mn a.1 ∨
      (goodness typ mn b.1 = goodness typ mn a.1 ∧ a.2 < b.2)) := by
  have hab := keyBetter_iff typ mn a.1 b.1
  have hba := keyBetter_iff typ mn b.1 a.1
  simp only [ranksAbove]
  generalize 2 ^ 32 - 1 = empty
  by_cases ha : a.2 = empty
  · simp [ha]
  by_cases hb : b.2 = empty
  · simp [ha, hb]
  rw [if_neg ha, if_neg hb]
  rcases lt_trichotomy (goodness typ mn b.1) (goodness typ mn a.1) with h | h | h
  · simp [hab.2 h, ha, h]
  · simp [hab, hba, ha, hb, h]
  · simp [hab, hba, ha, hb, h, h.ne']

theorem ranksAbove_asymm {typ : Nat} {mn : Bool} {a b : Nat × Nat} (h : ranksAbove typ mn a b = true) :
    ranksAbove typ mn b a = false := by
  rw [← Bool.not_eq_true, ranksAbove_iff]
  obtain ⟨ha, hb | hlt | ⟨heq, hidx⟩⟩ := ranksAbove_iff.1 h
  · exact fun hba => hba.1 hb
  · rintro ⟨-, hba | hba | ⟨hba, -⟩⟩
    · exact ha hba
    · exact lt_asymm hlt hba
    · exact hlt.ne' hba
  · rintro ⟨-, hba | hba | ⟨-, hba⟩⟩
    · exact ha hba
    · exact hba.ne' heq
    · exact lt_asymm hidx hba

theorem ranksAbove_trans {typ : Nat} {mn : Bool} {a b c : Nat × Nat} (hab : ranksAbove typ mn a b = true)
    (hbc : ranksAbove typ mn b c = true) : ranksAbove typ mn a c = true := by
  rw [ranksAbove_iff] at hab hbc ⊢
  obtain ⟨ha, hab⟩ := hab
  obtain ⟨hb, hbc⟩ := hbc
  refine ⟨ha, ?_⟩
  rcases hbc with hc | hbc | ⟨hbc, hbidx⟩
  · exact .inl hc
  · rcases hab with hb' | hab | ⟨hab, -⟩
    · exact absurd hb' hb
    · exact .inr (.inl (hbc.trans hab))
    · exact .inr (.inl (hab ▸ hbc))
  · rcases hab with hb' | hab | ⟨hab, haidx⟩
    · exact absurd hb' hb
    · exact .inr (.inl (hbc ▸ hab))
    · exact .inr (.inr ⟨hbc.trans hab, haidx.trans hbidx⟩)

/-- Of two entries of distinct indices that are not empty, one ranks above the other. -/
theorem ranksAbove_total {typ : Nat} {mn : Bool} {a b : Nat × Nat} (hne : a.2 ≠ b.2) (ha : a.2 ≠ 2 ^ 32 - 1) (hb : b.2 ≠ 2 ^ 32 - 1) :
    ranksAbove typ mn a b = true ∨ ranksAbove typ mn b a = true := by
  rw [ranksAbove_iff, ranksAbove_iff]
  rcases lt_trichotomy (goodness typ mn a.1) (goodness typ mn b.1) with h | h | h
  · exact .inr ⟨hb, .inr (.inl h)⟩
  · rcases Nat.lt_or_gt_of_ne hne with hidx | hidx
    · exact .inl ⟨ha, .inr (.inr ⟨h.symm, hidx⟩)⟩
    · exact .inr ⟨hb, .inr (.inr ⟨h, hidx⟩)⟩
  · exact .inl ⟨ha, .inr (.inl h)⟩

/-! ## TOPK and TOPKM (R311) -/

section
variable {r : Rec} {s s₁ : State} {t : Word} {x y z : Slice}

/-- The first entries in rank order and empty ones after them, written over the slice z, and its descriptor sent. -/
def selected (s : State) (r : Rec) (t : Word) (z : Slice) (es : List (Nat × Nat)) : Host.Outcome State Fault Refusal :=
  .next ((s.putElems z 32 (topWords r.typ.toNat (r.sub.toNat.testBit 0) r.lit.toNat es)).out r t (s.descr r 2 (classOf r.typ.toNat)))

theorem topCount_ok (hk : 1 ≤ r.lit.toNat ∧ r.lit.toNat ≤ 64) : topCount r = .ok r.lit.toNat := if_pos hk

/-- The first index of a TOPK's elements. -/
def topBase (s : State) (r : Rec) : Nat := (s.val r 1).toNat % 2 ^ 32

section
variable (h : Fires Forms.topk r s t s₁) (hx : s₁.sliceAt r 0 = .ok x) (hb : kindForm (s₁.opnd r 1).kind = 0)
  (hz : s₁.sliceAt r 2 = .ok z) (hrows : z.nrow + 1 = 2) (hk : 1 ≤ r.lit.toNat ∧ r.lit.toNat ≤ 64)
include h hx hb hz hrows hk

theorem topk_selects (hroom : topBase s₁ r + (s₁.elems x 32).length - 1 < 2 ^ 32 - 1) :
    exec (.topk r) s = selected s₁ r t z ((s₁.elems x 32).zipIdx.map fun p => (p.1, topBase s₁ r + p.2)) :=
  fire_ok h ((bind_ok hx).trans ((bind_ok (scalarAt_ok hb)).trans ((bind_ok (sliceRows_ok hz hrows)).trans
    ((bind_ok (topCount_ok hk)).trans (if_neg (Nat.not_le.2 hroom))))))

/-- Indices that would reach the empty one are refused. -/
theorem topk_refuses (hover : 2 ^ 32 - 1 ≤ topBase s₁ r + (s₁.elems x 32).length - 1) :
    exec (.topk r) s = .next (s.faultCur (slotFault (s₁.opnd r 1) 1)) :=
  fire_error h ((bind_ok hx).trans ((bind_ok (scalarAt_ok hb)).trans ((bind_ok (sliceRows_ok hz hrows)).trans
    ((bind_ok (topCount_ok hk)).trans (if_pos hover)))))

end

theorem topkm_selects (h : Fires Forms.topkm r s t s₁) (hx : s₁.sliceAt r 0 = .ok x) (hxrows : x.nrow + 1 = 2)
    (hy : s₁.sliceAt r 1 = .ok y) (hyrows : y.nrow + 1 = 2) (hz : s₁.sliceAt r 2 = .ok z) (hzrows : z.nrow + 1 = 2)
    (hk : 1 ≤ r.lit.toNat ∧ r.lit.toNat ≤ 64) : exec (.topkm r) s = selected s₁ r t z (s₁.topList x ++ s₁.topList y) :=
  fire_ok h ((bind_ok (sliceRows_ok hx hxrows)).trans ((bind_ok (sliceRows_ok hy hyrows)).trans ((bind_ok (sliceRows_ok hz hzrows)).trans
    (bind_ok (topCount_ok hk)))))

end

/-- Settles O34: what TOPK and TOPKM write; and the rank compares keys of a linear order, then indices. -/
theorem selection : Obligations.Selection := by
  unfold Obligations.Selection
  refine ⟨?writes, fun typ mn a b c _ => ⟨ranksAbove_asymm, ranksAbove_trans, ranksAbove_total⟩⟩
  case writes =>
    intro r s s₁ t x y z k hlit hlo hhi hx hz hrows wrote
    subst hlit
    have hzrows : z.nrow + 1 = 2 := congrArg (· + 1) hrows
    exact ⟨fun h hb => ⟨topk_selects h hx hb hz hzrows ⟨hlo, hhi⟩, topk_refuses h hx hb hz hzrows ⟨hlo, hhi⟩⟩,
      fun h hxrows hy hyrows => topkm_selects h hx (congrArg (· + 1) hxrows) hy (congrArg (· + 1) hyrows) hz hzrows ⟨hlo, hhi⟩⟩

end Sys2Proof.Proofs.Selection
end

section
/-! What each matrix and softmax message writes at the end of its occupancy, and what it replies (R297, R299 to R304, R306 to R308, R315,
R316, R324, R325). -/

namespace Sys2Proof.Proofs.MatrixResults

open Sys2Proof Sys2Proof.Machine

/-- The slot or tile that operand n of a message names. -/
def place (m : MatMsg) (n : Nat) : Nat := (m.op n).val.toNat % 16

/-- A message that changes its core and replies with one operand on both destinations. -/
def wrote (s : State) (f : Core → Core) (o : Operand) : Except Flt (State × Operand × Operand) := .ok (s.modCore s.cur.core f, o, o)

/-- What AMOV moves out of a tile: its bytes, or those that a peek read at its start (R306). -/
def movedTile (s : State) (m : MatMsg) : List Byte :=
  if m.r.sub.toNat.testBit 2 then m.src else (s.core s.cur.core).tileBytes (place m 0)

section
variable {s : State} {m : MatMsg}

theorem matCommit_orel (h : m.opc = 0xB1) : s.matCommit m = wrote s (fun k => (List.range m.r.lit.toNat).foldl (fun k j =>
    if 16 ≤ (m.op 0).val.toNat then k.clearTile (place m 0 + j) else k.clearSlot (place m 0 + j)) k) (plainOp 0) := by
  simp only [State.matCommit, h, decide_eq_true_eq]
  rfl

theorem matCommit_old (h : m.opc = 0xB2) :
    s.matCommit m = wrote s (fun k => k.putSlot (place m 1) (256 * m.r.lit.toNat) m.src) (m.refOut 1) := by
  simp only [State.matCommit, h]
  rfl

theorem matCommit_olds (h : m.opc = 0xB3) :
    s.matCommit m = wrote s (fun k => k.putScales (place m 0) (m.r.lit.toNat % 256) m.src) (m.refOut 0) := by
  simp only [State.matCommit, h]
  rfl

theorem matCommit_aclr (h : m.opc = 0xB7) :
    s.matCommit m = wrote s (fun k => k.putTile (place m 0) (List.replicate 8192 0)) (m.refOut 0) := by
  simp only [State.matCommit, h]
  rfl

theorem isPeek_of_amov (h : m.opc = 0xB8) : m.isPeek = m.r.sub.toNat.testBit 2 := by
  simp [MatMsg.isPeek, h]

theorem matCommit_amov_tile_to_slice (h : m.opc = 0xB8) (hsub : m.r.sub.toNat % 4 = 0) :
    s.matCommit m = .ok (s.putSliceOf m 1 (movedTile s m), m.op 1, m.op 1) := by
  simp only [State.matCommit, h, hsub, isPeek_of_amov h]
  rfl

theorem matCommit_amov_slice_to_tile (h : m.opc = 0xB8) (hsub : m.r.sub.toNat % 4 = 1) :
    s.matCommit m = wrote s (fun k => k.putTile (place m 1) m.src) (m.refOut 1) := by
  simp only [State.matCommit, h, hsub]
  rfl

theorem matCommit_amov_tile_to_tile (h : m.opc = 0xB8) (hsub : 2 ≤ m.r.sub.toNat % 4) :
    s.matCommit m = wrote s (fun k => (List.range 64).foldl
      (fun x j => x.putRow (place m 1) j ((s.core s.cur.core).row (place m 0) j)) (k.putTile (place m 1) (movedTile s m))) (m.refOut 1) := by
  obtain ⟨n, hn⟩ := Nat.exists_eq_add_of_le' hsub
  simp only [State.matCommit, h, hn, isPeek_of_amov h, wrote, movedTile, State.modCore]
  rfl

/-! ## Tiles and checkpoints (R306, R307) -/

/-- The words of a tile added to those of another, one by one, with their flags. -/
def addedWords (s : State) (m : MatMsg) : List (Nat × Flg) :=
  (((s.core s.cur.core).tileWords (place m 1)).zip ((s.core s.cur.core).tileWords (place m 0))).map fun p =>
    if m.r.typ = 8 then faddBits fp32 ⟨0, false, 0⟩ p.1 p.2
    else intRes 2 (m.r.sub.toNat.testBit 5) (asInt 2 p.1 + asInt 2 p.2)

theorem matCommit_aadd (h : m.opc = 0xB9) : s.matCommit m =
    .ok ((s.modCore s.cur.core fun k => k.putWords (place m 1) ((addedWords s m).map (·.1))).raise (orFlags (addedWords s m)), m.refOut 1,
      m.refOut 1) := by
  simp only [State.matCommit, h]
  rfl

/-- The words of a tile converted, with their flags. -/
def convertedWords (s : State) (m : MatMsg) : List (Nat × Flg) :=
  ((s.core s.cur.core).tileWords (place m 0)).zipIdx.map fun p =>
    let y := convElem (elemTy m.r.typ.toNat) (elemTy m.r.lit.toNat) m.mode (satF m.r) (drawHi m.draw p.2) p.1
    (y.1, y.2.1)

theorem matCommit_acvt (h : m.opc = 0xBA) : s.matCommit m =
    .ok ((s.putSliceOf m 1 (packElems (typWidth m.r.lit.toNat) ((convertedWords s m).map (·.1)))).raise (orFlags (convertedWords s m)),
      m.op 1, m.op 1) := by
  simp only [State.matCommit, h]
  rfl

theorem matCommit_ackpt (h : m.opc = 0xBB) : s.matCommit m = .ok (s, plainOp 0, plainOp 0) := by
  simp only [State.matCommit, h]

/-- The row states of a checkpoint's image; none where a reserved bit of one is set (R307). -/
def imageRows (m : MatMsg) : Option (List RowState) := (List.range 64).mapM fun j => rowOfBytes (m.src.drop (8192 + 16 * j))

theorem matCommit_arst_refuses (h : m.opc = 0xBC) (hrows : imageRows m = none) :
    s.matCommit m = .error (slotFault (m.op 0) 0) := by
  unfold imageRows at hrows
  simp only [State.matCommit, h, hrows]

theorem matCommit_arst_restores {rows : List RowState} (h : m.opc = 0xBC) (hrows : imageRows m = some rows) :
    s.matCommit m = wrote s (fun k => rows.zipIdx.foldl (fun k p => k.putRow (place m 0) p.2 p.1) (k.putTile (place m 0) m.src))
      (m.refOut 0) := by
  unfold imageRows at hrows
  simp only [State.matCommit, h, hrows]
  rfl

/-! ## Softmax (R315, R316, R321, R322, R324, R325) -/

theorem matCommit_smxi (h : m.opc = 0xC8) : s.matCommit m = wrote s (fun k => (List.range (bitsOf m.r.lit.toNat 12 6)).foldl (fun k j =>
    (k.putRow (place m 0) (m.r.lit.toNat % 64 + j) RowState.init).putGroupRow (place m 0) (groupNt m) (m.r.lit.toNat % 64 + j)
      (List.replicate (32 * groupNt m) 0)) k) (m.refOut 0) := by
  simp only [State.matCommit, h]
  rfl

theorem matCommit_smxu_refuses (h : m.opc = 0xC9) (hf : frameOf m.src = none) : s.matCommit m = .error (slotFault (m.op 0) 0) := by
  simp only [State.matCommit, h, hf]

theorem matCommit_smxu {fr : Frame} (h : m.opc = 0xC9) (hf : frameOf m.src = some fr) :
    let y := (s.core s.cur.core).runSmxu m fr
    let o := m.sliceOut 2 (if fr.fp8 then 3 else 2)
    s.matCommit m = .ok (((s.setCore s.cur.core y.1).putSliceOf m 2 y.2.1).raise y.2.2, o, o) := by
  simp only [State.matCommit, h, hf]

theorem matCommit_smxn (h : m.opc = 0xCA) :
    let y := (s.core s.cur.core).runSmxn m
    let o := m.sliceOut 1 (classOf (m.r.lit.toNat % 16))
    s.matCommit m =
      .ok (((s.setCore s.cur.core y.1).putSliceOf m 1 (packElems (typWidth (m.r.lit.toNat % 16)) y.2.1)).raise y.2.2, o, o) := by
  simp only [State.matCommit, h]

theorem matCommit_smxm (h : m.opc = 0xCB) :
    let y := (s.core s.cur.core).runSmxm m
    s.matCommit m = .ok ((s.setCore s.cur.core y.1).raise y.2, m.refOut 1, m.refOut 1) := by
  simp only [State.matCommit, h]

theorem matCommit_smxr (h : m.opc = 0xCC) : s.matCommit m = .ok (s, plainOp 0, plainOp 0) := by
  simp only [State.matCommit, h]

theorem matCommit_smxw_refuses (h : m.opc = 0xCD) (hrows : tokRows (groupNt m) m.src = none) :
    s.matCommit m = .error (slotFault (m.op 0) 0) := by
  simp only [State.matCommit, h, hrows]

theorem matCommit_smxw_loads {rows : List (RowState × List Nat)} (h : m.opc = 0xCD) (hrows : tokRows (groupNt m) m.src = some rows) :
    s.matCommit m = wrote s (fun k => rows.zipIdx.foldl (fun k p =>
      (k.putRow (place m 0) p.2 p.1.1).putGroupRow (place m 0) (groupNt m) p.2 p.1.2) k) (m.refOut 0) := by
  simp only [State.matCommit, h, hrows]
  rfl

/-- The row state that SMXS sends. -/
def sentRow (s : State) (m : MatMsg) : RowState := (s.core s.cur.core).row (place m 0) (m.r.lit.toNat % 64)

/-- Two 32-bit values side by side are the word of their sum, the upper in place (R325). -/
theorem ofNat_putBits_add (l m : BitVec 32) : BitVec.ofNat 64 (putBits l.toNat 32 + m.toNat) = l ++ m := by
  have hl := l.isLt
  have hm := m.isLt
  refine BitVec.eq_of_toNat_eq ?_
  rw [BitVec.toNat_append, ← Nat.shiftLeft_add_eq_or_of_lt hm, BitVec.toNat_ofNat, putBits, Nat.shiftLeft_eq]
  omega

/-- The word of a row state's flags, flush count and exponent (R325). -/
def rowWord (x : RowState) : Word := BitVec.ofNat 64 (putBits (x.flags.toNat % 8) 48 + putBits x.flush.toNat 32 + x.e.toNat)

theorem toNat_rowWord (x : RowState) : (rowWord x).toNat = x.flags.toNat % 8 * 2 ^ 48 + x.flush.toNat * 2 ^ 32 + x.e.toNat := by
  have hf := x.flush.isLt
  have he := x.e.isLt
  rw [rowWord, BitVec.toNat_ofNat, putBits, putBits, Nat.shiftLeft_eq, Nat.shiftLeft_eq]
  omega

theorem rowWord_e (x : RowState) : (rowWord x).extractLsb' 0 16 = x.e := by
  have he := x.e.isLt
  refine BitVec.eq_of_toNat_eq ?_
  rw [BitVec.extractLsb'_toNat, toNat_rowWord, Nat.shiftRight_zero]
  omega

theorem rowWord_flush (x : RowState) : (rowWord x).extractLsb' 32 16 = x.flush := by
  have hf := x.flush.isLt
  have he := x.e.isLt
  refine BitVec.eq_of_toNat_eq ?_
  rw [BitVec.extractLsb'_toNat, toNat_rowWord, Nat.shiftRight_eq_div_pow]
  omega

theorem matCommit_smxs (h : m.opc = 0xCE) :
    s.matCommit m = .ok (s, plainOp ((sentRow s m).l ++ (sentRow s m).m), plainOp (rowWord (sentRow s m))) := by
  simp only [State.matCommit, h, ← ofNat_putBits_add]
  rfl

/-! ## Multiplies (R303, R305) -/

theorem matCommit_multiply (h : m.opc ∈ [0xB4, 0xB5, 0xB6]) : s.matCommit m = .ok (s.runMma m, m.refOut 2, m.refOut 2) := by
  simp only [List.mem_cons, List.not_mem_nil, or_false] at h
  rcases h with h | h | h <;> simp only [State.matCommit, h]

/-- A multiply that writes one tile writes the words that it runs to, raises their flags, and reports a NaN scale. -/
theorem runMma_one {t : Nat} {x : MmaIn} (h : (s.core s.cur.core).mmaIns m = [(t, x)]) :
    let es := x.run (fun _ => mmaK x.typ) ((s.core s.cur.core).tileWords t)
    s.runMma m =
      (((s.modCore s.cur.core fun k => k.putWords t (es.map (·.1))).raise (orFlags es ||| x.ternFlag)).nanScale x.nanScale) := by
  simp only [State.runMma, h, List.foldl_cons, List.foldl_nil, List.any_cons, List.any_nil, Bool.or_false]

end

/-- Settles O43, one lemma for each message. -/
theorem matrixResults : Obligations.MatrixResults := by
  unfold Obligations.MatrixResults
  intro s m c k i lit both wrote
  exact ⟨matCommit_orel, matCommit_old, matCommit_olds,
    fun h => ⟨matCommit_multiply h, fun t x => runMma_one, fun _ => rfl⟩,
    matCommit_aclr, matCommit_amov_tile_to_slice, matCommit_amov_tile_to_tile, matCommit_amov_slice_to_tile, matCommit_aadd,
    matCommit_acvt, matCommit_ackpt, matCommit_arst_refuses, fun h rows => matCommit_arst_restores h, matCommit_smxi,
    matCommit_smxu_refuses, fun h fr => matCommit_smxu h, matCommit_smxn, matCommit_smxm, matCommit_smxr, matCommit_smxw_refuses,
    fun h rows => matCommit_smxw_loads h, fun h => ⟨_, _, matCommit_smxs h, rfl, rowWord_e _, rowWord_flush _⟩⟩

end Sys2Proof.Proofs.MatrixResults
end

section
/-! The events of the matrix engine (R298, R299, R305, R308, R324, R419): acceptance, start, the end of an occupancy, the repeat of a
multiply, the reply, and the copy of A; what each does, case by case. -/

namespace Sys2Proof.Proofs.MatrixEvents

open Sys2Proof Sys2Proof.Machine

/-- The state in which the firing that issues is the one that sent the message m. -/
abbrev under (s : State) (m : MatMsg) : State := { s with cur := m.f }

/-! ## MATRIX_ACCEPT (R298, R299, R308) -/

/-- The messages that wait in the inbox for their start. -/
abbrev waiting (k : Core) : Nat := (k.inbox.filter fun x => decide (x.stage = 0)).length

/-- The state that looks at the oldest message m of the path: m is gone from the path, and its firing is the one that issues. -/
abbrev taken (s : State) (m : MatMsg) (rest : List MatMsg) : State :=
  { s.setCore s.site.core { s.core s.site.core with path := rest } with cur := m.f }

/-- A message in the inbox whose reply is next. -/
def answered (s : State) (c : CoreId) (m : MatMsg) : State :=
  (s.modCore c fun k => { k with inbox := k.inbox ++ [{ m with stage := 3 }] }).laterAt .matrixReply c m.id

section
variable {s : State}

theorem matrixAccept_no_message (hp : (s.core s.site.core).path = []) : exec .matrixAccept s = .next s := by
  show execMatrixAccept s = _
  simp only [execMatrixAccept, hp]

theorem matrixAccept_inbox_full (hp : (s.core s.site.core).path ≠ []) (hfull : 16 ≤ waiting (s.core s.site.core)) :
    exec .matrixAccept s = .next (s.laterAt .matrixAccept s.site.core 0) := by
  obtain ⟨m, rest, hm⟩ := List.exists_cons_of_ne_nil hp
  show execMatrixAccept s = _
  simp only [execMatrixAccept, hm, if_pos hfull]

variable {m : MatMsg} {rest : List MatMsg} (hp : (s.core s.site.core).path = m :: rest) (hroom : waiting (s.core s.site.core) < 16)
include hp hroom

theorem matrixAccept_refuses {f : Flt} (hc : (taken s m rest).matCheck m = .error f) :
    exec .matrixAccept s = .next ((taken s m rest).faultCur f) := by
  show execMatrixAccept s = _
  simp only [execMatrixAccept, hp, if_neg (Nat.not_le.2 hroom), hc]

variable {ps : List MemPart} (hc : (taken s m rest).matCheck m = .ok ps)
include hc

/-- A message that waits for its turn enters the inbox with its translations, an MMAX with its number among those of its colour. -/
theorem matrixAccept_enters (ho : m.opc ∉ [0xB0, 0xBD]) :
    let c := s.site.core
    let col := colourOf m.f.tag
    let num := if m.opc = 0xB6 then Assoc.getD (s.core c).mmaxN col 0 + 1 else 0
    exec .matrixAccept s = .next (((taken s m rest).modCore c fun k =>
      { k with inbox := k.inbox ++ [{ m with parts := ps, num := num }],
               mmaxN := if m.opc = 0xB6 then Assoc.set k.mmaxN col num else k.mmaxN }).laterAt .matrixStart c m.id) := by
  have hno : ¬ (m.opc = 0xB0 ∨ m.opc = 0xBD) := by simpa using ho
  show execMatrixAccept s = _
  simp only [execMatrixAccept, hp, if_neg (Nat.not_le.2 hroom), hc, if_neg hno]

theorem matrixAccept_claims (ho : m.opc = 0xB0) : exec .matrixAccept s =
    .next (answered ((taken s m rest).claimBlock m).2 s.site.core ((taken s m rest).claimBlock m).1) := by
  show execMatrixAccept s = _
  simp only [execMatrixAccept, hp, if_neg (Nat.not_le.2 hroom), hc, if_pos ho, if_pos (Or.inl ho)]
  rfl

theorem matrixAccept_reads_state (ho : m.opc = 0xBD) :
    let o := some (plainOp ((taken s m rest).astatWord m))
    exec .matrixAccept s = .next (answered (taken s m rest) s.site.core { m with outA := o, outB := o }) := by
  have hno : m.opc ≠ 0xB0 := by omega
  show execMatrixAccept s = _
  simp only [execMatrixAccept, hp, if_neg (Nat.not_le.2 hroom), hc, if_neg hno, if_pos (Or.inr ho)]
  rfl

end

/-! ## MATRIX_START (R298) -/

section
variable {s : State}

theorem matrixStart_gone (hm : ((s.core s.site.core).inbox.find? fun x => decide (x.id = s.site.n)) = none) :
    exec .matrixStart s = .next s := by
  show execMatrixStart s = _
  simp only [execMatrixStart, hm]

variable {m : MatMsg} (hm : ((s.core s.site.core).inbox.find? fun x => decide (x.id = s.site.n)) = some m)
include hm

theorem matrixStart_waits (hs : (s.core s.site.core).mayStart s.site.core m = false) :
    exec .matrixStart s = .next (s.laterAt .matrixStart s.site.core m.id) := by
  show execMatrixStart s = _
  simp only [execMatrixStart, hm, hs]
  rfl

variable (hs : (s.core s.site.core).mayStart s.site.core m = true)
include hs

theorem matrixStart_refuses {f : Flt} (hb : (under s m).matBegin m = .error f) :
    exec .matrixStart s = .next (((under s m).dropMat s.site.core m.id).faultMat f) := by
  show execMatrixStart s = _
  simp only [execMatrixStart, hm, hs, hb]
  rfl

/-- A message that leaves for memory ends its occupancy when memory answers. -/
theorem matrixStart_leaves {s₂ : State} (hb : (under s m).matBegin m = .ok (none, s₂)) : exec .matrixStart s = .next s₂ := by
  show execMatrixStart s = _
  simp only [execMatrixStart, hm, hs, hb]
  rfl

variable {bs : List Byte} {s₂ : State} (hb : (under s m).matBegin m = .ok (some bs, s₂))
include hb

theorem matrixStart_poisoned {pa : Nat} (hp : s₂.matPoison m bs.length = some pa) :
    exec .matrixStart s = .next ((s₂.dropMat s.site.core m.id).consumePoison s.site.core m.f.node m.f.tag pa) := by
  show execMatrixStart s = _
  simp only [execMatrixStart, hm, hs, hb, hp]
  rfl

theorem matrixStart_starts (hp : s₂.matPoison m bs.length = none) :
    let c := s.site.core
    let mode := s₂.curAct.mode (m.r.sub.toNat / 8)
    exec .matrixStart s =
      .next (((s₂.modMat c m.id fun x => { x with stage := 1, src := bs, draw := s₂.curAct.rng, mode := mode }).reserve
        (if mode = 5 then (s.core c).matDraws m else 0)).laterAt .matrixOccupancyEnd c m.id) := by
  show execMatrixStart s = _
  simp only [execMatrixStart, hm, hs, hb, hp]
  rfl
end

/-! ## MATRIX_OCCUPANCY_END (R298, R305, R324, R419) -/

/-- SMXW and SMXR that have read no more than their token's header (R324). -/
abbrev readsToken (m : MatMsg) : Prop := (m.opc = 0xCC ∨ m.opc = 0xCD) ∧ m.got = 0

/-- An MMAX on the leader of its group (R305). -/
abbrev leads (c : CoreId) (m : MatMsg) : Prop := m.opc = 0xB6 ∧ mmaxLeader c m.r = c

/-- A leader that finds a copy of A of another leader (R305). -/
abbrev finds (s : State) (m : MatMsg) : Prop :=
  m.opc = 0xB6 ∧ mmaxLeader s.site.core m.r = s.site.core ∧ ((under s m).core s.site.core).otherLeader m = true

/-- A leader of whose members one has not taken A yet (R305). -/
abbrev lacks (s : State) (m : MatMsg) : Prop :=
  m.opc = 0xB6 ∧ mmaxLeader s.site.core m.r = s.site.core ∧ m.got + 1 < (mmaxGroup s.site.core m.r).length

/-- An MMAX has not the opcodes of SMXW and SMXR. -/
theorem not_readsToken_of_leads {c : CoreId} {m : MatMsg} (h : leads c m) : ¬ readsToken m := by
  obtain ⟨ho, -⟩ := h
  rintro ⟨ho', -⟩
  omega

section
variable {s : State} {m : MatMsg}
  (hm : ((s.core s.site.core).inbox.find? fun x => decide (x.id = s.site.n) && decide (x.stage = 1)) = some m)
include hm

theorem matrixOccupancyEnd_reads_token {s₂ : State} (ht : readsToken m) (hr : (under s m).tokRest m = .ok s₂) :
    exec .matrixOccupancyEnd s = .next s₂ := by
  show execMatrixOccupancyEnd s = _
  simp only [execMatrixOccupancyEnd, hm, if_pos ht, hr]

/-- A token that R324 refuses ends the message and its request. -/
theorem matrixOccupancyEnd_token_refused {f : Flt} (ht : readsToken m) (hr : (under s m).tokRest m = .error f) :
    exec .matrixOccupancyEnd s = .next ((((((under s m).core s.site.core).reqs.find? fun q => decide (q.op.engine? = some m.id)).elim
      (under s m) fun q => (under s m).dropReq s.site.core q.id).dropMat s.site.core m.id).faultMat f) := by
  show execMatrixOccupancyEnd s = _
  simp only [execMatrixOccupancyEnd, hm, if_pos ht, hr]
  cases ((under s m).core s.site.core).reqs.find? fun q => decide (q.op.engine? = some m.id) <;> rfl

theorem matrixOccupancyEnd_other_leader (hl : leads s.site.core m) (ho : (s.core s.site.core).otherLeader m = true) :
    exec .matrixOccupancyEnd s = .next (((under s m).dropMat s.site.core m.id).faultMat (slotFault (m.op 0) 0)) := by
  show execMatrixOccupancyEnd s = _
  simp only [execMatrixOccupancyEnd, hm]
  rw [if_neg (not_readsToken_of_leads hl), if_pos (⟨hl.1, hl.2, ho⟩ : finds s m)]

/-- A leader waits while a member has not taken A. -/
theorem matrixOccupancyEnd_waits (hl : leads s.site.core m) (ho : (s.core s.site.core).otherLeader m = false)
    (hg : m.got + 1 < (mmaxGroup s.site.core m.r).length) :
    exec .matrixOccupancyEnd s = .next ((under s m).laterAt .matrixOccupancyEnd s.site.core m.id 0 s.site.flag) := by
  have hno : ¬ finds s m := fun h => Bool.false_ne_true (ho.symm.trans h.2.2)
  show execMatrixOccupancyEnd s = _
  simp only [execMatrixOccupancyEnd, hm]
  rw [if_neg (not_readsToken_of_leads hl), if_neg hno, if_pos (⟨hl.1, hl.2, hg⟩ : lacks s m)]

variable (ht : ¬ readsToken m)
  (hl : leads s.site.core m → (s.core s.site.core).otherLeader m = false ∧ (mmaxGroup s.site.core m.r).length ≤ m.got + 1)
include ht hl

/-- A message that waits for nothing ends its occupancy, or repeats where the event reports a mismatch of the array. -/
theorem matrixOccupancyEnd_ends : exec .matrixOccupancyEnd s =
    .next (if s.site.flag = true ∧ m.onArray = true then
      ((under s m).modMat s.site.core m.id fun x => { x with retried := true }).laterAt .matrixRetry s.site.core m.id
    else (under s m).endMat s.site.core m) := by
  have hother : ¬ finds s m := fun ⟨ho, hlead, h⟩ => Bool.false_ne_true ((hl ⟨ho, hlead⟩).1.symm.trans h)
  have hall : ¬ lacks s m :=
    fun ⟨ho, hlead, h⟩ => absurd h (Nat.not_lt.2 (hl ⟨ho, hlead⟩).2)
  show execMatrixOccupancyEnd s = _
  simp only [execMatrixOccupancyEnd, hm]
  rw [if_neg ht, if_neg hother, if_neg hall]

end

section
variable {s : State} {c : CoreId} {m : MatMsg}

theorem endMat_refused {f : Flt} (h : s.matCommit m = .error f) : s.endMat c m = (s.dropMat c m.id).faultMat f := by
  simp only [State.endMat, h]

theorem endMat_writes {s₂ : State} {a b : Operand} (h : s.matCommit m = .ok (s₂, a, b)) : s.endMat c m =
    (s₂.modMat c m.id fun x => { x with stage := 3, outA := some a, outB := some b }).laterAt .matrixReply c m.id := by
  simp only [State.endMat, h]
end

/-! ## MATRIX_RETRY (R419) -/

/-- The topmost byte of a word in the fault layout is its kind (R401). -/
theorem faultWord0_kind (kind cause source : Nat) (stall : Bool) (colour node core : Nat) (ctl : Bool) (detail : Nat) :
    ((faultWord0 kind cause source stall colour node core ctl detail).extractLsb' 56 8).toNat = kind % 256 := by
  have hstall : b2n stall ≤ 1 := by cases stall <;> decide
  have hctl : b2n ctl ≤ 1 := by cases ctl <;> decide
  rw [BitVec.extractLsb'_toNat, faultWord0, BitVec.toNat_ofNat, Nat.shiftRight_eq_div_pow]
  simp only [putBits, Nat.shiftLeft_eq]
  omega

/-- A multiply that failed twice is gone, and its fault posted. -/
abbrev failed (s : State) (m : MatMsg) : State :=
  ((under s m).dropMat s.site.core m.id).faultMat { cause := .uncorrectable, detail := 4 }

/-- Posting the fault changes no activation and no colour. -/
theorem failed_curAct? (s : State) (m : MatMsg) : (failed s m).curAct? = (under s m).curAct? := rfl

theorem failed_act (s : State) (m : MatMsg) (a : Nat) : (failed s m).act a = s.act a := rfl

section
variable {s : State} {m : MatMsg}
  (hm : ((s.core s.site.core).inbox.find? fun x => decide (x.id = s.site.n) && decide (x.stage = 1) && x.retried) = some m)
include hm

/-- A clean repeat ends the occupancy and posts its record. -/
theorem matrixRetry_clean (hf : s.site.flag = false) :
    let c := s.site.core
    let s₁ := (under s m).endMat c m
    exec .matrixRetry s = .next (s₁.board c.cluId 2
      [faultWord0 3 0 0 false (colourOf m.f.tag).toNat m.f.node (coreField c) c.isCtl 0, m.f.tag, 0, s₁.timeWord c.pkg 0]).1 := by
  show execMatrixRetry s = _
  simp only [execMatrixRetry, hm]
  rw [if_neg (by simp [hf])]

variable (hf : s.site.flag = true)
include hf

theorem matrixRetry_no_owner (ha : (under s m).curAct? = none) : exec .matrixRetry s = .next (failed s m) := by
  have ha' := (failed_curAct? s m).trans ha
  show execMatrixRetry s = _
  simp only [execMatrixRetry, hm, if_pos hf, ha']

theorem matrixRetry_purges {a : Nat} (ha : (under s m).curAct? = some a) (hl : (s.act a).life ≠ .purging) :
    exec .matrixRetry s = .next ((failed s m).orderPurge a) := by
  have ha' := (failed_curAct? s m).trans ha
  have hl' : ((failed s m).act a).life ≠ .purging := by rwa [failed_act]
  show execMatrixRetry s = _
  simp only [execMatrixRetry, hm, if_pos hf, ha', if_neg hl']
end

/-! ## MATRIX_REPLY (R298, R300) -/

/-- A reply sent to a destination, where the message has one. -/
def reply (c : CoreId) (m : MatMsg) (s : State) (dst : BitVec 24) (o : Option Operand) : State :=
  o.elim s fun o => s.sendFrom c m.f.node dst m.tag o

section
variable {s : State} {m : MatMsg}
  (hm : ((s.core s.site.core).inbox.find? fun x => decide (x.id = s.site.n) && decide (x.stage = 3)) = some m)
include hm

theorem matrixReply_discards (hd : (s.dropMat s.site.core m.id).owner? s.site.core.dieId (colourOf m.f.tag) = none ∨
    (s.dropMat s.site.core m.id).dying s.site.core.dieId m.f.tag = true) :
    exec .matrixReply s = .next (s.dropMat s.site.core m.id) := by
  show execMatrixReply s = _
  simp only [execMatrixReply, hm]
  rw [if_pos (by simpa using hd)]

theorem matrixReply_sends (ho : (s.dropMat s.site.core m.id).owner? s.site.core.dieId (colourOf m.f.tag) ≠ none)
    (hd : (s.dropMat s.site.core m.id).dying s.site.core.dieId m.f.tag = false) :
    let send := reply s.site.core m
    exec .matrixReply s = .next (send (send (s.dropMat s.site.core m.id) m.r.dstA m.outA) m.r.dstB m.outB) := by
  show execMatrixReply s = _
  simp only [execMatrixReply, hm]
  rw [if_neg (by simp [hd, ho, Option.isNone_iff_eq_none])]
  cases m.outA <;> cases m.outB <;> rfl
end

/-! ## MMAX_A_COPY (R305) -/

theorem mmaxACopy_arrives {s : State} {x leader : CoreId} {n : Nat} {m : MatMsg}
    (hm : ((s.core leader).inbox.find? fun y => decide (y.id = n)) = some m) :
    let y := s.core leader
    let a := (m.op 0).val.toNat % 16
    let v := (m.form, y.slotBytes a ++ y.slotBytes (a + 1), y.slotScales a ++ y.slotScales (a + 1))
    exec (.mmaxACopy x leader n) s =
      .next ((s.modCore x fun z => { z with mmaxBuf := Assoc.set z.mmaxBuf (colourOf m.f.tag, m.num) v }).modMat leader n fun m =>
        { m with got := m.got + 1 }) := by
  show execMmaxACopy x leader n s = _
  simp only [execMmaxACopy, hm]

/-- Settles O42, event by event and case by case. -/
theorem matrixEvents : Obligations.MatrixEvents := by
  unfold Obligations.MatrixEvents
  intro s c k
  refine ⟨matrixAccept_no_message, matrixAccept_inbox_full, fun m rest ps hp hroom => ?accept, matrixStart_gone, fun m hm => ?start,
    fun m hm => ?occupancyEnd, fun m hm => ?retry, fun m hm => ⟨matrixReply_discards hm, matrixReply_sends hm⟩,
    fun x leader n m => mmaxACopy_arrives⟩
  case accept =>
    exact ⟨fun f => matrixAccept_refuses hp hroom, fun hc => ⟨matrixAccept_enters hp hroom hc, matrixAccept_claims hp hroom hc,
      matrixAccept_reads_state hp hroom hc⟩⟩
  case start =>
    exact ⟨matrixStart_waits hm, fun hs => ⟨fun f => matrixStart_refuses hm hs, fun s₂ => matrixStart_leaves hm hs,
      fun bs s₂ pa hb => matrixStart_poisoned hm hs hb, fun bs s₂ => matrixStart_starts hm hs⟩⟩
  case occupancyEnd =>
    refine ⟨fun ht => ⟨fun s₂ => matrixOccupancyEnd_reads_token hm ht, fun f => matrixOccupancyEnd_token_refused hm ht⟩,
      matrixOccupancyEnd_other_leader hm, matrixOccupancyEnd_waits hm, fun ht hl => ⟨fun hno => ?_, fun hf ha => ?_⟩,
      fun f => endMat_refused, fun s₂ a b => endMat_writes⟩
    · have hends : ¬ (s.site.flag = true ∧ m.onArray = true) := fun h =>
        hno.elim (fun hf => Bool.false_ne_true (hf.symm.trans h.1)) fun ha => Bool.false_ne_true (ha.symm.trans h.2)
      exact (matrixOccupancyEnd_ends hm ht hl).trans (congrArg _ (if_neg hends))
    · exact (matrixOccupancyEnd_ends hm ht hl).trans (congrArg _ (if_pos ⟨hf, ha⟩))
  case retry =>
    exact ⟨fun hf => ⟨_, matrixRetry_clean hm hf, faultWord0_kind ..⟩, matrixRetry_no_owner hm, fun a hf => matrixRetry_purges hm hf⟩

end Sys2Proof.Proofs.MatrixEvents
end

section
/-! Every instruction in every state gives a next state (R401, R404), and the record that a fault posts with what a full callboard
queue does (R401, R432). -/

namespace Sys2Proof.Proofs.Faults

open Sys2Proof Sys2Proof.Machine Sys2Proof.Proofs.System Sys2Proof.Proofs.MatrixEvents

/-! ## Nothing stops -/

/-- A firing of the memory unit is taken, or goes back to its queue (R144). -/
theorem memFire_next (f : Form) (r : Rec) (s : State) (eff : Word → State → Eff) : ∃ s' : State, memFire f r s eff = .next s' := by
  unfold memFire
  split
  · exact ⟨s.retryIssue, rfl⟩
  · exact ⟨_, rfl⟩

/-- A firing of the matrix engine is taken, or goes back to its queue (R144). -/
theorem matFire_next (f : Form) (r : Rec) (s : State) : ∃ s' : State, matFire f r s = .next s' := by
  unfold matFire
  split
  · exact ⟨s.retryIssue, rfl⟩
  · exact ⟨_, rfl⟩

/-- Settles O5: a firing waits for its unit or runs behind the checks of R92, which end in its effect or in a fault record; the other
records fire at once, and each event's meaning is a next state. -/
theorem nothingStops : Obligations.NothingStops := by
  unfold Obligations.NothingStops
  intro i s
  cases i with
  | ld r | st r | ldv r | stv r | ldg r | sts r | mnop r | wave r | pf r | lwb r | linv r | sbind r | scancel r | sstat r | cpy r | cpyr r
  | mcrd r | xlat r | tlbinv r | fence r | rel r | acq r | itake r | iput r | iread r | iclr r | atom r | acas r | lsend r | qsend r
  | qfwd r | klook r | klookPage r | kapp r | kpin r | kpinUnpin r | kevict r | kfill r | pxlook r | pxins r | pgmap r | pgmapList r
  | pgfrz r | pgnew r | seqtbl r | seqtblNext r | prompt r => exact memFire_next _ r s _
  | oclm r | orel r | old r | olds r | oldsQ r | mma r | mmat r | mmax r | aclr r | amov r | aadd r | acvt r | ackpt r | arst r | astat r
  | smxi r | smxu r | smxn r | smxm r | smxr r | smxw r | smxs r => exact matFire_next _ r s
  | _ => exact ⟨_, rfl⟩

/-! ## The words of a fault record (R401) -/

/-- A word in the fault layout as the sum of its fields at their places. -/
theorem faultWord0_toNat (kind cause source : Nat) (stall : Bool) (colour node core : Nat) (ctl : Bool) (detail : Nat) :
    (faultWord0 kind cause source stall colour node core ctl detail).toNat =
      kind % 256 * 2 ^ 56 + cause % 256 * 2 ^ 48 + source % 4 * 2 ^ 46 + b2n stall * 2 ^ 45 + colour % 512 * 2 ^ 36 + node % 4096 * 2 ^ 24
        + core % 256 * 2 ^ 16 + b2n ctl * 2 ^ 15 + detail % 4096 := by
  have hstall : b2n stall ≤ 1 := by cases stall <;> decide
  have hctl : b2n ctl ≤ 1 := by cases ctl <;> decide
  simp only [faultWord0, putBits, Nat.shiftLeft_eq, BitVec.toNat_ofNat]
  exact Nat.mod_eq_of_lt (by omega)

/-- The fields of a word in the fault layout below its kind (R401). -/
theorem faultWord0_fields (kind cause source : Nat) (stall : Bool) (colour node core : Nat) (ctl : Bool) (detail : Nat) :
    let w := faultWord0 kind cause source stall colour node core ctl detail
    (w.extractLsb' 48 8).toNat = cause % 256 ∧ (w.extractLsb' 46 2).toNat = source % 4 ∧ (w.extractLsb' 45 1).toNat = b2n stall ∧
      (w.extractLsb' 36 9).toNat = colour % 512 ∧ (w.extractLsb' 24 12).toNat = node % 4096 ∧ (w.extractLsb' 16 8).toNat = core % 256 ∧
      (w.extractLsb' 15 1).toNat = b2n ctl ∧ (w.extractLsb' 0 12).toNat = detail % 4096 := by
  have hw := faultWord0_toNat kind cause source stall colour node core ctl detail
  have hstall : b2n stall ≤ 1 := by cases stall <;> decide
  have hctl : b2n ctl ≤ 1 := by cases ctl <;> decide
  simp only [BitVec.extractLsb'_toNat, Nat.shiftRight_eq_div_pow, hw]
  refine ⟨by omega, by omega, by omega, by omega, by omega, by omega, by omega, by omega⟩

theorem cause_code_lt (x : Cause) : x.code < 256 := by cases x <;> decide

/-- A record's word 3: what it carries above the low half of package time (R401, R431). -/
theorem timeWord_toNat (s : State) (p hi : Nat) : (s.timeWord p hi).toNat = hi % 2 ^ 32 * 2 ^ 32 + s.time p % 2 ^ 32 := by
  simp only [State.timeWord, BitVec.toNat_ofNat]
  exact Nat.mod_eq_of_lt (by omega)

theorem timeWord_high (s : State) (p hi : Nat) : ((s.timeWord p hi).extractLsb' 32 32).toNat = hi % 2 ^ 32 := by
  rw [BitVec.extractLsb'_toNat, Nat.shiftRight_eq_div_pow, timeWord_toNat]
  omega

theorem timeWord_low (s : State) (p hi : Nat) : ((s.timeWord p hi).extractLsb' 0 32).toNat = s.time p % 2 ^ 32 := by
  rw [BitVec.extractLsb'_toNat, Nat.shiftRight_zero, timeWord_toNat]
  omega

/-! ## The queues of the callboard (R432) -/

section
variable {q : Queue} {r : List Word} {time : Word}

theorem post_room (h : q.recs.length < 1023) : q.post r time = ({ q with recs := q.recs ++ [r] }, true) := if_pos h

theorem post_first_lost (h : q.recs.length = 1023) (hl : q.lost = 0) :
    q.post r time = ({ recs := q.recs ++ [[0x0C00000000000000#64, 0, 1, time]], lost := 1 }, false) := by
  rw [Queue.post, if_neg (by omega), if_pos hl]

theorem post_further_lost (h : 1023 ≤ q.recs.length) (hl : q.lost ≠ 0) :
    q.post r time = ({ q with recs := bumpLost q.recs, lost := q.lost + 1 }, false) := by
  rw [Queue.post, if_neg (by omega), if_neg hl]

/-- Raising the count of a LOST record leaves the number of records. -/
theorem bumpLost_length : ∀ rs : List (List Word), (bumpLost rs).length = rs.length
  | [] => rfl
  | r :: rs => by
    unfold bumpLost
    split
    · split
      · rfl
      · exact congrArg Nat.succ (bumpLost_length rs)
    · exact congrArg Nat.succ (bumpLost_length rs)

/-- EVGET's record is the oldest, and the others stay (R193). -/
theorem take_oldest {x : List Word} {rest : List (List Word)} (h : q.recs = x :: rest) :
    q.take = some (x, { recs := rest, lost := if (x.headD 0).toNat / 2 ^ 56 = 0x0C then 0 else q.lost }) := by
  simp only [Queue.take, h]
  split <;> rfl
end

/-- A fault of a firing posts its record to queue 1 of its core's cluster (R401). -/
theorem faultCur_posts {s : State} (x : Flt) (h : ((s.cluster s.cur.core.cluId).queues.getD 1 Queue.reset).recs.length < 1023) :
    let k := s.cur.core.cluId
    let q := (s.cluster k).queues.getD 1 Queue.reset
    let w := faultWord0 1 x.cause.code 0 false (colourOf s.cur.tag).toNat s.cur.node (coreField s.cur.core) s.cur.core.isCtl x.detail
    s.faultCur x = s.setCluster k { s.cluster k with
      queues := setAt (s.cluster k).queues 1 { q with recs := q.recs ++ [[w, s.cur.tag, x.info, s.timeWord k.pkg x.aux]] } } := by
  simp only [State.faultCur, State.fault, State.board, post_room h]
  rfl

/-- Settles O8: the fields are read off the words of the record, and the queue's cases off `Queue.post` and `Queue.take`. -/
theorem faultRecord : Obligations.FaultRecord := by
  unfold Obligations.FaultRecord
  refine ⟨?posted, fun q r time => ⟨post_room, post_first_lost, fun h hl => ?lost,
    fun x rest h => ?taken⟩⟩
  case posted =>
    intro s x k q hroom _ hnode hcore hdetail
    obtain ⟨hcause, hsource, hstall, hcolour, hnodeField, hcoreField, hctl, hdetailField⟩ := faultWord0_fields 1 x.cause.code 0 false
      (colourOf s.cur.tag).toNat s.cur.node (coreField s.cur.core) s.cur.core.isCtl x.detail
    have hfield : coreField s.cur.core < 256 := by rw [coreField_eq]; split <;> omega
    refine ⟨_, _, faultCur_posts x hroom, faultWord0_kind .., hcause.trans (Nat.mod_eq_of_lt (cause_code_lt _)), hsource, hstall, ?_,
      hnodeField.trans (Nat.mod_eq_of_lt hnode), ?_, ?_, hdetailField.trans (Nat.mod_eq_of_lt hdetail), timeWord_high .., timeWord_low ..⟩
    · exact BitVec.eq_of_toNat_eq (hcolour.trans (Nat.mod_eq_of_lt (colourOf s.cur.tag).isLt))
    · rw [hcoreField, Nat.mod_eq_of_lt hfield, coreField_eq]
    · rw [hctl]
      by_cases h : s.cur.core.core < 192 <;> simp [b2n, CoreId.isCtl, h]
  case lost =>
    rw [post_further_lost h hl]
    exact ⟨rfl, rfl, bumpLost_length q.recs⟩
  case taken =>
    rw [take_oldest h]
    exact ⟨rfl, rfl⟩

end Sys2Proof.Proofs.Faults
end

section
/-! Fences, releases and timeline counters (R348, R381 to R385), and the barriers of a die (R388 to R390), case by case. -/

namespace Sys2Proof.Proofs.Synchronisation

open Sys2Proof Sys2Proof.Machine Sys2Proof.Proofs.System

/-! ## Counters (R382) -/

/-- A counter written leaves the others, and reads back. -/
theorem counter_setCounter (s : State) (k k' : CluId) (col col' : BitVec 9) (c c' : Nat) (x : Counter) :
    (s.setCounter k col c x).counter k' col' c' = if (k, col, c) = (k', col', c') then x else s.counter k' col' c' := by
  unfold State.counter State.setCounter
  rw [State.cluster_modCluster]
  by_cases hk : k = k'
  · subst hk
    rw [if_pos rfl, Assoc.getD_set]
    simp only [Prod.mk.injEq, true_and]
  · rw [if_neg hk, if_neg fun e => hk (Prod.mk.inj e).1]

/-- Nothing more follows DONE where the next number has not completed (R382). -/
theorem settle_next_missing {x : Counter} (h : x.doneN + 1 ∉ x.ahead) : ∀ n : Nat, Counter.settle n x = x
  | 0 => rfl
  | _ + 1 => if_neg h

/-- The number that follows DONE, once it completes, becomes DONE (R382). -/
theorem settle_follows {x : Counter} {n : Nat} (hn : x.doneN + 1 = n) (hnext : n + 1 ∉ x.ahead) :
    (Counter.settle (x.ahead ++ [n]).length { x with ahead := x.ahead ++ [n] }).doneN = n := by
  subst hn
  rw [List.length_append, List.length_singleton, Counter.settle, if_pos (by simp), settle_next_missing (by simpa using hnext)]

/-! ## Releases (R348, R381) -/

/-- A record whose node has no region releases at its own scope (R348). -/
theorem resultScope_no_region {s : State} {r : Rec} (sc : Option Nat) (h : Assoc.get? (s.core s.cur.core).regions s.cur.node = none) :
    s.resultScope r sc = sc := by
  have hno : ∀ d : BitVec 24, s.regionScope s.cur.core s.cur.node d = none := fun d => by
    simp only [State.regionScope, State.scopeTo, h]
    simp
  simp only [State.resultScope, List.foldl_cons, List.foldl_nil, hno]

section
variable {r : Rec} {s s₁ : State} {t : Word}

section
variable (hb : (s.core s.cur.core).unitBusy = false)
include hb

theorem fence_releases (h : Fires Forms.fence r s t s₁) :
    exec (.fence r) s = .next (s₁.resultRelease r t (some (r.sub.toNat / 8)) true true none s.cur.op0) := by
  rw [← h.cur]
  exact memFire_ok hb h rfl

theorem rel_releases (h : Fires Forms.rel r s t s₁) :
    exec (.rel r) s = .next (s₁.resultRelease r t (some (r.sub.toNat / 8)) false false none s.cur.op0) := by
  rw [← h.cur]
  exact memFire_ok hb h rfl

theorem acq_waits (h : Fires Forms.acq r s t s₁) :
    exec (.acq r) s = .next (s₁.resultRelease r t none true true none s.cur.op0) := by
  rw [← h.cur]
  exact memFire_ok hb h rfl
end

/-! ## TLINC, TLWAIT and TLREAD (R383, R384) -/

/-- The send that a TLARM arms: its counter and threshold, its engine, its message, and who asks (R385). -/
def armedSend (r : Rec) (s : State) (t : Word) (ws : List Word) : Armed :=
  ⟨colourOf s.cur.tag, r.lit.toNat % 32, s.cur.op0.val.toNat, if r.lit.toNat / 32 = 1 then .link else .copy,
    ⟨ws, ⟨.armed, s.cur.core, s.cur.node, t⟩, false, []⟩, s.asker r t⟩

theorem armedSend_congr {s s₁ : State} (h : s₁.cur = s.cur) (r : Rec) (t : Word) (ws : List Word) :
    armedSend r s t ws = armedSend r s₁ t ws := by
  unfold armedSend State.asker
  rw [h]

section
variable (ha : s.AllScalar r)
include ha

theorem tlinc_takes (h : Fires Forms.tlinc r s t s₁) :
    let k := s.cur.core.cluId
    let col := colourOf s.cur.tag
    let n := (s₁.counter k col r.lit.toNat).taken + 1
    exec (.tlinc r) s = .next ((s₁.takeNumber k col r.lit.toNat).2.resultRelease r t (some (r.sub.toNat / 8)) false false
      (some (r.lit.toNat, n)) (plainOp (BitVec.ofNat 64 n))) := by
  rw [← h.cur]
  exact fire_scalars_ok h ha rfl

theorem tlwait_waits (h : Fires Forms.tlwait r s t s₁) :
    let k := s.cur.core.cluId
    exec (.tlwait r) s = .next ((s₁.modCluster k fun y =>
      { y with waits := y.waits ++ [⟨colourOf s.cur.tag, r.lit.toNat, s.cur.op0.val.toNat, s.asker r t⟩] }).wakeTimeline k) := by
  unfold State.asker
  rw [← h.cur]
  exact fire_scalars_ok h ha rfl

theorem tlread_sends (h : Fires Forms.tlread r s t s₁) :
    let x := s₁.counter s.cur.core.cluId (colourOf s.cur.tag) r.lit.toNat
    exec (.tlread r) s =
      .next ((s₁.emitA r t (plainOp (BitVec.ofNat 64 x.doneN))).emitB r t (plainOp (BitVec.ofNat 64 x.taken))) := by
  rw [← h.cur]
  exact fire_scalars_ok h ha rfl

/-! ## TLARM (R385) -/

section
variable (h : Fires Forms.tlarm r s t s₁) {ws : List Word} (hm : s₁.messageAt s.cur.op1.val = .ok ws)
include h hm

theorem tlarm_sends_at_once
    (hd : (armedSend r s t ws).thr ≤ (s₁.counter s.cur.core.cluId (armedSend r s t ws).colour (armedSend r s t ws).ctr).doneN) :
    exec (.tlarm r) s = .next ((s₁.sendArmed s.cur.core.cluId (armedSend r s t ws)).emitA r t (plainOp 2)) := by
  rw [armedSend_congr h.cur, ← h.cur] at hd ⊢
  rw [← h.cur] at hm
  refine fire_scalars_ok h ha ?_
  simp only [hm, bind, Except.bind]
  exact if_pos hd

variable
  (hd : (s₁.counter s.cur.core.cluId (armedSend r s t ws).colour (armedSend r s t ws).ctr).doneN < (armedSend r s t ws).thr)
include hd

theorem tlarm_refuses (hfull : 64 ≤ (s₁.cluster s.cur.core.cluId).armed.length) :
    exec (.tlarm r) s = .next (s₁.emitA r t (plainOp 1)) := by
  rw [armedSend_congr h.cur, ← h.cur] at hd
  rw [← h.cur] at hm hfull
  refine fire_scalars_ok h ha ?_
  simp only [hm, bind, Except.bind]
  exact (if_neg (Nat.not_le.2 hd)).trans (if_pos hfull)

theorem tlarm_arms (hroom : (s₁.cluster s.cur.core.cluId).armed.length < 64) :
    exec (.tlarm r) s = .next ((s₁.modCluster s.cur.core.cluId fun z =>
      { z with armed := z.armed ++ [armedSend r s t ws] }).emitA r t (plainOp 0)) := by
  rw [armedSend_congr h.cur, ← h.cur] at hd ⊢
  rw [← h.cur] at hm hroom
  refine fire_scalars_ok h ha ?_
  simp only [hm, bind, Except.bind]
  exact (if_neg (Nat.not_le.2 hd)).trans (if_neg (Nat.not_le.2 hroom))
end
end
end

/-- Settles O38, record by record. -/
theorem releasesAndCounters : Obligations.ReleasesAndCounters := by
  unfold Obligations.ReleasesAndCounters
  refine ⟨fun s k col c => ⟨rfl, ?taken, fun k' col' c' hne => ?others⟩, fun x n hn _ hnext => settle_follows hn hnext,
    fun r s t sc loads blocks tlc o => ⟨rfl, resultScope_no_region sc⟩, fun r s s₁ t =>
      ⟨fun hb => ⟨fence_releases hb, rel_releases hb, acq_waits hb⟩, fun ha => ⟨tlinc_takes ha, tlwait_waits ha, tlread_sends ha,
        fun h ws hm => ⟨tlarm_sends_at_once ha h hm, fun hd => ⟨tlarm_refuses ha h hm hd, tlarm_arms ha h hm hd⟩⟩⟩⟩⟩
  case taken => exact (counter_setCounter ..).trans (if_pos rfl)
  case others => exact (counter_setCounter ..).trans (if_neg (Ne.symm hne))

/-! ## What a handle and a list of members name (R388, R389) -/

/-- The lowest index that is free, of those below a bound. -/
theorem leastBelow_eq {n i : Nat} {f : Nat → Bool} (hi : i < n) (hf : f i = true) (hlow : ∀ j < i, f j = false) :
    leastBelow n f = some i := by
  rw [leastBelow, List.find?_range_eq_some]
  exact ⟨hf, List.mem_range.2 hi, fun j hj => by rw [hlow j hj]; rfl⟩

theorem leastBelow_none {n : Nat} {f : Nat → Bool} (h : ∀ i < n, f i = false) : leastBelow n f = none := by
  rw [leastBelow, List.find?_eq_none]
  exact fun i hi => by simp [h i (List.mem_range.1 hi)]

section
variable {r : Rec} {s s₁ : State} {t : Word} (ha : s.AllScalar r)
include ha

/-! ## BARINIT (R388) -/

section
variable (h : Fires Forms.barinit r s t s₁)
include h

theorem barinit_bad_count {va : Nat} (hn : s.cur.op1.val.toNat = 0 ∨ 64 < s.cur.op1.val.toNat)
    (hva : s₁.padAddr s.cur.op0.val 2 = .ok va) (hm : checkMultiple va 2 = .ok ()) :
    exec (.barinit r) s = .next ((s₁.emitA r t (plainOp 0xFFFFFFFF)).emitB r t (plainOp 2)) := by
  rw [← h.cur] at hn hva
  have hrange : (decide (1 ≤ s₁.cur.op1.val.toNat) && decide (s₁.cur.op1.val.toNat ≤ 64)) = false := by
    simp; omega
  refine fire_scalars_ok h ha ?_
  simp only [hrange, hva, hm, bind, Except.bind, Bool.not_false, Bool.true_or, if_true, Bool.false_eq_true, if_false]

/-- The members that a BARINIT reads at its list (R388). -/
def memberList (s : State) (va n : Nat) : List Nat := (List.range n).map fun i => leNat (((s.nearBytes va (2 * n)).drop (2 * i)).take 2)

variable {n va : Nat} (hn : n = s.cur.op1.val.toNat) (hlo : 1 ≤ n) (hhi : n ≤ 64) (hva : s₁.padAddr s.cur.op0.val (2 * n) = .ok va)
  (hm : checkMultiple va 2 = .ok ())
include hn hlo hhi hva hm

theorem barinit_bad_members (hms : s₁.membersOk (memberList s₁ va n) = false) :
    exec (.barinit r) s = .next ((s₁.emitA r t (plainOp 0xFFFFFFFF)).emitB r t (plainOp 2)) := by
  subst hn
  unfold memberList at hms
  rw [← h.cur] at hlo hhi hva hms
  refine fire_scalars_ok h ha ?_
  simp only [hlo, hhi, hva, hm, hms, bind, Except.bind, decide_true, Bool.and_true, if_true, Bool.not_false, Bool.or_true]

variable (hms : s₁.membersOk (memberList s₁ va n) = true)
include hms

theorem barinit_none_free (hfull : ∀ i < 256, Assoc.get? (s₁.die s.cur.core.dieId).barriers i ≠ none) :
    exec (.barinit r) s = .next ((s₁.emitA r t (plainOp 0xFFFFFFFF)).emitB r t (plainOp 1)) := by
  subst hn
  unfold memberList at hms
  rw [← h.cur] at hlo hhi hva hms hfull
  have hnone : (leastBelow 256 fun i => (Assoc.get? (s₁.die s₁.cur.core.dieId).barriers i).isNone) = none :=
    leastBelow_none fun i hi => by simpa [Option.isSome_iff_ne_none] using hfull i hi
  refine fire_scalars_ok h ha ?_
  simp only [hlo, hhi, hva, hm, hms, hnone, bind, Except.bind, decide_true, Bool.and_true, if_true, Bool.not_true, Bool.or_false,
    Bool.false_eq_true, if_false]

theorem barinit_takes {i : Nat} (hi : i < 256) (hfree : Assoc.get? (s₁.die s.cur.core.dieId).barriers i = none)
    (hlow : ∀ j < i, Assoc.get? (s₁.die s.cur.core.dieId).barriers j ≠ none) :
    let d := s.cur.core.dieId
    let inst := (s₁.die d).barInst + 1
    let cs := (memberList s₁ va n).map (BitVec.ofNat 9)
    exec (.barinit r) s = .next (((s₁.modDie d fun x =>
      { x with barInst := inst, barriers := Assoc.set x.barriers i ⟨inst, colourOf s.cur.tag, 0, cs, cs, [], 0, false, false⟩ }).emitA r t
        (plainOp (BitVec.ofNat 64 (inst.toNat * 256 + i)))).emitB r t (plainOp 0)) := by
  subst hn
  unfold memberList at hms ⊢
  rw [← h.cur] at hlo hhi hva hms hfree hlow ⊢
  have hsome : (leastBelow 256 fun i => (Assoc.get? (s₁.die s₁.cur.core.dieId).barriers i).isNone) = some i :=
    leastBelow_eq hi (by simp [hfree]) fun j hj => by simpa [Option.isSome_iff_ne_none] using hlow j hj
  refine fire_scalars_ok h ha ?_
  simp only [hlo, hhi, hva, hm, hms, hsome, bind, Except.bind, decide_true, Bool.and_true, if_true, Bool.not_true, Bool.or_false,
    Bool.false_eq_true, if_false]
end

/-! ## BARARR and BAREXIT (R389, R390) -/

/-- A handle that names no barrier is refused, by an arrival and by an exit alike (R389, R390). -/
theorem bararr_bad_handle {f : Flt} (h : Fires Forms.bararr r s t s₁) (hb : s₁.barrierOf s.cur.op0.val = .error f) :
    exec (.bararr r) s = .next (s.faultCur f) := by
  rw [← h.cur] at hb
  exact fire_scalars_error h ha (by simp only [hb, bind, Except.bind])

theorem barexit_bad_handle {f : Flt} (h : Fires Forms.barexit r s t s₁) (hb : s₁.barrierOf s.cur.op0.val = .error f) :
    exec (.barexit r) s = .next (s.faultCur f) := by
  rw [← h.cur] at hb
  exact fire_scalars_error h ha (by simp only [hb, bind, Except.bind])

variable {i : Nat} {b : Barrier} (hb : s₁.barrierOf s.cur.op0.val = .ok (i, b))
include hb

section
variable (h : Fires Forms.bararr r s t s₁)
include h

theorem bararr_no_member (hc : colourOf s.cur.tag ∉ b.members) : exec (.bararr r) s = .next (s.faultCur { cause := .permission }) := by
  rw [← h.cur] at hb hc
  refine fire_scalars_error h ha ?_
  simp only [hb, bind, Except.bind]
  exact if_pos hc

variable (hc : colourOf s.cur.tag ∈ b.members)
include hc

theorem bararr_twice (ho : colourOf s.cur.tag ∉ b.owed) : exec (.bararr r) s = .next (s.faultCur { cause := .illegalRecord }) := by
  rw [← h.cur] at hb hc ho
  refine fire_scalars_error h ha ?_
  simp only [hb, bind, Except.bind]
  exact (if_neg (not_not.2 hc)).trans (if_pos ho)

/-- A barrier with a member's arrival, whose reply it holds (R389). -/
def arrived (b : Barrier) (col : BitVec 9) (x : ReplyTo) : Barrier :=
  { b with owed := b.owed.filter (fun m => decide (m ≠ col)), replies := b.replies ++ [(col, x)] }

theorem bararr_arrives (ho : colourOf s.cur.tag ∈ b.owed) :
    exec (.bararr r) s = .next (s₁.putBarrier s.cur.core.dieId i (arrived b (colourOf s.cur.tag) (s.asker r t))) := by
  unfold State.asker
  rw [← h.cur] at hb hc ho ⊢
  refine fire_scalars_ok h ha ?_
  simp only [hb, bind, Except.bind]
  exact (if_neg (not_not.2 hc)).trans (if_neg (not_not.2 ho))
end

section
variable (h : Fires Forms.barexit r s t s₁)
include h

theorem barexit_no_member (hc : colourOf s.cur.tag ∉ b.members) : exec (.barexit r) s = .next (s.faultCur { cause := .permission }) := by
  rw [← h.cur] at hb hc
  refine fire_scalars_error h ha ?_
  simp only [hb, bind, Except.bind]
  exact if_pos hc

theorem barexit_leaves (hc : colourOf s.cur.tag ∈ b.members) :
    exec (.barexit r) s =
      .next ((s₁.putBarrier s.cur.core.dieId i (b.leave (colourOf s.cur.tag) true false)).out r t (plainOp 0)) := by
  rw [← h.cur] at hb hc ⊢
  refine fire_scalars_ok h ha ?_
  simp only [hb, bind, Except.bind]
  exact if_neg (not_not.2 hc)
end
end

/-- While members are present and one is owed, a barrier stands as it is put (R389). -/
theorem putBarrier_holds {s : State} {d : DieId} {i : Nat} {b : Barrier} (hm : b.members ≠ []) (ho : b.owed ≠ []) :
    s.putBarrier d i b = s.modDie d fun x => { x with barriers := Assoc.set x.barriers i b } := by
  rw [State.putBarrier, if_neg (by simpa using hm), if_neg (by simpa using ho)]

/-- With the last arrival the phase completes, every held reply is sent, and every member is owed again (R389). -/
theorem putBarrier_completes {s : State} {d : DieId} {i : Nat} {b : Barrier} (hm : b.members ≠ []) (ho : b.owed = []) :
    s.putBarrier d i b = (s.modDie d fun x =>
      { x with barriers := Assoc.set x.barriers i
                 { b with phase := b.phase + 1, owed := b.members, replies := [], nabs := 0, absent := false,
                          killed := false } }).answerBarrier b false := by
  rw [State.putBarrier, if_neg (by simpa using hm), if_pos (by simp [ho])]

/-- Settles O39, record by record and case by case. -/
theorem barriers : Obligations.Barriers := by
  unfold Obligations.Barriers
  intro r s s₁ t ha d col
  refine ⟨fun h va => barinit_bad_count ha h, fun h n va ms hn hlo hhi hva hm hms => ?init, fun i b hb => ⟨fun h => ?arrive,
    fun h => ⟨barexit_no_member ha hb h, barexit_leaves ha hb h⟩⟩, fun hb => ⟨fun h => bararr_bad_handle ha h hb,
      fun h => barexit_bad_handle ha h hb⟩⟩
  case init =>
    subst hms
    exact ⟨barinit_bad_members ha h hn hlo hhi hva hm, fun hok => ⟨barinit_none_free ha h hn hlo hhi hva hm hok,
      fun i => barinit_takes ha h hn hlo hhi hva hm hok⟩⟩
  case arrive =>
    refine ⟨bararr_no_member ha hb h, bararr_twice ha hb h, fun hc ho => ?_⟩
    have hput := bararr_arrives ha hb h hc ho
    have hmembers : b.members ≠ [] := List.ne_nil_of_mem hc
    exact ⟨fun howed => hput.trans (congrArg _ (putBarrier_holds hmembers howed)),
      fun howed => hput.trans (congrArg _ (putBarrier_completes hmembers howed))⟩

end Sys2Proof.Proofs.Synchronisation
end

section
/-! The start of a purge (R415): what it does with an activation that the state does not list. -/

namespace Sys2Proof.Proofs.Endings

open Sys2Proof Sys2Proof.Machine

/-- Refutes O52: its last clause says that a purge started on any activation leaves it in phase purging. After reset no activation is
listed, so that the start of a purge on activation 0 changes none, and activation 0 still reads as the unlisted one, whose phase is
live. -/
theorem not_endingEvents : ¬ Obligations.EndingEvents := by
  unfold Obligations.EndingEvents
  rintro ⟨_, _, hstarts⟩
  obtain ⟨hpurging, _⟩ := hstarts State.reset 0
  have hlife : ((State.reset.startPurge 0 0).act 0).life = .purging := congrArg Act.life hpurging
  have hlive : ((State.reset.startPurge 0 0).act 0).life = .live := by decide
  exact absurd (hlive.symm.trans hlife) (by decide)

end Sys2Proof.Proofs.Endings
end

section
/-! The shard instructions that wait for their turn (R330, R332 to R339, R397, R398): how each asks for it as it issues. -/

namespace Sys2Proof.Proofs.TurnRequests

open Sys2Proof Sys2Proof.Machine Sys2Proof.Proofs.System Sys2Proof.Proofs.Shards
open Sys2Proof.Proofs.Numbers (bind_ok bind_error)

/-! ## Asking for a turn (R330) -/

/-- A shard instruction of a firing outstanding on its core, at a stage, with its turn not yet reached. -/
def outstanding (r : Rec) (t : Word) (s : State) (c : CoreId) (opc stage : Nat) : State :=
  s.fresh.2.modCore c fun k => { k with shardReqs := k.shardReqs ++ [⟨s.uid, opc, r, s.cur, t, stage, none, none, none, []⟩] }

/-- It is outstanding, and its turn is to come. -/
def asked (r : Rec) (t : Word) (s : State) (c : CoreId) (opc stage : Nat) : State :=
  (outstanding r t s c opc stage).laterAt .shardTableTurn c s.uid

theorem askTurn_eq (s : State) (opc : Nat) (r : Rec) (t : Word) (stage : Nat) :
    s.askTurn opc r t [] stage = asked r t s s.cur.core opc stage := rfl

section
variable {r : Rec} {s s₁ s₂ : State} {t : Word}

/-! ## KPIN `.unpin`, KEVICT, KFILL, PGFRZ and the forms that name a list (R333 to R337) -/

section
variable {f : Form} (hb : (s.core s.cur.core).unitBusy = false) (ha : s.AllScalar r) (h : Fires f r s t s₁)
include hb ha h

/-- A record that names no list asks for its turn as it issues. -/
theorem memFire_asks (opc : Nat) :
    (memFire f r s fun t s => do s.scalars r; .ok (s.askTurn opc r t)) = .next (asked r t s₁ s.cur.core opc 0) := by
  rw [← h.cur]
  exact memFire_scalars_ok hb h ha (congrArg _ (askTurn_eq ..))

/-- A record that names a list at $0 asks for its turn where the operand is one of a list. -/
theorem memFire_asks_list (opc : Nat) (h0 : (s.tokenOp 0).val.toNat % 2 ^ 26 = 0) :
    (memFire f r s fun t s => do s.scalars r; seqOperand s.cur.op0.val; .ok (s.askTurn opc r t)) =
      .next (asked r t s₁ s.cur.core opc 0) := by
  rw [← State.tokenOp_cur h.cur] at h0
  rw [← h.cur]
  exact memFire_scalars_ok hb h ha ((bind_ok (seqOperand_ok h0)).trans (congrArg _ (askTurn_eq ..)))

theorem memFire_refuses_list {eff : Word → State → Eff} (h0 : (s.tokenOp 0).val.toNat % 2 ^ 26 ≠ 0) :
    (memFire f r s fun t s => do s.scalars r; seqOperand s.cur.op0.val; eff t s) = .next (s.faultCur { cause := .illegalRecord }) := by
  rw [← State.tokenOp_cur h.cur] at h0
  exact memFire_scalars_error hb h ha (bind_error (seqOperand_refused h0))
end

section
variable (hb : (s.core s.cur.core).unitBusy = false) (ha : s.AllScalar r) (h : Fires Forms.pgmapList r s t s₁)
include hb ha h

theorem pgmapList_asks (h0 : (s.tokenOp 0).val.toNat % 2 ^ 26 = 0) (h1 : (s.tokenOp 1).val.toNat % 2 ^ 26 = 0) :
    exec (.pgmapList r) s = .next (asked r t s₁ s.cur.core 0xD8 0) := by
  rw [← State.tokenOp_cur h.cur] at h0 h1
  rw [← h.cur]
  exact memFire_scalars_ok hb h ha ((bind_ok (seqOperand_ok h0)).trans (bind_ok (seqOperand_ok h1)))

theorem pgmapList_refuses (h1 : ¬ (s.tokenOp 0).val.toNat % 2 ^ 26 = 0 ∨ ¬ (s.tokenOp 1).val.toNat % 2 ^ 26 = 0) :
    exec (.pgmapList r) s = .next (s.faultCur { cause := .illegalRecord }) := by
  by_cases h0 : (s.tokenOp 0).val.toNat % 2 ^ 26 = 0
  · have h1 := h1.resolve_left (not_not.2 h0)
    rw [← State.tokenOp_cur h.cur] at h0 h1
    exact memFire_scalars_error hb h ha ((bind_ok (seqOperand_ok h0)).trans (bind_error (seqOperand_refused h1)))
  · exact memFire_refuses_list hb ha h h0
end

/-! ## KAPP (R332) -/

section
variable {base : Word} (hb : (s.core s.cur.core).unitBusy = false) (h : Fires Forms.kapp r s t s₁) (hbase : s₁.scalarAt r 0 = .ok base)
include hb h hbase

theorem kapp_refuses_operand (h0 : ¬ (s.tokenOp 0).val.toNat % 2 ^ 26 = 0) :
    exec (.kapp r) s = .next (s.faultCur { cause := .illegalRecord }) := by
  rw [← State.tokenOp_cur h.cur] at h0
  refine memFire_error hb h ?_
  have hseq : seqOperand s₁.cur.op0.val = .error { cause := .illegalRecord } := seqOperand_refused h0
  simp only [hbase, hseq, bind, Except.bind]

variable {sl : Slice} (h0 : (s.tokenOp 0).val.toNat % 2 ^ 26 = 0) (hsl : s₁.sliceAt r 1 = .ok sl)
include h0 hsl

theorem kapp_no_list {st : Nat} (hx : s₁.seqOfWord s.cur.core.dieId s.cur.op0.val = .error st) :
    exec (.kapp r) s = .next (answered r t st s₁) := by
  rw [← State.tokenOp_cur h.cur] at h0
  rw [← h.cur] at hx
  have hseq : seqOperand s₁.cur.op0.val = .ok () := seqOperand_ok h0
  refine memFire_ok hb h ?_
  simp only [hbase, hseq, hsl, hx, bind, Except.bind, statusOut_eq]

variable {x : Seq} (hx : s₁.seqOfWord s.cur.core.dieId s.cur.op0.val = .ok x)
include hx

theorem kapp_short_slice (hrows : sl.nrow + 1 < ceilDiv (2 * x.d * x.b) 256) :
    exec (.kapp r) s = .next (s.faultCur (slotFault s.cur.op1 1)) := by
  rw [← State.tokenOp_cur h.cur] at h0
  rw [← h.cur] at hx
  have hseq : seqOperand s₁.cur.op0.val = .ok () := seqOperand_ok h0
  rw [show s.cur.op1 = s₁.cur.op1 by rw [h.cur]]
  refine memFire_error hb h ?_
  simp only [hbase, hseq, hsl, hx, bind, Except.bind]
  exact if_pos hrows

theorem kapp_asks (hrows : ceilDiv (2 * x.d * x.b) 256 ≤ sl.nrow + 1) :
    exec (.kapp r) s = .next (asked r t s₁ s.cur.core 0xD2 0) := by
  rw [← State.tokenOp_cur h.cur] at h0
  rw [← h.cur] at hx ⊢
  have hseq : seqOperand s₁.cur.op0.val = .ok () := seqOperand_ok h0
  refine memFire_ok hb h ?_
  simp only [hbase, hseq, hsl, hx, bind, Except.bind]
  exact if_neg (Nat.not_lt.2 hrows)
end

/-! ## PXLOOK, PXINS and SEQTBL (R338, R339) -/

/-- The table of a firing's instruction, n bytes at va, is covered once the instruction is outstanding (R215, R216). -/
def Covers (r : Rec) (t : Word) (s : State) (f : Firing) (opc va n : Nat) (ps : List MemPart) (s₂ : State) : Prop :=
  let s₀ := outstanding r t s f.core opc 0
  s₀.coverAll f.core f.node s₀.curAct.stall false [(va, n)] = .ok (ps, none, s₂)

/-- An instruction that reads a table is outstanding, and its read leaves the memory unit (R216, R230). -/
theorem askTable_reads {va n m opc : Nat} {a : Word} {ps : List MemPart} (hva : vaOf a 0 = some va)
    (hnear : checkNear s.cur.core va n = .ok ()) (hm : alignBase va % m = 0) (hcov : Covers r t s s.cur opc va n ps s₂) :
    s.askTable opc r t a n m = .ok (s₂.fresh.2.leaveUnit s.cur.core (s₂.reqOf r t (.table s.uid) ps [] zeroOp none)) := by
  have hc : s₂.cur = s.cur := (State.coverAll_slices hcov).cur
  have hmul : checkMultiple va m = .ok () := if_pos hm
  have hread : (outstanding r t s s.cur.core opc 0).makeReq r t (.table s.uid) false [(va, n)] [] zeroOp none =
      .ok (s₂.fresh.2.leaveUnit s.cur.core (s₂.reqOf r t (.table s.uid) ps [] zeroOp none)) := by
    refine State.makeReq_ok hcov (State.ringHit_load _ _ _ _ rfl) ?_
    rw [← hc]
    rfl
  show (do
    let va ← vaAt a 0
    checkNear s.cur.core va n
    checkMultiple va m
    (outstanding r t s s.cur.core opc 0).makeReq r t (.table s.uid) false [(va, n)] [] zeroOp none) = _
  simp only [vaAt_ok hva, hnear, hmul, hread, bind, Except.bind]

section
variable (hb : (s.core s.cur.core).unitBusy = false) (ha : s.AllScalar r)
include hb ha

theorem pxlook_reads (h : Fires Forms.pxlook r s t s₁) {va : Nat} {ps : List MemPart} (hva : vaOf s.cur.op0.val 0 = some va)
    (hnear : checkNear s.cur.core va (if pxCountOk s.cur then 4 * s.cur.op2.val.toNat else 4) = .ok ()) (hm : alignBase va % 16 = 0)
    (hcov : Covers r t s₁ s.cur 0xD6 va (if pxCountOk s.cur then 4 * s.cur.op2.val.toNat else 4) ps s₂) :
    exec (.pxlook r) s = .next (s₂.fresh.2.leaveUnit s.cur.core (s₂.reqOf r t (.table s₁.uid) ps [] zeroOp none)) := by
  rw [← h.cur] at hva hnear hcov ⊢
  exact memFire_scalars_ok hb h ha (askTable_reads hva hnear hm hcov)

theorem seqtbl_reads (h : Fires Forms.seqtbl r s t s₁) {va : Nat} {ps : List MemPart} (hva : vaOf s.cur.op0.val 0 = some va)
    (hnear : checkNear s.cur.core va (if seqCountOk s.cur then 4 * (s.cur.op1.val.toNat + 1) else 4) = .ok ()) (hm : alignBase va % 4 = 0)
    (hcov : Covers r t s₁ s.cur 0xDB va (if seqCountOk s.cur then 4 * (s.cur.op1.val.toNat + 1) else 4) ps s₂) :
    exec (.seqtbl r) s = .next (s₂.fresh.2.leaveUnit s.cur.core (s₂.reqOf r t (.table s₁.uid) ps [] zeroOp none)) := by
  rw [← h.cur] at hva hnear hcov ⊢
  exact memFire_scalars_ok hb h ha (askTable_reads hva hnear hm hcov)

/-- The identifiers that PXINS reads for a page: as many as it holds, where the PID names one (R338). -/
abbrev fillOf (s : State) (d : DieId) (pid : Nat) : Nat := if s.pidOk d pid then dFill (s.desc d pid 0) else 0

theorem pxins_reads (h : Fires Forms.pxins r s t s₁) {va : Nat} {ps : List MemPart} (hva : vaOf s.cur.op2.val 0 = some va)
    (hnear : checkNear s.cur.core va (pxinsBytes (fillOf s₁ s.cur.core.dieId s.cur.op0.val.toNat)) = .ok ()) (hm : alignBase va % 16 = 0)
    (hcov : Covers r t s₁ s.cur 0xD7 va (pxinsBytes (fillOf s₁ s.cur.core.dieId s.cur.op0.val.toNat)) ps s₂)
    (hlane : (isNear va && (nearKey s.cur.core va 1).any fun k => decide (laneKey ≤ k)) = false) :
    exec (.pxins r) s = .next (s₂.fresh.2.leaveUnit s.cur.core (s₂.reqOf r t (.table s₁.uid) ps [] zeroOp none)) := by
  rw [← h.cur] at hva hnear hcov hlane ⊢
  refine memFire_scalars_ok hb h ha ?_
  exact (bind_ok (vaAt_ok hva)).trans <| (bind_ok hnear).trans <| (if_neg (Bool.eq_false_iff.1 hlane)).trans <|
    askTable_reads hva hnear hm hcov
end

/-! ## SPECCMT and SPECABT (R397, R398) -/

/-- Ordering a purge leaves the firing that issues as it is. -/
theorem orderPurge_cur (s : State) (a : Nat) : (s.orderPurge a).cur = s.cur := by
  unfold State.orderPurge
  split
  · rfl
  · exact State.modAct_cur ..

/-- The child of a handle purged, where it is live (R398). -/
def purgesChild (s : State) (x : SpecHandle) : State :=
  match Assoc.get? s.acts x.child with
  | some a => if a.life = Life.live then s.orderPurge x.child else s
  | none => s

theorem purgesChild_cur (s : State) (x : SpecHandle) : (purgesChild s x).cur = s.cur := by
  unfold purgesChild
  split
  · split
    · exact orderPurge_cur ..
    · rfl
  · rfl

section
variable (ha : s.AllScalar r)
include ha

theorem speccmt_no_handle {f : Flt} (hh : s₁.ownHandle = .error f) (h : Fires Forms.speccmt r s t s₁) :
    exec (.speccmt r) s = .next (s.faultCur f) :=
  fire_scalars_error h ha (by simp only [hh, bind, Except.bind])

theorem specabt_no_handle {f : Flt} (hh : s₁.ownHandle = .error f) (h : Fires Forms.specabt r s t s₁) :
    exec (.specabt r) s = .next (s.faultCur f) :=
  fire_scalars_error h ha (by simp only [hh, bind, Except.bind])

variable {i : Nat} {x : SpecHandle} (hh : s₁.ownHandle = .ok (i, x))
include hh

theorem speccmt_asks (hl : x.live = false) (h : Fires Forms.speccmt r s t s₁) :
    exec (.speccmt r) s = .next (asked r t (s₁.busyHandle s.cur.core.dieId i x) s.cur.core 0xAA 1) := by
  rw [← h.cur]
  exact fire_scalars_ok h ha (by simp only [hh, hl, bind, Except.bind, Bool.false_eq_true, if_false]; rfl)

theorem specabt_asks (hl : x.live = false) (h : Fires Forms.specabt r s t s₁) :
    exec (.specabt r) s = .next (asked r t (s₁.busyHandle s.cur.core.dieId i x) s.cur.core 0xAB 1) := by
  rw [← h.cur]
  exact fire_scalars_ok h ha (by simp only [hh, hl, bind, Except.bind, Bool.false_eq_true, if_false]; rfl)

theorem speccmt_conflict (hl : x.live = true) (h : Fires Forms.speccmt r s t s₁) :
    exec (.speccmt r) s = .next (s.faultCur { cause := .specConflict, info := BitVec.ofNat 64 i }) :=
  fire_scalars_error h ha (by simp only [hh, hl, bind, Except.bind, if_true])

theorem specabt_purges (hl : x.live = true) (h : Fires Forms.specabt r s t s₁) :
    exec (.specabt r) s = .next (asked r t (purgesChild s₁ x) s.cur.core 0xAB 0) := by
  rw [← h.cur, ← purgesChild_cur s₁ x]
  exact fire_scalars_ok h ha (by simp only [hh, hl, bind, Except.bind, if_true]; rfl)
end
end

end Sys2Proof.Proofs.TurnRequests
end

section
/-! SHARD_TABLE_TURN (R330): what each shard instruction does at its turn (R332 to R339, R397, R398), case by case. -/

namespace Sys2Proof.Proofs.ShardTurns

open Sys2Proof Sys2Proof.Machine Sys2Proof.Proofs.Shards Sys2Proof.Proofs.TurnRequests

/-! ## The instruction that goes on (R330) -/

/-- What happens is what the turn of the outstanding instruction comes to, under the firing that it came from. -/
theorem shardTableTurn_goes_on {s : State} {q : ShardReq}
    (hq : ((s.core s.site.core).shardReqs.find? fun x => decide (x.id = s.site.n)) = some q) :
    let s₁ : State := { s with cur := q.f }
    let goesOn (turn : State → CoreId → ShardReq → State) : Prop :=
      ∀ s' : State, turn s₁ s.site.core q = s' → exec .shardTableTurn s = .next s'
    (q.opc = 0xD2 → goesOn State.kappTurn) ∧ (q.opc = 0xD3 → goesOn State.unpinTurn) ∧ (q.opc = 0xD4 → goesOn State.kevictTurn) ∧
      (q.opc = 0xD5 → goesOn State.kfillTurn) ∧ (q.opc = 0xD6 → goesOn State.pxlookTurn) ∧ (q.opc = 0xD7 → goesOn State.pxinsTurn) ∧
      (q.opc = 0xD8 → goesOn fun s c q => if q.r.sub.toNat % 8 = 1 then s.pgmapListTurn c q else s.pgmapTurn c q) ∧
      (q.opc = 0xD9 → goesOn State.pgfrzTurn) ∧ (q.opc = 0xDA → goesOn State.pgnewTurn) ∧ (q.opc = 0xDB → goesOn State.seqtblTurn) ∧
      (q.opc = 0xAA ∨ q.opc = 0xAB → goesOn State.specTurn) := by
  have hexec : exec .shardTableTurn s = execShardTableTurn s := rfl
  refine ⟨fun ho => ?_, fun ho => ?_, fun ho => ?_, fun ho => ?_, fun ho => ?_, fun ho => ?_, fun ho => ?_, fun ho => ?_, fun ho => ?_,
    fun ho => ?_, ?spec⟩
  case spec =>
    rintro (ho | ho) s' rfl <;> simp only [hexec, execShardTableTurn, hq, ho]
  all_goals
    rintro s' rfl
    simp only [hexec, execShardTableTurn, hq, ho]

/-! ## The order of the turns (R330) -/

section
variable {s : State} {c : CoreId} {q : ShardReq} {pid list : Option Nat}

/-- What has reached its home keeps its place. -/
theorem reachTurn_reached (h : q.order ≠ none) : s.reachTurn c q pid list = (q, s) :=
  if_pos (Option.isSome_iff_ne_none.2 h)

/-- What reaches its home takes the next place. -/
theorem reachTurn_reaches (h : q.order = none) :
    (s.reachTurn c q pid list).1 = { q with order := some s.uid, pid := pid, list := list } := by
  simp only [State.reachTurn, h]
  rfl

/-- It is still the same instruction, of the same firing. -/
theorem reachTurn_opc : (s.reachTurn c q pid list).1.opc = q.opc := by
  unfold State.reachTurn
  split <;> rfl

theorem reachTurn_firing : (s.reachTurn c q pid list).1.f = q.f := by
  unfold State.reachTurn
  split <;> rfl

theorem turnTaken_iff : s.turnTaken c q = true ↔ ∃ k ∈ s.coresOfDie c.dieId, ∃ x ∈ (s.core k).shardReqs, ∃ m n : Nat,
    x.order = some m ∧ q.order = some n ∧ m < n ∧ ((x.pid ≠ none ∧ x.pid = q.pid) ∨ (x.list ≠ none ∧ x.list = q.list)) := by
  have hplace (x : ShardReq) : (match x.order, q.order with | some m, some n => decide (m < n) | _, _ => false) = true ↔
      ∃ m n : Nat, x.order = some m ∧ q.order = some n ∧ m < n := by
    cases x.order <;> cases q.order <;> simp
  have hsame (x : ShardReq) : ((x.pid.isSome && decide (x.pid = q.pid)) || (x.list.isSome && decide (x.list = q.list))) = true ↔
      (x.pid ≠ none ∧ x.pid = q.pid) ∨ (x.list ≠ none ∧ x.list = q.list) := by
    simp [Option.isSome_iff_ne_none]
  simp only [State.turnTaken, List.any_eq_true, Bool.and_eq_true]
  refine exists_congr fun k => and_congr_right fun _ => exists_congr fun x => and_congr_right fun _ => ?_
  constructor
  · rintro ⟨hp, hs⟩
    obtain ⟨m, n, hm, hn, hlt⟩ := (hplace x).1 hp
    exact ⟨m, n, hm, hn, hlt, (hsame x).1 hs⟩
  · rintro ⟨m, n, hm, hn, hlt, hs⟩
    exact ⟨(hplace x).2 ⟨m, n, hm, hn, hlt⟩, (hsame x).2 hs⟩

variable {go : ShardReq → State → State}

theorem atTurn_waits {y : ShardReq × State} (hy : s.reachTurn c q pid list = y) (h : y.2.turnTaken c y.1 = true) :
    s.atTurn c q pid list go = y.2.turnAgain c y.1 := by
  subst hy
  exact if_pos h

theorem atTurn_goes {y : ShardReq × State} (hy : s.reachTurn c q pid list = y) (h : y.2.turnTaken c y.1 = false) :
    s.atTurn c q pid list go = go y.1 y.2 := by
  subst hy
  exact if_neg (Bool.eq_false_iff.1 h)
end

section
variable {s : State} {c : CoreId} {q : ShardReq}

/-! ## KPIN `.unpin` (R333) -/

theorem unpinTurn_empty (hx : s.slot? c (q.r.lit.toNat % 8) = none) : s.unpinTurn c q = s.endShard c q 4 := by
  simp only [State.unpinTurn, hx]
  rfl

section
variable {x : Slot} (hx : s.slot? c (q.r.lit.toNat % 8) = some x)
include hx

theorem unpinTurn_waited_on (hw : (s.core c).waitingAt (q.r.lit.toNat % 8) = true) : s.unpinTurn c q = s.endShard c q 7 := by
  simp only [State.unpinTurn, hx]
  exact if_pos hw

variable (hw : (s.core c).waitingAt (q.r.lit.toNat % 8) = false)
include hw

theorem unpinTurn_in_use (hu : (s.core c).visiting (q.r.lit.toNat % 8) = true ∨ x.refill = true ∨ x.evicting = true) :
    s.unpinTurn c q = s.turnAgain c q := by
  simp only [State.unpinTurn, hx]
  exact (if_neg (Bool.eq_false_iff.1 hw)).trans (if_pos hu)

theorem unpinTurn_frees (hv : (s.core c).visiting (q.r.lit.toNat % 8) = false) (hr : x.refill = false) (he : x.evicting = false) :
    s.unpinTurn c q = (s.setSlot c (q.r.lit.toNat % 8) none).endShard c q 0 := by
  simp only [State.unpinTurn, hx]
  exact (if_neg (Bool.eq_false_iff.1 hw)).trans (if_neg (by simp [hv, hr, he]))
end

/-! ## A page's turn: KEVICT, KFILL and PGFRZ (R334, R336) -/

/-- The request of an instruction on a page, and the state, once it has reached the page's home (R330). -/
abbrev atPage (s : State) (c : CoreId) (q : ShardReq) (pid : Nat) : ShardReq × State := s.reachTurn c q (some pid) none

theorem pageTurn_bad_pid (hp : s.pidOk c.dieId q.f.op0.val.toNat = false) :
    s.kevictTurn c q = s.endShard c q 1 ∧ s.kfillTurn c q = s.endShard c q 1 ∧ s.pgfrzTurn c q = s.endShard c q 1 :=
  ⟨if_pos (by simp [hp]), if_pos (by simp [hp]), if_pos (by simp [hp])⟩

section
variable (hp : s.pidOk c.dieId q.f.op0.val.toNat = true)
include hp

theorem pageTurn_waits {y : ShardReq × State} (hy : atPage s c q q.f.op0.val.toNat = y) (ht : y.2.turnTaken c y.1 = true) :
    s.kevictTurn c q = y.2.turnAgain c y.1 ∧ s.kfillTurn c q = y.2.turnAgain c y.1 ∧ s.pgfrzTurn c q = y.2.turnAgain c y.1 :=
  ⟨(if_neg (by simp [hp])).trans (atTurn_waits hy ht), (if_neg (by simp [hp])).trans (atTurn_waits hy ht),
    (if_neg (by simp [hp])).trans (atTurn_waits hy ht)⟩

variable {y : ShardReq × State} (hy : atPage s c q q.f.op0.val.toNat = y) (ht : y.2.turnTaken c y.1 = false)
include hy ht

theorem pgfrzTurn_frozen (hf : 2 ≤ dFst (y.2.desc c.dieId q.f.op0.val.toNat 0)) : s.pgfrzTurn c q = y.2.endShard c y.1 4 := by
  exact (if_neg (by simp [hp])).trans <| (atTurn_goes hy ht).trans <| if_pos hf

theorem pgfrzTurn_tentative (hf : dFst (y.2.desc c.dieId q.f.op0.val.toNat 0) < 2)
    (hten : dTent (y.2.desc c.dieId q.f.op0.val.toNat 0) = true) :
    s.pgfrzTurn c q = y.2.failShard c y.1 { cause := .specConflict, info := BitVec.ofNat 64 q.f.op0.val.toNat } := by
  exact (if_neg (by simp [hp])).trans <| (atTurn_goes hy ht).trans <| (if_neg (Nat.not_le.2 hf)).trans <| if_pos hten

theorem pgfrzTurn_freezes (hf : dFst (y.2.desc c.dieId q.f.op0.val.toNat 0) < 2)
    (hten : dTent (y.2.desc c.dieId q.f.op0.val.toNat 0) = false) :
    s.pgfrzTurn c q = (y.2.setDesc c.dieId q.f.op0.val.toNat 0
      (withBits (y.2.desc c.dieId q.f.op0.val.toNat 0) 61 60 2)).releaseShard c y.1 y.1.scope 0 := by
  exact (if_neg (by simp [hp])).trans <| (atTurn_goes hy ht).trans <| (if_neg (Nat.not_le.2 hf)).trans <| if_neg (Bool.eq_false_iff.1 hten)

/-! ## KEVICT (R334) -/

theorem kevictTurn_copied (hs : 3 ≤ y.1.stage) : s.kevictTurn c q = y.2.endShard c y.1 (if y.1.stage = 4 then 8 else 0) := by
  exact (if_neg (by simp [hp])).trans <| (atTurn_goes hy ht).trans <| if_pos hs

theorem kevictTurn_copying (hs : y.1.stage = 2) : s.kevictTurn c q = y.2 := by
  exact (if_neg (by simp [hp])).trans <| (atTurn_goes hy ht).trans <| (if_neg (by omega)).trans <| if_pos hs

theorem kevictTurn_no_copy (hs : y.1.stage < 2) (hl : 2 ≤ dLoc (y.2.desc c.dieId q.f.op0.val.toNat 0)) :
    s.kevictTurn c q = y.2.endShard c y.1 4 := by
  exact (if_neg (by simp [hp])).trans <| (atTurn_goes hy ht).trans <| (if_neg (by omega)).trans <| (if_neg (by omega)).trans <| if_pos hl

theorem kevictTurn_no_station (hs : y.1.stage < 2) (hl : dLoc (y.2.desc c.dieId q.f.op0.val.toNat 0) < 2)
    (hst : y.2.stationOf c.dieId q.f.op0.val.toNat = none) : s.kevictTurn c q = y.2.endShard c y.1 6 := by
  refine (if_neg (by simp [hp])).trans <| (atTurn_goes hy ht).trans <| (if_neg (by omega)).trans <| (if_neg (by omega)).trans <|
    (if_neg (Nat.not_le.2 hl)).trans ?_
  simp only [hst]
  rfl

section
variable {sc : CoreId} {i : Nat} {x : Slot} (hl : dLoc (y.2.desc c.dieId q.f.op0.val.toNat 0) < 2)
  (hst : y.2.stationOf c.dieId q.f.op0.val.toNat = some (sc, i, x))
include hl hst

theorem kevictTurn_blocks (hs : y.1.stage = 0) :
    s.kevictTurn c q = ((y.2.toStage c y.1 1).modSlot sc i fun x => { x with evicting := true }).turnAgain c y.1 := by
  refine (if_neg (by simp [hp])).trans <| (atTurn_goes hy ht).trans <| (if_neg (by omega)).trans <| (if_neg (by omega)).trans <|
    (if_neg (Nat.not_le.2 hl)).trans ?_
  simp only [hst]
  exact if_pos hs

variable (hs : y.1.stage = 1)
include hs

theorem kevictTurn_visited (hv : (y.2.core sc).visiting i = true) : s.kevictTurn c q = y.2.turnAgain c y.1 := by
  refine (if_neg (by simp [hp])).trans <| (atTurn_goes hy ht).trans <| (if_neg (by omega)).trans <| (if_neg (by omega)).trans <|
    (if_neg (Nat.not_le.2 hl)).trans ?_
  simp only [hst]
  exact (if_neg (by omega)).trans (if_pos hv)

theorem kevictTurn_copies (hv : (y.2.core sc).visiting i = false) : s.kevictTurn c q =
    (y.2.toStage c y.1 2).laterAt .evictionCopyComplete sc i (if y.2.copyable sc x then 0 else 1) := by
  refine (if_neg (by simp [hp])).trans <| (atTurn_goes hy ht).trans <| (if_neg (by omega)).trans <| (if_neg (by omega)).trans <|
    (if_neg (Nat.not_le.2 hl)).trans ?_
  simp only [hst]
  exact (if_neg (by omega)).trans (if_neg (Bool.eq_false_iff.1 hv))
end

/-! ## KFILL (R334) -/

theorem kfillTurn_asks :
    let z := y.2.residency c.dieId q.f.op0.val.toNat (decide (y.1.stage = 1))
    (z.1 = .here → s.kfillTurn c q = z.2.endShard c y.1
      (if y.1.stage = 1 ∧ ((z.2.stationOf c.dieId q.f.op0.val.toNat).elim false fun x => x.2.2.poisoned) then 11 else 0)) ∧
      (z.1 = .asked → s.kfillTurn c q = (z.2.toStage c y.1 1).turnAgain c y.1) ∧
      (z.1 = .nowhere → s.kfillTurn c q = z.2.endShard c y.1 8) ∧ (z.1 = .mismatch → s.kfillTurn c q = z.2.endShard c y.1 6) := by
  rw [State.kfillTurn, if_neg (by simp [hp]), atTurn_goes hy ht]
  dsimp only
  obtain ⟨z, s₃⟩ := y.2.residency c.dieId q.f.op0.val.toNat (decide (y.1.stage = 1))
  exact ⟨fun h => by cases h; rfl, fun h => by cases h; rfl, fun h => by cases h; rfl, fun h => by cases h; rfl⟩
end

/-! ## KAPP (R332, R396) -/

/-- The log entry that an append to a page goes to, where the activation of the firing runs under speculation (R396). -/
def logFor (s : State) (d : DieId) (pid : Nat) : Option ((DieId × Nat) × SpecHandle × Nat) :=
  if s.curAct.spec then
    (s.specHandle 64 (s.curAct?.getD 0)).bind fun hd =>
      (Assoc.get? (s.die hd.1).handles hd.2).bind fun h => (s.findLog d h pid).map fun i => (hd, h, i)
  else none

/-- An append's rows have been applied (R332, R342). -/
def rowsApplied (s : State) (d : DieId) (x : Seq) (pid : Nat) : Bool :=
  (rowRanges x (s.desc d pid 1 % 2 ^ 52) (dFill (s.desc d pid 0))).all fun r => s.settled d r.1 r.2

theorem countUp_waits {x : Seq} {pid : Nat} (h : rowsApplied s c.dieId x pid = false) : s.countUp c q x pid = s.turnAgain c q := by
  unfold rowsApplied at h
  exact if_pos (congrArg not h)

theorem countUp_counts {x : Seq} {pid : Nat} (h : rowsApplied s c.dieId x pid = true) :
    let p := dFill (s.desc c.dieId pid 0)
    let w₁ := withBits (s.desc c.dieId pid 0) 58 51 (p + 1)
    let w₂ := if q.data = [1] then withBits w₁ 59 59 1 else withBits w₁ 50 43 (p + 1)
    s.countUp c q x pid = (s.setDesc c.dieId pid 0 (if p + 1 = x.p then withBits w₂ 61 60 1 else w₂)).releaseShard c q q.scope
      (putBits ((bitsOf (s.desc c.dieId pid 3) 63 32 + p) % 2 ^ 32) 32) := by
  unfold rowsApplied at h
  exact if_neg (Bool.eq_false_iff.1 (congrArg not h))

/-- What KAPP does at its page once its turn has come (R332, R396). -/
def appendNow (c : CoreId) (x : Seq) (pid : Nat) (q : ShardReq) (s : State) : State :=
  if q.stage = 2 then s.countUp c q x pid
  else if dFst (s.desc c.dieId pid 0) ≠ 0 then s.failShard c q { cause := .permission }
  else if dTent (s.desc c.dieId pid 0) && !s.curAct.spec then s.failShard c q { cause := .specConflict, info := BitVec.ofNat 64 pid }
  else if s.curAct.spec && (logFor s c.dieId pid).isNone then s.failShard c q { cause := .specConflict, info := BitVec.ofNat 64 pid }
  else match s.residency c.dieId pid (decide (q.stage = 1)) with
    | (.here, s₃) => s₃.append c q x pid (logFor s c.dieId pid)
    | (.asked, s₃) => (s₃.toStage c q 1).turnAgain c q
    | (.nowhere, s₃) => s₃.endShard c q 8
    | (.mismatch, s₃) => s₃.endShard c q 6

section
variable {x : Seq} {pid : Nat}

theorem appendNow_counts (hs : q.stage = 2) : appendNow c x pid q s = s.countUp c q x pid := if_pos hs

variable (hs : q.stage ≠ 2)
include hs

theorem appendNow_full (hf : dFst (s.desc c.dieId pid 0) ≠ 0) : appendNow c x pid q s = s.failShard c q { cause := .permission } :=
  (if_neg hs).trans (if_pos hf)

variable (hf : dFst (s.desc c.dieId pid 0) = 0)
include hf

theorem appendNow_conflict (hc : (dTent (s.desc c.dieId pid 0) = true ∧ s.curAct.spec = false) ∨
    (s.curAct.spec = true ∧ logFor s c.dieId pid = none)) :
    appendNow c x pid q s = s.failShard c q { cause := .specConflict, info := BitVec.ofNat 64 pid } := by
  refine (if_neg hs).trans ((if_neg (not_not.2 hf)).trans ?_)
  rcases hc with ⟨hten, hspec⟩ | ⟨hspec, hlog⟩
  · exact if_pos (by simp [hten, hspec])
  · exact (if_neg (by simp [hspec])).trans (if_pos (by simp [hspec, hlog]))

/-- An append without a conflict asks for its page's residency. -/
theorem appendNow_asks (hc : (dTent (s.desc c.dieId pid 0) = false ∧ s.curAct.spec = false) ∨
    (s.curAct.spec = true ∧ logFor s c.dieId pid ≠ none)) :
    let z := s.residency c.dieId pid (decide (q.stage = 1))
    (z.1 = .here → appendNow c x pid q s = z.2.append c q x pid (logFor s c.dieId pid)) ∧
      (z.1 = .asked → appendNow c x pid q s = (z.2.toStage c q 1).turnAgain c q) ∧
      (z.1 = .nowhere → appendNow c x pid q s = z.2.endShard c q 8) ∧ (z.1 = .mismatch → appendNow c x pid q s = z.2.endShard c q 6) := by
  have htent : ¬ (dTent (s.desc c.dieId pid 0) && !s.curAct.spec) = true := by
    rcases hc with ⟨hten, _⟩ | ⟨hspec, _⟩ <;> simp [*]
  have hlog : ¬ (s.curAct.spec && (logFor s c.dieId pid).isNone) = true := by
    rcases hc with ⟨_, hspec⟩ | ⟨_, hlog⟩ <;> simp [*]
  rw [appendNow, if_neg hs, if_neg (not_not.2 hf), if_neg htent, if_neg hlog]
  obtain ⟨z, s₃⟩ := s.residency c.dieId pid (decide (q.stage = 1))
  exact ⟨fun h => by cases h; rfl, fun h => by cases h; rfl, fun h => by cases h; rfl, fun h => by cases h; rfl⟩
end

theorem kappTurn_no_list {st : Nat} (hx : s.seqOfWord c.dieId q.f.op0.val = .error st) : s.kappTurn c q = s.endShard c q st := by
  simp only [State.kappTurn, hx]

section
variable {x : Seq} (hx : s.seqOfWord c.dieId q.f.op0.val = .ok x)
include hx

theorem kappTurn_empty (ho : q.order = none) (hn : s.npage c.dieId x.list = 0) : s.kappTurn c q = s.endShard c q 4 := by
  simp only [State.kappTurn, hx]
  exact if_pos ⟨by simp [ho], hn⟩

variable {pid : Nat} (hpid : pid = q.pid.getD (s.entryAt c.dieId x.list (s.npage c.dieId x.list - 1)))
  (ho : q.order ≠ none ∨ s.npage c.dieId x.list ≠ 0)
include hpid ho

theorem kappTurn_bad_pid (hp : s.pidOk c.dieId pid = false) : s.kappTurn c q = s.endShard c q 1 := by
  subst hpid
  simp only [State.kappTurn, hx]
  refine (if_neg fun h => ho.elim (· (Option.isNone_iff_eq_none.1 h.1)) (· h.2)).trans (if_pos ?_)
  cases hq : q.pid <;> simpa [hq] using hp

variable (hp : s.pidOk c.dieId pid = true)
include hp

theorem kappTurn_at_page : s.kappTurn c q = s.atTurn c q (some pid) none (appendNow c x pid) := by
  subst hpid
  simp only [State.kappTurn, hx]
  refine (if_neg fun h => ho.elim (· (Option.isNone_iff_eq_none.1 h.1)) (· h.2)).trans ?_
  cases hq : q.pid with
  | none =>
    rw [hq] at hp
    exact (if_neg (Bool.eq_false_iff.1 (congrArg not hp))).trans rfl
  | some p =>
    rw [hq] at hp
    exact (if_neg (Bool.eq_false_iff.1 (congrArg not hp))).trans rfl
end

/-! ## PXLOOK and SEQTBL once their table is read (R277, R280, R338, R339) -/

/-- The identifiers that an instruction has read, behind their own address. -/
abbrev idsOf (q : ShardReq) : List Nat := words32 (q.data.drop 8)

/-- The parent hash that PXLOOK and PXINS are given (R277). -/
abbrev parentOf (q : ShardReq) : Nat := q.f.op1.val.toNat % 2 ^ 32

/-- The hash of the identifiers after their parent (R277). -/
abbrev hashOf (q : ShardReq) : Nat := pxhash (idsOf q) (parentOf q)

/-- Both replies of a PXLOOK: a PID, and the collisions over a status (R338). -/
abbrev lookupSent (s : State) (c : CoreId) (q : ShardReq) (a b : Nat) : State :=
  (s.dropShard c q.id).replyBoth (s.asker q.r q.tag) (plainOp (BitVec.ofNat 64 a)) (plainOp (BitVec.ofNat 64 b))

theorem tableTurn_unread (hs : q.stage = 0) : s.pxlookTurn c q = s ∧ s.pxinsTurn c q = s ∧ s.seqtblTurn c q = s :=
  ⟨if_pos hs, if_pos hs, if_pos hs⟩

theorem pxlookTurn_no_set (hs : q.stage ≠ 0) (h : pxCountOk q.f = false ∨ s.pxSet c.dieId (hashOf q) = none) :
    s.pxlookTurn c q = lookupSent s c q noPage 3 := by
  have hset : (if pxCountOk q.f = true then s.pxSet c.dieId (hashOf q) else none) = none := by
    rcases h with h | h <;> simp [h]
  rw [State.pxlookTurn, if_neg hs]
  dsimp only
  rw [hset]
  rfl

theorem pxlookTurn_answers {a : Nat} (hs : q.stage ≠ 0) (hcount : pxCountOk q.f = true)
    (ha : s.pxSet c.dieId (hashOf q) = some a) :
    let x := s.pxWalk c.dieId (idsOf q) (parentOf q) (hashOf q) (2 ^ 21) a ⟨none, 0, none⟩
    s.pxlookTurn c q = lookupSent s c q (x.pid.getD noPage) (putBits x.colls 32) := by
  rw [State.pxlookTurn, if_neg hs]
  dsimp only
  rw [if_pos hcount, ha]
  rfl

theorem seqtblTurn_bad_table (hs : q.stage ≠ 0) (h : seqCountOk q.f = false ∨ cuOk (words32 (q.data.drop 8)) = false) :
    s.seqtblTurn c q = s.endShard c q 3 :=
  (if_neg hs).trans (if_pos (by rcases h with h | h <;> simp [h]))

section
variable (hs : q.stage ≠ 0) (hcount : seqCountOk q.f = true) (hcu : cuOk (words32 (q.data.drop 8)) = true)
include hs hcount hcu

/-- A sequencer is taken from a colour of its own, or when its table has no tile left (R339). -/
theorem seqtblTurn_loads (hfree : ∀ x : TileSeq, (s.cluster c.cluId).seqr = some x → x.colour = colourOf q.f.tag ∨ x.next = none) :
    s.seqtblTurn c q = (s.modCluster c.cluId fun y =>
      { y with seqr := some ⟨colourOf q.f.tag, words32 (q.data.drop 8), q.r.lit.toNat % 16 + 1, 0, 0⟩ }).endShard c q 0 := by
  refine (if_neg hs).trans ((if_neg (by simp [hcount, hcu])).trans (if_neg ?_))
  cases hq : (s.cluster c.cluId).seqr with
  | none => exact Bool.false_ne_true
  | some x => rcases hfree x hq with h | h <;> simp [h]

theorem seqtblTurn_busy (hbusy : ¬ ∀ x : TileSeq, (s.cluster c.cluId).seqr = some x → x.colour = colourOf q.f.tag ∨ x.next = none) :
    s.seqtblTurn c q = s.endShard c q 7 := by
  simp only [not_forall, not_or] at hbusy
  obtain ⟨x, hx, hcol, hnext⟩ := hbusy
  refine (if_neg hs).trans ((if_neg (by simp [hcount, hcu])).trans (if_pos ?_))
  simp [hx, hcol, Option.isSome_iff_ne_none, hnext]
end

/-! ## PXINS (R338) -/

/-- What the walk of the set's chain finds (R277). -/
abbrev found (s : State) (c : CoreId) (q : ShardReq) (a : Nat) :=
  s.pxWalk c.dieId (idsOf q) (parentOf q) (hashOf q) (2 ^ 21) a ⟨none, 0, none⟩

theorem pxinsTurn_names (hs : q.stage = 2) :
    s.pxinsTurn c q = (s.sysWrite c.dieId (q.pid.getD 0) (leBytes 4 (hashOf q) ++ leBytes 4 q.f.op0.val.toNat)).releaseShard c q q.scope 0 :=
  (if_neg (by omega)).trans (if_pos hs)

section
variable (hs : q.stage = 1)
include hs

theorem pxinsTurn_bad_pid (hp : s.pidOk c.dieId q.f.op0.val.toNat = false) : s.pxinsTurn c q = s.endShard c q 1 :=
  (if_neg (by omega)).trans <| (if_neg (by omega)).trans <| if_pos (congrArg not hp)

variable (hp : s.pidOk c.dieId q.f.op0.val.toNat = true)
include hp

theorem pxinsTurn_not_frozen (hf : dFst (s.desc c.dieId q.f.op0.val.toNat 0) ≠ 2) : s.pxinsTurn c q = s.endShard c q 4 :=
  (if_neg (by omega)).trans <| (if_neg (by omega)).trans <| (if_neg (Bool.eq_false_iff.1 (congrArg not hp))).trans <| if_pos hf

variable (hf : dFst (s.desc c.dieId q.f.op0.val.toNat 0) = 2)
  (hl : (idsOf q).length = dFill (s.desc c.dieId q.f.op0.val.toNat 0))
include hf hl

theorem pxinsTurn_no_index (ha : s.pxSet c.dieId (hashOf q) = none) : s.pxinsTurn c q = s.endShard c q 3 := by
  rw [State.pxinsTurn, if_neg (by omega), if_neg (by omega), if_neg (by simp [hp]), if_neg (not_not.2 hf), if_neg (not_not.2 hl)]
  dsimp only
  rw [ha]
  rfl

variable {a : Nat} (ha : s.pxSet c.dieId (hashOf q) = some a) {y : ShardReq × State} (hy : s.reachTurn c q none (some a) = y)
include ha hy

theorem pxinsTurn_waits (ht : y.2.turnTaken c y.1 = true) : s.pxinsTurn c q = y.2.turnAgain c y.1 := by
  rw [State.pxinsTurn, if_neg (by omega), if_neg (by omega), if_neg (by simp [hp]), if_neg (not_not.2 hf), if_neg (not_not.2 hl)]
  dsimp only
  rw [ha]
  exact atTurn_waits hy ht

/-- At the set's turn PXINS does as the walk finds: an entry of the same identifiers, no way left, or a way to write. -/
theorem pxinsTurn_walks (ht : y.2.turnTaken c y.1 = false) :
    (∀ old : Nat, (found y.2 c q a).pid = some old → s.pxinsTurn c q = y.2.endShard c y.1 (putBits old 32 + 10)) ∧
      ((found y.2 c q a).pid = none → (found y.2 c q a).way = none → s.pxinsTurn c q = y.2.endShard c y.1 5) ∧
      (∀ w : Nat, (found y.2 c q a).pid = none → (found y.2 c q a).way = some w →
        s.pxinsTurn c q = ((y.2.sysWrite c.dieId (w + 8) (leBytes 4 (parentOf q) ++ leBytes 2 (idsOf q).length ++ leBytes 2 0 ++
          y.1.data.take 8 ++ leBytes 8 (y.2.peekWord c.dieId (w + 24)).toNat)).modShard c y.1.id fun z =>
            { z with pid := some w }).stageShard c y.1 2) := by
  rw [State.pxinsTurn, if_neg (by omega), if_neg (by omega), if_neg (by simp [hp]), if_neg (not_not.2 hf), if_neg (not_not.2 hl)]
  dsimp only
  rw [ha]
  dsimp only
  rw [atTurn_goes hy ht]
  exact ⟨fun old hx => by rw [hx]; rfl, fun hx hw => by rw [hx, hw]; rfl, fun w hx hw => by rw [hx, hw]⟩
end

/-! ## PGMAP `.list` (R335) -/

/-- The request of an instruction on a list, and the state, once it has reached the list's home (R330). -/
abbrev atList (s : State) (c : CoreId) (q : ShardReq) (list : Nat) : ShardReq × State := s.reachTurn c q none (some list)

/-- The entries of list z whose pages list x does not name, with their indices (R335). -/
def newlyNamed (s : State) (d : DieId) (x z : Seq) : List (Nat × Nat) :=
  (s.listPages d z.list).filter fun p => !((s.listPages d x.list).any fun o => decide (o.2 = p.2))

/-- The pages of list x that list z does not name (R335). -/
def noLongerNamed (s : State) (d : DieId) (x z : Seq) : List Nat :=
  ((s.listPages d x.list).filter fun p => !((s.listPages d z.list).any fun o => decide (o.2 = p.2))).map (·.2)

/-- The references of pages lowered (R335). -/
def lowerRefs (s : State) (d : DieId) (pids : List Nat) : State := pids.foldl (fun s p => s.addRef d p false) s

section
variable {x z : Seq} (hx : s.seqOfWord c.dieId q.f.op0.val = .ok x) (hz : s.seqOfWord c.dieId q.f.op1.val = .ok z)
  {y : ShardReq × State} (hy : atList s c q x.list = y)
include hx hz hy

theorem pgmapListTurn_waits (ht : y.2.turnTaken c y.1 = true) : s.pgmapListTurn c q = y.2.turnAgain c y.1 := by
  simp only [State.pgmapListTurn, hx, hz]
  exact atTurn_waits hy ht

theorem pgmapListTurn_copies (ht : y.2.turnTaken c y.1 = false)
    (hst : y.2.refStatus c.dieId x (newlyNamed y.2 c.dieId x z) (noLongerNamed y.2 c.dieId x z) = 0)
    (hfits : y.2.npage c.dieId z.list ≤ x.maxpg) (hrefs : y.2.refsFull c.dieId (newlyNamed y.2 c.dieId x z) = false) :
    let s₃ := lowerRefs ((newlyNamed y.2 c.dieId x z).foldl (fun s p => s.addRef c.dieId p.2 true) y.2) c.dieId
      (noLongerNamed y.2 c.dieId x z)
    s.pgmapListTurn c q = (s₃.sysWrite c.dieId x.list
      (y.2.peek c.dieId z.list (16 + 4 * y.2.npage c.dieId z.list))).releaseShard c y.1 y.1.scope 0 := by
  unfold newlyNamed noLongerNamed at *
  simp only [State.pgmapListTurn, hx, hz]
  exact (atTurn_goes hy ht).trans <| (if_neg (not_not.2 hst)).trans <|
    if_neg (not_or.2 ⟨Nat.not_lt.2 hfits, Bool.eq_false_iff.1 hrefs⟩)
end

/-! ## PGMAP's entry form (R335) -/

/-- What entry i of a list names; no page where it is beyond the list. -/
def entryOr (s : State) (d : DieId) (x : Seq) (i : Nat) : Nat := if i < s.npage d x.list then s.entryAt d x.list i else noPage

/-- The page that an entry names no longer once it names pid. -/
def displaced (old pid : Nat) : List Nat := if old = noPage ∨ old = pid then [] else [old]

section
variable {x : Seq} (hx : s.seqOfWord c.dieId q.f.op0.val = .ok x) {y : ShardReq × State} (hy : atList s c q x.list = y)
include hx hy

theorem pgmapTurn_waits (ht : y.2.turnTaken c y.1 = true) : s.pgmapTurn c q = y.2.turnAgain c y.1 := by
  simp only [State.pgmapTurn, hx]
  exact atTurn_waits hy ht

variable (ht : y.2.turnTaken c y.1 = false) {i pid : Nat} (hi : i = q.f.op1.val.toNat) (hpid : pid = q.f.op2.val.toNat)
include ht hi hpid

theorem pgmapTurn_clears (hno : pid = noPage) (hn : 0 < y.2.npage c.dieId x.list) (hlast : i = y.2.npage c.dieId x.list - 1)
    (hok : ((displaced (entryOr y.2 c.dieId x i) pid).all fun p => y.2.pidOk c.dieId p) = true) :
    let s₃ := lowerRefs y.2 c.dieId (displaced (entryOr y.2 c.dieId x i) pid)
    s.pgmapTurn c q = ((s₃.setEntry c.dieId x.list i noPage).sysWord c.dieId x.list (BitVec.ofNat 64
      (withBits (s₃.listLow c.dieId x.list) 23 8 (y.2.npage c.dieId x.list - 1)))).releaseShard c y.1 y.1.scope 0 := by
  unfold displaced entryOr at *
  subst hi hpid
  simp only [State.pgmapTurn, hx]
  exact (atTurn_goes hy ht).trans <| (if_pos hno).trans <| (if_neg (by omega)).trans <| if_neg (Bool.eq_false_iff.1 (congrArg not hok))

theorem pgmapTurn_names (hno : pid ≠ noPage) (hin : i < y.2.npage c.dieId x.list ∨ (i = y.2.npage c.dieId x.list ∧
      y.2.npage c.dieId x.list < x.maxpg))
    (hst : y.2.refStatus c.dieId x [(i, pid)] (displaced (entryOr y.2 c.dieId x i) pid) = 0)
    (hrefs : entryOr y.2 c.dieId x i = pid ∨ y.2.refsFull c.dieId [(i, pid)] = false) :
    let s₃ := if entryOr y.2 c.dieId x i = pid then y.2
      else lowerRefs (y.2.addRef c.dieId pid true) c.dieId (displaced (entryOr y.2 c.dieId x i) pid)
    s.pgmapTurn c q = ((s₃.setEntry c.dieId x.list i pid).addStation c.dieId x.list (dCore (s₃.desc c.dieId pid 0))
      (if i = y.2.npage c.dieId x.list then y.2.npage c.dieId x.list + 1 else y.2.npage c.dieId x.list)).releaseShard c y.1 y.1.scope 0 := by
  unfold displaced entryOr at *
  subst hi hpid
  simp only [State.pgmapTurn, hx]
  exact (atTurn_goes hy ht).trans <| (if_neg hno).trans <| (if_neg (by omega)).trans <| (if_neg (not_not.2 hst)).trans <|
    if_neg fun h => hrefs.elim h.1 (Bool.eq_false_iff.1 · h.2)
end

/-! ## PGNEW (R337) -/

section
variable {x : Seq} (hx : s.seqOfWord c.dieId q.f.op0.val = .ok x)
include hx

/-- The page of a PGNEW entered at a place of its list (R337). -/
def entered (s : State) (d : DieId) (x : Seq) (n pid : Nat) : State :=
  (s.setEntry d x.list n pid).addStation d x.list (dCore (s.desc d pid 0)) (n + 1)

theorem pgnewTurn_enters (hs : q.stage = 1) :
    s.pgnewTurn c q =
      (entered s c.dieId x (s.npage c.dieId x.list) q.f.op1.val.toNat).releaseShard c q q.scope 0 := by
  simp only [State.pgnewTurn, hx]
  exact if_pos hs

variable {pid : Nat} (hpid : pid = q.f.op1.val.toNat) (hs : q.stage ≠ 1) (hp : s.pidOk c.dieId pid = true) {y : ShardReq × State}
  (hy : s.reachTurn c q (some pid) (some x.list) = y)
include hpid hs hp hy

theorem pgnewTurn_waits (ht : y.2.turnTaken c y.1 = true) : s.pgnewTurn c q = y.2.turnAgain c y.1 := by
  subst hpid
  simp only [State.pgnewTurn, hx]
  exact (if_neg hs).trans <| (if_neg (Bool.eq_false_iff.1 (congrArg not hp))).trans <| atTurn_waits hy ht

/-- The first position of a page behind the last page of its list (R337). -/
def nextPosition (s : State) (d : DieId) (x : Seq) : Nat :=
  let n := s.npage d x.list
  let last := s.entryAt d x.list (n - 1)
  if n = 0 then 0 else (bitsOf (s.desc d last 3) 63 32 + dFill (s.desc d last 0)) % 2 ^ 32

/-- A list whose last page, if any, is closed to further positions: it exists, is not OPEN, and holds nothing tentative (R337). -/
def LastClosed (s : State) (d : DieId) (x : Seq) : Prop :=
  let n := s.npage d x.list
  let last := s.entryAt d x.list (n - 1)
  n = 0 ∨ s.pidOk d last = true ∧ dFst (s.desc d last 0) ≠ 0 ∧ dTent (s.desc d last 0) = false

theorem pgnewTurn_opens (ht : y.2.turnTaken c y.1 = false) (hlast : LastClosed y.2 c.dieId x)
    (hr : dRefs (y.2.desc c.dieId pid 0) = 0) (hn : y.2.npage c.dieId x.list ≠ x.maxpg) :
    let n := y.2.npage c.dieId x.list
    s.pgnewTurn c q = (((y.2.setDesc c.dieId pid 0 (withBits (withBits (y.2.desc c.dieId pid 0) 61 43 0) 15 0 1)).setDesc c.dieId pid 3
      (putBits (nextPosition y.2 c.dieId x) 32 + putBits x.layer 24 + putBits x.hg 18 + putBits n 2)).placeSlots c.dieId.pkg pid n x.layer
        x.hg).stageShard c y.1 1 := by
  subst hpid
  simp only [State.pgnewTurn, hx]
  refine (if_neg hs).trans <| (if_neg (Bool.eq_false_iff.1 (congrArg not hp))).trans <| (atTurn_goes hy ht).trans <| (if_neg ?_).trans <|
    (if_neg (not_not.2 hr)).trans <| (if_neg hn).trans <| if_neg ?_
  · rcases hlast with h | ⟨h, _⟩ <;> simp [h]
  · rintro ⟨hpos, hopen⟩
    rcases hlast with h | ⟨_, hfst, hten⟩
    · omega
    · rcases hopen with h | h
      · exact hfst h
      · exact Bool.false_ne_true (hten.symm.trans h)
end

/-! ## SPECCMT and SPECABT (R397, R398) -/

section
variable {h : SpecHandle} (hh : Assoc.get? (s.die c.dieId).handles q.f.op0.val.toNat = some h)
include hh

theorem specTurn_busy (hs : q.stage = 0) (hl : h.live = true) : s.specTurn c q = s.turnAgain c q := by
  simp only [State.specTurn, hh]
  exact (if_pos hs).trans (if_pos hl)

theorem specTurn_begins (hs : q.stage = 0) (hl : h.live = false) :
    s.specTurn c q = ((s.busyHandle c.dieId q.f.op0.val.toNat h).toStage c q 1).turnAgain c q := by
  simp only [State.specTurn, hh]
  exact (if_pos hs).trans (if_neg (Bool.eq_false_iff.1 hl))

variable (hs : q.stage ≠ 0)
include hs

theorem specTurn_frees (hu : h.used ≤ q.stage - 1) :
    s.specTurn c q = ((s.modAct h.owner fun a =>
      { a with rng := if q.opc = 0xAA then h.snap + q.f.op2.val else h.snap }).modDie c.dieId fun x =>
        { x with handles := Assoc.erase x.handles q.f.op0.val.toNat }).releaseShard c q 4 (if q.data.isEmpty then 0 else 1) := by
  simp only [State.specTurn, hh, decide_eq_true_eq]
  exact (if_neg hs).trans (if_pos hu)

variable (hu : q.stage - 1 < h.used)
include hu

theorem specTurn_bad_pid (hp : s.pidOk c.dieId (s.logEntry c.dieId h (q.stage - 1)).1 = false) :
    s.specTurn c q = (s.modShard c q.id fun x => { x with stage := q.stage + 1, data := [1] }).turnAgain c q := by
  simp only [State.specTurn, hh]
  exact (if_neg hs).trans ((if_neg (Nat.not_le.2 hu)).trans (if_pos (congrArg not hp)))

variable (hp : s.pidOk c.dieId (s.logEntry c.dieId h (q.stage - 1)).1 = true) {y : ShardReq × State}
  (hy : atPage s c q (s.logEntry c.dieId h (q.stage - 1)).1 = y)
include hp hy

theorem specTurn_waits (ht : y.2.turnTaken c y.1 = true) : s.specTurn c q = y.2.turnAgain c y.1 := by
  simp only [State.specTurn, hh]
  exact (if_neg hs).trans <| (if_neg (Nat.not_le.2 hu)).trans <| (if_neg (Bool.eq_false_iff.1 (congrArg not hp))).trans <|
    atTurn_waits hy ht

/-- The positions that a commit takes of a run, or none for an abort. -/
def committed (q : ShardReq) (n : Nat) : Option Nat := if q.opc = 0xAA then some (min q.f.op1.val.toNat n) else none

theorem specTurn_truncates (ht : y.2.turnTaken c y.1 = false) :
    let ent := s.logEntry c.dieId h (q.stage - 1)
    s.specTurn c q = ((y.2.setDesc c.dieId ent.1 0 (truncated (y.2.desc c.dieId ent.1 0) (bitsOf (y.2.desc c.dieId ent.1 3) 63 32) ent.2.1
      (committed q ent.2.2))).modShard c y.1.id fun x => { x with stage := y.1.stage + 1, pid := none, order := none }).turnAgain c y.1 := by
  have hf : y.1.f = q.f := hy ▸ reachTurn_firing
  simp only [State.specTurn, hh]
  refine (if_neg hs).trans <| (if_neg (Nat.not_le.2 hu)).trans <| (if_neg (Bool.eq_false_iff.1 (congrArg not hp))).trans <|
    (atTurn_goes hy ht).trans ?_
  simp only [decide_eq_true_eq, committed, hf]
end

end

/-- Settles O45: each record asks for its turn, and each turn does as its instruction's function says, case by case. -/
theorem shardTurns : Obligations.ShardTurns := by
  unfold Obligations.ShardTurns
  refine ⟨?issues, ?turns⟩
  case issues =>
    intro r s s₁ s₂ t c faults asking asks lowZero
    refine ⟨fun hb i hi => ?waits, fun hb ha => ⟨fun h => memFire_asks hb ha h 0xD3, fun h => memFire_asks hb ha h 0xD4,
      fun h => memFire_asks hb ha h 0xD5, fun h => memFire_asks hb ha h 0xD9,
      fun h => ⟨memFire_asks_list hb ha h 0xD8, memFire_refuses_list hb ha h⟩, fun h => ⟨pgmapList_asks hb ha h, pgmapList_refuses hb ha h⟩,
      fun h => ⟨memFire_asks_list hb ha h 0xDA, memFire_refuses_list hb ha h⟩, ?table⟩,
      fun hb h base hbase => ⟨kapp_refuses_operand hb h hbase, fun sl h0 hsl => ⟨fun st => kapp_no_list hb h hbase h0 hsl,
        fun x hx => ⟨kapp_short_slice hb h hbase h0 hsl hx, kapp_asks hb h hbase h0 hsl hx⟩⟩⟩,
      fun ha => ⟨fun f hf => ⟨speccmt_no_handle ha hf, specabt_no_handle ha hf⟩, fun i x hx =>
        ⟨fun hl => ⟨speccmt_asks ha hx hl, specabt_asks ha hx hl⟩, fun hl => ⟨speccmt_conflict ha hx hl, specabt_purges ha hx hl⟩⟩⟩⟩
    case waits =>
      simp only [List.mem_cons, List.not_mem_nil, or_false] at hi
      rcases hi with rfl | rfl | rfl | rfl | rfl | rfl | rfl | rfl | rfl | rfl | rfl <;> exact memFire_waits hb _
    case table =>
      intro va n m opc a ps i hva hnear hm s₀ hcov hi
      rcases hi with ⟨rfl, h, rfl, rfl, rfl, rfl⟩ | ⟨rfl, h, rfl, rfl, rfl, rfl⟩ | ⟨rfl, h, rfl, rfl, rfl, rfl, hlane⟩
      · exact pxlook_reads hb ha h hva hnear hm hcov
      · exact seqtbl_reads hb ha h hva hnear hm hcov
      · exact pxins_reads hb ha h hva hnear hm hcov hlane
  case turns =>
    intro s q c d s₁ runs p0 hq
    obtain ⟨hkapp, hunpin, hkevict, hkfill, hpxlook, hpxins, hpgmap, hpgfrz, hpgnew, hseqtbl, hspec⟩ := shardTableTurn_goes_on hq
    refine ⟨fun pid list => ⟨reachTurn_reached, reachTurn_reaches, turnTaken_iff⟩, ?page, fun ho => ?unpin, fun ho => ?kapp, ?unread,
      fun ho hs => ?pxlook, fun ho hs => ?seqtbl, fun ho => ?pxins, fun ho hl x z hx hz => ?pgmapList, fun ho hl x hx => ?pgmap,
      fun ho x hx => ?pgnew, fun ho h hh => ?spec⟩
    case page =>
      intro ho
      have hall {b : State} (he : s₁.kevictTurn c q = b ∧ s₁.kfillTurn c q = b ∧ s₁.pgfrzTurn c q = b) : runs b := by
        obtain ⟨hevict, hfill, hfrz⟩ := he
        simp only [List.mem_cons, List.not_mem_nil, or_false] at ho
        rcases ho with ho | ho | ho
        · exact hkevict ho _ hevict
        · exact hkfill ho _ hfill
        · exact hpgfrz ho _ hfrz
      refine ⟨fun hp => hall (pageTurn_bad_pid hp), fun hp => ⟨fun ht => hall (pageTurn_waits hp rfl ht), fun ht =>
        ⟨fun ho => ?frz, fun ho => ?evict, fun ho => ?fill⟩⟩⟩
      case frz =>
        have ho := reachTurn_opc.symm.trans ho
        exact ⟨fun hf => hpgfrz ho _ (pgfrzTurn_frozen hp rfl ht hf),
          fun hf hten => hpgfrz ho _ (pgfrzTurn_tentative hp rfl ht hf hten),
          fun hf hten => hpgfrz ho _ (pgfrzTurn_freezes hp rfl ht hf hten)⟩
      case evict =>
        have ho := reachTurn_opc.symm.trans ho
        exact ⟨fun hs => hkevict ho _ (kevictTurn_copied hp rfl ht hs),
          fun hs => hkevict ho _ (kevictTurn_copying hp rfl ht hs),
          fun hs hl => hkevict ho _ (kevictTurn_no_copy hp rfl ht hs hl),
          fun hs hl hst => hkevict ho _ (kevictTurn_no_station hp rfl ht hs hl hst),
          fun sc i x _ hl hst => ⟨fun hs => hkevict ho _ (kevictTurn_blocks hp rfl ht hl hst hs),
            fun hs hv => hkevict ho _ (kevictTurn_visited hp rfl ht hl hst hs hv),
            fun hs hv => hkevict ho _ (kevictTurn_copies hp rfl ht hl hst hs hv)⟩⟩
      case fill =>
        have ho := reachTurn_opc.symm.trans ho
        obtain ⟨hhere, hasked, hnowhere, hmismatch⟩ := kfillTurn_asks hp rfl ht
        exact ⟨fun hz => hkfill ho _ (hhere hz), fun hz => hkfill ho _ (hasked hz),
          fun hz => hkfill ho _ (hnowhere hz), fun hz => hkfill ho _ (hmismatch hz)⟩
    case unpin =>
      exact ⟨fun hx => hunpin ho _ (unpinTurn_empty hx), fun x hx =>
        ⟨fun hw => hunpin ho _ (unpinTurn_waited_on hx hw),
          fun hw hu => hunpin ho _ (unpinTurn_in_use hx hw hu),
          fun hw hv hr he => hunpin ho _ (unpinTurn_frees hx hw hv hr he)⟩⟩
    case kapp =>
      refine ⟨fun st hx => hkapp ho _ (kappTurn_no_list hx), fun x hx =>
        ⟨fun horder hn => hkapp ho _ (kappTurn_empty hx horder hn),
          fun hlisted hp => hkapp ho _ (kappTurn_bad_pid hx rfl hlisted hp), fun hlisted hp => ?_⟩⟩
      have hpage := kappTurn_at_page hx rfl hlisted hp
      refine ⟨fun ht => hkapp ho _ (hpage.trans (atTurn_waits rfl ht)), fun ht => ?_⟩
      have hturn := hpage.trans (atTurn_goes rfl ht)
      refine ⟨fun hs => ⟨fun hd => ?_, fun hd => ?_⟩, fun hs hf => hkapp ho _ (hturn.trans (appendNow_full hs hf)),
        fun hs hf hc => hkapp ho _ (hturn.trans (appendNow_conflict hs hf hc)), fun hs hf hc => ?_⟩
      · exact hkapp ho _ (hturn.trans ((appendNow_counts hs).trans (countUp_waits hd)))
      · exact hkapp ho _ (hturn.trans ((appendNow_counts hs).trans (countUp_counts hd)))
      · obtain ⟨hhere, hasked, hnowhere, hmismatch⟩ := appendNow_asks hs hf hc
        exact ⟨fun hz => hkapp ho _ (hturn.trans (hhere hz)), fun hz => hkapp ho _ (hturn.trans (hasked hz)),
          fun hz => hkapp ho _ (hturn.trans (hnowhere hz)), fun hz => hkapp ho _ (hturn.trans (hmismatch hz))⟩
    case unread =>
      intro ho hs
      obtain ⟨hlook, hins, htbl⟩ := tableTurn_unread (s := s₁) (c := c) hs
      simp only [List.mem_cons, List.not_mem_nil, or_false] at ho
      rcases ho with ho | ho | ho
      · exact hpxlook ho _ hlook
      · exact hpxins ho _ hins
      · exact hseqtbl ho _ htbl
    case pxlook =>
      exact ⟨fun h => hpxlook ho _ (pxlookTurn_no_set hs h),
        fun a hcount ha => hpxlook ho _ (pxlookTurn_answers hs hcount ha)⟩
    case seqtbl =>
      exact ⟨fun h => hseqtbl ho _ (seqtblTurn_bad_table hs h),
        fun hcount hcu hbusy => hseqtbl ho _ (seqtblTurn_busy hs hcount hcu hbusy),
        fun hcount hcu hfree => hseqtbl ho _ (seqtblTurn_loads hs hcount hcu hfree)⟩
    case pxins =>
      refine ⟨fun hs => hpxins ho _ (pxinsTurn_names hs), fun hs =>
        ⟨fun hp => hpxins ho _ (pxinsTurn_bad_pid hs hp),
          fun hp hf => hpxins ho _ (pxinsTurn_not_frozen hs hp hf), fun hp hf hl =>
          ⟨fun ha => hpxins ho _ (pxinsTurn_no_index hs hp hf hl ha), fun a ha =>
            ⟨fun ht => hpxins ho _ (pxinsTurn_waits hs hp hf hl ha rfl ht), fun ht => ?_⟩⟩⟩⟩
      obtain ⟨hold, hfull, hway⟩ := pxinsTurn_walks hs hp hf hl ha rfl ht
      exact ⟨fun old hx => hpxins ho _ (hold old hx), fun hx hw => hpxins ho _ (hfull hx hw),
        fun w hx hw => hpxins ho _ (hway w hx hw)⟩
    case pgmapList =>
      have hlist {b : State} (he : s₁.pgmapListTurn c q = b) : runs b := hpgmap ho _ ((if_pos hl).trans he)
      exact ⟨fun ht => hlist (pgmapListTurn_waits hx hz rfl ht),
        fun ht hst hfits hrefs => hlist (pgmapListTurn_copies hx hz rfl ht hst hfits hrefs)⟩
    case pgmap =>
      have hentry {b : State} (he : s₁.pgmapTurn c q = b) : runs b := hpgmap ho _ ((if_neg hl).trans he)
      exact ⟨fun ht => hentry (pgmapTurn_waits hx rfl ht),
        fun ht hno hn hlast hok => hentry (pgmapTurn_clears hx rfl ht rfl rfl hno hn hlast hok),
        fun ht hno hin hst hrefs => hentry (pgmapTurn_names hx rfl ht rfl rfl hno hin hst hrefs)⟩
    case pgnew =>
      exact ⟨fun hs => hpgnew ho _ (pgnewTurn_enters hx hs), fun hs hp =>
        ⟨fun ht => hpgnew ho _ (pgnewTurn_waits hx rfl hs hp rfl ht),
          fun ht hlast hr hn => hpgnew ho _ (pgnewTurn_opens hx rfl hs hp rfl ht hlast hr hn)⟩⟩
    case spec =>
      have hturn := hspec (by simpa using ho)
      have hh : Assoc.get? (s₁.die d).handles p0 = some h := hh
      exact ⟨fun hs hl => hturn _ (specTurn_busy hh hs hl), fun hs hl => hturn _ (specTurn_begins hh hs hl),
        fun hs hu => hturn _ (specTurn_frees hh hs hu),
        fun hs hu hp => hturn _ (specTurn_bad_pid hh hs hu hp), fun hs hu hp =>
          ⟨fun ht => hturn _ (specTurn_waits hh hs hu hp rfl ht),
            fun ht => hturn _ (specTurn_truncates hh hs hu hp rfl ht)⟩⟩

end Sys2Proof.Proofs.ShardTurns
end

section
/-! The order, logic, shift and count instructions, SEL, CMP, LEA and LINE (R176 to R178, R180 to R182). -/

namespace Sys2Proof.Proofs.IntegerBits

open Sys2Proof Sys2Proof.Machine Sys2Proof.Proofs.Numbers Sys2Proof.Proofs.Integers

/-! ## Bit functions of operands that fit their width (R177, R178) -/

theorem shrBits_of_lt {typ a b : Nat} (ha : a < 2 ^ (intTy typ).1) (hb : b < 2 ^ (intTy typ).1) :
    shrBits typ a b = if b < (intTy typ).1 then a / 2 ^ b else 0 := by
  simp only [shrBits, Nat.mod_eq_of_lt ha, Nat.mod_eq_of_lt hb]

theorem sarBits_of_lt {typ a b : Nat} (hb : b < 2 ^ (intTy typ).1) :
    sarBits typ a b = wrapBits (intTy typ).1 (asInt typ a / ((2 ^ min b (intTy typ).1 : Nat) : Int)) := by
  simp only [sarBits, Nat.mod_eq_of_lt hb]

theorem clzBits_of_lt {w a : Nat} (ha : a < 2 ^ w) : clzBits w a = if a = 0 then w else w - 1 - a.log2 := by
  simp only [clzBits, Nat.mod_eq_of_lt ha]

/-- The bits that a rotation moves out at the top fit below those that it moves up. -/
theorem rotated_lt {w s x : Nat} (hs : s ≤ w) (hx : x < 2 ^ w) : x * 2 ^ s % 2 ^ w + x / 2 ^ (w - s) < 2 ^ w := by
  have hw : 2 ^ w = 2 ^ (w - s) * 2 ^ s := by rw [← pow_add, Nat.sub_add_cancel hs]
  have hq : x / 2 ^ (w - s) < 2 ^ s := Nat.div_lt_of_lt_mul (hw ▸ hx)
  have hr : x % 2 ^ (w - s) < 2 ^ (w - s) := Nat.mod_lt _ (by positivity)
  rw [hw, Nat.mul_mod_mul_right]
  calc x % 2 ^ (w - s) * 2 ^ s + x / 2 ^ (w - s) < x % 2 ^ (w - s) * 2 ^ s + 2 ^ s := by omega
    _ = (x % 2 ^ (w - s) + 1) * 2 ^ s := by ring
    _ ≤ 2 ^ (w - s) * 2 ^ s := Nat.mul_le_mul_right _ hr

theorem rotlBits_of_lt {typ a b : Nat} (ha : a < 2 ^ (intTy typ).1) (hb : b < 2 ^ (intTy typ).1) :
    rotlBits typ a b = (a * 2 ^ (b % (intTy typ).1) + a / 2 ^ ((intTy typ).1 - b % (intTy typ).1)) % 2 ^ (intTy typ).1 := by
  have hs := (Nat.mod_lt b (intTy_pos typ)).le
  have hlt := rotated_lt hs ha
  simp only [rotlBits, Nat.mod_eq_of_lt ha, Nat.mod_eq_of_lt hb]
  rw [Nat.add_mod, Nat.mod_eq_of_lt (lt_of_le_of_lt (Nat.div_le_self a _) ha), Nat.mod_eq_of_lt hlt]

/-! ## What each sends -/

section
variable {r : Rec} {s s₁ : State} {t : Word}

theorem shr_sends (h : Fires Forms.shr r s t s₁) (ha : s.AllScalar r) :
    exec (.shr r) s = sent r s s₁ t (if s₁.elem r 1 < (intTy r.typ.toNat).1 then s₁.elem r 0 / 2 ^ s₁.elem r 1 else 0, 0) := by
  rw [← shrBits_of_lt (elem_lt s₁ r 0) (elem_lt s₁ r 1)]
  exact (show execShr r s = _ from intBin_sends h ha)

theorem sar_sends (h : Fires Forms.sar r s t s₁) (ha : s.AllScalar r) :
    exec (.sar r) s = sent r s s₁ t (wrapBits (intTy r.typ.toNat).1
      (s₁.intOperand r 0 / ((2 ^ min (s₁.elem r 1) (intTy r.typ.toNat).1 : Nat) : Int)), 0) := by
  have hb := sarBits_of_lt (a := s₁.elem r 0) (elem_lt s₁ r 1)
  rw [State.intOperand, ← asInt, ← hb]
  exact (show execSar r s = _ from intBin_sends h ha)

theorem rotl_sends (h : Fires Forms.rotl r s t s₁) (ha : s.AllScalar r) :
    let w := (intTy r.typ.toNat).1
    exec (.rotl r) s = sent r s s₁ t
      ((s₁.elem r 0 * 2 ^ (s₁.elem r 1 % w) + s₁.elem r 0 / 2 ^ (w - s₁.elem r 1 % w)) % 2 ^ w, 0) := by
  intro w
  rw [← rotlBits_of_lt (elem_lt s₁ r 0) (elem_lt s₁ r 1)]
  exact (show execRotl r s = _ from intBin_sends h ha)

theorem clz_sends (h : Fires Forms.clz r s t s₁) (ha : s.AllScalar r) :
    exec (.clz r) s = sent r s s₁ t
      (if s₁.elem r 0 = 0 then (intTy r.typ.toNat).1 else (intTy r.typ.toNat).1 - 1 - (s₁.elem r 0).log2, 0) := by
  rw [← clzBits_of_lt (elem_lt s₁ r 0)]
  exact (show execClz r s = _ from intUn_sends h ha)

theorem sel_sends (h : Fires Forms.sel r s t s₁) (ha : s.AllScalar r) :
    exec (.sel r) s = sent r s s₁ t (if s.cur.op0.val ≠ 0 then s₁.elem r 1 else s₁.elem r 2, 0) := by
  rw [← h.cur]
  exact fire_intOut (x := fun s => (if s.cur.op0.val ≠ 0 then s.elem r 1 else s.elem r 2, 0)) h ha

/-- CMP sends 1 or 0 by its condition (R180). -/
theorem cmp_sends (h : Fires Forms.cmp r s t s₁) (ha : s.AllScalar r) :
    exec (.cmp r) s = .next (s₁.out r t
      ⟨BitVec.ofNat 64 (b2n (cmpCond r.sub.toNat (s₁.intOperand r 0) (s₁.intOperand r 1))), mkKind 0 1 s.end0⟩) := by
  rw [← end0_of_cur h.cur]
  exact System.fire_scalars_ok h ha rfl

theorem lea_sends (h : Fires Forms.lea r s t s₁) (ha : s.AllScalar r) :
    exec (.lea r) s = .next (s₁.out r t
      ⟨s.cur.op0.val + BitVec.ofInt 64 (s₁.intOperand r 1 * (leaScale r.sub.toNat : Int)) +
        (if r.lk.toNat = 0 then 0 else if r.lk.toNat = 1 then r.lit.signExtend 64 else s₁.literal r),
       mkKind 0 (classOf r.typ.toNat) s.end0⟩) := by
  rw [← end0_of_cur h.cur, ← h.cur]
  exact System.fire_scalars_ok h ha rfl

theorem line_sends (h : Fires Forms.line r s t s₁) (ha : s.AllScalar r) :
    exec (.line r) s = .next
      ((s₁.emitA r t ⟨BitVec.ofNat 64 (s.cur.op0.val.toNat / lineUnit r.sub.toNat), mkKind 0 1 s.end0⟩).emitB r t
        ⟨BitVec.ofNat 64 (s.cur.op0.val.toNat % lineUnit r.sub.toNat), mkKind 0 1 s.end0⟩) := by
  rw [← end0_of_cur h.cur, ← h.cur]
  exact System.fire_scalars_ok h ha rfl

end

/-- Settles O23: each record sends its bit function of operands that fit their width. -/
theorem integerBits : Obligations.IntegerBits := by
  intro r s s₁ t w x y a b p hp hf ha
  simp only [List.mem_cons, List.not_mem_nil, or_false] at hp
  rcases hp with rfl | rfl | rfl | rfl | rfl | rfl | rfl | rfl | rfl | rfl | rfl | rfl
  · exact (show execMin r s = _ from intBin_sends hf ha)
  · exact (show execMax r s = _ from intBin_sends hf ha)
  · exact (show execAnd r s = _ from intBin_sends hf ha)
  · exact (show execOr r s = _ from intBin_sends hf ha)
  · exact (show execXor r s = _ from intBin_sends hf ha)
  · exact (show execAndn r s = _ from intBin_sends hf ha)
  · exact shr_sends hf ha
  · exact sar_sends hf ha
  · exact rotl_sends hf ha
  · exact clz_sends hf ha
  · exact (show execPopc r s = _ from intUn_sends hf ha)
  · exact sel_sends hf ha

/-! ## CMP's conditions, LEA's scales, LINE's units (R180 to R182) -/

/-- A proposition that each code's condition is equivalent to is what `cmpCond` decides. -/
theorem cmpCond_iff {c : Nat} {a b : Int} {q : Prop} (h0 : c = 0 → (q ↔ a = b)) (h1 : c = 1 → (q ↔ a ≠ b)) (h2 : c = 2 → (q ↔ a < b))
    (h3 : c = 3 → (q ↔ a ≤ b)) (h4 : c = 4 → (q ↔ a > b)) (h5 : 5 ≤ c → (q ↔ a ≥ b)) : cmpCond c a b = true ↔ q := by
  match c with
  | 0 => simp [cmpCond, h0 rfl]
  | 1 => simp [cmpCond, h1 rfl]
  | 2 => simp [cmpCond, h2 rfl]
  | 3 => simp [cmpCond, h3 rfl]
  | 4 => simp [cmpCond, h4 rfl]
  | n + 5 => simp [cmpCond, h5 (by omega)]

theorem leaScale_eq (c : Nat) : (leaScale c : Int) = ([1, 2, 4, 8, 16, 32, 64, 48, 192] : List Int).getD c 49152 := by
  match c with
  | 0 | 1 | 2 | 3 | 4 | 5 | 6 | 7 | 8 => decide
  | n + 9 => simp [leaScale]

theorem lineUnit_eq (c : Nat) : lineUnit c = ([192, 48, 49152, 3145728] : List Nat).getD c 805306368 := by
  match c with
  | 0 | 1 | 2 | 3 => decide
  | n + 4 => simp [lineUnit, Config.largePage]

/-- Settles O25: CMP by `cmpCond`, LEA by `leaScale`, LINE by `lineUnit`. -/
theorem compareAndAddress : Obligations.CompareAndAddress := by
  intro r s s₁ t ha a b
  refine ⟨fun h q h0 h1 h2 h3 h4 h5 => ?_, fun h scale hs => ?_, fun h u hu => ?_⟩
  · have hc := cmpCond_iff h0 h1 h2 h3 h4 h5
    rw [cmp_sends h ha]
    refine ⟨fun hq => ?_, fun hq => ?_⟩
    · rw [show cmpCond r.sub.toNat (s₁.intOperand r 0) (s₁.intOperand r 1) = true from hc.2 hq]; rfl
    · rw [show cmpCond r.sub.toNat (s₁.intOperand r 0) (s₁.intOperand r 1) = false from
        Bool.eq_false_iff.2 fun e => hq (hc.1 e)]; rfl
  · rw [lea_sends h ha, leaScale_eq, hs]
  · rw [line_sends h ha, lineUnit_eq, hu]

end Sys2Proof.Proofs.IntegerBits
end

section
/-! The float instructions that round nothing (R184 to R186): FABS, FNEG, FMIN, FMAX and FCMP. -/

namespace Sys2Proof.Proofs.FloatUnrounded

open Sys2Proof Sys2Proof.Machine Sys2Proof.Proofs.Numbers

/-! ## The sign bit, and conditions on a NaN -/

theorem testBit_clearSign (x n : Nat) : (x % 2 ^ n).testBit n = false ∧ ∀ i < n, (x % 2 ^ n).testBit i = x.testBit i := by
  refine ⟨by simp [Nat.testBit_mod_two_pow], fun i hi => by simp [Nat.testBit_mod_two_pow, hi]⟩

theorem testBit_flipSign (x n : Nat) :
    (x ^^^ 2 ^ n).testBit n = !(x.testBit n) ∧ ∀ i < n, (x ^^^ 2 ^ n).testBit i = x.testBit i := by
  refine ⟨by simp [Nat.testBit_xor, Nat.testBit_two_pow_self], fun i hi => ?_⟩
  simp [Nat.testBit_xor, Nat.testBit_two_pow_of_ne (Nat.ne_of_gt hi)]

/-- On a NaN no ordered condition holds, and the unordered one does (R186). -/
theorem fcmpBits_nan {f : Fmt} {cond a b : Nat} (hc : cond < 4) (h : (readFlt f a).isNan = true ∨ (readFlt f b).isNan = true) :
    (fcmpBits f cond a b).1 = true ↔ cond = 3 := by
  have hn : ((readFlt f a).isNan || (readFlt f b).isNan) = true := by simpa using h
  match cond, hc with
  | 0, _ | 1, _ | 2, _ | 3, _ => simp [fcmpBits, hn]

/-! ## What each sends -/

section
variable {f : Form} {r : Rec} {s s₁ : State} {t : Word}

/-- A record of all-scalar operands whose effect is a float result without rounding sends that result. -/
theorem fire_fltOut {x : State → Nat × Flg} (h : Fires f r s t s₁) (ha : s.AllScalar r) :
    (fire f r s fun t s => do s.scalars r; fltOut r t s (x s)) = sent r s s₁ t (x s₁) := by
  rw [sent, ← end0_of_cur h.cur]
  exact System.fire_scalars_ok h ha rfl

theorem fcmp_sends (h : Fires Forms.fcmp r s t s₁) (ha : s.AllScalar r) :
    let c := fcmpBits (fmtOf r.typ.toNat) (r.sub.toNat % 4) (s₁.elem r 0) (s₁.elem r 1)
    exec (.fcmp r) s = .next ((s₁.raise c.2).out r t ⟨if c.1 = true then 1 else 0, mkKind 0 1 s.end0⟩) := by
  intro c
  have hb : (if c.1 = true then (1 : Word) else 0) = BitVec.ofNat 64 (b2n c.1) := by cases c.1 <;> rfl
  rw [hb, ← end0_of_cur h.cur]
  exact System.fire_scalars_ok h ha rfl

end

/-- Settles O27: FABS and FNEG by their sign bit, FMIN, FMAX and FCMP by the model's bit functions. -/
theorem floatUnrounded : Obligations.FloatUnrounded := by
  intro r s s₁ t ha f x y res
  refine ⟨fun h => ?_, fun h => ?_, fun h => ?_, fun h => ?_, fun h => ?_⟩
  · exact ⟨x % 2 ^ f.mbits, fire_fltOut (x := fun s => (s.elem r 0 % 2 ^ f.mbits, 0)) h ha, testBit_clearSign x f.mbits⟩
  · exact ⟨x ^^^ 2 ^ f.mbits, fire_fltOut (x := fun s => (s.elem r 0 ^^^ 2 ^ f.mbits, 0)) h ha, testBit_flipSign x f.mbits⟩
  · exact fire_fltOut (x := fun s => fminmax f false (s.elem r 0) (s.elem r 1)) h ha
  · exact fire_fltOut (x := fun s => fminmax f true (s.elem r 0) (s.elem r 1)) h ha
  · exact ⟨fcmp_sends h ha, fcmpBits_nan (Nat.mod_lt _ (by decide))⟩

end Sys2Proof.Proofs.FloatUnrounded
end

section
/-! Tags (R29 to R32, R164): what each tag operation makes of a tag that its plan allows, and the result tag of a firing (R166). -/

namespace Sys2Proof.Proofs.Tags

open Sys2Proof Sys2Proof.Machine

/-! ## The fields of a tag (R29) -/

theorem colourOf_mkTag (c : BitVec 9) (d f : Nat) : colourOf (mkTag c d f) = c := by
  simp only [colourOf, mkTag]
  rw [extract_high _ _ _ (by decide), extract_high _ _ _ (by decide)]
  exact extract_all c

theorem depthOf_mkTag (c : BitVec 9) {d : Nat} (f : Nat) (hd : d < 8) : depthOf (mkTag c d f) = d := by
  simp only [depthOf, mkTag]
  rw [extract_high _ _ _ (by decide), extract_low _ _ _ (by decide), extract_all]
  rw [BitVec.toNat_ofNat, Nat.mod_eq_of_lt hd]

theorem stackOf_mkTag (c : BitVec 9) (d : Nat) {f : Nat} (hf : f < 2 ^ 52) : stackOf (mkTag c d f) = f := by
  simp only [stackOf, mkTag]
  rw [extract_low _ _ _ (by decide), extract_all, BitVec.toNat_ofNat, Nat.mod_eq_of_lt hf]

theorem depthOf_lt (t : Word) : depthOf t < 8 := (t.extractLsb' 52 3).isLt

/-! ## What a plan allows (R30, R164) -/

theorem foldl_add_eq_sum (l : List Nat) : l.foldl (· + ·) 0 = l.sum := (List.sum_eq_foldl).symm

/-- The widths of the levels up to a declared one, with that of the level itself last. -/
theorem sum_take_succ (plan : List Nat) (d : Nat) : (plan.take (d + 1)).sum = (plan.take d).sum + levelWidth plan (d + 1) := by
  rw [List.take_add_one, List.sum_append]
  cases h : plan[d]? <;> simp [levelWidth, List.getD, h]

theorem sum_take_le (plan : List Nat) (d : Nat) : (plan.take d).sum ≤ plan.sum := by
  conv_rhs => rw [← List.take_append_drop d plan, List.sum_append]
  omega

/-- The stack of an allowed tag fits the levels up to its depth. -/
theorem stackOf_lt {plan : List Nat} {t : Word} (h : tagOk plan t = true) : stackOf t < 2 ^ (plan.take (depthOf t)).sum := by
  simp only [tagOk, Bool.and_eq_true, decide_eq_true_eq, foldl_add_eq_sum] at h
  exact h.2

/-- A new innermost field leaves the stack within the levels up to its depth. -/
theorem setField_lt {plan : List Nat} {t : Word} (v : Nat) (h : tagOk plan t = true) (hd : depthOf t ≠ 0) :
    stackOf t / 2 ^ levelWidth plan (depthOf t) * 2 ^ levelWidth plan (depthOf t) + v % 2 ^ levelWidth plan (depthOf t)
      < 2 ^ (plan.take (depthOf t)).sum := by
  obtain ⟨n, hn⟩ := Nat.exists_eq_succ_of_ne_zero hd
  have hlt := stackOf_lt h
  rw [hn, Nat.succ_eq_add_one] at hlt ⊢
  rw [sum_take_succ, pow_add] at hlt ⊢
  have hq : stackOf t / 2 ^ levelWidth plan (n + 1) < 2 ^ (plan.take n).sum := Nat.div_lt_of_lt_mul (by rwa [mul_comm])
  have hv : v % 2 ^ levelWidth plan (n + 1) < 2 ^ levelWidth plan (n + 1) := Nat.mod_lt _ (by positivity)
  calc _ < (stackOf t / 2 ^ levelWidth plan (n + 1) + 1) * 2 ^ levelWidth plan (n + 1) := by rw [add_mul]; omega
    _ ≤ _ := Nat.mul_le_mul_right _ hq

/-! ## Each operation (R31, R32) -/

section
variable {plan : List Nat} {t v : Word}

/-- A tag of depth 0 has no innermost field to iterate, pop, set or clear. -/
theorem tagOp_depth_zero (hd : depthOf t = 0) : ∀ n ∈ [1, 3, 5, 6], tagOp plan t n v = none := by
  simp [tagOp, hd]

theorem tagOp_push_none (h : depthOf t = 7 ∨ levelWidth plan (depthOf t + 1) = 0) : tagOp plan t 2 v = none := by
  simp only [tagOp, if_pos h]

theorem tagOp_push (hd : depthOf t ≠ 7) (hw : levelWidth plan (depthOf t + 1) ≠ 0) :
    tagOp plan t 2 v = some (mkTag (colourOf t) (depthOf t + 1) (stackOf t * 2 ^ levelWidth plan (depthOf t + 1))) := by
  simp [tagOp, hd, hw]

theorem tagOp_pop (hd : depthOf t ≠ 0) :
    tagOp plan t 3 v = some (mkTag (colourOf t) (depthOf t - 1) (stackOf t / 2 ^ levelWidth plan (depthOf t))) := by
  simp [tagOp, hd]

/-- Iterate, set field and clear iteration give the innermost field its new value. -/
theorem tagOp_field (hd : depthOf t ≠ 0) {p : Nat × Nat} (hp : p ∈ [(1, innerOf plan t + 1), (5, v.toNat), (6, 0)]) :
    tagOp plan t p.1 v = some (setInner plan t p.2) := by
  simp only [List.mem_cons, List.not_mem_nil, or_false] at hp
  rcases hp with rfl | rfl | rfl <;> simp [tagOp, setInner, innerOf, hd]

theorem push_fits (hs : plan.sum ≤ 52) (h : tagOk plan t = true) :
    stackOf t * 2 ^ levelWidth plan (depthOf t + 1) < 2 ^ 52 := by
  have hle := (sum_take_succ plan (depthOf t)) ▸ sum_take_le plan (depthOf t + 1)
  calc _ < 2 ^ (plan.take (depthOf t)).sum * 2 ^ levelWidth plan (depthOf t + 1) :=
        Nat.mul_lt_mul_of_pos_right (stackOf_lt h) (by positivity)
    _ ≤ 2 ^ 52 := by rw [← pow_add]; exact Nat.pow_le_pow_right (by decide) (hle.trans hs)

/-- Setting the innermost field keeps the colour, the depth and the fields above it. -/
theorem setInner_fields (n : Nat) (hs : plan.sum ≤ 52) (h : tagOk plan t = true) (hd : depthOf t ≠ 0) :
    let w := levelWidth plan (depthOf t)
    colourOf (setInner plan t n) = colourOf t ∧ depthOf (setInner plan t n) = depthOf t ∧
      innerOf plan (setInner plan t n) = n % 2 ^ w ∧ stackOf (setInner plan t n) / 2 ^ w = stackOf t / 2 ^ w := by
  intro w
  have hlt := (setField_lt n h hd).trans_le (Nat.pow_le_pow_right (by decide) ((sum_take_le plan _).trans hs))
  have hdep : depthOf (setInner plan t n) = depthOf t := depthOf_mkTag _ _ (depthOf_lt t)
  have hst : stackOf (setInner plan t n) = stackOf t / 2 ^ w * 2 ^ w + n % 2 ^ w := stackOf_mkTag _ _ hlt
  have hpos : 0 < 2 ^ w := by positivity
  refine ⟨colourOf_mkTag .., hdep, ?_, ?_⟩
  · rw [innerOf, if_neg (hdep ▸ hd), hdep, hst, mul_comm, Nat.mul_add_mod, Nat.mod_mod]
  · rw [hst, mul_comm, Nat.mul_add_div hpos, Nat.div_eq_of_lt (Nat.mod_lt _ hpos), add_zero]

end

/-- Settles O9: each operation by its equation; the tags it makes fit their fields because the plan's levels take at most 52 bits. -/
theorem tagOperations : Obligations.TagOperations := by
  intro plan t v _ _ hs ht d w
  refine ⟨rfl, tagOp_depth_zero, tagOp_push_none, fun hd hw => ?_, fun hd => ?_, fun hd p hp => ?_⟩
  · have h7 := depthOf_lt t
    exact ⟨_, tagOp_push hd hw, colourOf_mkTag .., depthOf_mkTag _ _ (by omega), stackOf_mkTag _ _ (push_fits hs ht)⟩
  · have h7 := depthOf_lt t
    have hf : stackOf t / 2 ^ w < 2 ^ 52 := (Nat.div_le_self _ _).trans_lt (t.extractLsb' 0 52).isLt
    exact ⟨_, tagOp_pop hd, colourOf_mkTag .., depthOf_mkTag _ _ (by omega), stackOf_mkTag _ _ hf⟩
  · exact ⟨_, tagOp_field hd hp, setInner_fields p.2 hs ht hd⟩

/-! ## A child under a new colour (R25, R165, R166) -/

theorem outTag_tagOp {s : State} {r : Rec} (h : r.tag.toNat ≠ 4) :
    s.outTag r = match tagOp s.curAct.plan s.cur.tag r.tag.toNat s.cur.op0.val with
      | some t => .ok (t, s)
      | none => .error { cause := .tagOverflow } :=
  if_neg h

/-- The lowest free colour is free, and those below it are not. -/
theorem freeColour_spec {s : State} {d : DieId} {col : BitVec 9} (h : s.freeColour d = some col) :
    (∀ n < col.toNat, s.owner? d (BitVec.ofNat 9 n) ≠ none) ∧ s.owner? d col = none := by
  simp only [State.freeColour, leastBelow, Option.map_eq_some_iff] at h
  obtain ⟨m, hm, rfl⟩ := h
  obtain ⟨hfree, hmem, hlow⟩ := List.find?_range_eq_some.1 hm
  have hlt : m < 512 := List.mem_range.1 hmem
  have hn : (BitVec.ofNat 9 m).toNat = m := by simp [Nat.mod_eq_of_lt hlt]
  refine ⟨fun n hlt' he => ?_, by simpa [State.owner?] using hfree⟩
  have := hlow n (hn ▸ hlt')
  simp only [State.owner?] at he
  simp [he] at this

/-- From s to s' nothing changed but cores. -/
def OnlyCores (s s' : State) : Prop := s' = { s with cores := s'.cores }

theorem OnlyCores.trans {a b c : State} (h : OnlyCores a b) (k : OnlyCores b c) : OnlyCores a c := by
  rw [OnlyCores, k, h]

theorem OnlyCores.foldl {α : Type} {f : State → α → State} (h : ∀ (s : State) (x : α), OnlyCores s (f s x)) (xs : List α) :
    ∀ s : State, OnlyCores s (xs.foldl f s) := by
  induction xs with
  | nil => exact fun s => rfl
  | cons x t ih => exact fun s => (h s x).trans (ih _)

theorem onlyCores_modCore (s : State) (c : CoreId) (f : Core → Core) : OnlyCores s (s.modCore c f) := rfl

theorem OnlyCores.owner? {s s' : State} (h : OnlyCores s s') (d : DieId) (col : BitVec 9) : s'.owner? d col = s.owner? d col := by
  rw [h]; rfl

theorem OnlyCores.mem {s s' : State} (h : OnlyCores s s') : s'.mem = s.mem := by rw [h]

theorem OnlyCores.act {s s' : State} (h : OnlyCores s s') (a : Nat) : s'.act a = s.act a := by rw [h]; rfl

/-- The colour masks of phases are cores' own: setting them changes nothing else. -/
theorem setPhase_onlyCores (s : State) (d : DieId) (im : Word) (ks : List CluId) (col : BitVec 9) (ph : Nat) :
    OnlyCores s (s.setPhase d im ks col ph) := by
  unfold State.setPhase
  split
  · exact OnlyCores.foldl (fun s c => onlyCores_modCore s c _) _ s
  · rfl

theorem get?_append_of_none {κ α : Type} [DecidableEq κ] (k : κ) (v : α) :
    ∀ m : List (κ × α), Assoc.get? m k = none → Assoc.get? (m ++ [(k, v)]) k = some v
  | [], _ => by simp [Assoc.get?]
  | (k', v') :: t, h => by
    by_cases hk : k' = k
    · simp [Assoc.get?, hk] at h
    · simp only [Assoc.get?, hk, if_false] at h
      simp only [List.cons_append, Assoc.get?, hk, if_false, get?_append_of_none k v t h]

theorem get?_set_same {κ α : Type} [DecidableEq κ] (k : κ) (v : α) : ∀ m : List (κ × α), Assoc.get? (Assoc.set m k v) k = some v
  | [] => by simp [Assoc.set, Assoc.get?]
  | (k', v') :: t => by
    by_cases hk : k' = k
    · simp [Assoc.set, Assoc.get?, hk]
    · simp [Assoc.set, Assoc.get?, hk, get?_set_same k v t]

theorem get?_set_none {κ α : Type} [DecidableEq κ] {k x : κ} (v : α) :
    ∀ m : List (κ × α), Assoc.get? m x = none → Assoc.get? m k ≠ none → Assoc.get? (Assoc.set m k v) x = none
  | [], _, h => absurd rfl h
  | (k', v') :: t, hx, hk => by
    by_cases hx' : k' = x
    · simp [Assoc.get?, hx'] at hx
    · by_cases hk' : k' = k
      · subst hk'
        simpa [Assoc.set, Assoc.get?, hx'] using hx
      · simp only [Assoc.get?, hx', hk', if_false] at hx hk
        simp [Assoc.set, Assoc.get?, hx', hk', get?_set_none v t hx hk]

theorem bindColour_owner? (s : State) (d : DieId) (col : BitVec 9) (a : Nat) : (s.bindColour d col a).owner? d col = some a := by
  have h : (s.bindColour d col a).dies = (s.modDie d fun x => { x with colours := Assoc.set x.colours col a }).dies := rfl
  rw [State.owner?, State.die, h, ← State.die, State.die_modDie, if_pos rfl]
  exact get?_set_same _ _ _

theorem act_bindColour (s : State) (d : DieId) (col : BitVec 9) (a b : Nat) : (s.bindColour d col a).act b = s.act b := rfl

theorem mem_bindColour (s : State) (d : DieId) (col : BitVec 9) (a : Nat) : (s.bindColour d col a).mem = s.mem := rfl

theorem act_append {s : State} {a : Nat} {x : Act} (h : Assoc.get? s.acts a = none) :
    ({ s with acts := s.acts ++ [(a, x)] } : State).act a = x := by
  rw [State.act, Assoc.getD, get?_append_of_none a x _ h, Option.getD_some]

/-- Drawing random numbers starts no activation. -/
theorem get?_reserve_acts_none {s : State} {n a : Nat} (h : Assoc.get? s.acts a = none) : Assoc.get? (s.reserve n).acts a = none := by
  unfold State.reserve State.modCurAct
  split
  · rename_i b _
    rcases s.modAct_cases b _ with ⟨x, hx, e⟩ | ⟨_, e⟩
    · rw [e]; exact get?_set_none _ _ h (by simp [hx])
    · rw [e]; exact h
  · exact h

/-- The firing's activation after a child's name and draw: the same. -/
theorem curAct?_draw (s : State) : (s.fresh.2.reserve 1).curAct? = s.curAct? := by
  simp only [State.curAct?, State.actOf?, State.owner?, State.die, State.reserve_cur, State.reserve_dies]
  rfl

/-- A child started by a firing: where its colour stands, and what it takes from its parent. -/
theorem startChild_spec {s : State} {o : Origin} {b : Bool} {p : Option Dest} {sp : Bool} {hd : Option (DieId × Nat)} {col : BitVec 9}
    (hc : s.freeColour s.cur.core.dieId = some col) :
    ∃ s₁ : State, s.startChild o b p sp hd = some (mkTag col 0 0, s.fresh.1, s₁) ∧
      s₁.owner? s.cur.core.dieId col = some s.fresh.1 ∧ s₁.mem = s.mem ∧
      (Assoc.get? s.acts s.fresh.1 = none → (s₁.act s.fresh.1).parent = s.curAct? ∧ (s₁.act s.fresh.1).plan = s.curAct.plan ∧
        (s₁.act s.fresh.1).origin = o ∧ (s₁.act s.fresh.1).flags = 0) := by
  have hp := setPhase_onlyCores
  unfold State.startChild
  simp only [hc]
  refine ⟨_, rfl, ?_, ?_, fun hn => ?_⟩
  · rw [(hp ..).owner?, bindColour_owner?]
  · rw [(hp ..).mem, mem_bindColour]
    exact State.reserve_mem s.fresh.2 1
  · have hg := get?_reserve_acts_none (n := 1) (s := s.fresh.2) hn
    rw [(hp ..).act, act_bindColour, act_append hg]
    exact ⟨curAct?_draw s, rfl, rfl, rfl⟩

/-- Settles O10: the tag operation, or for new colour the child that `startChild` starts. -/
theorem resultTags : Obligations.ResultTags := by
  intro s r
  refine ⟨outTag_tagOp, fun h => ⟨fun hc => ?_, fun col hc => ?_⟩⟩
  · have hn : s.startChild .col false none s.curAct.spec none = none := by
      unfold State.startChild
      simp only [hc]
    simp [State.outTag, h, hn]
  · obtain ⟨hlow, hfree⟩ := freeColour_spec hc
    obtain ⟨s₁, he, hown, hmem, hact⟩ := startChild_spec (o := .col) (b := false) (p := none) (sp := s.curAct.spec) (hd := none) hc
    have hcur := State.startChild_cur he
    exact ⟨hlow, hfree, s₁, by rw [State.outTag, if_pos h, he], hcur, hown, hmem, hact⟩

end Sys2Proof.Proofs.Tags
end

section
/-! Where a token sent from a record goes (R23, R83, R146, R172, R282, R348), and what the routing instructions send (R156, R157). -/

namespace Sys2Proof.Proofs.Routing

open Sys2Proof Sys2Proof.Machine Sys2Proof.Proofs.Numbers Sys2Proof.Proofs.Issuing

/-! ## Where a destination leads (R83, R85, R172) -/

theorem destCore_eq (n : Nat) : bitsOf n 21 14 = n / 2 ^ 14 % 256 := by
  rw [bitsOf, Nat.shiftRight_eq_div_pow]; rfl

theorem destNode_eq (n : Nat) : bitsOf n 13 2 = n / 4 % 4096 := by
  rw [bitsOf, Nat.shiftRight_eq_div_pow]; rfl

section
variable {s : State} {c : CoreId} {node : Nat} {dst : BitVec 24}

theorem target_own (h : destClass dst = 1) : s.target c dst = some (c, dst.toNat / 4 % 4096, dst.toNat % 4) := by
  have hc : dst.toNat / 2 ^ 22 = 1 := h
  simp only [State.target, hc, destNode_eq]

theorem target_near (h : destClass dst = 2) :
    s.target c dst = some (⟨c.pkg, c.die, c.clu, dst.toNat / 2 ^ 14 % 256⟩, dst.toNat / 4 % 4096, dst.toNat % 4) := by
  have hc : dst.toNat / 2 ^ 22 = 2 := h
  simp only [State.target, hc, destNode_eq, destCore_eq]

/-- A far destination leads where its entry of the far table says (R85). -/
theorem target_far (h : destClass dst = 3) :
    let e := (Assoc.getD (s.core c).far (dst.toNat / 2 ^ 14 % 256) 0).toNat
    e.testBit 63 = true →
      s.target c dst = some (⟨bitsOf e 52 47, bitsOf e 46 45, bitsOf e 44 42, bitsOf e 41 34⟩, bitsOf e 33 22, bitsOf e 21 20) := by
  intro e he
  have hc : dst.toNat / 2 ^ 22 = 3 := h
  simp only [State.target, hc, destCore_eq]
  exact if_pos he

/-- A record of no chorus sends where its destination says. -/
theorem leads_of_no_chorus (h : Assoc.get? (s.core c).chorus node = none) : s.leads c node dst = s.target c dst := by
  unfold State.leads
  cases s.target c dst with
  | none => rfl
  | some p => obtain ⟨c', n, q⟩ := p; simp only [h]

/-- A chorus copy's token for a VOTE of its chorus goes to the original core, on the copy's port (R172). -/
theorem leads_vote {c' : CoreId} {n p copy orig port : Nat} (ht : s.target c dst = some (c', n, p))
    (h : Assoc.get? (s.core c).chorus node = some (copy, orig)) (h' : Assoc.get? (s.core c').chorus n = some (port, orig))
    (hv : (opcOfWord (s.recordAt c' n)).toNat = 0x14) : s.leads c node dst = some (⟨c'.pkg, c'.die, c'.clu, orig⟩, n, copy) := by
  simp only [State.leads, ht, h, h', hv, and_self, if_true]

/-! ## The item that brings a token (R27, R128, R166) -/

section
variable {t : Word} {o : Operand} {c' : CoreId} {n p : Nat}

theorem tokenItem_of_leads (h : s.leads c node dst = some (c', n, p)) :
    s.tokenItem c node dst t o = some (s.itemTo c node dst false ⟨n, p, t, o, s.imageFor c c' o⟩ c') := by
  simp only [State.tokenItem, State.tokenFrom, h]

/-- A token that no release goes before leaves at once (R348). -/
theorem sendFrom_of_leads (h : s.leads c node dst = some (c', n, p)) (hr : s.regionScope c node dst = none) :
    s.sendFrom c node dst t o = s.laterAll [s.itemTo c node dst false ⟨n, p, t, o, s.imageFor c c' o⟩ c'] := by
  rw [State.sendFrom, tokenItem_of_leads h, State.sendItem, hr]

/-- A token behind its region's release (R348). -/
theorem sendFrom_of_scope {it : Item} {sc : Nat} (h : s.tokenItem c node dst t o = some it) (hr : s.regionScope c node dst = some sc) :
    s.sendFrom c node dst t o = s.startRelease c (colourOf t) sc false [it] := by
  rw [State.sendFrom, h, State.sendItem, hr]

end

theorem regionScope_local (h : destClass dst ≤ 1) : s.regionScope c node dst = none := if_pos h

/-- A record of no region puts no release before its tokens. -/
theorem regionScope_calm (h : Assoc.get? (s.core c).regions node = none) : s.regionScope c node dst = none := by
  unfold State.regionScope
  split
  · rfl
  · simp only [State.scopeTo, h]

/-- A region's token that leaves the core takes the greater of the scopes at its two ends (R348, R350). -/
theorem regionScope_region {rid sc : Nat} {p : CoreId × Nat × Nat} (h : 2 ≤ destClass dst)
    (hr : Assoc.get? (s.core c).regions node = some (rid, sc)) (hl : s.leads c node dst = some p) :
    s.regionScope c node dst = some ((Assoc.get? (s.core p.1).regions p.2.1).elim sc fun x => max sc x.2) := by
  obtain ⟨c', n, q⟩ := p
  simp only [State.regionScope, if_neg (show ¬ destClass dst ≤ 1 by omega), State.scopeTo, hr, hl]
  cases Assoc.get? (s.core c').regions n <;> rfl

/-! ### By route class (R83) -/

section
variable {tok : Token}

theorem itemTo_own (h : destClass dst = 1) : s.itemTo c node dst false tok c = .event (.tokenArrival c .own tok) Site.zero := by
  simp [State.itemTo, h]

theorem itemTo_near {c' : CoreId} (h : destClass dst = 2) (hd : c'.dieId = c.dieId) :
    s.itemTo c node dst false tok c' = .event (.tokenArrival c' .network tok) Site.zero := by
  simp [State.itemTo, h, hd]

theorem itemTo_far {c' : CoreId} (h : destClass dst = 3) : s.itemTo c node dst false tok c' = .event
    (if c'.dieId = c.dieId ∧ s.startsCol c node = false then .tokenArrival c' .network tok else .linkTokenCrossing c node c' tok)
    Site.zero := by
  by_cases hd : c'.dieId = c.dieId <;> cases hs : s.startsCol c node <;> simp [State.itemTo, h, hd, hs]

end

end

theorem nulls_countNull (s : State) (c : CoreId) : ((s.countNull c).core c).nulls =
    if (s.core c).nulls = 0xFFFFFFFF#32 then 0xFFFFFFFF#32 else (s.core c).nulls + 1 := by
  simp only [State.countNull, State.core_modCore_same]
  split
  · assumption
  · rfl

/-- Settles O11, by the route class of the destination, the chorus and the region of the record that sends. -/
theorem tokensSent : Obligations.TokensSent := by
  intro s c node dst t o cls f e tok near far sent calm
  refine ⟨fun h => ⟨sendFrom_null h .., nulls_countNull s c⟩, fun hch => ⟨fun h => ?own, fun hr h => ?near, fun hr h he => ?far⟩, ?vote,
    ?region⟩
  case own =>
    rw [sendFrom_of_leads ((leads_of_no_chorus hch).trans (target_own h)) (regionScope_local h.le), itemTo_own h]
    rfl
  case near =>
    rw [sendFrom_of_leads ((leads_of_no_chorus hch).trans (target_near h)) (regionScope_calm hr), itemTo_near h (by rfl)]
    rfl
  case far =>
    rw [sendFrom_of_leads ((leads_of_no_chorus hch).trans (target_far h he)) (regionScope_calm hr), itemTo_far h]
    rfl
  case vote =>
    intro copy orig port hr h hc hc' hv
    rw [sendFrom_of_leads (leads_vote (target_near h) hc hc' hv) (regionScope_calm hr), itemTo_near h (by rfl)]
    rfl
  case region =>
    intro it rid sc p hr h hl hit
    exact sendFrom_of_scope hit (regionScope_region h hr hl)

/-! ## SINK, DUP, GATE, CONST, STEER and DENDS (R156, R157) -/

section
variable {r : Rec} {s s₁ : State} {t : Word}

theorem dup_sends (h : Fires Forms.dup r s t s₁) : exec (.dup r) s = .next (s₁.out r t s.cur.op0) := by
  rw [← h.cur]; exact fire_ok h rfl

theorem gate_sends (h : Fires Forms.gate r s t s₁) : exec (.gate r) s = .next (s₁.out r t s.cur.op0) := by
  rw [← h.cur]; exact fire_ok h rfl

theorem steer_sends (h : Fires Forms.steer r s t s₁) :
    exec (.steer r) s = .next (if s.cur.op1.val ≠ 0 then s₁.emitA r t s.cur.op0 else s₁.emitB r t s.cur.op0) := by
  rw [← h.cur]; exact fire_ok h rfl

theorem dends_sends (h : Fires Forms.dends r s t s₁) :
    exec (.dends r) s = .next (if s.end0.testBit (r.sub.toNat % 4) = true then s₁.emitA r t s.cur.op0 else s₁.emitB r t s.cur.op0) := by
  rw [← end0_of_cur h.cur, ← h.cur]; exact fire_ok h rfl

end

/-- Settles O13: each record's effect, STEER and DENDS by their condition. -/
theorem routingResults : Obligations.RoutingResults := by
  intro r s s₁ t
  refine ⟨fun h ha => ?_, dup_sends, gate_sends, fun h ha => ?_, fun h => ⟨fun hv => ?_, fun hv => ?_⟩, fun h => ⟨fun hb => ?_, fun hb => ?_⟩⟩
  · exact System.fire_scalars_ok h ha rfl
  · exact System.fire_scalars_ok h ha rfl
  · rw [steer_sends h, if_pos hv]
  · rw [steer_sends h, if_neg (not_not.2 hv)]
  · rw [dends_sends h, if_pos hb]
  · rw [dends_sends h, if_neg (by simp [hb])]

end Sys2Proof.Proofs.Routing
end

section
/-! Calls, returns and tags (R161 to R164), and what PURGE, JOIN and ENDG do (R167 to R169). -/

namespace Sys2Proof.Proofs.Calls

open Sys2Proof Sys2Proof.Machine Sys2Proof.Proofs.Numbers

/-! ## CALL, TAGGET and TAGSET (R161, R163, R164) -/

/-- The part of a tag that TAGGET sends, by its variant (R163). -/
def tagPart (plan : List Nat) (u : Word) (r : Rec) : Nat :=
  match r.sub.toNat with
  | 0 => u.toNat
  | 1 => (colourOf u).toNat
  | 2 => depthOf u
  | 3 => innerOf plan u
  | _ => if 0 ≤ r.lit.toInt then fieldOf plan u r.lit.toNat else 0

/-- A firing that passes its checks has a variant and a type that its form allows (R92 step 4). -/
theorem form_of_check {f : Form} {r : Rec} {s : State} (h : s.check f r = none) : f.sub r.sub.toNat r.typ.toNat = true := by
  have h4 : check4 f r = true := by
    by_contra hn
    rw [Bool.not_eq_true] at hn
    by_cases h3 : s.check3 f r = true
    · rw [Checks.check_of_check4_false h3 hn] at h; cases h
    · rw [Checks.check_of_check3_false (by simpa using h3)] at h; cases h
  simp only [check4, Bool.and_eq_true] at h4
  exact h4.1.1.1

section
variable {r : Rec} {s s₁ : State} {t : Word}

theorem call_pushed (h : Passes Forms.call r s) (ht : tagOp s.curAct.plan s.cur.tag 2 0 = some t) :
    exec (.call r) s =
      .next (s.out r (setInner s.curAct.plan t ((immSext r).toNat % 2 ^ levelWidth s.curAct.plan (depthOf t))) s.cur.op0) := by
  show execCall r s = _
  unfold execCall
  exact fireRaw_ok h (by simp only [ht])

theorem call_refused (h : Passes Forms.call r s) (ht : tagOp s.curAct.plan s.cur.tag 2 0 = none) :
    exec (.call r) s = .next (s.faultCur { cause := .tagOverflow }) := by
  show execCall r s = _
  unfold execCall
  exact fireRaw_error h (by simp only [ht])

theorem tagget_sends (h : Fires Forms.tagget r s t s₁) (ha : s.AllScalar r) :
    exec (.tagget r) s = .next (s₁.out r t (plainOp (BitVec.ofNat 64 (tagPart s₁.curAct.plan s.cur.tag r)))) := by
  rw [← h.cur]
  exact System.fire_scalars_ok h ha rfl

/-- The parts of a tag by their variants; a record that passes its checks has no other (R153). -/
theorem tagPart_eq {plan : List Nat} {u : Word} {v : Nat} (hs : r.sub.toNat ≤ 4) (h0 : r.sub.toNat = 0 → v = u.toNat)
    (h1 : r.sub.toNat = 1 → v = (colourOf u).toNat) (h2 : r.sub.toNat = 2 → v = depthOf u) (h3 : r.sub.toNat = 3 → v = innerOf plan u)
    (h4 : r.sub.toNat = 4 → v = if 0 ≤ r.lit.toInt then fieldOf plan u r.lit.toNat else 0) : tagPart plan u r = v := by
  unfold tagPart
  split
  · exact (h0 ‹_›).symm
  · exact (h1 ‹_›).symm
  · exact (h2 ‹_›).symm
  · exact (h3 ‹_›).symm
  · rename_i n0 n1 n2 n3
    simp only [imp_false] at n0 n1 n2 n3
    exact (h4 (by omega)).symm

/-- TAGSET sends $0 under the tag that $1 gives with the firing's own colour, where the plan has it (R164). -/
theorem tagset_sends (h : Fires Forms.tagset r s t s₁) :
    let u := mkTag (colourOf s.cur.tag) (depthOf s.cur.op1.val) (stackOf s.cur.op1.val)
    (tagOk s₁.curAct.plan u = true → exec (.tagset r) s = .next (s₁.out r u s.cur.op0)) ∧
      (tagOk s₁.curAct.plan u = false → exec (.tagset r) s = .next (s.faultCur { cause := .tagOverflow })) := by
  rw [← h.cur]
  exact ⟨fun hu => fire_ok h (if_pos hu), fun hu => fire_error h (if_neg (by simp [hu]))⟩

end

/-- Settles O17: CALL by whether the tag can be pushed, TAGGET by its variant, TAGSET by whether the plan has the tag. -/
theorem callAndTagResults : Obligations.CallAndTagResults := by
  intro r s s₁ t
  refine ⟨call_pushed, call_refused, fun h ha v h0 h1 h2 h3 h4 => ?_, fun h u hu => ?_⟩
  · have hs : r.sub.toNat ≤ 4 := of_decide_eq_true (form_of_check h.checks)
    rw [tagget_sends h ha, tagPart_eq hs h0 h1 h2 h3 h4]
    rfl
  · subst hu
    exact tagset_sends h

/-! ## RET (R161, R162) -/

section
variable {r : Rec} {s : State}

/-- RET at a depth above 0: the word of the return table for the innermost field says where $0 goes (R161). -/
theorem ret_popped {u : Word} (h : Passes Forms.ret r s) (hu : tagOp s.curAct.plan s.cur.tag 3 0 = some u) :
    let at_ := s.windowWord (litWindow r).1 ((litWindow r).2 + innerOf s.curAct.plan s.cur.tag)
    (at_ = none → exec (.ret r) s = .next (s.faultCur { cause := .badLiteralKind, info := BitVec.ofNat 64 r.lit.toNat })) ∧
    (∀ w : Word, at_ = some w →
      (w.toNat < 2 ^ 24 → s.destBad s.cur.core (BitVec.ofNat 24 w.toNat) = false →
        exec (.ret r) s = .next (s.sendFrom s.cur.core s.cur.node (BitVec.ofNat 24 w.toNat) u s.cur.op0)) ∧
      (2 ^ 24 ≤ w.toNat ∨ s.destBad s.cur.core (BitVec.ofNat 24 w.toNat) = true →
        exec (.ret r) s = .next (s.faultCur { cause := .illegalRecord }))) := by
  intro at_
  have hx : exec (.ret r) s = execRet r s := rfl
  rw [hx, execRet]
  refine ⟨fun hw => fireRaw_error h ?_, fun w hw => ⟨fun hlt hd => fireRaw_ok h ?_, fun hbad => fireRaw_error h ?_⟩⟩
  · simp only [hu, show s.windowWord _ _ = none from hw]
  · simp only [hu, show s.windowWord _ _ = some w from hw]
    exact if_neg (not_or.2 ⟨Nat.not_le.2 hlt, by rw [hd]; decide⟩)
  · simp only [hu, show s.windowWord _ _ = some w from hw]
    exact if_pos hbad

/-- A tag of depth 0 is not under a colour that no activation owns. -/
theorem ret_no_activation (h : Passes Forms.ret r s) (hu : tagOp s.curAct.plan s.cur.tag 3 0 = none) (ha : s.curAct? = none) :
    exec (.ret r) s = .next (s.faultCur { cause := .tagOverflow }) := by
  show execRet r s = _
  unfold execRet
  exact fireRaw_error h (by simp only [hu, ha])

variable {a : Nat}

theorem ret_no_callee (h : Passes Forms.ret r s) (hu : tagOp s.curAct.plan s.cur.tag 3 0 = none) (ha : s.curAct? = some a)
    (ho : (s.act a).origin ≠ .call) : exec (.ret r) s = .next (s.faultCur { cause := .tagOverflow }) := by
  show execRet r s = _
  unfold execRet
  exact fireRaw_error h (by simp only [hu, ha]; exact if_pos ho)

theorem ret_dead_callee (h : Passes Forms.ret r s) (hu : tagOp s.curAct.plan s.cur.tag 3 0 = none) (ha : s.curAct? = some a)
    (ho : (s.act a).origin = .call) (hl : (s.act a).life ≠ .live) : exec (.ret r) s = .next (s.countNull s.cur.core) := by
  show execRet r s = _
  unfold execRet
  exact fireRaw_ok h (by simp only [hu, ha]; exact (if_neg (not_not.2 ho)).trans (if_pos hl))

/-- A live coloured callee returns to its caller and ends (R162). -/
theorem ret_callee (h : Passes Forms.ret r s) (hu : tagOp s.curAct.plan s.cur.tag 3 0 = none) (ha : s.curAct? = some a)
    (ho : (s.act a).origin = .call) (hl : (s.act a).life = .live) :
    exec (.ret r) s = .next (((match (s.act a).pdest with
      | some d => s.returnValue d (s.act a).ptag
      | none => s.countNull s.cur.core).modAct a fun x => { x with pdest := none }).endAct a s.cur.op0.val) := by
  show execRet r s = _
  unfold execRet
  refine fireRaw_ok h ?_
  simp only [hu, ha]
  refine (if_neg (not_not.2 ho)).trans ((if_neg (not_not.2 hl)).trans ?_)
  cases (s.act a).pdest with
  | none => rfl
  | some d =>
    have hcur : (s.returnValue d (s.act a).ptag).cur = s.cur := by
      unfold State.returnValue
      dsimp only
      split
      · exact Issuing.countNull_cur ..
      · split
        · exact Issuing.startRelease_cur ..
        · exact State.laterAll_cur ..
    simp only [hcur]

/-- A return value from a record of no region leaves at once (R348). -/
theorem returnValue_calm {d : Dest} {t : Word} {it : Item} (hr : Assoc.get? (s.core s.cur.core).regions s.cur.node = none)
    (hit : s.tokenFrom s.cur.core d.core d.node d.dst (decide (d.core ≠ s.cur.core)) t s.cur.op0 = some it) :
    s.returnValue d t = s.laterAll [it] := by
  have hsc : (if destClass d.dst ≤ 1 then none else s.scopeTo s.cur.core s.cur.node (s.leads d.core d.node d.dst)) = none := by
    split
    · rfl
    · simp only [State.scopeTo, hr]
  simp only [State.returnValue, hit, hsc]

end

/-- Settles O18, by whether the tag can be popped, and at depth 0 by what the activation is. -/
theorem retReturns : Obligations.RetReturns := by
  intro r s h c pop
  refine ⟨fun u hu => ret_popped h hu, fun hu => ⟨ret_no_activation h hu, fun a ha => ⟨ret_no_callee h hu ha, ret_dead_callee h hu ha, ?_⟩⟩⟩
  intro ho hl ended
  have hret := ret_callee h hu ha ho hl
  refine ⟨fun hd => ?_, fun d hd => ⟨?_, fun it hr hit => returnValue_calm hr hit⟩⟩
  · rw [hret, hd]
  · rw [hret, hd]

/-! ## PURGE, JOIN and ENDG (R167 to R169) -/

section
variable {r : Rec} {s s₁ : State} {t : Word} {a : Nat}

/-- PURGE of a colour that nothing owns sends 0 (R168). -/
theorem purge_free (h : Fires Forms.purge r s t s₁) (hs : s.AllScalar r)
    (ho : s₁.owner? s.cur.core.dieId (BitVec.ofNat 9 s.cur.op0.val.toNat) = none) :
    exec (.purge r) s = .next (s₁.out r t (plainOp 0)) := by
  rw [← h.cur] at ho
  exact System.fire_scalars_ok h hs (by simp only [ho])

/-- PURGE of an activation that is no child of the firing's faults PERMISSION (R168). -/
theorem purge_stranger (h : Fires Forms.purge r s t s₁) (hs : s.AllScalar r)
    (ho : s₁.owner? s.cur.core.dieId (BitVec.ofNat 9 s.cur.op0.val.toNat) = some a)
    (hp : (s₁.act a).parent = none ∨ (s₁.act a).parent ≠ s₁.curAct?) :
    exec (.purge r) s = .next (s.faultCur { cause := .permission }) := by
  rw [← h.cur] at ho
  refine System.fire_scalars_error h hs ?_
  simp only [ho]
  exact if_pos (by simpa using hp)

/-- PURGE of a child sends by where the child's life stands (R168). -/
theorem purge_child (h : Fires Forms.purge r s t s₁) (hs : s.AllScalar r)
    (ho : s₁.owner? s.cur.core.dieId (BitVec.ofNat 9 s.cur.op0.val.toNat) = some a)
    (hp : (s₁.act a).parent ≠ none) (hc : (s₁.act a).parent = s₁.curAct?) :
    exec (.purge r) s = .next (match (s₁.act a).life with
      | .ending => s₁.out r t (plainOp 0)
      | .purging => s₁.out r t (plainOp 1)
      | _ => (s₁.orderPurge a).out r t (plainOp 1)) := by
  rw [← h.cur] at ho
  refine System.fire_scalars_ok h hs ?_
  simp only [ho]
  rw [if_neg (by simpa [hc] using hc ▸ hp)]
  cases (s₁.act a).life <;> rfl

theorem orderPurge_live (hl : (s.act a).life = .live) :
    s.orderPurge a = (s.modAct a fun x => { x with life := .purging }).laterAt .colourPurge (s.act a).ctl a := by
  rw [State.orderPurge, if_neg (not_not.2 hl)]

theorem join_sends (h : Fires Forms.join r s t s₁) (hs : s.AllScalar r) :
    exec (.join r) s = .next (if s.cur.op0.val.toNat % 256 = 0 then s₁.emitA r t (plainOp s.cur.op0.val)
      else s₁.emitB r t (plainOp s.cur.op0.val)) := by
  rw [← h.cur]
  exact System.fire_scalars_ok h hs rfl

theorem endg_no_activation (h : Fires Forms.endg r s t s₁) (hs : s.AllScalar r) (ha : s₁.curAct? = none) :
    exec (.endg r) s = .next (s₁.countNull s.cur.core) := by
  rw [← h.cur]
  exact System.fire_scalars_ok h hs (by simp only [ha])

/-- ENDG acts by where its activation's life stands (R168, R169). -/
theorem endg_activation (h : Fires Forms.endg r s t s₁) (hs : s.AllScalar r) (ha : s₁.curAct? = some a) :
    exec (.endg r) s = .next (match (s₁.act a).life with
      | .live => s₁.endAct a s.cur.op0.val
      | .ending => s₁.countNull s.cur.core
      | _ => s₁) := by
  rw [← h.cur]
  refine System.fire_scalars_ok h hs ?_
  simp only [ha]
  cases (s₁.act a).life <;> rfl

end

/-- Settles O20: PURGE and ENDG by the life of the activation that they meet, JOIN by its status. -/
theorem activationsEnd : Obligations.ActivationsEnd := by
  intro r s s₁ t
  refine ⟨fun h hs => ⟨purge_free h hs, fun a ho => ⟨purge_stranger h hs ho, fun hp hc => ?purge⟩⟩, fun h hs => ⟨fun h0 => ?ok, fun h0 => ?bad⟩,
    endg_no_activation, fun h hs a ha => ?endg⟩
  case purge =>
    have hx := purge_child h hs ho hp hc
    refine ⟨fun hl => ?_, fun hl => ?_, fun hl => ?_⟩
    · rw [hx, hl, orderPurge_live hl]
    · rw [hx, hl]
    · rw [hx, hl]
  case ok => rw [join_sends h hs, if_pos h0]
  case bad => rw [join_sends h hs, if_neg h0]
  case endg =>
    have hx := endg_activation h hs ha
    refine ⟨fun hl => ?_, fun hl => ?_, fun hl he => ?_⟩
    · rw [hx, hl]
    · rw [hx, hl]
    · rw [hx]
      cases hlife : (s₁.act a).life with
      | live => exact absurd hlife hl
      | ending => exact absurd hlife he
      | purging => rfl
      | saved => rfl

end Sys2Proof.Proofs.Calls
end

section
/-! The collective records (R170 to R174): what EVPOST writes when the firing's core is none of the pod's. -/

namespace Sys2Proof.Proofs.Collectives

open Sys2Proof Sys2Proof.Machine

/-- A firing on a control core whose number, less 192, takes 41 bits. -/
def farBeyondPod : State := { State.reset with cur := { Firing.reset with core := ⟨0, 0, 0, 192 + 2 ^ 40⟩ } }

/-- An EVPOST record of two operands, to queue 0, whose status goes nowhere. -/
def postRec : Rec := ⟨0, 0, 2, 0, 1, 0, 0, 0, 0⟩

/-- Word 0 of the first record that queue 0 of the first cluster holds after an outcome. -/
def postedWord : Host.Outcome State Fault Refusal → Option Word
  | .next s => (((s.cluster ⟨0, 0, 0⟩).queues.getD 0 Queue.reset).recs.head?).bind List.head?
  | _ => none

/-- Refutes O21: its clause on EVPOST gives the USER record KIND 7 whatever the core, and bounds the core's number only for the fields below.
On a control core of number 2^40 the CORE field of the model's word reaches bit 56, so that KIND is 8. -/
theorem not_collectiveResults : ¬ Obligations.CollectiveResults := by
  unfold Obligations.CollectiveResults
  intro h
  obtain ⟨-, -, -, hpost, -⟩ := h postRec farBeyondPod farBeyondPod 0
  have hfires : Fires Forms.evpost postRec farBeyondPod 0 farBeyondPod := ⟨by decide, by decide, rfl⟩
  have hscalar : farBeyondPod.AllScalar postRec := by
    unfold State.AllScalar
    decide
  obtain ⟨s₂, hexec, w0, rfl, hkind, -⟩ := hpost hfires hscalar
  have hmodel : postedWord (exec (.evpost postRec) farBeyondPod) = some 0x0800000000008000#64 := by decide
  rw [hexec] at hmodel
  have hw : w0 = 0x0800000000008000#64 := Option.some.inj hmodel
  rw [hw] at hkind
  exact absurd hkind (by decide)

end Sys2Proof.Proofs.Collectives
end

section
/-! Loops (R34 to R36, R158 to R160): the records that act on a gate, whether it stands in the core or is reached by a probe. -/

namespace Sys2Proof.Proofs.Loops

open Sys2Proof Sys2Proof.Machine Sys2Proof.Proofs.Numbers

/-! ## A gate in the wings (R160) -/

section
variable {s : State} {opc : Nat} {r : Rec} {n : Nat} {u : Word}

/-- The lowest probe slot that is not in use, if there is one (R137). -/
theorem freeSlot_eq {k : Core} {i : Nat} (hi : i < 32) (hfree : ∀ x ∈ k.probes, x.slot ≠ i) (hlow : ∀ j < i, ∃ x ∈ k.probes, x.slot = j) :
    (leastBelow 32 fun i => k.probes.all fun x => decide (x.slot ≠ i)) = some i := by
  rw [leastBelow, List.find?_range_eq_some]
  refine ⟨by simpa using hfree, List.mem_range.2 hi, fun j hj => ?_⟩
  simpa using hlow j hj

theorem freeSlot_none {k : Core} (h : ∀ i < 32, ∃ x ∈ k.probes, x.slot = i) :
    (leastBelow 32 fun i => k.probes.all fun x => decide (x.slot ≠ i)) = none := by
  rw [leastBelow, List.find?_eq_none]
  intro i hi
  simpa using h i (List.mem_range.1 hi)

/-- An action on a gate in the wings takes the lowest free probe slot and waits for the probe. -/
theorem atGate_probes (hf : (s.core s.cur.core).gateFar n u = true) {i : Nat} (hi : i < 32)
    (hfree : ∀ x ∈ (s.core s.cur.core).probes, x.slot ≠ i) (hlow : ∀ j < i, ∃ x ∈ (s.core s.cur.core).probes, x.slot = j) :
    s.atGate opc r n u = .ok ((s.setCore s.cur.core { s.core s.cur.core with
        probes := (s.core s.cur.core).probes ++ [⟨i, setIndex n u, .gate n u s.cur⟩], probe := satInc (s.core s.cur.core).probe }).laterAt
      .wingProbeReturn s.cur.core i) := by
  unfold State.atGate
  simp only [hf, if_true, freeSlot_eq hi hfree hlow]

/-- While every probe slot is in use the firing stays at the head of its queue. -/
theorem atGate_waits (hf : (s.core s.cur.core).gateFar n u = true) (h : ∀ i < 32, ∃ x ∈ (s.core s.cur.core).probes, x.slot = i) :
    s.atGate opc r n u = .ok s.retryIssue := by
  unfold State.atGate
  simp only [hf, if_true, freeSlot_none h]

theorem atGate_near (hf : (s.core s.cur.core).gateFar n u = false) : s.atGate opc r n u = s.gateAct opc r := by
  unfold State.atGate
  simp only [hf, Bool.false_eq_true, if_false]

end

/-! ## LOOPIN's request (R34, R159) -/

section
variable {r : Rec} {s : State}

theorem exec_loopin (r : Rec) (s : State) : exec (.loopin r) s = execLoopin r s := rfl

theorem loopin_unpushed (h : Passes Forms.loopin r s) (hp : tagOp s.curAct.plan s.cur.tag 2 0 = none) :
    exec (.loopin r) s = .next (s.faultCur { cause := .tagOverflow }) := by
  rw [exec_loopin, execLoopin]
  exact fireRaw_error h (by simp only [hp])

/-- A LOOPIN whose tag can be pushed acts at its own gate. -/
theorem loopin_ok {v : Word} {s' : State} (h : Passes Forms.loopin r s) (hp : tagOp s.curAct.plan s.cur.tag 2 0 = some v)
    (he : s.atGate 0x06 r s.cur.node s.cur.tag = .ok s') : exec (.loopin r) s = .next s' := by
  rw [exec_loopin, execLoopin]
  exact fireRaw_ok h (by simp only [hp, he])

theorem loopin_error {v : Word} {x : Flt} (h : Passes Forms.loopin r s) (hp : tagOp s.curAct.plan s.cur.tag 2 0 = some v)
    (he : s.atGate 0x06 r s.cur.node s.cur.tag = .error x) : exec (.loopin r) s = .next (s.faultCur x) := by
  rw [exec_loopin, execLoopin]
  exact fireRaw_error h (by simp only [hp, he])

end

section
variable {s : State} {r : Rec} {c : CoreId} {n : Nat} {u : Word} {g : GateState}

/-- A gate with no entry is a new one (R34). -/
theorem gateNow_new (h : (s.core c).gate n u = none) : s.gateNow c n u = ⟨0, 0, 0, s.gateLimit c n, false⟩ := by
  rw [State.gateNow, h]; rfl

/-- A gate that stands has its own limit; a new one must fit the level that its LOOPIN pushes (R34). -/
theorem gateFits_iff : s.gateFits c n u = true ↔
    ((s.core c).gate n u).isSome = true ∨ s.gateLimit c n ≤ 2 ^ levelWidth (s.planOf c u) (depthOf u + 1) := by
  simp only [State.gateFits, Bool.or_eq_true, decide_eq_true_eq]

theorem gateFits_new (h : (s.core c).gate n u = none) (hk : 2 ^ levelWidth (s.planOf c u) (depthOf u + 1) < s.gateLimit c n) :
    s.gateFits c n u = false := by
  rw [← Bool.not_eq_true, gateFits_iff, h]
  simpa using hk

/-- A request that a gate admits sends its values under the tag of the iteration (R159). -/
theorem request_admitted (hc : s.curtained s.cur.core u = false) (hg : g.next < g.base + g.k) (hh : (s.core s.cur.core).heldAt n u = []) :
    s.request r n u g =
      (((s.emitA r (admittedTag (s.planOf s.cur.core u) u g.next) s.cur.op0).emitB r (admittedTag (s.planOf s.cur.core u) u g.next)
        (if r.ari.toNat = 2 then s.cur.op1 else s.cur.op0)), { g with next := g.next + 1 }) := by
  unfold State.request
  simp [hc, GateState.room, hg, hh]

/-- A request that cannot be admitted at once is held behind the others (R160). -/
theorem request_held (h : s.curtained s.cur.core u = true ∨ g.base + g.k ≤ g.next ∨ (s.core s.cur.core).heldAt n u ≠ []) :
    s.request r n u g = (s.fresh.2.place s.cur.core .own
      ⟨n, u, .held s.uid s.cur.node s.cur.op0 (if r.ari.toNat = 2 then s.cur.op1 else s.cur.op0), none⟩, g) := by
  unfold State.request
  have hno : (!s.curtained s.cur.core u && g.room && ((s.core s.cur.core).heldAt n u).isEmpty) = false := by
    rcases h with h | h | h
    · simp [h]
    · simp [GateState.room, show ¬ g.next < g.base + g.k by omega]
    · simp [h]
  simp only [hno, Bool.false_eq_true, if_false]
  rfl

end

/-- A request leaves no gate at the firing's own node unfit, or faults (R34). -/
theorem loopinAct_fits {s : State} {r : Rec} (h : s.gateFits s.cur.core s.cur.node s.cur.tag = true) :
    s.loopinAct r = .ok ((s.request r s.cur.node s.cur.tag (s.gateNow s.cur.core s.cur.node s.cur.tag)).1.endGate s.cur.core s.cur.node
      s.cur.tag (s.request r s.cur.node s.cur.tag (s.gateNow s.cur.core s.cur.node s.cur.tag)).2) := by
  unfold State.loopinAct
  simp only [h, Bool.not_true, Bool.false_eq_true, if_false]

theorem loopinAct_unfit {s : State} {r : Rec} (h : s.gateFits s.cur.core s.cur.node s.cur.tag = false) :
    s.loopinAct r = .error { cause := .loopGate } := by
  unfold State.loopinAct
  simp only [h, Bool.not_false, if_true]

/-- Settles O15, by where the gate stands and whether it admits the request. -/
theorem loopinRequests : Obligations.LoopinRequests := by
  intro r s h c u n k g t b
  refine ⟨gateNow_new, loopin_unpushed h, fun v hv hnear => ⟨fun hnew hk => ?unfit, fun hfit => ?fit⟩, fun v hv hfar => ⟨?probes, ?waits⟩⟩
  case unfit =>
    have hk' : 2 ^ levelWidth (s.planOf c u) (depthOf u + 1) < s.gateLimit c n := by
      have hg : g = ⟨0, 0, 0, s.gateLimit c n, false⟩ := gateNow_new hnew
      rwa [hg] at hk
    exact loopin_error h hv ((atGate_near hnear).trans (loopinAct_unfit (gateFits_new hnew hk')))
  case fit =>
    have hfits : s.gateFits c n u = true := by
      rw [gateFits_iff]
      refine or_iff_not_imp_left.2 fun hnone => ?_
      have hg : g = ⟨0, 0, 0, s.gateLimit c n, false⟩ := gateNow_new (by simpa using hnone)
      have := hfit.resolve_left hnone
      rwa [hg] at this
    have hact := fun s' he => loopin_ok (s' := s') h hv ((atGate_near hnear).trans ((loopinAct_fits hfits).trans he))
    refine ⟨fun hc hroom hheld => hact _ ?_, fun hno => hact _ ?_⟩
    · rw [request_admitted hc hroom hheld]
    · rw [request_held hno]
  case probes => exact fun i hi hfree hlow => loopin_ok h hv (atGate_probes hfar hi hfree hlow)
  case waits => exact fun hall => loopin_ok h hv (atGate_waits hfar hall)

/-! ## ITER, LOOPOUT and LOOPCR (R36, R159) -/

/-- The instruction that acts on a gate by its opcode, its form, and whether it credits its own iteration (R158). -/
def loopRecords (r : Rec) : List (Instr × Form × Nat) :=
  [(.iter r, Forms.iter, 0x07), (.loopout r, Forms.loopout, 0x08), (.loopcr r, Forms.loopcr, 0x09)]

section
variable {r : Rec} {s : State} {p : Instr × Form × Nat}

/-- The effect that the three share: the reference read, then the action at the gate that it names (R158). -/
def refEff (opc : Nat) (r : Rec) (s : State) : Eff := s.loopRef r >>= fun x => s.atGate opc r x.1 x.2.1

theorem exec_loopRecords (hp : p ∈ loopRecords r) : exec p.1 s = fireRaw p.2.1 r s (refEff p.2.2 r) := by
  simp only [loopRecords, List.mem_cons, List.not_mem_nil, or_false] at hp
  rcases hp with rfl | rfl | rfl
  · exact (show execIter r s = _ from rfl)
  · exact (show execLoopout r s = _ from rfl)
  · exact (show execLoopcr r s = _ from rfl)

theorem loopRef_unpopped (h : tagOp s.curAct.plan s.cur.tag 3 0 = none) : s.loopRef r = .error { cause := .tagOverflow } := by
  simp only [State.loopRef, h]

theorem loopRef_no_loopin {u : Word} (h : tagOp s.curAct.plan s.cur.tag 3 0 = some u)
    (hn : (opcOfWord (s.recordAt s.cur.core r.lit.toNat)).toNat ≠ 0x06) : s.loopRef r = .error { cause := .illegalRecord } := by
  simp only [State.loopRef, h, ne_eq, hn, not_false_eq_true, if_true]

theorem loopRef_ok {u : Word} (h : tagOp s.curAct.plan s.cur.tag 3 0 = some u)
    (hn : (opcOfWord (s.recordAt s.cur.core r.lit.toNat)).toNat = 0x06) :
    s.loopRef r = .ok (r.lit.toNat, u, innerOf s.curAct.plan s.cur.tag, levelWidth s.curAct.plan (depthOf s.cur.tag)) := by
  simp only [State.loopRef, h, hn, ne_eq, not_true_eq_false, if_false]

theorem loop_refuses {x : Flt} (hp : p ∈ loopRecords r) (h : Passes p.2.1 r s) (he : s.loopRef r = .error x) :
    exec p.1 s = .next (s.faultCur x) := by
  rw [exec_loopRecords hp]
  exact fireRaw_error h (bind_error he)

section
variable {n w f : Nat} {u : Word}

theorem loop_acts {s' : State} (hp : p ∈ loopRecords r) (h : Passes p.2.1 r s) (href : s.loopRef r = .ok (n, u, f, w))
    (he : s.atGate p.2.2 r n u = .ok s') : exec p.1 s = .next s' := by
  rw [exec_loopRecords hp]
  exact fireRaw_ok h ((bind_ok href).trans he)

theorem loop_faults {x : Flt} (hp : p ∈ loopRecords r) (h : Passes p.2.1 r s) (href : s.loopRef r = .ok (n, u, f, w))
    (he : s.atGate p.2.2 r n u = .error x) : exec p.1 s = .next (s.faultCur x) := by
  rw [exec_loopRecords hp]
  exact fireRaw_error h ((bind_ok href).trans he)

/-- Whether a loop record credits its own iteration: LOOPCR always, the others with `.cr` (R159). -/
def credits (opc : Nat) (r : Rec) : Bool := decide (opc = 0x09) || decide (r.sub.toNat % 2 = 1)

/-- What an action does once its credit is made (R159, R160). -/
def afterCredit (s : State) (opc : Nat) (r : Rec) (n : Nat) (u : Word) (g : GateState) : Eff :=
  let c := s.cur.core
  let ends (x : State × GateState) : Eff := .ok (x.1.endGate c n u x.2)
  match opc with
  | 0x07 =>
    if !s.gateFits c n u then .error { cause := .loopGate }
    else ends ((s.serveOne c n u g).1.request r n u (s.serveOne c n u g).2)
  | 0x08 =>
    let z := s.serveOne c n u { g with exited := true }
    ends ((z.1.emitA r u z.1.cur.op0).emitB r u (if r.ari.toNat = 2 then z.1.cur.op1 else z.1.cur.op0), z.2)
  | _ =>
    let a := s.serveOne c n u g
    ends (a.1.out r a.1.cur.tag a.1.cur.op0, a.2)

/-- Every action reads its reference, makes its credit, and goes on. -/
theorem gateAct_eq (hp : p ∈ loopRecords r) (href : s.loopRef r = .ok (n, u, f, w)) :
    s.gateAct p.2.2 r = (creditIf (credits p.2.2 r) (s.gateNow s.cur.core n u) w f >>= afterCredit s p.2.2 r n u) := by
  simp only [loopRecords, List.mem_cons, List.not_mem_nil, or_false] at hp
  rcases hp with rfl | rfl | rfl
  · have hg : s.gateAct 0x07 r = s.iterAct r := rfl
    simp only [hg, State.iterAct, bind_ok href]
    rfl
  · have hg : s.gateAct 0x08 r = s.loopoutAct r := rfl
    simp only [hg, State.loopoutAct, bind_ok href]
    rfl
  · have hg : s.gateAct 0x09 r = s.loopcrAct r := rfl
    simp only [hg, State.loopcrAct, bind_ok href]
    rfl

theorem creditIf_ok {ask : Bool} {g₀ g : GateState} (h : if ask = true then g₀.credit w f = some g else g = g₀) :
    creditIf ask g₀ w f = .ok g := by
  cases ask with
  | true => simp only [if_true] at h; simp only [creditIf, if_true, h]
  | false => simp only [Bool.false_eq_true, if_false] at h; simp only [creditIf, Bool.false_eq_true, if_false, h]

theorem creditIf_refused {g₀ : GateState} (h : g₀.credit w f = none) :
    creditIf true g₀ w f = .error { cause := .loopGate, info := BitVec.ofNat 64 f } := by
  simp only [creditIf, if_true, h]

end

end

/-- What each of the three does once it passes its checks: the shape in which the obligation asks it. -/
theorem loopRecord_runs {r : Rec} {s : State} {p : Instr × Form × Nat} (hp : p ∈ loopRecords r) (h : Passes p.2.1 r s) :
    let c := s.cur.core
    let k := s.core c
    let plan := s.curAct.plan
    let n := r.lit.toNat
    let w := levelWidth plan (depthOf s.cur.tag)
    let f := innerOf plan s.cur.tag
    (tagOp plan s.cur.tag 3 0 = none → exec p.1 s = .next (s.faultCur { cause := .tagOverflow })) ∧
    (∀ u : Word, tagOp plan s.cur.tag 3 0 = some u →
      ((opcOfWord (s.recordAt c n)).toNat ≠ 0x06 → exec p.1 s = .next (s.faultCur { cause := .illegalRecord })) ∧
      ((opcOfWord (s.recordAt c n)).toNat = 0x06 →
        (k.gateFar n u = true →
          (∀ i < 32, (∀ x ∈ k.probes, x.slot ≠ i) → (∀ j < i, ∃ x ∈ k.probes, x.slot = j) → exec p.1 s =
            .next ((s.setCore c { k with probes := k.probes ++ [⟨i, setIndex n u, .gate n u s.cur⟩], probe := satInc k.probe }).laterAt
              .wingProbeReturn c i)) ∧
          ((∀ i < 32, ∃ x ∈ k.probes, x.slot = i) → exec p.1 s = .next s.retryIssue)) ∧
        (k.gateFar n u = false →
          (credits p.2.2 r = true → (s.gateNow c n u).credit w f = none →
            exec p.1 s = .next (s.faultCur { cause := .loopGate, info := BitVec.ofNat 64 f })) ∧
          (∀ g : GateState, (if credits p.2.2 r = true then (s.gateNow c n u).credit w f = some g else g = s.gateNow c n u) →
            exec p.1 s = .next (match afterCredit s p.2.2 r n u g with | .ok s' => s' | .error x => s.faultCur x))))) := by
  intro c k plan n w f
  refine ⟨fun hu => loop_refuses hp h (loopRef_unpopped hu), fun u hu => ⟨fun hn => loop_refuses hp h (loopRef_no_loopin hu hn), fun hn => ?_⟩⟩
  have href := loopRef_ok hu hn
  refine ⟨fun hfar => ⟨fun i hi hfree hlow => loop_acts hp h href (atGate_probes hfar hi hfree hlow),
    fun hall => loop_acts hp h href (atGate_waits hfar hall)⟩, fun hnear => ⟨fun hask hno => ?_, fun g hg => ?_⟩⟩
  · refine loop_faults hp h href ((atGate_near hnear).trans ((gateAct_eq hp href).trans (bind_error ?_)))
    rw [hask]
    exact creditIf_refused hno
  · have hact := (atGate_near hnear).trans ((gateAct_eq hp href).trans (bind_ok (creditIf_ok hg)))
    cases he : afterCredit s p.2.2 r n u g with
    | ok s' => exact loop_acts hp h href (hact.trans he)
    | error x => exact loop_faults hp h href (hact.trans he)

/-- ITER's request where the gate fits, and its fault where a new one does not (R34). -/
theorem afterCredit_iter_fits {s : State} {r : Rec} {n : Nat} {u : Word} {g : GateState} (h : s.gateFits s.cur.core n u = true) :
    afterCredit s 0x07 r n u g = .ok (((s.serveOne s.cur.core n u g).1.request r n u (s.serveOne s.cur.core n u g).2).1.endGate s.cur.core n u
      ((s.serveOne s.cur.core n u g).1.request r n u (s.serveOne s.cur.core n u g).2).2) := by
  simp only [afterCredit, h, Bool.not_true, Bool.false_eq_true, if_false]

theorem afterCredit_iter_unfit {s : State} {r : Rec} {n : Nat} {u : Word} {g : GateState} (h : s.gateFits s.cur.core n u = false) :
    afterCredit s 0x07 r n u g = .error { cause := .loopGate } := by
  simp only [afterCredit, h, Bool.not_false, if_true]

/-- Settles O16: what the three share is `loopRecord_runs`; after the credit each goes its own way. -/
theorem loopRecordsRun : Obligations.LoopRecordsRun := by
  intro r s c k plan n w f cr fault p hp h
  simp only [List.mem_cons, List.not_mem_nil, or_false] at hp
  rcases hp with rfl | rfl | rfl
  · obtain ⟨hnone, hsome⟩ := loopRecord_runs (r := r) (p := (.iter r, Forms.iter, 0x07)) (by simp [loopRecords]) h
    refine ⟨hnone, fun u hu => ⟨(hsome u hu).1, fun hn => ⟨((hsome u hu).2 hn).1, fun hnear => ?_⟩⟩⟩
    obtain ⟨hrefuse, hgoes⟩ := ((hsome u hu).2 hn).2 hnear
    have hask : (decide (Instr.iter r = .loopcr r) || cr) = credits 0x07 r := by simp [credits, cr]
    intro asks g₀
    simp only [asks, hask]
    refine ⟨hrefuse, fun g hg => ⟨fun _ => ⟨fun hfit => ?_, fun hnew hk => ?_⟩, nofun, nofun⟩⟩
    · exact (hgoes g hg).trans (by rw [afterCredit_iter_fits (gateFits_iff.2 hfit)])
    · exact (hgoes g hg).trans (by rw [afterCredit_iter_unfit (gateFits_new hnew hk)])
  · obtain ⟨hnone, hsome⟩ := loopRecord_runs (r := r) (p := (.loopout r, Forms.loopout, 0x08)) (by simp [loopRecords]) h
    refine ⟨hnone, fun u hu => ⟨(hsome u hu).1, fun hn => ⟨((hsome u hu).2 hn).1, fun hnear => ?_⟩⟩⟩
    obtain ⟨hrefuse, hgoes⟩ := ((hsome u hu).2 hn).2 hnear
    have hask : (decide (Instr.loopout r = .loopcr r) || cr) = credits 0x08 r := by simp [credits, cr]
    intro asks g₀
    simp only [asks, hask]
    exact ⟨hrefuse, fun g hg => ⟨nofun, fun _ => hgoes g hg, nofun⟩⟩
  · obtain ⟨hnone, hsome⟩ := loopRecord_runs (r := r) (p := (.loopcr r, Forms.loopcr, 0x09)) (by simp [loopRecords]) h
    refine ⟨hnone, fun u hu => ⟨(hsome u hu).1, fun hn => ⟨((hsome u hu).2 hn).1, fun hnear => ?_⟩⟩⟩
    obtain ⟨hrefuse, hgoes⟩ := ((hsome u hu).2 hn).2 hnear
    have hask : (decide (Instr.loopcr r = .loopcr r) || cr) = credits 0x09 r := by simp [credits]
    intro asks g₀
    simp only [asks, hask]
    exact ⟨hrefuse, fun g hg => ⟨nofun, nofun, fun _ => hgoes g hg⟩⟩

end Sys2Proof.Proofs.Loops
end

section
/-! What firings and writes leave unchanged (R24, R64, R66, R151, R342): a firing that only sends, and the frame of a write at memory
itself. -/

namespace Sys2Proof.Proofs.Frames

open Sys2Proof Sys2Proof.Machine Sys2Proof.Proofs.Numbers Sys2Proof.Proofs.Issuing

/-! ## Sending, raising and drawing -/

theorem onlySends_refl (c : CoreId) (s : State) : State.OnlySends c s s :=
  ⟨rfl, rfl, rfl, rfl, rfl, rfl, rfl, rfl, rfl, rfl, ⟨rfl, rfl, rfl, rfl, rfl⟩, rfl, fun _ _ => rfl, fun _ => rfl, fun _ => BitVec.and_self⟩

/-- Flags that each of two steps keeps, both together keep. -/
theorem flags_trans {x y z : BitVec 32} (h : x &&& y = x) (k : y &&& z = y) : x &&& z = x := by
  rw [← h, BitVec.and_assoc, k]

theorem onlySends_trans {c : CoreId} {a b d : State} (h : State.OnlySends c a b) (k : State.OnlySends c b d) :
    State.OnlySends c a d where
  mem := k.mem.trans h.mem
  poison := k.poison.trans h.poison
  exported := k.exported.trans h.exported
  clusters := k.clusters.trans h.clusters
  dies := k.dies.trans h.dies
  packages := k.packages.trans h.packages
  timers := k.timers.trans h.timers
  qtoks := k.qtoks.trans h.qtoks
  saves := k.saves.trans h.saves
  hostOut := k.hostOut.trans h.hostOut
  clock := by
    obtain ⟨h1, h2, h3, h4, h5⟩ := h.clock
    obtain ⟨k1, k2, k3, k4, k5⟩ := k.clock
    exact ⟨k1.trans h1, k2.trans h2, k3.trans h3, k4.trans h4, k5.trans h5⟩
  own := by rw [k.own, h.own]
  others := fun x hx => (k.others x hx).trans (h.others x hx)
  acts := fun a => by rw [k.acts a, h.acts a]
  flags := fun a => flags_trans (h.flags a) (k.flags a)

/-- A state that differs in its agenda and its next name alone. -/
theorem onlySends_agenda (c : CoreId) (s : State) (is : List Item) (n : Nat) :
    State.OnlySends c s { s with agenda := is, uid := n } :=
  ⟨rfl, rfl, rfl, rfl, rfl, rfl, rfl, rfl, rfl, rfl, ⟨rfl, rfl, rfl, rfl, rfl⟩, rfl, fun _ _ => rfl, fun _ => rfl, fun _ => BitVec.and_self⟩

/-- A core whose discard count and releases alone change. -/
theorem onlySends_modCore (s : State) (c : CoreId) {f : Core → Core} (hf : ∀ k, f k = { k with nulls := (f k).nulls, rels := (f k).rels }) :
    State.OnlySends c s (s.modCore c f) where
  mem := rfl
  poison := rfl
  exported := rfl
  clusters := rfl
  dies := rfl
  packages := rfl
  timers := rfl
  qtoks := rfl
  saves := rfl
  hostOut := rfl
  clock := ⟨rfl, rfl, rfl, rfl, rfl⟩
  own := by rw [State.core_modCore_same, ← hf]
  others := fun k hk => by rw [State.core_modCore, if_neg hk.symm]
  acts := fun _ => rfl
  flags := fun _ => BitVec.and_self

theorem onlySends_countNull (s : State) (c : CoreId) : State.OnlySends c s (s.countNull c) := onlySends_modCore s c fun _ => rfl

theorem onlySends_openRelease (s : State) (c : CoreId) (col : BitVec 9) (sc : Option Nat) (loads b : Bool) (tlc : Option (Nat × Nat))
    (held : List Item) : State.OnlySends c s (s.openRelease c col sc loads b tlc held) := by
  unfold State.openRelease
  refine onlySends_trans (onlySends_agenda c s s.agenda (s.uid + 1)) (onlySends_trans ?_ (onlySends_agenda c _ _ _))
  exact onlySends_modCore s.fresh.2 c fun _ => rfl

theorem onlySends_startRelease (s : State) (c : CoreId) (col : BitVec 9) (sc : Nat) (b : Bool) (held : List Item) :
    State.OnlySends c s (s.startRelease c col sc b held) := onlySends_openRelease ..

theorem onlySends_sendFrom (s : State) (c : CoreId) (node : Nat) (dst : BitVec 24) (t : Word) (o : Operand) :
    State.OnlySends c s (s.sendFrom c node dst t o) := by
  unfold State.sendFrom State.sendItem
  split
  · exact onlySends_countNull s c
  · split
    · exact onlySends_agenda c s _ _
    · exact onlySends_startRelease ..

@[simp] theorem emit_cur (s : State) (r : Rec) (dst : BitVec 24) (t : Word) (o : Operand) : (s.emit r dst t o).cur = s.cur := by
  unfold State.emit
  split
  · rfl
  · exact sendFrom_cur ..

theorem onlySends_emit (s : State) (r : Rec) (dst : BitVec 24) (t : Word) (o : Operand) :
    State.OnlySends s.cur.core s (s.emit r dst t o) := by
  unfold State.emit
  split
  · exact onlySends_agenda ..
  · exact onlySends_sendFrom ..

theorem onlySends_emit_both (s : State) (r : Rec) (dst dst' : BitVec 24) (t : Word) (o o' : Operand) :
    State.OnlySends s.cur.core s ((s.emit r dst t o).emit r dst' t o') := by
  have h := onlySends_emit (s.emit r dst t o) r dst' t o'
  rw [emit_cur] at h
  exact onlySends_trans (onlySends_emit ..) h

theorem onlySends_out (s : State) (r : Rec) (t : Word) (o : Operand) : State.OnlySends s.cur.core s (s.out r t o) :=
  onlySends_emit_both ..

/-- An activation whose flags and counter alone change, no flag cleared. -/
theorem onlySends_modAct (c : CoreId) (s : State) (a : Nat) {f : Act → Act} (hf : ∀ x, f x = { x with flags := (f x).flags, rng := (f x).rng })
    (hfl : ∀ x, x.flags &&& (f x).flags = x.flags) : State.OnlySends c s (s.modAct a f) := by
  rcases s.modAct_cases a f with ⟨x, hx, h⟩ | ⟨_, h⟩
  · have hact : s.act a = x := by rw [State.act, Assoc.getD, hx]; rfl
    rw [h]
    refine ⟨rfl, rfl, rfl, rfl, rfl, rfl, rfl, rfl, rfl, rfl, ⟨rfl, rfl, rfl, rfl, rfl⟩, rfl, fun _ _ => rfl, fun b => ?_, fun b => ?_⟩
    · rw [State.act_setAct]
      split
      · rename_i hab; rw [← hab, hact]; exact hf x
      · rfl
    · rw [State.act_setAct]
      split
      · rename_i hab; rw [← hab, hact]; exact hfl x
      · exact BitVec.and_self
  · rw [h]; exact onlySends_refl c s

theorem onlySends_modCurAct (c : CoreId) (s : State) {f : Act → Act} (hf : ∀ x, f x = { x with flags := (f x).flags, rng := (f x).rng })
    (hfl : ∀ x, x.flags &&& (f x).flags = x.flags) : State.OnlySends c s (s.modCurAct f) := by
  unfold State.modCurAct
  split
  · exact onlySends_modAct c s _ hf hfl
  · exact onlySends_refl c s

theorem onlySends_raise (c : CoreId) (s : State) (fl : Flg) : State.OnlySends c s (s.raise fl) :=
  onlySends_modCurAct c s (fun _ => rfl) fun x => by
    ext i hi
    simp only [BitVec.getElem_and, BitVec.getElem_or]
    cases x.flags[i] <;> rfl

theorem onlySends_reserve (c : CoreId) (s : State) (n : Nat) : State.OnlySends c s (s.reserve n) :=
  onlySends_modCurAct c s (fun _ => rfl) fun _ => BitVec.and_self

/-- Bytes read through every die as before. -/
theorem peekByte_of_onlySends {c : CoreId} {s s' : State} (h : State.OnlySends c s s') (d : DieId) (a : Nat) :
    s'.peekByte d a = s.peekByte d a := by
  simp only [State.peekByte, State.appliedByte, State.die, h.dies, h.mem]

/-! ## Firings that only send (R24, R151) -/

/-- What the obligation says of an instruction that fires. -/
def SendsOnly (f : Form) (r : Rec) (s s₁ : State) (t : Word) (i : Instr) : Prop :=
  Fires f r s t s₁ → ∀ s' : State, exec i s = .next s' →
    State.OnlySends s.cur.core s₁ s' ∧ ∀ (d : DieId) (a : Nat), s'.peekByte d a = s₁.peekByte d a

section
variable {f : Form} {r : Rec} {s s₁ : State} {t : Word} {i : Instr}

/-- An instruction whose next state is known to send only. -/
theorem sendsOnly_of_next {x : State} (he : Fires f r s t s₁ → exec i s = .next x) (hx : State.OnlySends s₁.cur.core s₁ x) :
    SendsOnly f r s s₁ t i := by
  intro h s' hs'
  obtain rfl : x = s' := by rw [he h] at hs'; exact Host.Outcome.next.inj hs'
  rw [h.cur] at hx
  exact ⟨hx, peekByte_of_onlySends hx⟩

/-- One that sends a result to both destinations. -/
theorem sendsOnly_out {o : Operand} (he : Fires f r s t s₁ → exec i s = .next (s₁.out r t o)) : SendsOnly f r s s₁ t i :=
  sendsOnly_of_next he (onlySends_out ..)

/-- One that raises flags first. -/
theorem sendsOnly_raised {o : Operand} {fl : Flg} (he : Fires f r s t s₁ → exec i s = .next ((s₁.raise fl).out r t o)) :
    SendsOnly f r s s₁ t i := by
  refine sendsOnly_of_next he (onlySends_trans (onlySends_raise _ s₁ fl) ?_)
  have h := onlySends_out (s₁.raise fl) r t o
  rwa [State.raise_cur] at h

/-- One that draws a random number, where its condition asks for one, and then raises flags. -/
theorem sendsOnly_drawn {o : Operand} {fl : Flg} {q : Prop} [Decidable q]
    (he : Fires f r s t s₁ → exec i s = .next (((if q then s₁.reserve 1 else s₁).raise fl).out r t o)) : SendsOnly f r s s₁ t i := by
  by_cases hq : q
  · simp only [hq, if_true] at he
    refine sendsOnly_of_next he (onlySends_trans (onlySends_reserve _ s₁ 1) (onlySends_trans (onlySends_raise _ _ fl) ?_))
    have h := onlySends_out ((s₁.reserve 1).raise fl) r t o
    rwa [State.raise_cur, State.reserve_cur] at h
  · simp only [hq, if_false] at he
    exact sendsOnly_raised he

end

section
variable {r : Rec} {s s₁ : State} {t : Word}

theorem sendsOnly_steer : SendsOnly Forms.steer r s s₁ t (.steer r) :=
  sendsOnly_of_next Routing.steer_sends (by split <;> exact onlySends_emit ..)

theorem sendsOnly_dends : SendsOnly Forms.dends r s s₁ t (.dends r) :=
  sendsOnly_of_next Routing.dends_sends (by split <;> exact onlySends_emit ..)

variable (ha : s.AllScalar r)
include ha

theorem sendsOnly_join : SendsOnly Forms.join r s s₁ t (.join r) :=
  sendsOnly_of_next (fun h => Calls.join_sends h ha) (by split <;> exact onlySends_emit ..)

theorem rng_sends (h : Fires Forms.rng r s t s₁) : ∃ o : Operand, exec (.rng r) s = .next ((s₁.reserve 1).out r t o) := by
  by_cases hv : r.sub.toNat % 8 = 0
  · exact ⟨_, System.fire_scalars_ok h ha (if_pos hv)⟩
  · exact ⟨_, System.fire_scalars_ok h ha (if_neg hv)⟩

theorem sendsOnly_rng : SendsOnly Forms.rng r s s₁ t (.rng r) := by
  have hx : ∀ o : Operand, State.OnlySends s₁.cur.core s₁ ((s₁.reserve 1).out r t o) := fun o => by
    have h := onlySends_out (s₁.reserve 1) r t o
    rw [State.reserve_cur] at h
    exact onlySends_trans (onlySends_reserve _ s₁ 1) h
  intro h
  obtain ⟨o, he⟩ := rng_sends ha h
  exact sendsOnly_of_next (fun _ => he) (hx o) h

theorem sendsOnly_line : SendsOnly Forms.line r s s₁ t (.line r) :=
  sendsOnly_of_next (fun h => IntegerBits.line_sends h ha) (onlySends_emit_both ..)

theorem sendsOnly_fcvt : SendsOnly Forms.fcvt r s s₁ t (.fcvt r) := by
  by_cases hd : r.lit.toNat % 16 = r.typ.toNat
  · exact sendsOnly_raised fun h => Conversions.fcvt_keeps h ha hd rfl
  · exact sendsOnly_drawn fun h => Conversions.fcvt_converts h ha hd

theorem sendsOnly_cvt : SendsOnly Forms.cvt r s s₁ t (.cvt r) := by
  refine sendsOnly_of_next (fun h => Conversions.cvt_converts h ha) ?_
  generalize hb : convRounds (elemTy r.typ.toNat) (elemTy (r.lit.toNat % 16)) = b
  have hdrawn : State.OnlySends s₁.cur.core s₁ (Conversions.drawn s₁ r b) := by
    unfold Conversions.drawn
    split
    · exact onlySends_reserve ..
    · exact onlySends_refl ..
  have hcur : ((Conversions.drawn s₁ r b).raise (Conversions.converted s₁ r).2.1).cur = s₁.cur := by
    rw [State.raise_cur, Conversions.drawn_cur]
  refine onlySends_trans hdrawn (onlySends_trans (onlySends_raise _ _ (Conversions.converted s₁ r).2.1) ?_)
  rw [← hcur]
  unfold State.emitOverflow
  split
  · exact onlySends_emit ..
  · exact onlySends_emit_both ..

end

/-! ## Bytes written at memory itself (R203, R208, R342) -/

/-- A memory after a run of bytes was written: those bytes in their range, the old ones outside it. -/
theorem Memory.get_putN (bs : List Byte) : ∀ {m : Memory} (a x : Nat), m.wf = true →
    (m.putN a bs).get x = if h : a ≤ x ∧ x < a + bs.length then bs[x - a]'(by omega) else m.get x := by
  induction bs with
  | nil => intro m a x _; rw [dif_neg (by simp)]; rfl
  | cons b t ih =>
    intro m a x hm
    rw [Memory.putN, ih _ _ (Memory.put_wf hm), Memory.get_put hm]
    by_cases hx : x = a
    · subst hx; simp
    · by_cases hr : a + 1 ≤ x ∧ x < a + 1 + t.length
      · have hsub : x - a = x - (a + 1) + 1 := by omega
        rw [dif_pos hr, dif_pos (by simp; omega)]
        simp only [hsub, List.getElem_cons_succ]
      · rw [dif_neg hr, if_neg hx, dif_neg (by simp; omega)]

theorem dieWrite_direct {s : State} {nc : Bool} {a : Nat} (h : nc = true ∨ s.isHbm a = false) (d : DieId) (bs : List Byte)
    (own : Option (BitVec 9)) : s.dieWrite d nc a bs own = { s with
      mem := s.mem.putN a bs
      poison := s.poison.filter fun x => !(decide (a ≤ x * 48) && decide (x * 48 + 48 ≤ a + bs.length)) } := by
  unfold State.dieWrite
  rw [if_pos (by simpa using h)]

/-- Settles O58: each instruction's next state is known from what it sends; a direct write changes memory and poison alone. -/
theorem registerFrames : Obligations.RegisterFrames := by
  refine ⟨?firings, ?write⟩
  case write =>
    intro s d nc a bs own hm h s'
    have hs' : s' = { s with
      mem := s.mem.putN a bs
      poison := s.poison.filter fun x => !(decide (a ≤ x * 48) && decide (x * 48 + 48 ≤ a + bs.length)) } := dieWrite_direct h ..
    have hget := fun x => Memory.get_putN bs a x hm
    rw [hs']
    refine ⟨rfl, rfl, rfl, rfl, rfl, rfl, fun x hx => ?_, fun i hi => ?_⟩
    · rw [hget, dif_neg (by omega)]
    · rw [hget, dif_pos (by omega)]
      simp
  case firings =>
    intro r s s₁ s' t onlySends
    have hsends : ∀ {f : Form} {i : Instr}, SendsOnly f r s s₁ t i → onlySends f i := fun h hf he => h hf s' he
    refine ⟨?passed, fun ha => ?scalars⟩
    case passed =>
      simp only [List.forall_mem_cons, List.not_mem_nil, false_imp_iff, implies_true, and_true]
      exact ⟨hsends (sendsOnly_out Routing.dup_sends), hsends sendsOnly_steer, hsends (sendsOnly_out Routing.gate_sends),
        hsends sendsOnly_dends, hsends (sendsOnly_out fun h => fire_ok h rfl)⟩
    case scalars =>
      have harith := Integers.integerArithmetic.2 r s s₁ t
      have hbits := IntegerBits.integerBits r s s₁ t
      have hflts := Floats.floatRounded r s s₁ t
      simp only [List.forall_mem_cons, List.not_mem_nil, false_imp_iff, implies_true, and_true] at harith hbits hflts ⊢
      obtain ⟨hadd, hsub, hmul, hmulh, hneg, habs, hmadd⟩ := harith
      obtain ⟨hmin, hmax, hand, hor, hxor, handn, hshr, hsar, hrotl, hclz, hpopc, hsel⟩ := hbits
      obtain ⟨hfadd, hfsub, hfmul, hfma, hfdiv, hfsqrt, hfrnd, hfexp2, hflog2, hfrcp, hfrsq⟩ := hflts
      exact ⟨hsends (sendsOnly_of_next (fun h => System.fire_scalars_ok h ha rfl) (onlySends_refl ..)),
        hsends (sendsOnly_out fun h => System.fire_scalars_ok h ha rfl), hsends (sendsOnly_join ha),
        hsends (sendsOnly_out fun h => System.fire_scalars_ok h ha rfl), hsends (sendsOnly_rng ha),
        hsends (sendsOnly_raised fun h => hadd h ha), hsends (sendsOnly_raised fun h => hsub h ha),
        hsends (sendsOnly_raised fun h => hmul h ha), hsends (sendsOnly_raised fun h => hmulh h ha),
        hsends (sendsOnly_raised fun h => hmadd h ha), hsends (sendsOnly_raised fun h => Integers.div_sends h ha),
        hsends (sendsOnly_raised fun h => Integers.rem_sends h ha), hsends (sendsOnly_raised fun h => hneg h ha),
        hsends (sendsOnly_raised fun h => habs h ha), hsends (sendsOnly_raised fun h => hmin h ha),
        hsends (sendsOnly_raised fun h => hmax h ha), hsends (sendsOnly_raised fun h => hand h ha),
        hsends (sendsOnly_raised fun h => hor h ha), hsends (sendsOnly_raised fun h => hxor h ha),
        hsends (sendsOnly_raised fun h => handn h ha), hsends (sendsOnly_raised fun h => Integers.shl_sends h ha),
        hsends (sendsOnly_raised fun h => hshr h ha), hsends (sendsOnly_raised fun h => hsar h ha),
        hsends (sendsOnly_raised fun h => hrotl h ha), hsends (sendsOnly_raised fun h => hclz h ha),
        hsends (sendsOnly_raised fun h => Integers.ctz_sends h ha), hsends (sendsOnly_raised fun h => hpopc h ha),
        hsends (sendsOnly_raised fun h => Integers.brev_sends h ha), hsends (sendsOnly_raised fun h => Integers.bext_sends h ha),
        hsends (sendsOnly_raised fun h => Integers.bins_sends h ha), hsends (sendsOnly_out fun h => IntegerBits.cmp_sends h ha),
        hsends (sendsOnly_raised fun h => hsel h ha), hsends (sendsOnly_out fun h => IntegerBits.lea_sends h ha),
        hsends (sendsOnly_line ha), hsends (sendsOnly_drawn fun h => hfadd h ha), hsends (sendsOnly_drawn fun h => hfsub h ha),
        hsends (sendsOnly_drawn fun h => hfmul h ha), hsends (sendsOnly_drawn fun h => hfma h ha),
        hsends (sendsOnly_drawn fun h => hfdiv h ha), hsends (sendsOnly_drawn fun h => hfsqrt h ha),
        hsends (sendsOnly_raised fun h => FloatUnrounded.fire_fltOut h ha),
        hsends (sendsOnly_raised fun h => FloatUnrounded.fire_fltOut h ha),
        hsends (sendsOnly_raised fun h => FloatUnrounded.fire_fltOut h ha),
        hsends (sendsOnly_raised fun h => FloatUnrounded.fire_fltOut h ha),
        hsends (sendsOnly_raised fun h => FloatUnrounded.fcmp_sends h ha), hsends (sendsOnly_fcvt ha),
        hsends (sendsOnly_drawn fun h => hfrnd h ha), hsends (sendsOnly_drawn fun h => hfexp2 h ha),
        hsends (sendsOnly_drawn fun h => hflog2 h ha), hsends (sendsOnly_drawn fun h => hfrcp h ha),
        hsends (sendsOnly_drawn fun h => hfrsq h ha), hsends (sendsOnly_cvt ha)⟩

end Sys2Proof.Proofs.Frames
end
section
/-! Presence words, ATOM and ACAS (R38, R39, R391 to R394): the requests they make, and what each does to the word that it finds. -/

namespace Sys2Proof.Proofs.Words

open Sys2Proof Sys2Proof.Machine Sys2Proof.Proofs.System

/-! ## The requests (R391 to R394) -/

section
variable {r : Rec} {s s₁ s₂ s₃ : State} {t : Word} {va : Nat} {ps : List MemPart} (hb : (s.core s.cur.core).unitBusy = false)
include hb

/-- A record whose effect makes an unordered request other than a store hands it over behind its core's earlier ones. -/
theorem memFire_leaves {f : Form} {eff : Word → State → Eff} {op : MemOp} {n : Nat} {after : Option Nat} (hop : op.isStore = false)
    (h : Fires f r s t s₁) (he : eff t s₁ = s₁.makeReq r t op true [(va, n)] [] zeroOp none [] after)
    (hc : s₁.coverAll s.cur.core s.cur.node s₁.curAct.stall true [(va, n)] = .ok (ps, none, s₂)) :
    memFire f r s eff = .next (s₂.fresh.2.leaveUnit s.cur.core (s₂.reqOf r t op ps [] zeroOp none [] after)) := by
  have hcur : s₂.cur = s.cur := (State.coverAll_slices hc).cur.trans h.cur
  refine Requests.memFire_asks hb h he hc (State.ringHit_load s₂ _ op ps hop) ?_
  rw [← hcur]
  exact Requests.handsOver_unordered rfl s₂

section
variable {key : Option Nat} (hp : s₁.presenceAt r = .ok (va, key))
  (hc : s₁.coverAll s.cur.core s.cur.node s₁.curAct.stall true [(va, 16)] = .ok (ps, none, s₂))
include hp hc

theorem itake_leaves (h : Fires Forms.itake r s t s₁) :
    exec (.itake r) s = .next (s₂.fresh.2.leaveUnit s.cur.core (s₂.reqOf r t (.presence 0 0) ps [] zeroOp none)) :=
  memFire_leaves hb rfl h (by rw [hp]; rfl) hc

theorem iread_leaves (h : Fires Forms.iread r s t s₁) :
    exec (.iread r) s = .next (s₂.fresh.2.leaveUnit s.cur.core (s₂.reqOf r t (.presence 1 0) ps [] zeroOp none)) :=
  memFire_leaves hb rfl h (by rw [hp]; rfl) hc

theorem iput_leaves (h : Fires Forms.iput r s t s₁) :
    exec (.iput r) s = .next (s₂.fresh.2.leaveUnit s.cur.core
      (s₂.reqOf r t (.presence 2 s.cur.op1.val) ps [] zeroOp none [] (some (s₁.putScope s.cur.core key)))) := by
  exact memFire_leaves hb rfl h (by rw [hp, ← h.cur]; rfl) hc

theorem iclr_leaves (h : Fires Forms.iclr r s t s₁) :
    exec (.iclr r) s = .next (s₂.fresh.2.leaveUnit s.cur.core (s₂.reqOf r t (.presence 3 0) ps [] zeroOp none)) :=
  memFire_leaves hb rfl h (by rw [hp]; rfl) hc
end

/-- An operation code that R393 does not allow (R393). -/
theorem atom_refuses (h : Fires Forms.atom r s t s₁)
    (hop : 7 ≤ bitsOf r.lit.toNat 19 16 ∨ (r.typ = 8 ∧ bitsOf r.lit.toNat 19 16 ∈ [1, 2, 3])) :
    exec (.atom r) s = .next (s.faultCur { cause := .illegalRecord }) :=
  memFire_error hb h (if_pos hop)

theorem atom_leaves (h : Fires Forms.atom r s t s₁) (h7 : bitsOf r.lit.toNat 19 16 < 7)
    (h8 : r.typ = 8 → bitsOf r.lit.toNat 19 16 ∉ [1, 2, 3])
    (hv : s₁.atomAt r (r.lit.toNat % 65536) (elemSize r) = .ok va)
    (hc : s₁.coverAll s.cur.core s.cur.node s₁.curAct.stall true [(va, elemSize r)] = .ok (ps, none, s₂)) :
    exec (.atom r) s = .next (s₂.fresh.2.leaveUnit s.cur.core
      (s₂.reqOf r t (.atom (bitsOf r.lit.toNat 19 16) s.cur.op1.val) ps [] zeroOp none [] (relScope r))) := by
  have hno : ¬(7 ≤ bitsOf r.lit.toNat 19 16 ∨ (r.typ = 8 ∧ bitsOf r.lit.toNat 19 16 ∈ [1, 2, 3])) := by
    rintro (h | ⟨h, h'⟩)
    · omega
    · exact h8 h h'
  refine memFire_leaves hb rfl h ((if_neg hno).trans ?_) hc
  rw [hv, ← h.cur]
  rfl

theorem acas_leaves (h : Fires Forms.acas r s t s₁)
    (hv : s₁.atomAt r (if r.lk.toNat = 1 then r.lit.toNat % 65536 else 0) (if x16Of r then 16 else elemSize r) = .ok va)
    (hc : s₁.coverAll s.cur.core s.cur.node s₁.curAct.stall true [(va, if x16Of r then 16 else elemSize r)] = .ok (ps, none, s₂)) :
    exec (.acas r) s = .next (s₂.fresh.2.leaveUnit s.cur.core
      (s₂.reqOf r t (.cas (x16Of r) s.cur.op1.val s.cur.op2.val) ps [] zeroOp none [] (relScope r))) := by
  refine memFire_leaves hb rfl h ?_ hc
  dsimp only
  rw [hv, ← h.cur]
  rfl
end

/-! ## The value that an atomic writes (R393) -/

/-- An integer minimum is chosen by its bits. -/
theorem atomOp_min {typ old arg : Nat} (h : typ ≠ 8) : asInt typ (atomOp typ 4 old arg).1 = min (asInt typ old) (asInt typ arg) := by
  rw [show atomOp typ 4 old arg = _ from if_neg h, apply_ite (asInt typ), min_def]

theorem atomOp_max {typ old arg : Nat} (h : typ ≠ 8) : asInt typ (atomOp typ 5 old arg).1 = max (asInt typ old) (asInt typ arg) := by
  rw [show atomOp typ 5 old arg = _ from if_neg h, apply_ite (asInt typ), max_comm, max_def]

/-- An operation code from 6 writes its argument. -/
theorem atomOp_swap {typ op old arg : Nat} (h : 6 ≤ op) : atomOp typ op old arg = (arg, 0) := by
  obtain ⟨k, rfl⟩ := Nat.exists_eq_add_of_le' h
  rfl

theorem atomOp_flags {typ op old arg : Nat} (h : typ ≠ 8) : (atomOp typ op old arg).2 = 0 := by
  unfold atomOp
  dsimp only
  split <;> simp [h]

/-! ## An atomic performed (R355, R393, R394) -/

section
variable {s : State} {c : CoreId} {q : MemReq} {p : MemPart} {a : Nat}
  (hp : laneKey ≤ a ∨ s.poisonedRange (if s.direct p a = true then c.dieId else homeDie (a / 192)) a p.len = false)
include hp

/-- The bytes that an atomic finds. -/
def found (s : State) (c : CoreId) (p : MemPart) (a : Nat) : List Byte :=
  if s.direct p a = true then s.keyBytes c a p.len else s.peek (homeDie (a / 192)) a p.len

theorem not_poisoned :
    ¬(decide (a < laneKey) && s.poisonedRange (if s.direct p a = true then c.dieId else homeDie (a / 192)) a p.len) = true := by
  rcases hp with h | h
  · simp [Nat.not_lt.2 h]
  · simp [h]

theorem atomPerform_atom {op : Nat} {arg : Word} (hq : q.op = .atom op arg) :
    let w := typWidth q.typ.toNat / 8
    let old := leNat ((found s c p a).take w)
    let z := atomOp q.typ.toNat op old (arg.toNat % 2 ^ typWidth q.typ.toNat)
    let s₁ := s.atomWrite c q p a (leBytes w z.1)
    s.atomPerform c q p a = (match s₁.actOf? c.dieId q.inTag with
      | some x => s₁.raiseIn x z.2
      | none => s₁).finishReq c q (typedOp q.typ.toNat 0 old) := by
  unfold State.atomPerform
  dsimp only
  rw [if_neg (not_poisoned hp), hq]
  rfl

theorem atomPerform_cas {x16 : Bool} {want new : Word} (hq : q.op = .cas x16 want new) :
    let w := typWidth q.typ.toNat / 8
    let bs := found s c p a
    let old := leNat (bs.take w)
    let hit := decide (old = want.toNat % 2 ^ typWidth q.typ.toNat)
    s.atomPerform c q p a = ((if hit = true then
        s.atomWrite c q p a (leBytes w (new.toNat % 2 ^ typWidth q.typ.toNat) ++
          (if x16 = true then leBytes 8 ((leNat (bs.drop w) + 1) % 2 ^ 64) else []))
      else s).dropReq c q.id).replyBoth (q.who c) (typedOp q.typ.toNat 0 old) (plainOp (BitVec.ofNat 64 (b2n hit))) := by
  unfold State.atomPerform
  dsimp only
  rw [if_neg (not_poisoned hp), hq]
  rfl
end

/-! ## A presence word acted on (R39) -/

/-- A waiter queued leaves its word DEFERRED (R39). -/
theorem queueWaiter_deferred {s s₁ : State} {c : CoreId} {q : MemReq} {take : Bool} {word : Nat} {x y : Presence}
    (h : s.queueWaiter c q take word x = some (y, s₁)) : y.state = 2 := by
  unfold State.queueWaiter at h
  dsimp only at h
  split at h
  case h_1 => cases h
  case h_2 =>
    split at h
    case isTrue => cases h
    case isFalse =>
      split at h
      case h_1 => cases h
      case h_2 =>
        split at h
        case isTrue hx => cases h; exact hx
        case isFalse => cases h; rfl

section
variable {s : State} {c : CoreId} {q : MemReq} {p : MemPart} {a k : Nat} {v : Word}

/-- The value half of the word at an address. -/
def wordAt (s : State) (c : CoreId) (a : Nat) : Word := wordOfBytes ((s.keyBytes c a 16).take 8)

/-- The control half of the word at an address, by its fields. -/
def controlAt (s : State) (c : CoreId) (a : Nat) : Presence := presenceOf (leNat ((s.keyBytes c a 16).drop 8))

/-- A presence word written. -/
def putAt (s : State) (c : CoreId) (q : MemReq) (p : MemPart) (a : Nat) (val : Word) (y : Presence) : State :=
  s.keyWrite c p.nc a (leBytes 8 val.toNat ++ leBytes 8 y.word) (some q.colour)

/-- A presence operation refused (R39). -/
def refused (s : State) (c : CoreId) (q : MemReq) (p : MemPart) (a : Nat) : State :=
  (s.fault c.cluId .firing false c q.node q.inTag
    { cause := .presenceConflict, info := BitVec.ofNat 64 p.va, aux := leNat ((s.keyBytes c a 16).drop 12) }).dropReq c q.id

theorem clear_deferred (h : (controlAt s c a).state = 2) : s.presencePerform c q p a 3 v = refused s c q p a :=
  if_pos h

theorem clear_zeroes (h : (controlAt s c a).state ≠ 2) :
    s.presencePerform c q p a 3 v = (putAt s c q p a 0 ⟨0, 0, 0, 0⟩).finishReq c q (plainOp 0) :=
  if_neg h

theorem broken_refuses (h : (controlAt s c a).state = 3) (hk : k < 3) : s.presencePerform c q p a k v = refused s c q p a :=
  (if_neg (Nat.ne_of_lt hk)).trans (if_pos h)

theorem put_fills (h : (controlAt s c a).state = 0) :
    s.presencePerform c q p a 2 v = (putAt s c q p a v ⟨1, 0, 0, 0⟩).finishReq c q (plainOp 0) :=
  (if_neg (show ¬(controlAt s c a).state = 3 by omega)).trans (if_pos h)

theorem put_refuses (h : (controlAt s c a).state = 1) : s.presencePerform c q p a 2 v = refused s c q p a :=
  (if_neg (show ¬(controlAt s c a).state = 3 by omega)).trans ((if_neg (show ¬(controlAt s c a).state = 0 by omega)).trans (if_pos h))

/-- A put to a DEFERRED word serves its queue, and what remains of it stays (R38, R39). -/
theorem put_serves {pool : Nat} (h : (controlAt s c a).state = 2) (hp : s.poolOf c q = some pool) :
    let y := s.serve c pool a v (controlAt s c a).waiters (controlAt s c a).head
    s.presencePerform c q p a 2 v =
      (if y.2.1 ≠ 0 then putAt y.1 c q p a (wordAt s c a) { controlAt s c a with waiters := y.2.1, head := y.2.2.1 }
        else if y.2.2.2 = true then putAt y.1 c q p a 0 ⟨0, 0, 0, 0⟩ else putAt y.1 c q p a v ⟨1, 0, 0, 0⟩).finishReq c q
        (plainOp 0) := by
  unfold controlAt at h
  unfold State.presencePerform
  dsimp only
  rw [if_neg (by decide), if_neg (by omega), if_pos rfl, if_neg (by omega), if_neg (by omega), hp]
  rfl

/-- A take or a read of a FULL word (R39). -/
theorem get_full (h : (controlAt s c a).state = 1) (hk : k ≤ 1) :
    s.presencePerform c q p a k v = ((if k = 0 then putAt s c q p a 0 ⟨0, 0, 0, 0⟩ else s).dropReq c q.id).returnFrom c q.node
      q.dstA q.tag ⟨wordAt s c a, mkKind 0 (classOf q.typ.toNat) 0⟩ := by
  unfold controlAt at h
  unfold State.presencePerform
  dsimp only
  rw [if_neg (by omega), if_neg (by omega), if_neg (by omega), if_pos h]
  rfl

/-- A take or a read of an EMPTY or DEFERRED word waits in its queue (R38, R39). -/
theorem get_waits (h : (controlAt s c a).state = 0 ∨ (controlAt s c a).state = 2) (hk : k ≤ 1) :
    s.presencePerform c q p a k v = match s.queueWaiter c q (decide (k = 0)) a (controlAt s c a) with
      | none => refused s c q p a
      | some (y, s₁) => (putAt s₁ c q p a (wordAt s c a) y).dropReq c q.id := by
  unfold controlAt at h
  unfold State.presencePerform
  dsimp only
  rw [if_neg (by omega), if_neg (by omega), if_neg (by omega), if_neg (by omega)]
  rfl
end

/-- Settles O40: the requests record by record, and what is done to the word by what it holds. -/
theorem wordOperations : Obligations.WordOperations := by
  unfold Obligations.WordOperations
  refine ⟨fun r s s₁ s₂ t va ps hb => ⟨fun key hp hc => ⟨itake_leaves hb hp hc, iread_leaves hb hp hc, iput_leaves hb hp hc,
      iclr_leaves hb hp hc⟩, fun h => ⟨atom_refuses hb h, atom_leaves hb h⟩, fun h x16 n hx hn hv hc => ?acas⟩,
    fun typ op old arg => ⟨fun ht _ _ => ⟨atomOp_flags (by omega), ?add, ?and, ?or, ?xor, ?min, ?max, ?swap⟩,
      fun ht => ⟨?fadd, ?fmin, ?fmax, atomOp_swap⟩⟩,
    fun s c q p a => ?performed, fun s c q p a k v => ⟨?clear, broken_refuses, ?put, ?get⟩⟩
  case acas => subst hx hn; exact acas_leaves hb h hv hc
  case add => rintro rfl; exact congrArg Prod.fst (if_neg (by omega))
  case and => rintro rfl; rfl
  case or => rintro rfl; rfl
  case xor => rintro rfl; rfl
  case min => rintro rfl; exact atomOp_min (by omega)
  case max => rintro rfl; exact atomOp_max (by omega)
  case swap => exact fun h => congrArg Prod.fst (atomOp_swap h)
  case fadd => rintro rfl; exact if_pos ht
  case fmin => rintro rfl; exact if_pos ht
  case fmax => rintro rfl; exact if_pos ht
  case performed =>
    intro w at_ bs old o hp
    refine ⟨fun op arg hq => ⟨fun x hx => ?_, fun hx => ?_⟩, fun x16 want new hq => ⟨fun hm => ?_, fun hm => ?_⟩⟩
    · exact (atomPerform_atom hp hq).trans (by erw [hx]; rfl)
    · exact (atomPerform_atom hp hq).trans (by erw [hx]; rfl)
    · exact (atomPerform_cas hp hq).trans (by erw [decide_eq_false hm]; rfl)
    · exact (atomPerform_cas hp hq).trans (by erw [decide_eq_true hm]; rfl)
  case clear => rintro rfl; exact ⟨clear_deferred, clear_zeroes⟩
  case put =>
    rintro rfl
    refine ⟨put_fills, put_refuses, fun pool hx hp => ⟨fun h => ?_, fun h ht => ?_, fun h ht => ?_⟩⟩
    all_goals refine (put_serves hx hp).trans (congrArg (fun z : State => z.finishReq c q (plainOp 0)) ?_)
    · exact if_pos h
    · exact (if_neg (not_not.2 h)).trans (if_pos ht)
    · exact (if_neg (not_not.2 h)).trans (if_neg (Bool.eq_false_iff.1 ht))
  case get =>
    refine fun hk => ⟨fun hx h0 => (get_full hx hk).trans (by rw [if_pos h0]; rfl),
      fun hx h1 => (get_full hx hk).trans (by rw [if_neg (by omega)]; rfl), fun hx => ⟨fun h => ?_, fun y s₁ h => ?_⟩⟩
    · exact (get_waits hx hk).trans (by erw [h]; rfl)
    · exact ⟨queueWaiter_deferred h, (get_waits hx hk).trans (by erw [h]; rfl)⟩

end Sys2Proof.Proofs.Words
end
section
/-! CURTAIN, CTXSV and CTXLD, and the events of a curtain (R196, R406 to R414). -/

namespace Sys2Proof.Proofs.Curtains

open Sys2Proof Sys2Proof.Machine Sys2Proof.Proofs.System

/-! ## The records -/

section
variable {r : Rec} {s s₁ : State} {t : Word} (ha : s.AllScalar r)
include ha

/-- The colour that a record of the curtain names. -/
def named (s : State) : BitVec 9 := BitVec.ofNat 9 s.cur.op0.val.toNat

/-- A status sent. -/
def status (r : Rec) (t : Word) (s : State) (n : Nat) : State := s.out r t (plainOp (BitVec.ofNat 64 n))

/-! ### CURTAIN (R406, R407) -/

section
variable (h : Fires Forms.curtain r s t s₁)
include h

theorem curtain_no_owner (ho : s₁.owner? s.cur.core.dieId (named s) = none) :
    exec (.curtain r) s = .next (status r t s₁ (if s₁.restoring s.cur.core (named s) = true then 3 else 2)) := by
  unfold named at ho ⊢
  rw [← h.cur] at ho ⊢
  refine fire_scalars_ok h ha ?_
  simp only [ho]
  split <;> rfl

section
variable {a : Nat} (ho : s₁.owner? s.cur.core.dieId (named s) = some a)
include ho

/-- The region of a child is not curtained. -/
theorem curtain_child (hp : (s₁.act a).parent ≠ none) : exec (.curtain r) s = .next (s.faultCur { cause := .permission }) := by
  unfold named at ho
  rw [← h.cur] at ho
  refine fire_scalars_error h ha ?_
  simp only [ho]
  exact if_pos (Option.isSome_iff_ne_none.2 hp)

variable (hp : (s₁.act a).parent = none)
include hp

theorem curtain_bad_area {f : Flt} (hf : s₁.curtainArea a s.cur.op1.val = .error f) :
    exec (.curtain r) s = .next (s.faultCur f) := by
  unfold named at ho
  rw [← h.cur] at ho hf
  refine fire_scalars_error h ha ?_
  simp only [ho, hp, hf, bind, Except.bind]
  rfl

variable {area : Nat} (hf : s₁.curtainArea a s.cur.op1.val = .ok area)
include hf

theorem curtain_not_live (hl : (s₁.act a).life ≠ .live) : exec (.curtain r) s = .next (status r t s₁ 2) := by
  unfold named at ho
  rw [← h.cur] at ho hf
  refine fire_scalars_ok h ha ?_
  simp only [ho, hp, hf, bind, Except.bind]
  exact if_pos hl

theorem curtain_busy (hl : (s₁.act a).life = .live) (hc : s₁.curtainOf a ≠ none) :
    exec (.curtain r) s = .next (status r t s₁ 3) := by
  unfold named at ho
  rw [← h.cur] at ho hf
  refine fire_scalars_ok h ha ?_
  simp only [ho, hp, hf, bind, Except.bind]
  exact (if_neg (not_not.2 hl)).trans (if_pos (Option.isSome_iff_ne_none.2 hc))

/-- The state once a region is closed: its curtain stands, its activations keep their releases, and its clearing is ordered. -/
def closed (r : Rec) (s : State) (t : Word) (a area : Nat) : State :=
  let s₂ := s.fresh.2.modPkg s.cur.core.pkg fun p =>
    { p with curtains := p.curtains ++ [⟨s.uid, a, s.cur.core, s.asker r t, area, false, false, false, false, false⟩] }
  ((s₂.family a).foldl (fun s m => (s.modAct m fun x => { x with curtain := true }).keepReleases m) s₂).laterAt .curtainClear
    s.cur.core s.uid

theorem curtain_closes (hl : (s₁.act a).life = .live) (hc : s₁.curtainOf a = none) :
    let s₃ := closed r s₁ t a area
    let limit := s₃.areaField area 24 4
    exec (.curtain r) s = .next (if area = 0 then s₃
      else s₃.at_ (s₃.now + 1000 * (if limit = 0 then 200 else limit)) .fullSave ⟨s₁.cur.core, s₁.uid, 0, false⟩) := by
  unfold named at ho
  rw [← h.cur] at ho hf
  refine fire_scalars_ok h ha ?_
  simp only [ho, hp, hf, hl, hc, bind, Except.bind]
  rfl
end
end

/-! ### CTXSV (R410) -/

section
variable (h : Fires Forms.ctxsv r s t s₁)
include h

theorem ctxsv_no_owner (ho : s₁.owner? s.cur.core.dieId (named s) = none) :
    exec (.ctxsv r) s = .next (status r t s₁ (if s₁.restoring s.cur.core (named s) = true then 3 else 2)) := by
  unfold named at ho ⊢
  rw [← h.cur] at ho ⊢
  refine fire_scalars_ok h ha ?_
  simp only [ho]
  split <;> rfl

variable {a : Nat} (ho : s₁.owner? s.cur.core.dieId (named s) = some a)
include ho

theorem ctxsv_bad_area {f : Flt} (hf : s₁.areaAt s.cur.op1.val = .error f) : exec (.ctxsv r) s = .next (s.faultCur f) := by
  unfold named at ho
  rw [← h.cur] at ho hf
  refine fire_scalars_error h ha ?_
  simp only [ho, hf, bind, Except.bind]

variable {area : Nat} (hf : s₁.areaAt s.cur.op1.val = .ok area)
include hf

theorem ctxsv_no_curtain (hc : s₁.curtainOf a = none) : exec (.ctxsv r) s = .next (status r t s₁ 2) := by
  unfold named at ho
  rw [← h.cur] at ho hf
  refine fire_scalars_ok h ha ?_
  simp only [ho, hf, hc, bind, Except.bind]
  rfl

variable {x : Curtain} (hc : s₁.curtainOf a = some x)
include hc

theorem ctxsv_busy (hx : x.held = false) : exec (.ctxsv r) s = .next (status r t s₁ 3) := by
  unfold named at ho
  rw [← h.cur] at ho hf
  refine fire_scalars_ok h ha ?_
  simp only [ho, hf, hc, hx, bind, Except.bind]
  rfl

theorem ctxsv_saves (hx : x.held = true) :
    exec (.ctxsv r) s = .next ((s₁.modCurtain x.core.pkg x.id fun y =>
      { y with who := s₁.asker r t, area := area, held := false, saving := true, ctxsv := true }).laterAt .saveWhole x.core x.id) := by
  unfold named at ho
  rw [← h.cur] at ho hf
  refine fire_scalars_ok h ha ?_
  simp only [ho, hf, hc, hx, bind, Except.bind]
  rfl
end

/-! ### CTXLD (R414) -/

section
variable (h : Fires Forms.ctxld r s t s₁)
include h

section
variable (h1 : s.cur.op1.val = 0)
include h1

theorem ctxld_no_curtain (hc : (s₁.owner? s.cur.core.dieId (named s)).bind s₁.curtainOf = none) :
    exec (.ctxld r) s = .next (status r t s₁ 2) := by
  unfold named at hc
  rw [← h.cur] at hc h1
  refine fire_scalars_ok h ha ?_
  simp only [h1, hc]
  rfl

theorem ctxld_resumes {x : Curtain} (hc : (s₁.owner? s.cur.core.dieId (named s)).bind s₁.curtainOf = some x) :
    exec (.ctxld r) s = .next (if x.held = true then status r t ((s₁.dropCurtain x.core.pkg x.id).reopen (s₁.family x.root)) 0
      else status r t s₁ 3) := by
  unfold named at hc
  rw [← h.cur] at hc h1
  refine fire_scalars_ok h ha ?_
  simp only [h1, hc]
  cases x.held <;> rfl
end

variable (h1 : s.cur.op1.val ≠ 0)
include h1

theorem ctxld_no_save (hv : s₁.saveAt s.cur.op1.val = none) : exec (.ctxld r) s = .next (status r t s₁ 4) := by
  rw [← h.cur] at hv h1
  refine fire_scalars_ok h ha ((if_neg h1).trans ?_)
  rw [hv]
  rfl

variable {v : Saved} (hv : s₁.saveAt s.cur.op1.val = some v)
include hv

theorem ctxld_busy (hb : s₁.restoring s.cur.core (named s) = true) : exec (.ctxld r) s = .next (status r t s₁ 3) := by
  unfold named at hb
  rw [← h.cur] at hv h1 hb
  refine fire_scalars_ok h ha ((if_neg h1).trans ?_)
  rw [hv]
  exact if_pos hb

variable (hb : s₁.restoring s.cur.core (named s) = false)
include hb

theorem ctxld_full (hfull : s₁.owner? s.cur.core.dieId (named s) ≠ none ∨ s₁.unfillable v = true) :
    exec (.ctxld r) s = .next (s.faultCur { cause := .colourExhausted }) := by
  unfold named at hb hfull
  rw [← h.cur] at hv h1 hb hfull
  refine fire_scalars_error h ha ((if_neg h1).trans ?_)
  rw [hv]
  exact (if_neg (Bool.eq_false_iff.1 hb)).trans (if_pos (hfull.imp Option.isSome_iff_ne_none.2 id))

variable (hroom : ¬(s₁.owner? s.cur.core.dieId (named s) ≠ none ∨ s₁.unfillable v = true))
include hroom

theorem ctxld_empty (hx : v.acts = []) : exec (.ctxld r) s = .next (status r t s₁ 4) := by
  unfold named at hb hroom
  rw [← h.cur] at hv h1 hb hroom
  refine fire_scalars_ok h ha ((if_neg h1).trans ?_)
  rw [hv]
  refine (if_neg (Bool.eq_false_iff.1 hb)).trans ((if_neg fun k => hroom (k.imp Option.isSome_iff_ne_none.1 id)).trans ?_)
  rw [hx]
  rfl

/-- The launch that stands for a save that is to be restored. -/
def relaunch (r : Rec) (s : State) (t : Word) (x : Act) : Launch :=
  { id := 0, words := x.start, sender := ⟨.host, s.cur.core, 0, 0⟩, num := 0, since := none, ready := false, blocking := false
    replay := x.replay, reissues := x.reissues, windows := x.windows, place := x.place, of_ := none
    restore := some (s.cur.op1.val.toNat, (named s, s.asker r t)) }

theorem ctxld_restores {x : Nat × Act} {xs : List (Nat × Act)} (hx : v.acts = x :: xs) :
    ∃ y : Launch, y.restore = some (s.cur.op1.val.toNat, (named s, s₁.asker r t)) ∧ y.place = x.2.place ∧
      y.words = x.2.start ∧ exec (.ctxld r) s = .next (s₁.hold s.cur.core y) := by
  unfold named at hb hroom ⊢
  rw [← h.cur] at hv h1 hb hroom ⊢
  refine ⟨relaunch r s₁ t x.2, rfl, rfl, rfl, fire_scalars_ok h ha ((if_neg h1).trans ?_)⟩
  rw [hv]
  refine (if_neg (Bool.eq_false_iff.1 hb)).trans ((if_neg fun k => hroom (k.imp Option.isSome_iff_ne_none.1 id)).trans ?_)
  rw [hx]
  rfl
end
end

/-! ## The events (R408 to R411) -/

section
variable {s : State} {x : Curtain} (h : s.curtain? s.site.core.pkg s.site.n = some x)
include h

/-! ### CURTAIN_CLEAR -/

/-- A curtain that is held, saved, or stopped for its full save does not clear. -/
theorem curtainClear_over (hx : x.held ∨ x.full ∨ x.saving) : exec .curtainClear s = .next s := by
  rw [show exec .curtainClear s = execCurtainClear s from rfl, execCurtainClear]
  simp only [h]
  rw [if_pos hx]

section
variable (hx : ¬(x.held ∨ x.full ∨ x.saving))
include hx

theorem curtainClear_waits (hr : s.regionRests x.root .drained = false) :
    exec .curtainClear s = .next (s.laterAt .curtainClear s.site.core s.site.n) := by
  rw [show exec .curtainClear s = execCurtainClear s from rfl, execCurtainClear]
  simp only [h]
  rw [if_neg hx, hr]
  rfl

theorem curtainClear_clears (hr : s.regionRests x.root .drained = true) :
    exec .curtainClear s = .next (if x.area = 0 then
        ((s.holdRegion x.root).modCurtain s.site.core.pkg s.site.n fun y => { y with clear := true, held := true }).replyBoth x.who
          (plainOp 0) (plainOp 0)
      else ((s.holdRegion x.root).modCurtain s.site.core.pkg s.site.n fun y => { y with clear := true, saving := true }).laterAt
        .saveWhole s.site.core s.site.n) := by
  rw [show exec .curtainClear s = execCurtainClear s from rfl, execCurtainClear]
  simp only [h]
  rw [if_neg hx, hr]
  rfl
end

/-! ### FULL_SAVE -/

theorem fullSave_over (hx : x.held ∨ x.saving) : exec .fullSave s = .next s := by
  rw [show exec .fullSave s = execFullSave s from rfl, execFullSave]
  simp only [h]
  rw [if_pos hx]

/-- The region's firings stopped: it is held, what of it was ready or held on a path is put back, and its stalled copies end (R410). -/
def stopped (s : State) (x : Curtain) : State :=
  let s₁ := (s.modCurtain s.site.core.pkg s.site.n fun y => { y with full := true }).holdRegion x.root
  let s₂ := (s₁.backlogRegion x.root).takeHolds x.root
  (s₂.family x.root).foldl (fun s a => (s.act a).map.foldl (fun s p => s.endStalled a p.1) s) s₂

/-- A full save stops the region once, and saves it in the first cycle in which it rests. -/
theorem fullSave_saves (hx : ¬(x.held ∨ x.saving)) :
    let s₁ := if x.full then s else stopped s x
    exec .fullSave s = .next (if s₁.regionRests x.root .frozen then
        (s₁.modCurtain s.site.core.pkg s.site.n fun y => { y with saving := true }).laterAt .saveWhole s.site.core s.site.n
      else s₁.laterAt .fullSave s.site.core s.site.n) := by
  rw [show exec .fullSave s = execFullSave s from rfl, execFullSave]
  simp only [h]
  rw [if_neg hx]
  rfl

/-! ### SAVE_WHOLE -/

/-- The save is made once; then the region's writes are written back; then it ends (R410, R411). -/
theorem saveWhole_goes (hx : x.saving = true) :
    exec .saveWhole s = .next (if s.site.flag = false then s.makeSave x
      else if (s.family x.root).any fun a => s.unwritten a then
        ((s.family x.root).foldl (fun s a => s.writeBackOf a) s).laterAt .saveWhole s.site.core s.site.n 0 true
      else s.endSave x) := by
  rw [show exec .saveWhole s = execSaveWhole s from rfl, execSaveWhole]
  simp only [h, hx]
  rw [if_neg (by decide)]
  by_cases hf : s.site.flag = false
  · rw [if_pos hf, if_pos (by rw [hf]; rfl)]
  · rw [if_neg hf, if_neg (by simpa using hf)]
end

/-- Settles O53: the three records by what they find, and the three events by how far the curtain is. -/
theorem curtainRuns : Obligations.CurtainRuns := by
  unfold Obligations.CurtainRuns
  refine ⟨fun r s s₁ t ha => ⟨fun h => ⟨fun ho => ?curtainNone, fun a ho => ⟨curtain_child ha h ho, fun f hp hf =>
        curtain_bad_area ha h ho hp hf, fun area hp hf => ⟨curtain_not_live ha h ho hp hf, curtain_busy ha h ho hp hf,
          fun hl hc => ?closes⟩⟩⟩,
      fun h => ⟨fun ho => ?ctxsvNone, fun a ho => ⟨fun f => ctxsv_bad_area ha h ho, fun area hf => ⟨ctxsv_no_curtain ha h ho hf,
        fun x hc => ⟨ctxsv_busy ha h ho hf hc, ctxsv_saves ha h ho hf hc⟩⟩⟩⟩,
      fun h => ⟨fun h1 => ⟨ctxld_no_curtain ha h h1, fun x hc => ?resumes⟩,
        fun h1 => ⟨ctxld_no_save ha h h1, fun v hv => ⟨ctxld_busy ha h h1 hv, ctxld_full ha h h1 hv,
          fun hb hroom => ⟨ctxld_empty ha h h1 hv hb hroom, fun x xs => ctxld_restores ha h h1 hv hb hroom⟩⟩⟩⟩⟩,
    fun s x h hheld => ⟨fun hfull hsaving => ?clears, fun hsaving hfull => ?stops, fun hsaving hfull => ?stopped,
      fun hsaving => ⟨curtainClear_over h (.inr (.inr hsaving)), fullSave_over h (.inr hsaving), ?save⟩⟩⟩
  case curtainNone => exact ⟨fun hr => (curtain_no_owner ha h ho).trans (by erw [hr]; rfl),
    fun hr => (curtain_no_owner ha h ho).trans (by erw [hr]; rfl)⟩
  case closes =>
    rw [← h.cur]
    exact ⟨fun h0 => (curtain_closes ha h ho hp hf hl hc).trans (congrArg _ (if_pos h0)),
      fun h0 => (curtain_closes ha h ho hp hf hl hc).trans (congrArg _ (if_neg h0))⟩
  case ctxsvNone => exact ⟨fun hr => (ctxsv_no_owner ha h ho).trans (by erw [hr]; rfl),
    fun hr => (ctxsv_no_owner ha h ho).trans (by erw [hr]; rfl)⟩
  case resumes => exact ⟨fun hx => (ctxld_resumes ha h h1 hc).trans (by rw [hx]; rfl),
    fun hx => (ctxld_resumes ha h h1 hc).trans (by rw [hx]; rfl)⟩
  case clears =>
    have hx : ¬(x.held ∨ x.full ∨ x.saving) := by simp [hheld, hfull, hsaving]
    exact ⟨curtainClear_waits h hx, fun hr => ⟨fun h0 => (curtainClear_clears h hx hr).trans (congrArg _ (if_pos h0)),
      fun h0 => (curtainClear_clears h hx hr).trans (congrArg _ (if_neg h0))⟩⟩
  case stops =>
    have hs := fullSave_saves h (by simp [hheld, hsaving])
    simp only [hfull, Bool.false_eq_true, if_false] at hs
    exact ⟨fun hr => hs.trans (congrArg _ (if_pos hr)), fun hr => hs.trans (congrArg _ (if_neg (Bool.eq_false_iff.1 hr)))⟩
  case stopped =>
    have hs := fullSave_saves h (by simp [hheld, hsaving])
    simp only [hfull, if_true] at hs
    exact ⟨curtainClear_over h (.inr (.inl hfull)), fun hr => hs.trans (congrArg _ (if_pos hr)),
      fun hr => hs.trans (congrArg _ (if_neg (Bool.eq_false_iff.1 hr)))⟩
  case save =>
    have hs := saveWhole_goes h hsaving
    refine ⟨fun hf => hs.trans (congrArg _ (if_pos hf)), fun hf => ?_⟩
    rw [if_neg (by simp [hf])] at hs
    refine ⟨fun hu => hs.trans (congrArg _ (if_pos ?_)), fun hu => hs.trans (congrArg _ (if_neg ?_))⟩
    · simpa using hu
    · simpa using hu

end Sys2Proof.Proofs.Curtains
end
section
/-! Tokens: how they arrive, meet their entries and complete, the probes of the wings, and tokens that cross to another die (R27, R128,
R133, R136 to R143, R147, R377 to R379, R434). -/

namespace Sys2Proof.Proofs.Tokens

open Sys2Proof Sys2Proof.Machine

/-! ## Paths that are held (R138, R140, R146) -/

/-- A path is held for all tokens but the one that waits on it. -/
theorem pathHeld_iff {k : Core} {p : Path} {t : Token} :
    k.pathHeld p t = true ↔ k.pathHold p ≠ [] ∨ ∃ x : Token, Assoc.get? k.waiting p = some x ∧ x ≠ t := by
  unfold Core.pathHeld
  cases Assoc.get? k.waiting p <;> simp

theorem get?_filter_ne {κ α : Type} [DecidableEq κ] (m : List (κ × α)) (k : κ) :
    Assoc.get? (m.filter fun x => decide (x.1 ≠ k)) k = none := by
  induction m with
  | nil => rfl
  | cons x m ih =>
    by_cases hx : x.1 = k
    · rw [List.filter_cons_of_neg (by simpa using hx)]
      exact ih
    · rw [List.filter_cons_of_pos (by simpa using hx), Assoc.get?, if_neg hx]
      exact ih

/-- A hold that ends leaves its path, and its cycles are counted up to the top. -/
theorem holdEnd_counts {s : State} {c : CoreId} {p : Path} {n : Nat} (h : Assoc.get? (s.core c).holdAt p = some n) :
    ((s.holdEnd c p).core c).hold.toNat = min ((s.core c).hold.toNat + (s.coreCycles c - n)) 0xFFFFFFFF ∧
      Assoc.get? ((s.holdEnd c p).core c).holdAt p = none := by
  unfold State.holdEnd
  rw [h]
  dsimp only
  rw [State.core_modCore_same]
  refine ⟨?_, get?_filter_ne ..⟩
  unfold satAdd32
  rw [BitVec.toNat_ofNat]
  exact Nat.mod_eq_of_lt (by omega)

/-! ## The cycle of a path (R128, R141, R142) -/

theorem newCycle_refills {s : State} {c : CoreId} {p : Path} (h : ∃ x ∈ (s.core c).comps, x.1 = p) : s.newCycle c p = s.refill c :=
  if_pos (by simpa using h)

theorem newCycle_same {s : State} {c : CoreId} {p : Path} (h : ∀ x ∈ (s.core c).comps, x.1 ≠ p) : s.newCycle c p = s :=
  if_neg (by simpa using fun y hy => h (p, y) hy rfl)

/-! ## TOKEN_ARRIVAL (R128, R434) -/

section
variable {s : State} {c : CoreId} {p : Path} {t : Token}

/-- A token of a purged activation is discarded, and its wait on the path ends (R416). -/
theorem tokenArrival_dying (h : s.dying c.dieId t.tag = true) :
    exec (.tokenArrival c p t) s = .next (if Assoc.get? (s.core c).waiting p = some t then s.holdEnd c p else s) := by
  rw [show exec (.tokenArrival c p t) s = execTokenArrival c p t s from rfl, execTokenArrival, if_pos h]

variable (h : s.dying c.dieId t.tag = false)
include h

theorem tokenArrival_stopped (hr : s.coreRuns c = false) :
    exec (.tokenArrival c p t) s = .next (s.later (.tokenArrival c p t)) := by
  rw [show exec (.tokenArrival c p t) s = execTokenArrival c p t s from rfl, execTokenArrival, if_neg (Bool.eq_false_iff.1 h), hr]
  rfl

/-- The state when a token is accepted: a decision to power the router down is abandoned for it, and its path's cycle begins. -/
def accepting (s : State) (c : CoreId) (p : Path) : State :=
  (if p = .network ∧ (s.core c).routerDeciding = true then
    (s.setCore c { s.core c with routerDeciding := false }).modIsland c.pkg (c.die * 8 + c.clu) fun x =>
      { x with abandon := satAdd x.abandon 1 }
  else s).newCycle c p

omit h in
theorem accepting_eq (s : State) (c : CoreId) (p : Path) :
    accepting s c p = (if p = .network ∧ (s.core c).routerDeciding = true then s.wakeRouter c else s).newCycle c p := by
  unfold accepting
  split
  case isTrue hd =>
    rw [State.wakeRouter, if_pos hd.2]
    rfl
  case isFalse => rfl

variable (hr : s.coreRuns c = true)
include hr

theorem tokenArrival_asleep (ha : p = .network ∧ (s.core c).routerDeciding = false ∧ (s.core c).router = .drowsy) :
    exec (.tokenArrival c p t) s = .next ((s.laterAt .routerWake c 0).later (.tokenArrival c p t)) := by
  rw [show exec (.tokenArrival c p t) s = execTokenArrival c p t s from rfl, execTokenArrival, if_neg (Bool.eq_false_iff.1 h),
    if_neg (by simp [hr]), if_pos (by simpa using ha)]

variable (ha : ¬(p = .network ∧ (s.core c).routerDeciding = false ∧ (s.core c).router = .drowsy))
include ha

/-- A token that its core's clock and router let in waits for its path and for its core, else it arrives. -/
theorem tokenArrival_accepted :
    let s₁ := accepting s c p
    exec (.tokenArrival c p t) s = .next (if (s₁.core c).pathHeld p t = true then s₁.later (.tokenArrival c p t)
      else if (s₁.core c).power = .drowsy then (s₁.laterAt .coreWake c 0).later (.tokenArrival c p t)
      else ((s₁.holdEnd c p).deliverImage c t).arrive c p t false) := by
  have hasleep : ¬(p = .network ∧ (!(s.core c).routerDeciding) = true ∧ (s.core c).router = .drowsy) := by simpa using ha
  have hrun : ¬(!s.coreRuns c) = true := by simp [hr]
  rw [accepting_eq, show exec (.tokenArrival c p t) s = execTokenArrival c p t s from rfl, execTokenArrival,
    if_neg (Bool.eq_false_iff.1 h), if_neg hrun, if_neg hasleep]
end

/-! ## CHAIN_LINK (R147) -/

section
variable {s : State} {c : CoreId} {t : Token} {n : Nat}

theorem chainLink_dying (h : s.dying c.dieId t.tag = true) :
    exec (.chainLink c t n) s = .next (if Assoc.get? (s.core c).waiting .own = some t then s.holdEnd c .own else s) := by
  rw [show exec (.chainLink c t n) s = execChainLink c t n s from rfl, execChainLink, if_pos h]

variable (h : s.dying c.dieId t.tag = false)
include h

theorem chainLink_stopped (hr : s.coreRuns c = false) : exec (.chainLink c t n) s = .next (s.later (.chainLink c t n)) := by
  rw [show exec (.chainLink c t n) s = execChainLink c t n s from rfl, execChainLink, if_neg (Bool.eq_false_iff.1 h), hr]
  rfl

/-- A chained token's record of one input, which may issue next. -/
def IssuesNext (s : State) (c : CoreId) (t : Token) : Prop :=
  decodeWord (s.recordAt c t.node) ≠ none ∧ (recOfWord (s.recordAt c t.node)).ari = 1 ∧ (t.port = 3 ∨ t.port = 0) ∧
    kindForm t.opnd.kind ≠ 3 ∧ (opcOfWord (s.recordAt c t.node)).toNat ≠ 0x11 ∧ (opcOfWord (s.recordAt c t.node)).toNat ≠ 0x14 ∧
    s.barred c t.tag = false

omit h in
theorem issuesNext_iff : IssuesNext s c t ↔ ((decodeWord (s.recordAt c t.node)).isSome ∧ (recOfWord (s.recordAt c t.node)).ari.toNat = 1 ∧
    (t.port = 3 ∨ t.port = 0) ∧ kindForm t.opnd.kind ≠ 3 ∧ (opcOfWord (s.recordAt c t.node)).toNat ≠ 0x11 ∧
    (opcOfWord (s.recordAt c t.node)).toNat ≠ 0x14 ∧ !s.barred c t.tag) := by
  unfold IssuesNext
  rw [Option.isSome_iff_ne_none, ← BitVec.toNat_inj, Bool.not_eq_true']
  rfl

variable (hr : s.coreRuns c = true)
include hr

theorem chainLink_issues (hn : IssuesNext s c t) :
    exec (.chainLink c t n) s = .next (let s₁ := s.modCore c fun k =>
        { k with ready := { mkFiring c t.node t.tag (if t.port = 3 then zeroOp else t.opnd) zeroOp zeroOp with link := n } :: k.ready }
      { s₁ with agenda := .issue c :: s₁.agenda }) := by
  rw [show exec (.chainLink c t n) s = execChainLink c t n s from rfl, execChainLink, if_neg (Bool.eq_false_iff.1 h),
    if_neg (by simp [hr]), if_pos (issuesNext_iff.1 hn)]
  rfl

/-- Any other meets its partners on the local path, once that is free. -/
theorem chainLink_arrives (hn : ¬IssuesNext s c t) :
    let s₂ := s.newCycle c .own
    exec (.chainLink c t n) s = .next (if (s₂.core c).pathHeld .own t = true then s₂.later (.chainLink c t n)
      else (s₂.holdEnd c .own).arrive c .own t true) := by
  rw [show exec (.chainLink c t n) s = execChainLink c t n s from rfl, execChainLink, if_neg (Bool.eq_false_iff.1 h),
    if_neg (by simp [hr]), if_neg (fun k => hn (issuesNext_iff.2 k))]
end

/-! ## LINK_TOKEN_CROSSING (R27, R377 to R379) -/

section
variable {s : State} {src c : CoreId} {node : Nat} {t : Token}

/-- The colour of a token's activation on the die that it crosses to. -/
def colourThere (s : State) (src c : CoreId) (t : Token) : Option (BitVec 9) :=
  (s.actOf? src.dieId t.tag).bind fun a => if c.dieId = src.dieId then none else s.colourOn a c.dieId

/-- A token left under a map generation that is older than its destination's. -/
def stale (s : State) (c : CoreId) : Bool := s.site.flag && olderGen (BitVec.ofNat 16 s.site.n) (s.pkg c.pkg).podgen

theorem crossing_stale (h : stale s c = true) : ∃ info : Word, exec (.linkTokenCrossing src node c t) s =
    .next (s.fault src.cluId .engine false src node t.tag { cause := .mapMoved, info := info }) :=
  ⟨_, congrArg Host.Outcome.next (if_pos (by simpa [stale] using h))⟩

variable (h : stale s c = false)
include h

theorem crossing_waits (hr : s.routed src.pkg c.pkg = false) : exec (.linkTokenCrossing src node c t) s =
    .next { s with agenda := s.agenda ++ [.event (.linkTokenCrossing src node c t) s.site] } := by
  rw [show exec (.linkTokenCrossing src node c t) s = execLinkTokenCrossing src node c t s from rfl, execLinkTokenCrossing,
    if_neg (by simpa [stale] using h), hr]
  rfl

variable (hr : s.routed src.pkg c.pkg = true)
include hr

/-- A token whose way is open goes on under its colour there, or is discarded. -/
theorem crossing_goes {o : Option (BitVec 9)} (hc : colourThere s src c t = o) : exec (.linkTokenCrossing src node c t) s =
    .next (o.elim (s.fault src.cluId .engine false src node t.tag
        { cause := .translation, info := BitVec.ofNat 64 (putBits 1 22 + putBits t.node 2 + t.port), detail := 0xFFF }) fun x =>
      (if s.site.flag = true then none else s.genTo src.pkg c.pkg).elim
        (s.later (.tokenArrival c .network { t with tag := mkTag x (depthOf t.tag) (stackOf t.tag) })) fun g =>
          s.laterAt (.linkTokenCrossing src node c t) src g.toNat 0 true) := by
  rw [show exec (.linkTokenCrossing src node c t) s = execLinkTokenCrossing src node c t s from rfl, execLinkTokenCrossing,
    if_neg (by simpa [stale] using h), hr]
  subst hc
  unfold colourThere
  cases s.actOf? src.dieId t.tag with
  | none => rfl
  | some a =>
    rw [Option.bind_some]
    dsimp only
    cases (if c.dieId = src.dieId then none else s.colourOn a c.dieId) with
    | none => rfl
    | some x => cases (if s.site.flag = true then none else s.genTo src.pkg c.pkg) <;> rfl

theorem crossing_discards (hc : colourThere s src c t = none) : ∃ info : Word, exec (.linkTokenCrossing src node c t) s =
    .next (s.fault src.cluId .engine false src node t.tag { cause := .translation, info := info, detail := 0xFFF }) :=
  ⟨_, crossing_goes h hr hc⟩

variable {x : BitVec 9} (hc : colourThere s src c t = some x)
include hc

/-- Between packages of one domain a token leaves under its sender's generation. -/
theorem crossing_sends (hs : (!s.site.flag && decide (src.pkg ≠ c.pkg) && s.joined src.pkg c.pkg) = true) :
    exec (.linkTokenCrossing src node c t) s = .next { s with agenda :=
      s.agenda ++ [.event (.linkTokenCrossing src node c t) ⟨src, (s.pkg src.pkg).podgen.toNat, 0, true⟩] } := by
  simp only [Bool.and_eq_true, Bool.not_eq_true'] at hs
  obtain ⟨⟨hflag, hpkg⟩, hjoined⟩ := hs
  have hg : s.genTo src.pkg c.pkg = some (s.pkg src.pkg).podgen := if_pos (by rw [hpkg, hjoined]; rfl)
  rw [crossing_goes h hr hc, hflag, hg]
  rfl

theorem crossing_arrives (hs : (!s.site.flag && decide (src.pkg ≠ c.pkg) && s.joined src.pkg c.pkg) = false) :
    exec (.linkTokenCrossing src node c t) s =
      .next (s.later (.tokenArrival c .network { t with tag := mkTag x (depthOf t.tag) (stackOf t.tag) })) := by
  have hg : (if s.site.flag = true then none else s.genTo src.pkg c.pkg) = none := by
    split
    case isTrue => rfl
    case isFalse hf => exact if_neg (by simpa [hf] using hs)
  rw [crossing_goes h hr hc, hg]
  rfl
end

/-! ## Entries held on a path, and probes (R137, R140) -/

section
variable {s : State} {c : CoreId} {p : Path}

theorem holdRelease_none (h : (s.core c).pathHold p = []) : exec (.wingsHoldRelease c p) s = .next s := by
  rw [show exec (.wingsHoldRelease c p) s = execWingsHoldRelease c p s from rfl, execWingsHoldRelease, h]

variable {e : Entry} {es : List Entry} (h : (s.core c).pathHold p = e :: es)
include h

theorem holdRelease_full (hp : s.tryPlace c e = none) : exec (.wingsHoldRelease c p) s = .next s := by
  rw [show exec (.wingsHoldRelease c p) s = execWingsHoldRelease c p s from rfl, execWingsHoldRelease, h]
  dsimp only
  rw [hp]

theorem holdRelease_places {s₁ : State} (hp : s.tryPlace c e = some s₁) :
    let s₂ := (s₁.modCore c fun k => k.setHold p es).pathFree c p
    exec (.wingsHoldRelease c p) s = .next (if es = [] ∧ p = .wing then s₂.unparkAll c else s₂.wakeHolds c) := by
  rw [show exec (.wingsHoldRelease c p) s = execWingsHoldRelease c p s from rfl, execWingsHoldRelease, h]
  dsimp only
  rw [hp]
  simp only [List.isEmpty_iff]
end

section
variable {s : State} {x : Probe} (hx : ((s.core s.site.core).probes.find? fun x => decide (x.slot = s.site.n)) = some x)
include hx

theorem probeReturn_waits
    (h : (s.newCycle s.site.core .wing).coreRuns s.site.core = false ∨ ((s.newCycle s.site.core .wing).core s.site.core).holdWing ≠ []) :
    exec .wingProbeReturn s = .next ((s.newCycle s.site.core .wing).laterAt .wingProbeReturn s.site.core x.slot) := by
  rw [show exec .wingProbeReturn s = execWingProbeReturn s from rfl, execWingProbeReturn]
  simp only [hx]
  rw [if_pos (by simpa using h)]

/-- What stood behind a probe takes effect, unless its activation is purged; then the arrivals parked behind it. -/
theorem probeReturn_acts (hr : (s.newCycle s.site.core .wing).coreRuns s.site.core = true)
    (hh : ((s.newCycle s.site.core .wing).core s.site.core).holdWing = []) :
    let c := s.site.core
    let s₁ := s.newCycle c .wing
    let k := s₁.core c
    let s₂ := s₁.setCore c { k with probes := k.probes.erase x }
    exec .wingProbeReturn s =
      .next ((if s₂.dying c.dieId x.what.tag = true then s₂ else s₂.probeEffect c x.what).unpark c x.set_ k.parked.length) := by
  rw [show exec .wingProbeReturn s = execWingProbeReturn s from rfl, execWingProbeReturn]
  simp only [hx]
  rw [if_neg (by simp [hr, hh])]
end

theorem probeReturn_none {s : State} (h : ((s.core s.site.core).probes.find? fun x => decide (x.slot = s.site.n)) = none) :
    exec .wingProbeReturn s = .next s := by
  rw [show exec .wingProbeReturn s = execWingProbeReturn s from rfl, execWingProbeReturn]
  simp only [h]

/-- An arrival whose probe returned meets the entry of its key, that of the wings first. -/
theorem probeEffect_arrival (s : State) (c : CoreId) (t : Token) (chained : Bool) :
    s.probeEffect c (.arrival t chained) = s.takeEffect c .wing (opcOfWord (s.recordAt c t.node)).toNat (recOfWord (s.recordAt c t.node)) t
      (((s.core c).findEntry t.node t.tag true).or ((s.core c).findEntry t.node t.tag false)) chained := by
  rw [show s.probeEffect c (.arrival t chained) = s.probeReturned c t chained from rfl, State.probeReturned]
  cases (s.core c).findEntry t.node t.tag true <;> rfl

/-! ## Arrivals (R92, R128, R133) -/

section
variable {s : State} {c : CoreId} {p : Path} {t : Token} {chained : Bool}

theorem arrive_faults
    (h : decodeWord (s.recordAt c t.node) = none ∨ (recOfWord (s.recordAt c t.node)).ari.toNat = 0 ∨
      (t.port ≠ 3 ∧ (recOfWord (s.recordAt c t.node)).ari.toNat ≤ t.port) ∨ kindForm t.opnd.kind = 3) :
    s.arrive c p t chained = s.faultArrival c t := by
  unfold State.arrive
  dsimp only
  split
  case isTrue => rfl
  case isFalse h1 =>
    rw [Option.isNone_iff_eq_none, not_or] at h1
    refine if_pos ?_
    rcases h with h | h | ⟨h, h'⟩ | h
    · exact absurd h h1.1
    · exact absurd h h1.2
    · simp [h, Nat.not_lt.2 h']
    · simp [h]

/-- A record of one input fires at once. -/
theorem arrive_completes (hd : decodeWord (s.recordAt c t.node) ≠ none) (hp : t.port = 3 ∨ t.port = 0) (hk : kindForm t.opnd.kind ≠ 3)
    (ha : (recOfWord (s.recordAt c t.node)).ari.toNat = 1) (h1 : (opcOfWord (s.recordAt c t.node)).toNat ≠ 0x11)
    (h2 : (opcOfWord (s.recordAt c t.node)).toNat ≠ 0x14) :
    s.arrive c p t chained = s.complete c p ⟨c, t.node, t.tag, if t.port = 3 then zeroOp else t.opnd, zeroOp, zeroOp, 0, 0⟩ := by
  unfold State.arrive
  dsimp only
  rw [if_neg, if_neg, if_pos ⟨ha, h1, h2⟩]
  · rfl
  · rw [ha]
    rcases hp with hp | hp <;> simp [hp, hk]
  · rw [Option.isNone_iff_eq_none, ha]
    simpa using hd

/-! ## Entries placed and met (R133, R136, R140) -/

@[simp] theorem setHold_pathHold (k : Core) (p : Path) (es : List Entry) : (k.setHold p es).pathHold p = es := by
  cases p <;> rfl

theorem holdStart_pathHold (s : State) (c : CoreId) (p q : Path) : ((s.holdStart c p).core c).pathHold q = (s.core c).pathHold q := by
  unfold State.holdStart
  split
  case isTrue => rfl
  case isFalse => rw [State.core_modCore_same]; cases q <;> rfl

@[simp] theorem core_board (s : State) (k : CluId) (qn : Nat) (r : List Word) (c : CoreId) : (s.board k qn r).1.core c = s.core c := rfl

/-- An entry that no way takes stands last on the path that brought it. -/
theorem place_holds {e : Entry} (h : s.tryPlace c e = none) (hh : s.heldTag c e.tag = false) :
    ((s.place c p e).core c).pathHold p = (s.core c).pathHold p ++ [e] := by
  have hold : ((((s.modCore c fun k => k.setHold p (k.pathHold p ++ [e])).holdStart c p).core c).pathHold p) =
      (s.core c).pathHold p ++ [e] := by
    rw [holdStart_pathHold, State.core_modCore_same, setHold_pathHold]
  unfold State.place
  rw [h]
  dsimp only
  rw [if_neg (Bool.eq_false_iff.1 hh)]
  split
  case isTrue => rw [core_board]; exact hold
  case isFalse => exact hold

section
variable {oc : Nat} {a b d : Operand} {pm : BitVec 3} {fl : BitVec 8} {e : Entry} (he : e.body = .waiting pm a b d fl)
include he

theorem waitingOps_some : Entry.waitingOps (some e) = (pm, (a, b, d), fl) := by
  obtain ⟨node, tag, body, wing⟩ := e
  subst he
  rfl

theorem meet_duplicate (hp : t.port < 2) (hb : pm.getLsbD t.port = true) :
    s.meet c p oc 2 t (some e) chained = (s.modCore c fun k => { k with dup := satInc k.dup }).faultArrival c t := by
  have hi : portOf 2 t.port = t.port := if_neg (by omega)
  unfold State.meet
  rw [waitingOps_some he]
  dsimp only
  rw [hi, if_pos hb]
  rfl

theorem meet_fills_second (hoc : oc ≠ 0x04) (hp : t.port = 1) (hpm : pm = 1) :
    s.meet c p oc 2 t (some e) chained = (s.freeEntry c e).complete c p ⟨c, t.node, t.tag, a, t.opnd, d, 0, 0⟩ := by
  have hb : brings t = t.opnd := if_neg (by omega)
  subst hpm
  unfold State.meet
  rw [waitingOps_some he]
  dsimp only
  rw [hp, hb, if_neg (by decide), if_pos (by decide), if_neg fun k => hoc k.1]
  rfl

theorem meet_fills_first (hoc : oc ≠ 0x04) (hp : t.port = 0) (hpm : pm = 2) :
    s.meet c p oc 2 t (some e) chained = (s.freeEntry c e).complete c p ⟨c, t.node, t.tag, t.opnd, b, d, 0, 0⟩ := by
  have hb : brings t = t.opnd := if_neg (by omega)
  subst hpm
  unfold State.meet
  rw [waitingOps_some he]
  dsimp only
  rw [hp, hb, if_neg (by decide), if_pos (by decide), if_neg fun k => hoc k.1]
  rfl
end

/-- The first token of a key makes its entry. -/
theorem meet_first {oc : Nat} (hoc : chained = false) (hp : t.port = 0) :
    s.meet c p oc 2 t none chained = s.place c p ⟨t.node, t.tag, .waiting 1 t.opnd zeroOp zeroOp 0, none⟩ := by
  have hb : brings t = t.opnd := if_neg (by omega)
  subst hoc
  unfold State.meet
  rw [hp, hb]
  rfl

end

section
variable {s : State} {c : CoreId} {e : Entry}

theorem tryPlace_store (h : (s.core c).wayFree e.set_ = true) :
    s.tryPlace c e = some (s.setCore c { s.core c with store := (s.core c).store ++ [{ e with wing := none }] }) := by
  unfold State.tryPlace
  dsimp only
  rw [if_pos h]

/-- The wing entry that is taken stands in the wing area and is not used. -/
theorem freeWing_spec {k : Core} {st i : Nat} (h : k.freeWing st = some i) : i < 1024 * k.wps ∧ ∀ x ∈ k.store, x.wing ≠ some i := by
  unfold Core.freeWing at h
  obtain ⟨j, -, hj⟩ := List.exists_of_findSome?_eq_some h
  obtain ⟨w, hw, rfl⟩ := Option.map_eq_some_iff.1 hj
  rw [leastBelow] at hw
  have hlt : w < k.wps := List.mem_range.1 (List.mem_of_find?_eq_some hw)
  have hset : (st + j) % 1024 < 1024 := Nat.mod_lt _ (by decide)
  refine ⟨?_, fun x hx hwing => ?_⟩
  · calc (st + j) % 1024 * k.wps + w < ((st + j) % 1024 + 1) * k.wps := by rw [Nat.add_one_mul]; omega
      _ ≤ 1024 * k.wps := Nat.mul_le_mul_right _ hset
  · have hfree := List.find?_some hw
    exact of_decide_eq_true hfree (List.mem_filterMap.2 ⟨x, hx, hwing⟩)

variable (h : (s.core c).wayFree e.set_ = false)
include h

theorem tryPlace_wing {i : Nat} (hi : (s.core c).freeWing e.set_ = some i) :
    s.tryPlace c e = some ((s.setCore c { s.core c with
      store := (s.core c).store ++ [{ e with wing := some i }], spill := satInc (s.core c).spill }).writeWing c i
      (e.wingBytes (recOfWord (s.recordAt c e.node)).ari.toNat)) := by
  unfold State.tryPlace
  dsimp only
  rw [if_neg (Bool.eq_false_iff.1 h), hi]
  rfl

theorem tryPlace_full (hi : (s.core c).freeWing e.set_ = none) : s.tryPlace c e = none := by
  unfold State.tryPlace
  dsimp only
  rw [if_neg (Bool.eq_false_iff.1 h), hi]
end

/-! ## Completions enter the ready queue (R141, R142) -/

section
variable {s : State} {c : CoreId} {p : Path} {f : Firing}

/-- The state once a completion has taken its SEQ. -/
def numbered (s : State) (c : CoreId) : State := s.setCore c { s.core c with nextSeq := (s.core c).nextSeq + 1 }

theorem admitFiring_enters (h1 : (numbered s c).barred c f.tag = false) (h2 : (s.core c).ready.length < 256)
    (h3 : (numbered s c).backlog c = []) :
    s.admitFiring c (p, f) =
      ((numbered s c).modCore c fun k => { k with ready := k.ready ++ [{ f with seq := (s.core c).nextSeq }] }).issueLater c := by
  refine if_pos (?_ : (!(numbered s c).barred c f.tag && decide ((s.core c).ready.length < 256) &&
    ((numbered s c).backlog c).isEmpty) = true)
  rw [h1, h3]
  simpa using h2

theorem admitFiring_waits (h : (numbered s c).barred c f.tag = true ∨ 256 ≤ (s.core c).ready.length ∨ (numbered s c).backlog c ≠ []) :
    s.admitFiring c (p, f) = ((numbered s c).modCore c fun k => { k with backlog := satInc k.backlog }).place c p
      ⟨f.node, f.tag, .complete { f with seq := (s.core c).nextSeq }, none⟩ := by
  refine if_neg (?_ : ¬(!(numbered s c).barred c f.tag && decide ((s.core c).ready.length < 256) &&
    ((numbered s c).backlog c).isEmpty) = true)
  rcases h with h | h | h
  · simp [h]
  · simp [Nat.not_lt.2 h]
  · simp [h]
end

/-- Settles O54: event by event, then the steps of matching. -/
theorem tokenEvents : Obligations.TokenEvents := by
  unfold Obligations.TokenEvents
  refine ⟨fun s c p t => ⟨tokenArrival_dying, newCycle_refills, newCycle_same, ⟨fun hd => ⟨fun hr => ⟨tokenArrival_stopped hd hr,
        fun n => chainLink_stopped hd hr⟩, tokenArrival_asleep hd, fun hr ha hh => ?held, fun hr ha hh => ?free⟩,
        fun n => ⟨chainLink_dying, fun hd hr => ⟨chainLink_issues hd hr, fun hn hh => ?chainHeld, fun hn hh => ?chainFree⟩⟩⟩,
      fun n => holdEnd_counts, fun src node => ⟨crossing_stale, crossing_waits, fun hm hr => ⟨fun x hc => ⟨crossing_sends hm hr hc,
        crossing_arrives hm hr hc⟩, crossing_discards hm hr⟩⟩, holdRelease_none, fun e es h => ⟨fun s₁ => holdRelease_places h,
        holdRelease_full h⟩, fun h => ?refills, fun h => ?serves, rfl⟩,
    fun s x hx => ⟨probeReturn_waits hx, fun hr hh => ⟨fun hd => ?probeDies, fun hd => ⟨?probeActs, fun t chained hw => ?arrival⟩⟩⟩,
    fun s => probeReturn_none,
    fun s c p t chained => ⟨arrive_faults, arrive_completes, fun f => rfl, fun e => place_holds,
      fun oc a b d pm fl e he hoc hp ho => ⟨meet_duplicate he hp, fun hpm h1 => ?last1, fun hpm h0 => ?last0, fun h0 => ?first⟩⟩,
    fun s c e => ⟨tryPlace_store, fun h => ⟨fun i hi => ⟨(freeWing_spec hi).1, (freeWing_spec hi).2, tryPlace_wing h hi⟩,
      tryPlace_full h⟩⟩,
    fun s c p f => ⟨admitFiring_enters, admitFiring_waits⟩⟩
  case held => exact (tokenArrival_accepted hd hr ha).trans (congrArg _ (if_pos (pathHeld_iff.2 hh)))
  case free =>
    have hs := (tokenArrival_accepted (p := p) hd hr ha).trans (congrArg _ (if_neg (mt pathHeld_iff.1 hh)))
    exact ⟨fun hw => hs.trans (congrArg _ (if_pos hw)), fun hw => hs.trans (congrArg _ (if_neg hw))⟩
  case chainHeld => exact (chainLink_arrives hd hr hn).trans (congrArg _ (if_pos (pathHeld_iff.2 hh)))
  case chainFree => exact (chainLink_arrives hd hr hn).trans (congrArg _ (if_neg (mt pathHeld_iff.1 hh)))
  case refills => exact congrArg Host.Outcome.next (if_neg (Bool.eq_false_iff.1 h))
  case serves => exact congrArg Host.Outcome.next (if_pos h)
  case probeDies => exact (probeReturn_acts hx hr hh).trans (by rw [if_pos hd])
  case probeActs => exact (probeReturn_acts hx hr hh).trans (by rw [if_neg (Bool.eq_false_iff.1 hd)])
  case arrival => rw [hw]; exact probeEffect_arrival _ _ t chained
  case last1 => rw [ho]; exact meet_fills_second he hoc.1 h1 hpm
  case last0 => rw [ho]; exact meet_fills_first he hoc.1 h0 hpm
  case first => rw [ho]; exact meet_first hoc.2 h0

end Sys2Proof.Proofs.Tokens
end
section
/-! Engines: what an inbox does with a message, how a message runs and completes, its pieces, and the streams of a port (R42, R43, R106 to
R108, R216 to R223, R245, R249 to R251, R296, R378, R379, R385 to R387). -/

namespace Sys2Proof.Proofs.Engines

open Sys2Proof Sys2Proof.Machine

/-! ## Inboxes (R42, R43, R106 to R108, R385) -/

section
variable {s : State} {e : EngineId} {m : Msg}

theorem hostWaits_iff : s.hostWaits e m = true ↔
    m.sender.kind = .host ∧ ((s.link e.at_.pkg hostLink).ver = 0 ∨ s.hostSettled e.at_.pkg = false) := by
  simp [State.hostWaits]

theorem not_hostWaits_of
    (h : m.sender.kind ≠ .host ∨ ((s.link e.at_.pkg hostLink).ver ≠ 0 ∧ s.hostSettled e.at_.pkg = true)) : ¬s.hostWaits e m = true := by
  rw [hostWaits_iff]
  rcases h with h | ⟨h, h'⟩
  · exact fun k => h k.1
  · rintro ⟨-, k | k⟩
    · exact h k
    · exact Bool.eq_false_iff.1 k h'

theorem accept_waits (h : s.hostWaits e m = true) : exec (.engineInboxAccept e m) s = .next (s.later (.engineInboxAccept e m)) := by
  rw [show exec (.engineInboxAccept e m) s = execEngineInboxAccept e m s from rfl, execEngineInboxAccept, if_pos h]

section
variable (h : ¬s.hostWaits e m = true)
include h

/-- A matrix engine takes messages from its own core's path alone, and a stream engine takes none (R298). -/
theorem accept_no_inbox (hk : e.kind = .matrix ∨ e.kind = .stream) : exec (.engineInboxAccept e m) s = .next (s.rejectMsg e m) := by
  rw [show exec (.engineInboxAccept e m) s = execEngineInboxAccept e m s from rfl, execEngineInboxAccept, if_neg h]
  obtain ⟨k, c⟩ := e
  rcases hk with rfl | rfl <;> rfl

section
variable (hk : e.kind = .launch)
include hk

theorem accept_launch_rejects (hm : launchOk m = false ∨ launchEvent e.at_ m = none) :
    exec (.engineInboxAccept e m) s = .next (s.rejectMsg e m) := by
  have hi : (if launchOk m = true then launchEvent e.at_ m else none) = none := by
    rcases hm with hm | hm
    · exact if_neg (Bool.eq_false_iff.1 hm)
    · rw [hm]; exact ite_self _
  rw [show exec (.engineInboxAccept e m) s = execEngineInboxAccept e m s from rfl, execEngineInboxAccept, if_neg h, hk]
  dsimp only
  rw [hi]

theorem accept_launch_hands_on {i : Instr} (hm : launchOk m = true) (hi : launchEvent e.at_ m = some i) :
    exec (.engineInboxAccept e m) s =
      .next (if (s.pkg e.at_.pkg).stage = 5 then s.later i else s.later (.engineInboxAccept e m)) := by
  rw [show exec (.engineInboxAccept e m) s = execEngineInboxAccept e m s from rfl, execEngineInboxAccept, if_neg h, hk]
  dsimp only
  rw [if_pos hm, hi]
end

/-- A message that a copy or link engine may accept (R41, R249, R386). -/
def fits (e : EngineId) (m : Msg) : Bool :=
  if e.kind = .link then linkOk m else copyOk m && !(decide (3 ≤ msgOpc m) && fromOrdinary m)

/-- The counter in which a message takes a number. -/
def counterOf (s : State) (e : EngineId) (m : Msg) : Option (BitVec 9) := if msgTle m then s.msgCounter e m else none

/-- The number that a message takes in its counter, if it takes one, and the state then. -/
def numbered (s : State) (e : EngineId) (m : Msg) : Nat × State :=
  match counterOf s e m with
  | some col => s.takeNumber e.at_.cluId col (msgTlc m)
  | none => (0, s)

/-- An armed send's record receives 0 on B (R385). -/
def sendsB (m : Msg) (s : State) : State :=
  if m.sender.kind = .armed then
    s.sendFrom m.sender.core m.sender.node (recOfWord (s.recordAt m.sender.core m.sender.node)).dstB m.sender.tag (plainOp 0)
  else s

/-- A message accepted under an id and a number. -/
def takenIn (s : State) (e : EngineId) (m : Msg) (id num : Nat) : State :=
  sendsB m ((s.setInbox e (s.inbox e ++ [⟨id, m, num, 0, 0, false, none, false, [], 0, [], [], false⟩])).later (engineEvent e m id))

/-- What a copy or link engine does with a message that reaches it. -/
theorem accept_copy_or_link (hk : e.kind = .copy ∨ e.kind = .link) :
    exec (.engineInboxAccept e m) s = .next (if (!fits e m) = true then s.rejectMsg e m
      else if 16 ≤ (s.inbox e).length then s.later (.engineInboxAccept e m)
      else takenIn (numbered s.fresh.2 e m).2 e m s.uid (numbered s.fresh.2 e m).1) := by
  rw [show exec (.engineInboxAccept e m) s = execEngineInboxAccept e m s from rfl, execEngineInboxAccept, if_neg h]
  obtain ⟨k, c⟩ := e
  rcases hk with rfl | rfl <;> rfl
end

theorem numbered_none (h : msgTle m = false ∨ s.msgCounter e m = none) : numbered s e m = (0, s) := by
  have hn : counterOf s e m = none := by
    unfold counterOf
    rcases h with h | h
    · exact if_neg (Bool.eq_false_iff.1 h)
    · rw [h]; exact ite_self _
  rw [numbered, hn]

theorem numbered_some {col : BitVec 9} (ht : msgTle m = true) (h : s.msgCounter e m = some col) :
    numbered s e m = s.takeNumber e.at_.cluId col (msgTlc m) := by
  have hn : counterOf s e m = some col := (if_pos ht).trans h
  rw [numbered, hn]

/-! ## A message completes (R42, R387) -/

section
variable {id : Nat} {x : EngMsg} (hx : s.engMsg? e id = some x)
include hx

/-- Its release waits for the writes of its engine's die, found once, and then until they are applied (R347). -/
theorem complete_probes (hr : x.noRel = false) (hs : 4 ≤ msgScope x.msg) (hp : x.probed = false) :
    exec (.engineMessageComplete e id) s = .next ((s.modMsg e id fun x =>
      { x with probed := true, lines := x.lines ++ ((s.die e.at_.dieId).pendLines.map fun l => (e.at_.dieId, l)) }).later
      (.engineMessageComplete e id)) := by
  rw [show exec (.engineMessageComplete e id) s = execEngineMessageComplete e id s from rfl, execEngineMessageComplete]
  simp only [hx]
  rw [if_pos ⟨by rw [hr]; rfl, hs, by rw [hp]; rfl⟩]

theorem complete_waits (hr : x.noRel = false) (hs : 4 ≤ msgScope x.msg) (hp : x.probed = true) (hu : s.unsettled x.lines ≠ []) :
    exec (.engineMessageComplete e id) s =
      .next ((s.modMsg e id fun y => { y with lines := s.unsettled x.lines }).later (.engineMessageComplete e id)) := by
  rw [show exec (.engineMessageComplete e id) s = execEngineMessageComplete e id s from rfl, execEngineMessageComplete]
  simp only [hx]
  rw [if_neg (by simp [hp]), if_pos ⟨by rw [hr]; rfl, hs, by simpa using hu⟩]

/-- The message gone from its engine, its number complete. -/
def counted (s : State) (e : EngineId) (id : Nat) (x : EngMsg) : State :=
  match counterOf (s.dropMsg e id) e x.msg with
  | some col => (s.dropMsg e id).completeNumber e.at_.cluId col (msgTlc x.msg) x.num
  | none => s.dropMsg e id

/-- The counter that an LCOPY advances remotely: its cluster, and its activation's colour there (R387). -/
def remoteClu (m : Msg) : CluId := ⟨msgField m 4 63 58, msgField m 4 57 56, msgField m 4 55 53⟩

def remoteColour (s : State) (e : EngineId) (id : Nat) (x : EngMsg) : Option (BitVec 9) :=
  ((s.dropMsg e id).msgAct e x.msg).bind fun a => (counted s e id x).colourOn a (remoteClu x.msg).dieId

/-- The reply of a message (R42). -/
def replied (e : EngineId) (x : EngMsg) (s : State) : State :=
  s.replyFrom (msgReplyCore x.msg e) x.msg.sender.node (msgRdst x.msg) (x.msg.words.getD 1 0) (plainOp (BitVec.ofNat 64 x.status))

section
variable (hd : x.noRel = true ∨ msgScope x.msg < 4 ∨ (x.probed = true ∧ s.unsettled x.lines = []))
include hd

theorem complete_replies : exec (.engineMessageComplete e id) s = .next (replied e x (match e.kind with
      | .link => if msgField x.msg 4 47 47 = 1 ∧ (!x.noRel) = true then
          match remoteColour s e id x with
          | some col => (counted s e id x).later (.remoteAdvance (remoteClu x.msg) col (msgField x.msg 4 52 48))
          | none => counted s e id x
        else counted s e id x
      | _ => counted s e id x)) := by
  rw [show exec (.engineMessageComplete e id) s = execEngineMessageComplete e id s from rfl, execEngineMessageComplete]
  simp only [hx]
  rw [if_neg, if_neg]
  · rfl
  · rintro ⟨h1, h2, h3⟩
    rcases hd with h | h | ⟨-, h⟩
    · simp [h] at h1
    · omega
    · simp [h] at h3
  · rintro ⟨h1, h2, h3⟩
    rcases hd with h | h | ⟨h, -⟩
    · simp [h] at h1
    · omega
    · simp [h] at h3

theorem complete_local (h : e.kind ≠ .link ∨ msgField x.msg 4 47 47 ≠ 1 ∨ x.noRel = true ∨ remoteColour s e id x = none) :
    exec (.engineMessageComplete e id) s = .next (replied e x (counted s e id x)) := by
  rw [complete_replies hx hd]
  refine congrArg (fun y => Host.Outcome.next (replied e x y)) ?_
  by_cases hk : e.kind = .link
  · rw [hk]
    dsimp only
    rcases h with h | h | h | h
    · exact absurd hk h
    · exact if_neg fun k => h k.1
    · exact if_neg fun k => by simp [h] at k
    · rw [h]; exact ite_self _
  · split
    case h_1 hk' => exact absurd hk' hk
    case h_2 => rfl

theorem complete_advances (hk : e.kind = .link) (hf : msgField x.msg 4 47 47 = 1) (hr : x.noRel = false) {col : BitVec 9}
    (hc : remoteColour s e id x = some col) : exec (.engineMessageComplete e id) s =
      .next (replied e x ((counted s e id x).later (.remoteAdvance (remoteClu x.msg) col (msgField x.msg 4 52 48)))) := by
  rw [complete_replies hx hd, hk]
  dsimp only
  rw [if_pos ⟨hf, by rw [hr]; rfl⟩, hc]
end
end
end

/-! ## A message runs (R216, R222, R223, R250, R251) -/

/-- Reading on in its source changes only what is read of a message, and adds to that. -/
theorem readOn_reads {e : EngineId} : ∀ (f : Nat) {s s₁ : State} {x y : EngMsg} {r : Source.Read}, s.readOn e f x = (r, y, s₁) →
    x.got <+: y.got ∧ y.sent = x.sent ∧ y.msg = x.msg ∧ y.id = x.id ∧ (r = .whole → msgLen x.msg ≤ y.got.length)
  | 0, s, s₁, x, y, r, h => by
    cases h
    exact ⟨List.prefix_rfl, rfl, rfl, rfl, nofun⟩
  | f + 1, s, s₁, x, y, r, h => by
    unfold State.readOn at h
    dsimp only at h
    split at h
    case isTrue hall =>
      cases h
      exact ⟨List.prefix_rfl, rfl, rfl, rfl, fun _ => hall⟩
    case isFalse =>
      split at h
      case h_1 =>
        cases h
        exact ⟨List.prefix_rfl, rfl, rfl, rfl, nofun⟩
      case h_2 =>
        split at h
        case h_1 =>
          cases h
          exact ⟨List.prefix_rfl, rfl, rfl, rfl, nofun⟩
        case h_2 =>
          split at h
          case h_1 =>
            cases h
            exact ⟨List.prefix_rfl, rfl, rfl, rfl, nofun⟩
          case h_2 =>
            obtain ⟨hgot, hsent, hmsg, hid, hall⟩ := readOn_reads f h
            exact ⟨(List.prefix_append _ _).trans hgot, hsent, hmsg, hid, hall⟩

section
variable {s : State} {e : EngineId} {id : Nat} {i : Instr}
  (hi : i ∈ [Instr.copy e id, .copyr e id, .copyp e id, .copypr e id, .lcopy e id])

include hi in
/-- The five events that perform a message run it. -/
theorem runs : exec i s = .next (s.runMsg e id) := by
  simp only [List.mem_cons, List.not_mem_nil, or_false] at hi
  rcases hi with rfl | rfl | rfl | rfl | rfl <;> rfl

variable {x : EngMsg} (hx : s.engMsg? e id = some x)
include hx

theorem runMsg_over (hr : x.noRel = true) : s.runMsg e id = s := by
  unfold State.runMsg
  rw [hx]
  exact if_pos hr

section
variable (hr : x.noRel = false)
include hr

section
variable (hb : x.begun = false)
include hb

theorem runMsg_refused {st : Nat} {f : Option Flt} (hc : s.checkMsg e x.msg = .error (st, f)) :
    s.runMsg e id = (f.elim s fun f => s.faultEngine e.at_.cluId x.msg false f).endMsg e id st := by
  unfold State.runMsg
  rw [hx]
  dsimp only
  rw [if_neg (Bool.eq_false_iff.1 hr), if_neg (Bool.eq_false_iff.1 hb), hc]
  cases f <;> rfl

theorem runMsg_misaligned {pages : List Leaf} (hc : s.checkMsg e x.msg = .ok pages) (hm : redMisaligned x.msg = true) :
    s.runMsg e id = s.endMsg e id 3 := by
  unfold State.runMsg
  rw [hx]
  dsimp only
  rw [if_neg (Bool.eq_false_iff.1 hr), if_neg (Bool.eq_false_iff.1 hb), hc]
  exact if_pos hm
end

/-- A message that has begun, or may begin with the pages that its checks found, goes on. -/
theorem runMsg_goes {pages : List Leaf}
    (h : (x.begun = true ∧ pages = x.msg.pages) ∨ (x.begun = false ∧ s.checkMsg e x.msg = .ok pages ∧ redMisaligned x.msg = false)) :
    s.runMsg e id = s.goMsg e { x with msg := { x.msg with pages := pages }, begun := true } := by
  unfold State.runMsg
  rw [hx]
  dsimp only
  rw [if_neg (Bool.eq_false_iff.1 hr)]
  rcases h with ⟨hb, rfl⟩ | ⟨hb, hc, hm⟩
  · rw [if_pos hb]
    obtain ⟨_, _, _, _, _, _, _, begun, _, _, _, _, _⟩ := x
    obtain rfl : begun = true := hb
    rfl
  · rw [if_neg (Bool.eq_false_iff.1 hb), hc]
    exact if_neg (Bool.eq_false_iff.1 hm)
end
end

section
variable {s s₁ : State} {e : EngineId} {x y : EngMsg}

/-- A message as far as it has been read. -/
def asRead (s₁ : State) (e : EngineId) (y : EngMsg) : State := s₁.modMsg e y.id fun _ => y

theorem goMsg_whole (h : s.readOn e (msgLen x.msg + 1) x = (.whole, y, s₁)) : s.goMsg e x = (asRead s₁ e y).sendPiece e y := by
  obtain ⟨-, -, -, hid, -⟩ := readOn_reads _ h
  unfold State.goMsg asRead
  simp only [h, hid]

theorem goMsg_waits (h : s.readOn e (msgLen x.msg + 1) x = (.waits, y, s₁)) :
    s.goMsg e x = (asRead s₁ e y).later (engineEvent e y.msg y.id) := by
  obtain ⟨-, -, -, hid, -⟩ := readOn_reads _ h
  unfold State.goMsg asRead
  simp only [h, hid]

theorem goMsg_lost {a : Nat} (h : s.readOn e (msgLen x.msg + 1) x = (.lost a, y, s₁)) :
    s.goMsg e x = (asRead s₁ e y).refuseMsg e y { cause := .homeUnreachable, info := BitVec.ofNat 64 a } := by
  obtain ⟨-, -, -, hid, -⟩ := readOn_reads _ h
  unfold State.goMsg asRead
  simp only [h, hid]

theorem goMsg_fails {g : Flt} (h : s.readOn e (msgLen x.msg + 1) x = (.fails g, y, s₁)) :
    s.goMsg e x = (if y.sent + y.pieceLen ≤ y.got.length then (asRead s₁ e y).sendPiece e y else (asRead s₁ e y).failMsg e y g) := by
  obtain ⟨-, -, -, hid, -⟩ := readOn_reads _ h
  unfold State.goMsg asRead
  simp only [h, hid]
end

/-! ## Pieces leave (R222, R378) -/

section
variable {s s₁ : State} {e : EngineId} {x : EngMsg}

theorem sendPiece_completes (h : msgLen x.msg ≤ x.sent) : s.sendPiece e x = s.later (.engineMessageComplete e x.id) := if_pos h

variable (h : x.sent < msgLen x.msg)
include h

theorem sendPiece_fails {g : Flt} (hp : s.msgPlace e x.msg true (msgDst x.msg + x.sent) x.pieceLen = (.error g, s₁)) :
    s.sendPiece e x = s₁.failMsg e x g := by
  unfold State.sendPiece
  rw [if_neg (Nat.not_le.2 h), hp]

section
variable {pa n : Nat} {nc : Bool} (hp : s.msgPlace e x.msg true (msgDst x.msg + x.sent) x.pieceLen = (.ok (pa, n, nc), s₁))
include hp

theorem sendPiece_placed :
    let p := x.piece e pa nc (s₁.genTo e.at_.pkg (dieOfPa pa).pkg)
    s.sendPiece e x = (if p.red.isSome ∧ (!s₁.isSram pa) = true then s₁.endMsg e x.id 3
      else if s₁.olderOut e (dieOfPa pa).pkg then s₁.later (engineEvent e x.msg x.id)
      else (s₁.modMsg e x.id fun y => { y with sent := x.sent + p.bytes.length, stalled := none }).later (.copyPieceArrival p)) := by
  unfold State.sendPiece
  rw [if_neg (Nat.not_le.2 h), hp]
end
end

theorem genTo_eq (s : State) (p q : Nat) : s.genTo p q = if p ≠ q ∧ s.joined p q = true then some (s.pkg p).podgen else none := by
  unfold State.genTo
  simp only [Bool.and_eq_true, decide_eq_true_eq]

theorem not_refused_of {α : Type} {o : Option α} {b : Bool} (h : o = none ∨ b = true) : ¬(o.isSome = true ∧ (!b) = true) := by
  rintro ⟨ho, hb⟩
  rcases h with rfl | rfl
  · cases ho
  · cases hb

/-- A piece fills what it may of its sector, and carries its bytes of the source. -/
theorem pieceLen_spec {y : EngMsg} (h : y.sent < msgLen y.msg) :
    0 < y.pieceLen ∧ alignBase (msgDst y.msg + y.sent) % 48 + y.pieceLen ≤ 48 ∧ y.sent + y.pieceLen ≤ msgLen y.msg := by
  have hm : alignBase (msgDst y.msg + y.sent) % 48 < 48 := Nat.mod_lt _ (by decide)
  unfold EngMsg.pieceLen
  omega

theorem piece_bytes {y : EngMsg} (e : EngineId) (pa : Nat) (nc : Bool) (gen : Option (BitVec 16)) :
    (y.piece e pa nc gen).bytes = ((y.got.drop y.sent).take y.pieceLen).map (·.1) := rfl

theorem piece_length {y : EngMsg} (h : y.sent + y.pieceLen ≤ y.got.length) (e : EngineId) (pa : Nat) (nc : Bool)
    (gen : Option (BitVec 16)) : (y.piece e pa nc gen).bytes.length = y.pieceLen := by
  rw [piece_bytes, List.length_map, List.length_take, List.length_drop]
  omega

theorem piece_getElem? {y : EngMsg} {i : Nat} (hi : i < y.pieceLen) (e : EngineId) (pa : Nat) (nc : Bool) (gen : Option (BitVec 16)) :
    (y.piece e pa nc gen).bytes[i]? = (y.got[y.sent + i]?).map (·.1) := by
  rw [piece_bytes, List.getElem?_map, List.getElem?_take_of_lt hi, List.getElem?_drop]

/-- A piece that stands unanswered under an older generation holds the next ones to its package back (R378). -/
theorem olderOut_of_mem {s : State} {e : EngineId} {p : Piece} {g : BitVec 16} {x : Site}
    (h : .event (.copyPieceArrival p) x ∈ s.agenda) (he : p.engine = e) (hg : p.gen = some g)
    (ho : olderGen g (s.pkg (pieceDie p).pkg).podgen = true) : s.olderOut e (pieceDie p).pkg = true := by
  refine List.any_eq_true.2 ⟨_, h, ?_⟩
  simp [he, State.pieceMoved, genMoved, hg, ho]

/-! ## Pieces arrive (R222, R223, R227, R378, R379) -/

section
variable {s s₁ : State} {p : Piece} {x : EngMsg} (hx : s.engMsg? p.engine p.msg = some x)

/-- A piece that reaches its destination under an older generation. -/
def outdated (s : State) (p : Piece) : Prop := (!p.taken) = true ∧ s.pieceMoved p = true

/-- A piece whose destination cannot be reached. -/
def cutOff (s : State) (p : Piece) : Prop :=
  ((!p.taken) = true ∧ (!s.routed p.engine.at_.pkg (pieceDie p).pkg) = true) ∨
    (s.isHbm p.pa = true ∧ (!p.nc) = true ∧ s.isLost (p.pa / 192) = true ∧ s.needsDir (pieceDie p) (p.pa / 192) true = true)

theorem outdated_of {g : BitVec 16} (hg : p.gen = some g) (ht : p.taken = false) (ho : olderGen g (s.pkg (pieceDie p).pkg).podgen = true) :
    outdated s p := ⟨by rw [ht]; rfl, by rw [State.pieceMoved, hg]; exact ho⟩

theorem not_outdated_of (h : ∀ g : BitVec 16, p.gen = some g → p.taken = true ∨ olderGen g (s.pkg (pieceDie p).pkg).podgen = false) :
    ¬outdated s p := by
  rintro ⟨ht, hm⟩
  unfold State.pieceMoved genMoved at hm
  cases hg : p.gen with
  | none => rw [hg] at hm; cases hm
  | some g =>
    rw [hg] at hm
    rcases h g hg with h | h
    · rw [h] at ht; cases ht
    · exact Bool.eq_false_iff.1 h hm

theorem not_cutOff_of (h1 : p.taken = true ∨ s.routed p.engine.at_.pkg (pieceDie p).pkg = true)
    (h2 : s.isHbm p.pa = false ∨ p.nc = true ∨ s.isLost (p.pa / 192) = false ∨ s.needsDir (pieceDie p) (p.pa / 192) true = false) :
    ¬cutOff s p := by
  rintro (⟨ht, hr⟩ | ⟨hh, hn, hl, hd⟩)
  · rcases h1 with h | h <;> simp [h] at ht hr
  · rcases h2 with h | h | h | h <;> simp [h] at hh hn hl hd

include hx

theorem pieceArrival_moved (h : outdated s p) : exec (.copyPieceArrival p) s =
    .next (s.refuseMsg p.engine x { cause := .mapMoved, info := BitVec.ofNat 64 p.pa, aux := x.written }) := by
  rw [show exec (.copyPieceArrival p) s = execCopyPieceArrival p s from rfl, execCopyPieceArrival]
  simp only [hx]
  exact congrArg _ (if_pos h)

variable (h : ¬outdated s p)
include h

theorem pieceArrival_unreachable (hc : cutOff s p) : exec (.copyPieceArrival p) s =
    .next (s.refuseMsg p.engine x { cause := .homeUnreachable, info := BitVec.ofNat 64 p.pa }) := by
  rw [show exec (.copyPieceArrival p) s = execCopyPieceArrival p s from rfl, execCopyPieceArrival]
  simp only [hx]
  exact congrArg _ ((if_neg h).trans (if_pos hc))

variable (hc : ¬cutOff s p)
include hc

/-- A piece follows the earlier writes of its engine's die to its line (R349). -/
theorem pieceArrival_waits (hw : s.pieceWaits p = true) : exec (.copyPieceArrival p) s =
    .next ((s.settle p.engine.at_.dieId (p.pa / 192)).later (.copyPieceArrival { p with taken := true })) := by
  rw [show exec (.copyPieceArrival p) s = execCopyPieceArrival p s from rfl, execCopyPieceArrival]
  simp only [hx]
  exact congrArg _ ((if_neg h).trans ((if_neg hc).trans (if_pos hw)))

variable (hw : s.pieceWaits p = false)
include hw

/-- It lands once its line is ready. -/
theorem pieceArrival_lands {ok : Bool} (hr : s.writeReady (pieceDie p) p.nc p.pa p.bytes.length = (ok, s₁)) :
    exec (.copyPieceArrival p) s = .next (if (!ok) = true then s₁.later (.copyPieceArrival { p with taken := true })
      else (s₁.landPiece p x).runMsg p.engine p.msg) := by
  rw [show exec (.copyPieceArrival p) s = execCopyPieceArrival p s from rfl, execCopyPieceArrival]
  simp only [hx]
  refine congrArg _ ((if_neg h).trans ((if_neg hc).trans ((if_neg (Bool.eq_false_iff.1 hw)).trans ?_)))
  rw [hr]
end

/-! ## Streams (R217 to R221, R245, R296) -/

section
variable {s : State}

/-- The port of an event. -/
def portOf (s : State) : Port := s.port s.site.core.cluId s.site.n

theorem streamStart_starts {x : Stream} {t : List Stream} (hr : (portOf s).running = none) (hq : (portOf s).queued = x :: t) :
    let k := s.site.core.cluId
    exec .streamStart s = .next (((s.dropRead k.dieId (.port k s.site.n)).setPort k s.site.n { running := some x, queued := t }).laterAt
      .streamElement (cluCore0 k) s.site.n) := by
  unfold portOf at hr hq
  rw [show exec .streamStart s = execStreamStart s from rfl, execStreamStart]
  simp only [hr, hq]

theorem streamStart_none (h : (portOf s).running ≠ none ∨ (portOf s).queued = []) : exec .streamStart s = .next s := by
  rw [show exec .streamStart s = execStreamStart s from rfl, execStreamStart]
  refine congrArg _ ?_
  dsimp only
  split
  case h_1 hr hq =>
    rcases h with h | h
    · exact absurd hr h
    · exact absurd (hq.symm.trans h) (List.cons_ne_nil _ _)
  case h_2 => rfl

theorem stream_none (h : (portOf s).running = none) : exec .streamComplete s = .next s ∧ exec .streamElement s = .next s := by
  unfold portOf at h
  constructor
  · rw [show exec .streamComplete s = execStreamComplete s from rfl, execStreamComplete]
    simp only [h]
  · rw [show exec .streamElement s = execStreamElement s from rfl, execStreamElement]
    simp only [h]

variable {x : Stream} (hx : (portOf s).running = some x)
include hx

theorem streamComplete_ends :
    let k := s.site.core.cluId
    let s₁ := (s.setPort k s.site.n { portOf s with running := none }).endStream k x
    exec .streamComplete s =
      .next (if (portOf s).queued.isEmpty then s₁ else s₁.laterAt .streamStart (cluCore0 k) s.site.n) := by
  unfold portOf at hx ⊢
  rw [show exec .streamComplete s = execStreamComplete s from rfl, execStreamComplete]
  simp only [hx]

theorem streamElement_no_act (ha : s.actOf? s.site.core.cluId.dieId x.btag = none) :
    exec .streamElement s = .next (s.stopStream s.site.core.cluId s.site.n (portOf s) x 1) := by
  unfold portOf at hx ⊢
  rw [show exec .streamElement s = execStreamElement s from rfl, execStreamElement]
  simp only [hx]
  rw [ha]

variable {a : Nat} (ha : s.actOf? s.site.core.cluId.dieId x.btag = some a)
include ha

theorem streamElement_rests (h : (s.act a).curtain = true ∨ x.status ≠ 0) : exec .streamElement s = .next s := by
  unfold portOf at hx
  rw [show exec .streamElement s = execStreamElement s from rfl, execStreamElement]
  simp only [hx]
  rw [ha]
  exact congrArg _ (if_pos h)

variable (h : ¬((s.act a).curtain = true ∨ x.status ≠ 0))
include h

theorem streamElement_last (hp : patTotal x.pat ≤ x.pos) :
    exec .streamElement s = .next (s.laterAt .streamComplete (cluCore0 s.site.core.cluId) s.site.n) := by
  unfold portOf at hx
  rw [show exec .streamElement s = execStreamElement s from rfl, execStreamElement]
  simp only [hx]
  rw [ha]
  exact congrArg _ ((if_neg h).trans (if_pos hp))

variable (hp : x.pos < patTotal x.pat)
include hp

/-- The runs of a stream's next scales. -/
def scaleRuns (s s₁ : State) (x : Stream) (a : Nat) : Except Flt (List MemPart) × State :=
  match patScales x.pat x.pos with
  | [] => (.ok [], s₁)
  | i :: _ => s₁.engRuns s.site.core.cluId (portWho s.site.core.cluId s.site.n) x.pages (s.act a).stall false
    ((patScales x.pat x.pos).length + 1) (patField x.pat 7 55 0 + i) (patScales x.pat x.pos).length []

/-- The stream of a port goes on from the runs of its next element and its scales. -/
def readOf (s s₂ : State) (x : Stream) (a : Nat) (ps qs : List MemPart) : State :=
  let k := s.site.core.cluId
  let n := s.site.n
  match s₂.runsLost k.dieId (qs ++ ps) false with
  | some a' => (s₂.portFault x n false { cause := .homeUnreachable, info := BitVec.ofNat 64 a' }).stopStream k n (portOf s) x 1
  | none => match s₂.drawRuns k.dieId (.port k n) (qs ++ ps) with
    | (none, s₃) => s₃.laterAt .streamElement (cluCore0 k) n
    | (some bs, s₃) => match poisonIn (qs ++ ps) bs with
      | some a' =>
        let s₄ := s₃.portFault x n false { cause := .uncorrectable, info := BitVec.ofNat 64 a', detail := 2 }
        (if (s.act a).life = .purging then s₄ else s₄.orderPurge a).stopStream k n (portOf s) x 2
      | none =>
        let ids := patScales x.pat x.pos
        let s₄ := (bs.take ids.length).foldl (fun s b => s.sendScale (x.target k) (b.1, colourOf x.btag)) s₃
        ((s₄.setPort k n { portOf s with running := some { x with pos := x.pos + 1, sent := x.sent + 1, stall := none } }).later
          (.tokenArrival (x.target k) .network (x.token (s.act a).plan ((bs.drop ids.length).map (·.1))))).laterAt .streamElement
          (cluCore0 k) n

/-- What becomes of a stream by the runs of its next element and its scales. -/
def readRuns (s : State) (x : Stream) (a : Nat) (elt : Except Flt (List MemPart)) (y : Except Flt (List MemPart) × State) : State :=
  match elt, y.1 with
  | .ok ps, .ok qs => readOf s y.2 x a ps qs
  | .error f, _ => y.2.withholdStream s.site.core.cluId s.site.n (portOf s) x f
  | _, .error f => y.2.withholdStream s.site.core.cluId s.site.n (portOf s) x f

theorem streamElement_reads {elt : Except Flt (List MemPart)} {s₁ : State}
    (he : s.engRuns s.site.core.cluId (portWho s.site.core.cluId s.site.n) x.pages (s.act a).stall false (patBytes x.pat + 1)
      (patAddr x.pat x.pos) (patBytes x.pat) [] = (elt, s₁)) :
    exec .streamElement s = .next (readRuns s x a elt (scaleRuns s s₁ x a)) := by
  unfold portOf at hx
  rw [show exec .streamElement s = execStreamElement s from rfl, execStreamElement]
  simp only [hx]
  rw [ha]
  refine congrArg _ ((if_neg h).trans ((if_neg (Nat.not_le.2 hp)).trans ?_))
  simp only [he]
  unfold scaleRuns readRuns readOf
  cases patScales x.pat x.pos with
  | nil => rfl
  | cons i t => rfl
end

section
variable {s s₁ s₂ s₃ : State} {x : Stream} {a : Nat}

theorem scaleRuns_of {sc : Except Flt (List MemPart)}
    (h : (patScales x.pat x.pos = [] ∧ sc = .ok [] ∧ s₂ = s₁) ∨ (patScales x.pat x.pos ≠ [] ∧
      s₁.engRuns s.site.core.cluId (portWho s.site.core.cluId s.site.n) x.pages (s.act a).stall false
        ((patScales x.pat x.pos).length + 1) (patField x.pat 7 55 0 + (patScales x.pat x.pos).headD 0)
        (patScales x.pat x.pos).length [] = (sc, s₂))) :
    scaleRuns s s₁ x a = (sc, s₂) := by
  unfold scaleRuns
  revert h
  cases patScales x.pat x.pos with
  | nil =>
    rintro (⟨-, rfl, rfl⟩ | ⟨h, -⟩)
    · rfl
    · exact absurd rfl h
  | cons i t =>
    rintro (⟨h, -⟩ | ⟨-, h⟩)
    · cases h
    · exact h

variable {ps qs : List MemPart}

theorem readOf_lost {a' : Nat} (h : s₂.runsLost s.site.core.cluId.dieId (qs ++ ps) false = some a') :
    readOf s s₂ x a ps qs = (s₂.portFault x s.site.n false { cause := .homeUnreachable, info := BitVec.ofNat 64 a' }).stopStream
      s.site.core.cluId s.site.n (portOf s) x 1 := by
  simp only [readOf, h]

variable (h : s₂.runsLost s.site.core.cluId.dieId (qs ++ ps) false = none)
include h

theorem readOf_waits (hd : s₂.drawRuns s.site.core.cluId.dieId (.port s.site.core.cluId s.site.n) (qs ++ ps) = (none, s₃)) :
    readOf s s₂ x a ps qs = s₃.laterAt .streamElement (cluCore0 s.site.core.cluId) s.site.n := by
  simp only [readOf, h, hd]

variable {bs : List (Byte × Bool)}
  (hd : s₂.drawRuns s.site.core.cluId.dieId (.port s.site.core.cluId s.site.n) (qs ++ ps) = (some bs, s₃))
include hd

/-- A stream that meets poison stops with status 2, and its activation is purged (R245). -/
theorem readOf_poisoned {a' : Nat} (hp : poisonIn (qs ++ ps) bs = some a') :
    let s₄ := s₃.portFault x s.site.n false { cause := .uncorrectable, info := BitVec.ofNat 64 a', detail := 2 }
    readOf s s₂ x a ps qs =
      (if (s.act a).life = .purging then s₄ else s₄.orderPurge a).stopStream s.site.core.cluId s.site.n (portOf s) x 2 := by
  simp only [readOf, h, hd, hp]

theorem readOf_sends (hp : poisonIn (qs ++ ps) bs = none) :
    let k := s.site.core.cluId
    let ids := patScales x.pat x.pos
    let s₄ := (bs.take ids.length).foldl (fun s b => s.sendScale (x.target k) (b.1, colourOf x.btag)) s₃
    readOf s s₂ x a ps qs =
      ((s₄.setPort k s.site.n { portOf s with running := some { x with pos := x.pos + 1, sent := x.sent + 1, stall := none } }).later
        (.tokenArrival (x.target k) .network (x.token (s.act a).plan ((bs.drop ids.length).map (·.1))))).laterAt .streamElement
        (cluCore0 k) s.site.n := by
  simp only [readOf, h, hd, hp]
end

/-- A scale enters its core's queue where there is room and none waits in the network for that core, else the network holds it (R296). -/
theorem sendScale_enters {s : State} {dst : CoreId} {x : Byte × BitVec 9} (h : (s.core dst).scaleQ.length < 1024)
    (hn : ∀ y ∈ (s.die dst.dieId).scaleNet, y.1 ≠ dst) :
    s.sendScale dst x = s.modCore dst fun k => { k with scaleQ := k.scaleQ ++ [x] } :=
  if_pos ⟨h, List.all_eq_true.2 fun y hy => decide_eq_true (hn y hy)⟩

theorem sendScale_held {s : State} {dst : CoreId} {x : Byte × BitVec 9}
    (h : 1024 ≤ (s.core dst).scaleQ.length ∨ ∃ y ∈ (s.die dst.dieId).scaleNet, y.1 = dst) :
    s.sendScale dst x = s.modDie dst.dieId fun y => { y with scaleNet := y.scaleNet ++ [(dst, x)] } := by
  refine if_neg ?_
  rintro ⟨hq, hn⟩
  rcases h with h | ⟨y, hy, hd⟩
  · omega
  · exact of_decide_eq_true (List.all_eq_true.1 hn y hy) hd

/-- Settles O55: inbox, completion, run, piece and stream, case by case. -/
theorem engineEvents : Obligations.EngineEvents := by
  unfold Obligations.EngineEvents
  refine ⟨fun s e m => ⟨fun hh hw => accept_waits (hostWaits_iff.2 ⟨hh, hw⟩), fun hw => ?reaches⟩,
    fun s e id x hx => ⟨fun hr hs => ⟨complete_probes hx hr hs, complete_waits hx hr hs⟩, fun hd => ⟨complete_local hx hd,
      fun hk hf hr col => complete_advances hx hd hk hf hr⟩⟩,
    fun s e x y f r s₁ => readOn_reads f, fun s e id x hx => ?run, fun y e pa nc gen h hl => ?piece,
    fun s e p g x hm he hg ho => olderOut_of_mem hm he hg ho, fun s p x hx => ?lands, fun s => ?streams⟩
  case reaches =>
    have h := not_hostWaits_of hw
    refine ⟨accept_no_inbox h, fun hk => ⟨accept_launch_rejects h hk, fun i hm hi => ⟨fun hs => ?_, fun hs => ?_⟩⟩, fun hk => ?_⟩
    · exact (accept_launch_hands_on h hk hm hi).trans (congrArg _ (if_pos hs))
    · exact (accept_launch_hands_on h hk hm hi).trans (congrArg _ (if_neg hs))
    · have ha := accept_copy_or_link h hk
      refine ⟨fun (hf : fits e m = false) => ha.trans (congrArg _ (if_pos (by rw [hf]; rfl))), fun (hf : fits e m = true) hn => ?_,
        fun (hf : fits e m = true) hn => ?_⟩
      all_goals rw [hf] at ha
      · exact ha.trans (congrArg _ (if_pos hn))
      · replace ha := ha.trans (congrArg _ (if_neg (Nat.not_le.2 hn)))
        exact ⟨fun hc => by rw [ha, numbered_none hc]; rfl, fun col ht hc => by rw [ha, numbered_some ht hc]; rfl⟩
  case run =>
    intro m i hi
    refine ⟨fun hr => (runs hi).trans (congrArg _ (runMsg_over hx hr)), fun hr hb => ⟨fun st f hc => ?_, fun st hc => ?_,
      fun pages hc hm => ?_⟩, fun pages hr hg r y s₁ hread => ?_⟩
    · exact (runs hi).trans (congrArg _ (runMsg_refused hx hr hb hc))
    · exact (runs hi).trans (congrArg _ (runMsg_refused hx hr hb hc))
    · exact (runs hi).trans (congrArg _ (runMsg_misaligned hx hr hb hc hm))
    · have hrun := (runs hi).trans (congrArg _ (runMsg_goes hx hr hg))
      intro s₂ sends
      have hsends : exec i s = .next ((asRead s₁ e y).sendPiece e y) → sends := fun hsend => by
        refine ⟨fun hl => hsend.trans (congrArg _ (sendPiece_completes hl)), fun hl => ⟨fun g s₃ hp => hsend.trans (congrArg _
          (sendPiece_fails hl hp)), fun pa n nc s₃ hp => ?_⟩⟩
        replace hsend := hsend.trans (congrArg _ (sendPiece_placed hl hp))
        rw [genTo_eq] at hsend
        refine ⟨fun hred => hsend.trans (congrArg _ (if_pos ⟨hred.1, by rw [hred.2]; rfl⟩)), fun hred ho => ?_, fun hred ho => ?_⟩
        all_goals replace hsend := hsend.trans (congrArg _ (if_neg (not_refused_of hred)))
        · exact hsend.trans (congrArg _ (if_pos ho))
        · exact hsend.trans (congrArg _ (if_neg (Bool.eq_false_iff.1 ho)))
      refine ⟨fun hw => hsends ?_, fun hw => ?_, fun a hl => ?_, fun g hf => ⟨fun hl => hsends ?_, fun hl => ?_⟩⟩
      · subst hw; exact hrun.trans (congrArg _ (goMsg_whole hread))
      · subst hw; exact hrun.trans (congrArg _ (goMsg_waits hread))
      · subst hl; exact hrun.trans (congrArg _ (goMsg_lost hread))
      · subst hf; exact hrun.trans (congrArg _ ((goMsg_fails hread).trans (if_pos hl)))
      · subst hf; exact hrun.trans (congrArg _ ((goMsg_fails hread).trans (if_neg (Nat.not_le.2 hl))))
  case piece =>
    obtain ⟨hpos, hsec, hlen⟩ := pieceLen_spec h
    have hb := piece_length hl e pa nc gen
    exact ⟨rfl, rfl, rfl, rfl, rfl, hb ▸ hpos, hb, hb ▸ hsec, hb ▸ hlen, fun i hi => piece_getElem? (hb ▸ hi) e pa nc gen⟩
  case lands =>
    refine ⟨fun g hg ht ho => pieceArrival_moved hx (outdated_of hg ht ho), fun hg => ?_⟩
    have hm := not_outdated_of hg
    refine ⟨fun hc => pieceArrival_unreachable hx hm (by simpa [cutOff] using hc), fun hc1 hc2 => ?_⟩
    have hc := not_cutOff_of hc1 hc2
    refine ⟨pieceArrival_waits hx hm hc, fun hw s₁ => ⟨fun hr => ?_, fun hr => ?_⟩⟩
    · exact pieceArrival_lands hx hm hc hw hr
    · exact pieceArrival_lands hx hm hc hw hr
  case streams =>
    refine ⟨fun x t => streamStart_starts, streamStart_none, stream_none, fun x hx => ⟨fun hq => ?_, fun hq => ?_,
      streamElement_no_act hx, fun a ha => ⟨streamElement_rests hx ha, fun hc hs => ?_⟩⟩, fun dst x => ⟨sendScale_enters, sendScale_held⟩⟩
    · exact (streamComplete_ends hx).trans (congrArg _ (if_pos (List.isEmpty_iff.2 hq)))
    · exact (streamComplete_ends hx).trans (congrArg _ (if_neg (mt List.isEmpty_iff.1 hq)))
    · have h : ¬((s.act a).curtain = true ∨ x.status ≠ 0) := by simp [hc, hs]
      refine ⟨streamElement_last hx ha h, fun hp elt sc s₁ s₂ he hsc => ?_⟩
      have hrun := streamElement_reads hx ha h hp he
      rw [scaleRuns_of hsc] at hrun
      refine ⟨fun f hf => ?_, fun ps f hf hg => ?_, fun ps qs hf hg => ?_⟩
      · subst hf; exact hrun
      · subst hf hg; exact hrun
      · subst hf hg
        refine ⟨fun a' hl => hrun.trans (congrArg _ (readOf_lost hl)), fun hl s₃ => ⟨fun hd => hrun.trans (congrArg _ (readOf_waits hl hd)),
          fun bs hd => ⟨fun a' hpo => ⟨fun hlife => ?_, fun hlife => ?_⟩, fun hpo => hrun.trans (congrArg _ (readOf_sends hl hd hpo))⟩⟩⟩
        · exact hrun.trans (congrArg _ ((readOf_poisoned hl hd hpo).trans (by rw [if_pos hlife]; rfl)))
        · exact hrun.trans (congrArg _ ((readOf_poisoned hl hd hpo).trans (by rw [if_neg hlife]; rfl)))

end Sys2Proof.Proofs.Engines
end
section
/-! Coherence: requests at the directory and their transactions, invalidations, forwards, grants and fills at the dies, and the mirror
(R198, R206, R242, R361 to R372, R376, R379). -/

namespace Sys2Proof.Proofs.Coherence

open Sys2Proof Sys2Proof.Machine

/-! ## A request reaches its directory (R198, R370, R373, R376, R379) -/

section
variable {s : State} {x : CohReq} {again : CohReq → Instr} {k : Nat → State → State}

theorem atDirectory_lost (h : s.isLost x.line = true) : s.atDirectory x again k = s.loseLine x.die x.line := if_pos h

variable (h : s.isLost x.line = false)
include h

theorem atDirectory_older (hg : olderGen x.gen (s.pkg (s.dirOf x.line)).podgen = true) :
    s.atDirectory x again k = s.later (again { x with gen := (s.pkg (s.dirOf x.line)).podgen }) :=
  (if_neg (Bool.eq_false_iff.1 h)).trans (if_pos hg)

variable (hg : olderGen x.gen (s.pkg (s.dirOf x.line)).podgen = false)
include hg

theorem atDirectory_waits (hw : (s.pkg (s.dirOf x.line)).dirUp = false ∨
      ∃ y : Line, (s.die (homeDie x.line)).line? x.line = some y ∧ y.locked = true) :
    s.atDirectory x again k = s.later (again x) := by
  refine (if_neg (Bool.eq_false_iff.1 h)).trans ((if_neg (Bool.eq_false_iff.1 hg)).trans (if_pos ?_))
  rcases hw with hw | ⟨y, hy, hl⟩
  · exact .inl (by rw [hw]; rfl)
  · exact .inr (by rw [hy]; exact hl)

theorem atDirectory_served (hup : (s.pkg (s.dirOf x.line)).dirUp = true)
    (hl : ∀ y : Line, (s.die (homeDie x.line)).line? x.line = some y → y.locked = false) :
    s.atDirectory x again k = k (s.dirOf x.line) s := by
  refine (if_neg (Bool.eq_false_iff.1 h)).trans ((if_neg (Bool.eq_false_iff.1 hg)).trans (if_neg ?_))
  rintro (hw | hw)
  · rw [hup] at hw; cases hw
  · obtain ⟨y, hy, hlock⟩ := (Option.any_eq_true ..).1 hw
    exact Bool.eq_false_iff.1 (hl y hy) hlock
end

/-! ## A transaction starts (R361 to R363, R365, R366, R368, R370, R371) -/

section
variable {s : State} {p : Nat} {i : Instr} {kind : TxnKind} {x : CohReq}

section
variable {e : DirEntry} (he : s.entry? p x.line = some e)
include he

theorem startTxn_busy (ht : e.txn ≠ none) : s.startTxn p i kind x = s.waitLine p x.line i := by
  unfold State.startTxn
  simp only [he]
  rw [if_pos (Option.isSome_iff_ne_none.2 ht)]

variable (ht : e.txn = none)
include ht

theorem startTxn_no_slot (ho : 8192 ≤ (s.pkg p).openTxns) : s.startTxn p i kind x = s.waitDir p i := by
  unfold State.startTxn
  simp only [he]
  rw [if_neg (by rw [ht]; decide), if_pos ho]

theorem startTxn_opens (ho : (s.pkg p).openTxns < 8192) :
    let inv := if kind = .getx ∧ (e.st = .s ∨ e.st = .o) then invItems p e (some x.die) else []
    let own := if kind = .getx ∧ e.st ≠ .s ∧ e.owner ≠ x.die then 1 else 0
    let after := if kind = .putm then [Item.event i Site.zero] else []
    s.startTxn p i kind x =
      (s.openTxn p { e with txn := some ⟨kind, x, inv.length + own, false, false, false, after, false⟩ }).laterAll inv := by
  unfold State.startTxn
  simp only [he]
  rw [if_neg (by rw [ht]; decide), if_neg (Nat.not_le.2 ho)]
end

section
variable (he : s.entry? p x.line = none)
include he

/-- A PUTM of a line with no entry changes nothing (R367). -/
theorem startTxn_putm (hk : kind = .putm) : s.startTxn p i kind x = s.laterAt .putack (dieCore0 x.die) x.line := by
  unfold State.startTxn
  simp only [he]
  exact if_pos hk

variable (hk : kind ≠ .putm)
include hk

theorem startTxn_behind (hw : ∃ it ∈ (s.pkg p).waitQ, Item.reqLine it = some x.line) : s.startTxn p i kind x = s.waitDir p i := by
  unfold State.startTxn
  simp only [he]
  rw [if_neg hk, if_pos (by simpa using hw)]

variable (hw : ∀ it ∈ (s.pkg p).waitQ, Item.reqLine it ≠ some x.line)
include hw

theorem startTxn_home (hd : x.die = homeDie x.line) : s.startTxn p i kind x = s.homeAlone x.line := by
  unfold State.startTxn
  simp only [he]
  rw [if_neg hk, if_neg (by simpa using hw), if_pos hd]

variable (hd : x.die ≠ homeDie x.line)
include hd

theorem startTxn_once (hg : kind = .gets) (hn : x.noKeep = true) : s.startTxn p i kind x = s.sendData x.line x.die .s false := by
  unfold State.startTxn
  simp only [he]
  rw [if_neg hk, if_neg (by simpa using hw), if_neg hd, if_pos ⟨hg, hn⟩]

variable (hg : kind ≠ .gets ∨ x.noKeep = false)
include hg

/-- A request that needs an entry waits for a slot, then for a way of its set. -/
theorem startTxn_enters : s.startTxn p i kind x =
    (if 8192 ≤ (s.pkg p).openTxns then s.waitDir p i
    else if ((s.pkg p).dir.filter fun e => decide (dirSet e.line = dirSet x.line)).length < 16 then
      s.openTxn p ⟨x.line, .i, x.die, [], [], some ⟨kind, x, 0, false, false, false, [], false⟩, []⟩
    else (s.makeWay p x.line).waitDir p i) := by
  have hkeep : ¬(kind = .gets ∧ x.noKeep = true) := by
    rintro ⟨hk', hn⟩
    rcases hg with hg | hg
    · exact hg hk'
    · exact Bool.eq_false_iff.1 hg hn
  unfold State.startTxn
  simp only [he]
  rw [if_neg hk, if_neg (by simpa using hw), if_neg hd, if_neg hkeep]
end
end

/-! ## A transaction goes on (R364, R365, R367, R368, R371) -/

theorem entry?_line {s : State} {p l : Nat} {e : DirEntry} (h : s.entry? p l = some e) : e.line = l :=
  of_decide_eq_true (List.find?_some h :)

/-- The state after a transaction sets the bit of R362 of a line that gets a holder beside its home. -/
def withMark (s : State) (l : Nat) : State :=
  { s with exported := if true then (if l ∈ s.exported then s.exported else l :: s.exported) else s.exported.filter fun x => decide (x ≠ l) }

section
variable {s : State} {p : Nat} {e : DirEntry} {x : CohReq}

/-- An entry with no transaction open. -/
def plain (e : DirEntry) : DirEntry := { e with txn := none }

variable {l : Nat} (hl : e.line = l)
include hl

section
variable (h : e.st = .i)
include h

/-- The line goes to its first holder beside the home's dirty copy, beside its clean one, or alone (R365). -/
theorem goGets_dirty (ho : (withMark s l).homeHolds l = some true) :
    s.goGets p e x = (((withMark s l).setHomePerm l .o).sendData l x.die .s true).closeTxn p
      (({ plain e with st := .o, owner := homeDie l } : DirEntry).share x.die) := by
  subst hl
  unfold State.goGets
  simp only [h]
  split
  case h_1 => rfl
  case h_2 hh => exact absurd (ho.symm.trans hh) nofun
  case h_3 hh => exact absurd (ho.symm.trans hh) nofun

theorem goGets_clean (ho : (withMark s l).homeHolds l = some false) :
    s.goGets p e x = (((withMark s l).setHomePerm l .s).sendData l x.die .s true).closeTxn p
      ((({ plain e with st := .s } : DirEntry).share (homeDie l)).share x.die) := by
  subst hl
  unfold State.goGets
  simp only [h]
  split
  case h_1 hh => exact absurd (ho.symm.trans hh) nofun
  case h_2 => rfl
  case h_3 hh => exact absurd (ho.symm.trans hh) nofun

theorem goGets_alone (ho : (withMark s l).homeHolds l = none) :
    s.goGets p e x = (((withMark s l).loseCopy (homeDie l) l).sendData l x.die .e true).closeTxn p
      { plain e with st := .e, owner := x.die } := by
  subst hl
  unfold State.goGets
  simp only [h]
  split
  case h_1 hh => exact absurd (ho.symm.trans hh) nofun
  case h_2 hh => exact absurd (ho.symm.trans hh) nofun
  case h_3 => rfl
end

theorem goGets_shared (h : e.st = .s) : s.goGets p e x =
    (s.sendData l x.die .s (!x.noKeep)).closeTxn p (if x.noKeep = true then plain e else (plain e).share x.die) := by
  subst hl
  obtain ⟨line, st, owner, dies, pkgs, txn, queue⟩ := e
  obtain rfl : st = .s := h
  rfl

theorem goGets_owned (hi : e.st ≠ .i) (hs : e.st ≠ .s) : s.goGets p e x =
    (if e.owner = x.die then (s.sendData l x.die e.st true).closeTxn p (plain e)
    else s.later (.forward p l .gets e.owner x.die)) := by
  subst hl
  unfold State.goGets
  split
  case h_1 h => exact absurd h hi
  case h_2 h => exact absurd h hs
  case h_3 => rfl

theorem goGetx_uncached (h : e.st = .i) : s.goGetx p e x =
    ((withMark (s.takeHome l) l).sendData l x.die .m true).advanceTxn p l := by
  subst hl
  unfold State.goGetx
  simp only [h]
  rfl

theorem goGetx_shared (h : e.st = .s) : s.goGetx p e x =
    (if s.stillShares x.die l = true then s else s.sendData l x.die .m true).advanceTxn p l := by
  subst hl
  unfold State.goGetx
  simp only [h]

theorem goGetx_owned (hi : e.st ≠ .i) (hs : e.st ≠ .s) : s.goGetx p e x =
    (if e.owner = x.die then s else s.later (.forward p l .getx e.owner x.die)).advanceTxn p l := by
  subst hl
  unfold State.goGetx
  split
  case h_1 h => exact absurd h hi
  case h_2 h => exact absurd h hs
  case h_3 => rfl

section
variable {keep : Bool} {data : LineData} {secs : List Nat}

/-- A PUTM of a die that owns the line no longer changes nothing (R367). -/
theorem goPutm_stale (h : e.owner ≠ x.die ∨ e.st = .s ∨ e.st = .i) :
    s.goPutm p e x keep data secs = (s.laterAt .putack (dieCore0 x.die) l).closeTxn p (plain e) := by
  subst hl
  unfold State.goPutm
  exact if_pos h

variable (ho : e.owner = x.die) (hs : e.st ≠ .s) (hi : e.st ≠ .i)
include ho hs hi

/-- An entry once its owner has written it back. -/
def writtenBack (e : DirEntry) (d : DieId) (keep : Bool) : DirEntry :=
  if e.st = .o then
    let f := if keep = true then ({ plain e with st := .s } : DirEntry).share d else { plain e with st := .s }
    if f.dies = [] ∧ f.pkgs = [] then { f with st := .i } else f
  else { plain e with st := if keep = true then .e else .i }

theorem goPutm_stores : s.goPutm p e x keep data secs =
    ((s.laterAt .putack (dieCore0 x.die) l).storeHome l data secs).closeTxn p
      (if (keep && s.keepsOthers x.die l secs) = true then plain e else writtenBack e x.die keep) := by
  have h : ¬(e.owner ≠ x.die ∨ e.st = .s ∨ e.st = .i) := by
    rintro (h | h | h)
    · exact h ho
    · exact hs h
    · exact hi h
  subst hl
  unfold State.goPutm
  refine (if_neg h).trans ?_
  unfold writtenBack
  simp only [List.isEmpty_iff, apply_ite (State.closeTxn _ p)]
  rfl
end
end

/-! ## MIRROR_OPEN_ACK (R371) -/

section
variable {s : State}

/-- The entry of an event's line, at the directory of the event. -/
def entryOf (s : State) : Option DirEntry := s.entry? s.site.core.pkg s.site.n

theorem openAck_none (h : entryOf s = none) : exec .mirrorOpenAck s = .next s := by
  unfold entryOf at h
  rw [show exec .mirrorOpenAck s = execMirrorOpenAck s from rfl, execMirrorOpenAck]
  simp only [h]

variable {e : DirEntry} (he : entryOf s = some e)
include he

theorem openAck_closed (ht : e.txn = none) : exec .mirrorOpenAck s = .next s := by
  unfold entryOf at he
  rw [show exec .mirrorOpenAck s = execMirrorOpenAck s from rfl, execMirrorOpenAck]
  simp only [he, ht]

variable {t : Txn} (ht : e.txn = some t)
include ht

theorem openAck_again (ho : t.opened = true) : exec .mirrorOpenAck s = .next s := by
  unfold entryOf at he
  rw [show exec .mirrorOpenAck s = execMirrorOpenAck s from rfl, execMirrorOpenAck]
  simp only [he, ht]
  rw [if_pos ho]

theorem openAck_goes (ho : t.opened = false) : exec .mirrorOpenAck s = .next (s.goTxn s.site.core.pkg e t) := by
  unfold entryOf at he
  rw [show exec .mirrorOpenAck s = execMirrorOpenAck s from rfl, execMirrorOpenAck]
  simp only [he, ht]
  rw [if_neg (Bool.eq_false_iff.1 ho)]
end

section
variable {s : State} {p : Nat} {e : DirEntry} {t : Txn}

/-- An entry whose transaction is open in the mirror too. -/
def opened (e : DirEntry) (t : Txn) : DirEntry := { e with txn := some { t with opened := true } }

theorem goTxn_gets (h : t.kind = .gets) : s.goTxn p e t = (s.putEntry p (opened e t)).goGets p (opened e t) t.req := by
  obtain ⟨kind, req, acks, isOpen, granted, dirty, after, part⟩ := t
  obtain rfl : kind = .gets := h
  rfl

theorem goTxn_getx (h : t.kind = .getx) : s.goTxn p e t = (s.putEntry p (opened e t)).goGetx p (opened e t) t.req := by
  obtain ⟨kind, req, acks, isOpen, granted, dirty, after, part⟩ := t
  obtain rfl : kind = .getx := h
  rfl

theorem goTxn_putm (h : t.kind = .putm) {x : CohReq} {keep : Bool} {data : LineData} {secs : List Nat} {z : Site}
    (ha : t.after = [.event (.putm x keep data secs) z]) :
    s.goTxn p e t = (s.putEntry p (opened e t)).goPutm p (opened e t) x keep data secs := by
  obtain ⟨kind, req, acks, isOpen, granted, dirty, after, part⟩ := t
  obtain rfl : kind = .putm := h
  obtain rfl : after = [.event (.putm x keep data secs) z] := ha
  rfl

theorem goTxn_recall {l : Nat} (hl : e.line = l) (h : t.kind = .recall) : s.goTxn p e t = (if e.recallsOwner t.part = true then
      (s.putEntry p (opened e t)).later (.forward p l .recall e.owner e.owner)
    else s.putEntry p (opened e t)).advanceTxn p l := by
  obtain ⟨kind, req, acks, isOpen, granted, dirty, after, part⟩ := t
  subst hl
  obtain rfl : kind = .recall := h
  rfl
end

/-! ## Invalidations and acknowledgements (R365, R367) -/

section
variable {s : State} {p l : Nat} {d : DieId} {b : Bool}

/-- The dies that an invalidation reaches. -/
def reached (d : DieId) (b : Bool) : List DieId := if b = true then diesOf d.pkg else [d]

theorem anyLocked_iff : ((reached d b).any fun e => ((s.die e).line? l).any (·.locked)) = true ↔
    ∃ e ∈ reached d b, ∃ y : Line, (s.die e).line? l = some y ∧ y.locked = true := by
  simp only [List.any_eq_true, Option.any_eq_true]

theorem invalidation_acts (h : ∀ e ∈ reached d b, ∀ y : Line, (s.die e).line? l = some y → y.locked = false) :
    exec (.invalidation p l d b) s =
      .next (((reached d b).foldl (fun s d => s.invalidate d l) s).later (.invalidationAck p l d b)) := by
  refine congrArg Host.Outcome.next (if_neg fun k => ?_)
  obtain ⟨e, he, y, hy, hl⟩ := anyLocked_iff.1 k
  exact Bool.eq_false_iff.1 (h e he y hy) hl

theorem invalidation_waits (h : ∃ e ∈ reached d b, ∃ y : Line, (s.die e).line? l = some y ∧ y.locked = true) :
    exec (.invalidation p l d b) s = .next (s.later (.invalidation p l d b)) :=
  congrArg Host.Outcome.next (if_pos (anyLocked_iff.2 h))

section
variable {y : Line} (hy : (s.die d).line? l = some y)
include hy

theorem invalidate_shared (hp : y.perm = .s) : s.invalidate d l = s.loseCopy d l := by
  unfold State.invalidate
  rw [hy]
  exact if_pos hp

/-- The data to come of a GETS is used once. -/
theorem invalidate_asked (hp : y.perm ≠ .s) (hi : y.perm = .i ∨ y.away = true) (ha : y.asked = some .gets) :
    s.invalidate d l = s.modLine d l fun y => { y with dropIt := true } := by
  unfold State.invalidate
  rw [hy]
  exact (if_neg hp).trans (if_pos ⟨hi, ha⟩)

theorem invalidate_other (hp : y.perm ≠ .s) (h : y.asked ≠ some .gets ∨ (y.perm ≠ .i ∧ y.away = false)) :
    s.invalidate d l = s := by
  unfold State.invalidate
  rw [hy]
  refine (if_neg hp).trans (if_neg ?_)
  rintro ⟨hi, ha⟩
  rcases h with h | ⟨h, h'⟩
  · exact h ha
  · exact hi.elim h (Bool.eq_false_iff.1 h')
end

theorem ackTxn_none (h : ∀ e : DirEntry, s.entry? p l = some e → e.txn = none) : s.ackTxn p l = s := by
  unfold State.ackTxn
  cases he : s.entry? p l with
  | none => rfl
  | some e => simp only [h e he]

variable {e : DirEntry} {t : Txn} (he : s.entry? p l = some e) (ht : e.txn = some t)
include he ht

theorem ackTxn_counts :
    s.ackTxn p l = (s.putEntry p { e with txn := some { t with acks := t.acks - 1 } }).advanceTxn p l := by
  unfold State.ackTxn
  simp only [he, ht]

theorem advanceTxn_waits (h : t.opened = false ∨ t.acks ≠ 0) : s.advanceTxn p l = s := by
  unfold State.advanceTxn
  simp only [he, ht]
  rw [if_pos]
  rcases h with h | h
  · exact .inl (by rw [h]; rfl)
  · exact .inr h

variable (ho : t.opened = true) (hz : t.acks = 0)
include ho hz

omit he ht in
theorem not_waits : ¬((!t.opened) = true ∨ t.acks ≠ 0) := by simp [ho, hz]

theorem advanceTxn_getx (hk : t.kind = .getx) : s.advanceTxn p l = (if t.granted = true then s
    else (s.putEntry p { e with txn := some { t with granted := true } }).laterAt .grant (dieCore0 t.req.die) l) := by
  unfold State.advanceTxn
  simp only [he, ht]
  rw [if_neg (not_waits ho hz), hk]

theorem advanceTxn_recall (hk : t.kind = .recall) : s.advanceTxn p l = s.closeTxn p (e.recalled t.part) := by
  unfold State.advanceTxn
  simp only [he, ht]
  rw [if_neg (not_waits ho hz), hk]
end

/-! ## FORWARD (R365, R367, R368) -/

section
variable {s : State} {p l : Nat} {owner req : DieId}

section
variable (h : ∀ y : Line, (s.die owner).line? l = some y → y.perm = .i)
include h

theorem no_copy : ((s.die owner).line? l).filter (fun y => decide (y.perm ≠ .i)) = none := by
  rw [Option.filter_eq_none_iff]
  intro y hy
  simpa using h y hy

/-- An owner without a copy has nothing to send: the home sends the data. -/
theorem forward_absent_gets :
    exec (.forward p l .gets owner req) s = .next ((s.sendData l req .s (!s.coarseFor req l)).laterAt .done (pkgCore p) l) := by
  rw [show exec (.forward p l .gets owner req) s = execForward p l .gets owner req s from rfl, execForward, no_copy h]

theorem forward_absent_getx : exec (.forward p l .getx owner req) s = .next ((s.sendData l req .m true).laterAt .done (pkgCore p) l) := by
  rw [show exec (.forward p l .getx owner req) s = execForward p l .getx owner req s from rfl, execForward, no_copy h]

theorem forward_absent_recall : exec (.forward p l .recall owner req) s = .next (s.laterAt .done (pkgCore p) l) := by
  rw [show exec (.forward p l .recall owner req) s = execForward p l .recall owner req s from rfl, execForward, no_copy h]
end

variable {y : Line} (hy : (s.die owner).line? l = some y) (hp : y.perm ≠ .i)
include hy hp

theorem has_copy : ((s.die owner).line? l).filter (fun y => decide (y.perm ≠ .i)) = some y := by
  rw [hy]
  exact Option.filter_some_pos (decide_eq_true hp)

theorem forward_locked (hl : y.locked = true) (k : FwdKind) :
    exec (.forward p l k owner req) s = .next (s.later (.forward p l k owner req)) := by
  rw [show exec (.forward p l k owner req) s = execForward p l k owner req s from rfl, execForward.eq_def, has_copy hy hp]
  exact congrArg _ (if_pos hl)

variable (hl : y.locked = false)
include hl

theorem forward_gets : exec (.forward p l .gets owner req) s =
    .next (((s.sendData l req .s (!s.coarseFor req l)).modLine owner l fun y => { y with perm := if y.isDirty then .o else .s }).laterAt
      .done (pkgCore p) l 0 y.isDirty) := by
  rw [show exec (.forward p l .gets owner req) s = execForward p l .gets owner req s from rfl, execForward, has_copy hy hp]
  exact congrArg _ (if_neg (Bool.eq_false_iff.1 hl))

theorem forward_getx : exec (.forward p l .getx owner req) s =
    .next ((((s.sendData l req .m true).storeHome l y.data y.dirtySectors).loseCopy owner l).laterAt .done (pkgCore p) l) := by
  rw [show exec (.forward p l .getx owner req) s = execForward p l .getx owner req s from rfl, execForward, has_copy hy hp]
  exact congrArg _ (if_neg (Bool.eq_false_iff.1 hl))

theorem forward_recall : exec (.forward p l .recall owner req) s =
    .next (((s.storeHome l y.data y.dirtySectors).loseCopy owner l).laterAt .done (pkgCore p) l) := by
  rw [show exec (.forward p l .recall owner req) s = execForward p l .recall owner req s from rfl, execForward, has_copy hy hp]
  exact congrArg _ (if_neg (Bool.eq_false_iff.1 hl))
end

/-! ## GRANT and PUTACK (R242, R364, R365, R367) -/

section
variable {s : State}

/-- The line of an event, at the die of the event. -/
def lineOf (s : State) : Option Line := (s.die s.site.core.dieId).line? s.site.n

/-- DONE sent to the directory of the event's line. -/
def sendsDone (z s : State) : State := s.laterAt .done (pkgCore (s.dirOf z.site.n)) z.site.n

theorem grant_none (h : lineOf s = none) : exec .grant s = .next (sendsDone s s) := by
  unfold lineOf at h
  rw [show exec .grant s = execGrant s from rfl, execGrant]
  simp only [h]
  rfl

theorem putack_none (h : lineOf s = none) : exec .putack s = .next s := by
  unfold lineOf at h
  rw [show exec .putack s = execPutack s from rfl, execPutack]
  simp only [h]

variable {y : Line} (hy : lineOf s = some y)
include hy

theorem grant_not_asked (h : y.asked = none ∨ y.asked = some .gets) : exec .grant s = .next (sendsDone s s) := by
  unfold lineOf at hy
  rw [show exec .grant s = execGrant s from rfl, execGrant]
  simp only [hy]
  exact congrArg _ (if_pos h)

section
variable (h : ¬(y.asked = none ∨ y.asked = some .gets))
include h

theorem grant_waits (hp : y.perm = .i ∨ y.away = true) (hc : y.came = false) :
    exec .grant s = .next (s.laterAt .grant s.site.core s.site.n) := by
  unfold lineOf at hy
  rw [show exec .grant s = execGrant s from rfl, execGrant]
  simp only [hy]
  exact congrArg _ ((if_neg h).trans (if_pos ⟨hp, by rw [hc]; rfl⟩))

/-- The line held M, its performed writes applied. -/
def held (s : State) : State :=
  (s.modLine s.site.core.dieId s.site.n fun y =>
    { y with perm := .m, asked := none, dropIt := false, want := [], came := false }).settle s.site.core.dieId s.site.n

theorem grant_holds (hp : (y.perm ≠ .i ∧ y.away = false) ∨ y.came = true) :
    exec .grant s = .next (sendsDone s (if y.want.isEmpty = true then held s
      else (held s).wantSectors s.site.core.dieId s.site.n y.want)) := by
  unfold lineOf at hy
  rw [show exec .grant s = execGrant s from rfl, execGrant]
  simp only [hy]
  refine congrArg _ ((if_neg h).trans (if_neg ?_))
  rintro ⟨hi, hc⟩
  rcases hp with ⟨hp, ha⟩ | hp
  · exact hi.elim hp (Bool.eq_false_iff.1 ha)
  · rw [hp] at hc; cases hc
end

theorem putack_idle (h : y.wback = false) : exec .putack s = .next s := by
  unfold lineOf at hy
  rw [show exec .putack s = execPutack s from rfl, execPutack]
  simp only [hy]
  rw [h]
  rfl

section
variable (h : y.wback = true)
include h

theorem putack_leaves (hl : y.leaving = true) : exec .putack s = .next (if y.pend.isEmpty = true ∧ y.asked.isNone = true then
      s.dropLine s.site.core.dieId s.site.n
    else (s.modLine s.site.core.dieId s.site.n fun y => { y.emptied with wback := false }).settle s.site.core.dieId s.site.n) := by
  unfold lineOf at hy
  rw [show exec .putack s = execPutack s from rfl, execPutack]
  simp only [hy]
  rw [h, hl]
  rfl

theorem putack_keeps (hl : y.leaving = false) : exec .putack s = .next ((s.modLine s.site.core.dieId s.site.n fun y =>
    { y.cleaned y.wsent with
      wback := false, wsent := [],
      perm := if y.wsent.isEmpty ∨ (y.cleaned y.wsent).isDirty then y.perm
              else if y.perm = .m then .e else if y.perm = .o then .s else y.perm }).settle s.site.core.dieId s.site.n) := by
  unfold lineOf at hy
  rw [show exec .putack s = execPutack s from rfl, execPutack]
  simp only [hy]
  rw [h, hl]
  rfl
end
end

/-! ## SLICE_FILL_ARRIVAL (R206, R365, R367, R370) -/

section
variable {s : State} {d : DieId} {l : Nat} {perm : Perm} {keep : Bool} {data : LineData}

theorem fill_none (h : (s.die d).line? l = none) : exec (.sliceFillArrival d l perm keep data) s = .next s := by
  rw [show exec (.sliceFillArrival d l perm keep data) s = execSliceFillArrival d l perm keep data s from rfl, execSliceFillArrival, h]

variable {y : Line} (hy : (s.die d).line? l = some y)
include hy

theorem fill_not_asked (h : y.asked = none) : exec (.sliceFillArrival d l perm keep data) s = .next s := by
  rw [show exec (.sliceFillArrival d l perm keep data) s = execSliceFillArrival d l perm keep data s from rfl, execSliceFillArrival, hy]
  simp only [h]

section
variable (h : y.asked = some .gets)
include h

theorem fill_keeps (hk : keep = true) (hd : y.dropIt = false) : exec (.sliceFillArrival d l perm keep data) s =
    .next ((s.modLine d l fun y =>
      let z := if y.away then y.emptied else y
      { z.filled y.fillSecs data with
        perm := if z.perm = .i then perm else z.perm, asked := y.nextAsk, nextX := false, want := [] }).settle d l) := by
  rw [show exec (.sliceFillArrival d l perm keep data) s = execSliceFillArrival d l perm keep data s from rfl, execSliceFillArrival, hy]
  simp only [h]
  rw [if_neg (by simp [hk, hd])]

/-- Data used once serves the waiting reads and is not kept. -/
theorem fill_once (hk : keep = false ∨ y.dropIt = true) : exec (.sliceFillArrival d l perm keep data) s =
    .next (if y.pend.isEmpty = true ∧ (!y.wback) = true ∧ y.perm = .i ∧ (!y.nextX) = true then
        ((s.closeWindow d l).captureAll d l).dropLine d l
      else (((s.closeWindow d l).captureAll d l).modLine d l fun y =>
        { y with asked := y.nextAsk, nextX := false, dropIt := false, want := [] }).settle d l) := by
  rw [show exec (.sliceFillArrival d l perm keep data) s = execSliceFillArrival d l perm keep data s from rfl, execSliceFillArrival, hy]
  simp only [h]
  rw [if_pos]
  rcases hk with hk | hk
  · exact .inl (by rw [hk]; rfl)
  · exact .inr hk
end

/-- The data of a GETX waits for its GRANT. -/
theorem fill_comes (h : y.asked ≠ none) (hg : y.asked ≠ some .gets) : exec (.sliceFillArrival d l perm keep data) s =
    .next (s.modLine d l fun y =>
      let z := if y.away then y.emptied else y
      { z.filled y.fillSecs data with want := [], came := true }) := by
  rw [show exec (.sliceFillArrival d l perm keep data) s = execSliceFillArrival d l perm keep data s from rfl, execSliceFillArrival, hy]
  dsimp only
  split
  case h_1 k => exact absurd k h
  case h_2 k => exact absurd k hg
  case h_3 => rfl
end

/-! ## DONE (R365, R368) -/

section
variable {s : State}

theorem done_none (h : ∀ e : DirEntry, entryOf s = some e → e.txn = none) : exec .done s = .next s := by
  rw [show exec .done s = execDone s from rfl, execDone]
  cases he : entryOf s with
  | none =>
    unfold entryOf at he
    simp only [he]
  | some e =>
    have ht := h e he
    unfold entryOf at he
    simp only [he, ht]

variable {e : DirEntry} {t : Txn} (he : entryOf s = some e) (ht : e.txn = some t)
include he ht

/-- One of the acknowledgements that a GETX or a recall awaits. -/
theorem done_counts (hk : t.kind = .recall ∨ (t.kind = .getx ∧ t.granted = false)) : exec .done s =
    .next ((s.putEntry s.site.core.pkg { e with txn := some { t with acks := t.acks - 1 } }).advanceTxn s.site.core.pkg s.site.n) := by
  rw [← ackTxn_counts he ht]
  unfold entryOf at he
  rw [show exec .done s = execDone s from rfl, execDone]
  rcases hk with hk | ⟨hk, hg⟩
  · simp only [he, ht, hk]
  · simp only [he, ht, hk, hg]
    rfl

theorem done_owner (hk : t.kind = .getx) (hg : t.granted = true) : exec .done s =
    .next (if e.st = .i ∧ t.req.die = homeDie s.site.n then s.closeTxn s.site.core.pkg { e with txn := none }
      else s.closeTxn s.site.core.pkg { e with txn := none, st := .m, owner := t.req.die, dies := [], pkgs := [] }) := by
  unfold entryOf at he
  rw [show exec .done s = execDone s from rfl, execDone]
  simp only [he, ht, hk, hg]
  rfl

theorem done_putm (hk : t.kind = .putm) : exec .done s = .next s := by
  unfold entryOf at he
  rw [show exec .done s = execDone s from rfl, execDone]
  simp only [he, ht, hk]

/-- The entry once its owner has sent its data to a reader. -/
def forwarded (e : DirEntry) (dirty : Bool) : DirEntry :=
  if dirty = true then { e with txn := none, st := .o } else ({ e with txn := none, st := .s } : DirEntry).share e.owner

theorem done_gets (hk : t.kind = .gets) : exec .done s = .next (s.closeTxn s.site.core.pkg
    (if t.req.noKeep = true then forwarded e s.site.flag else (forwarded e s.site.flag).share t.req.die)) := by
  unfold entryOf at he
  rw [show exec .done s = execDone s from rfl, execDone]
  simp only [he, ht, hk]
  unfold forwarded
  cases s.site.flag <;> rfl
end

/-! ## The four requests (R364, R365, R370) -/

section
variable {s : State} {x : CohReq} {keep : Bool} {data : LineData} {secs : List Nat}

theorem exec_gets : exec (.gets x) s = .next (s.atDirectory x .gets fun p s =>
    s.startTxn p (.gets { x with noKeep := x.noKeep || s.coarseFor x.die x.line }) .gets
      { x with noKeep := x.noKeep || s.coarseFor x.die x.line }) := rfl

theorem exec_getx : exec (.getx x) s = .next (s.atDirectory x .getx fun p s =>
    if s.coarseFor x.die x.line then s.carryHome x.die x.line else s.startTxn p (.getx x) .getx x) := rfl

theorem exec_upg : exec (.upg x) s = .next (s.atDirectory x .upg fun p s =>
    if s.coarseFor x.die x.line ∧ !(s.stillShares x.die x.line) then s.carryHome x.die x.line
    else s.startTxn p (.upg x) .getx x) := rfl

theorem exec_putm : exec (.putm x keep data secs) s = .next (s.atDirectory x (fun x => .putm x keep data secs) fun p s =>
    s.startTxn p (.putm x keep data secs) .putm x) := rfl

/-- The four requests for a line. -/
def requests (x : CohReq) (keep : Bool) (data : LineData) (secs : List Nat) : List Instr :=
  [.gets x, .getx x, .upg x, .putm x keep data secs]

/-- What all four requests do alike: a LOST region serves none, one under an older generation is sent again, and one waits. -/
theorem request_lost (h : s.isLost x.line = true) : ∀ i ∈ requests x keep data secs, exec i s = .next (s.loseLine x.die x.line) := by
  simp only [requests, List.forall_mem_cons]
  exact ⟨exec_gets.trans (congrArg _ (atDirectory_lost h)), exec_getx.trans (congrArg _ (atDirectory_lost h)),
    exec_upg.trans (congrArg _ (atDirectory_lost h)), exec_putm.trans (congrArg _ (atDirectory_lost h)), List.forall_mem_nil _⟩

theorem request_older (h : s.isLost x.line = false) (hg : olderGen x.gen (s.pkg (s.dirOf x.line)).podgen = true) :
    ∀ q ∈ (requests x keep data secs).zip (requests { x with gen := (s.pkg (s.dirOf x.line)).podgen } keep data secs),
      exec q.1 s = .next (s.later q.2) := by
  simp only [requests, List.zip_cons_cons, List.zip_nil_left, List.forall_mem_cons]
  exact ⟨exec_gets.trans (congrArg _ (atDirectory_older h hg)), exec_getx.trans (congrArg _ (atDirectory_older h hg)),
    exec_upg.trans (congrArg _ (atDirectory_older h hg)), exec_putm.trans (congrArg _ (atDirectory_older h hg)), List.forall_mem_nil _⟩

theorem request_waits (h : s.isLost x.line = false) (hg : olderGen x.gen (s.pkg (s.dirOf x.line)).podgen = false)
    (hw : (s.pkg (s.dirOf x.line)).dirUp = false ∨ ∃ y : Line, (s.die (homeDie x.line)).line? x.line = some y ∧ y.locked = true) :
    ∀ i ∈ requests x keep data secs, exec i s = .next (s.later i) := by
  simp only [requests, List.forall_mem_cons]
  exact ⟨exec_gets.trans (congrArg _ (atDirectory_waits h hg hw)), exec_getx.trans (congrArg _ (atDirectory_waits h hg hw)),
    exec_upg.trans (congrArg _ (atDirectory_waits h hg hw)), exec_putm.trans (congrArg _ (atDirectory_waits h hg hw)), List.forall_mem_nil _⟩
end

/-- Settles O56, event by event. -/
theorem coherenceEvents : Obligations.CoherenceEvents := by
  unfold Obligations.CoherenceEvents
  refine ⟨fun s x keep data secs => ⟨request_lost, request_older, fun h hg => ⟨request_waits h hg, fun hup hl => ?served⟩⟩,
    fun s p i kind x => ⟨fun e he => ⟨startTxn_busy he, startTxn_no_slot he, startTxn_opens he⟩, fun he => ⟨startTxn_putm he,
      fun hk => ⟨startTxn_behind he hk, fun hw => ⟨startTxn_home he hk hw, startTxn_once he hk hw, fun hd hg => ?enters⟩⟩⟩⟩,
    fun s => ⟨openAck_none, fun e he => ⟨openAck_closed he, fun t ht => ⟨openAck_again he ht, fun ho => ?opens⟩⟩⟩,
    fun s p l d b => ⟨invalidation_acts, invalidation_waits, fun y hy => ⟨invalidate_shared hy, invalidate_asked hy,
      invalidate_other hy⟩, fun e t he ht => congrArg _ (ackTxn_counts he ht), fun h => congrArg _ (ackTxn_none h),
      fun e t he ht => ⟨advanceTxn_waits he ht, fun ho hz => ⟨fun hk hgr => ?granted, fun hk hgr => ?grants,
        advanceTxn_recall he ht ho hz⟩⟩⟩,
    fun s p l owner req => ⟨fun h => ⟨forward_absent_gets h, forward_absent_getx h, forward_absent_recall h⟩, fun y hy hp =>
      ⟨forward_locked hy hp, fun hl => ⟨forward_gets hy hp hl, forward_getx hy hp hl, forward_recall hy hp hl⟩⟩⟩,
    fun s => ⟨fun h => ⟨grant_none h, putack_none h⟩, fun y hy => ⟨grant_not_asked hy, fun hn hg => ?asked, putack_idle hy,
      fun hw hl => ?leaves, putack_keeps hy⟩⟩,
    fun s d l perm keep data => ⟨fill_none, fun y hy => ⟨fill_not_asked hy, fill_keeps hy, fun ha hk => ?once, fill_comes hy⟩⟩,
    fun s => ⟨done_none, fun e t he ht => ⟨fun hk hg => ?owner, fun hk hg => done_counts he ht (.inr ⟨hk, hg⟩),
      fun hk => done_counts he ht (.inl hk), done_putm he ht, done_gets he ht⟩⟩,
    fun s p l m st owner dies pkgs => ⟨rfl, fun h => ?closes, fun h => ?frees⟩⟩
  case served =>
    have hs {again : CohReq → Instr} {k : Nat → State → State} := atDirectory_served (again := again) (k := k) h hg hup hl
    refine ⟨exec_gets.trans (congrArg _ hs), fun hc => exec_getx.trans (congrArg _ (hs.trans (if_pos hc))),
      fun hc => exec_getx.trans (congrArg _ (hs.trans (if_neg (Bool.eq_false_iff.1 hc)))),
      fun hc hn => exec_upg.trans (congrArg _ (hs.trans (if_pos ⟨hc, by rw [hn]; rfl⟩))),
      fun hc => exec_upg.trans (congrArg _ (hs.trans (if_neg ?_))), exec_putm.trans (congrArg _ hs)⟩
    rintro ⟨hc', hn⟩
    rcases hc with hc | hc
    · exact Bool.eq_false_iff.1 hc hc'
    · rw [hc] at hn; cases hn
  case enters =>
    have ht := startTxn_enters (i := i) he hk hw hd hg
    exact ⟨fun ho => ht.trans (if_pos ho), fun ho => ⟨fun hr => ht.trans ((if_neg (Nat.not_le.2 ho)).trans (if_pos hr)),
      fun hr => ht.trans ((if_neg (Nat.not_le.2 ho)).trans (if_neg (Nat.not_lt.2 hr)))⟩⟩
  case opens =>
    have hline := entry?_line he
    have hgo := openAck_goes he ht ho
    refine ⟨fun hk => ?_, fun hk => ?_, fun hk keep data secs z ha => ?_, fun hk => ?_⟩
    · rw [goTxn_gets hk] at hgo
      refine ⟨fun hi => ⟨fun hh => ?_, fun hh => ?_, fun hh => ?_⟩, fun hs => ?_, fun hi hs => ⟨fun hd => ?_, fun hd => ?_⟩⟩
      · exact hgo.trans (congrArg _ (goGets_dirty (e := opened e t) hline hi hh))
      · exact hgo.trans (congrArg _ (goGets_clean (e := opened e t) hline hi hh))
      · exact hgo.trans (congrArg _ (goGets_alone (e := opened e t) hline hi hh))
      · exact hgo.trans (congrArg _ (goGets_shared (e := opened e t) hline hs))
      · exact hgo.trans (congrArg _ ((goGets_owned (e := opened e t) hline hi hs).trans (if_pos hd)))
      · exact hgo.trans (congrArg _ ((goGets_owned (e := opened e t) hline hi hs).trans (if_neg hd)))
    · rw [goTxn_getx hk] at hgo
      refine ⟨fun hi => ?_, fun hs hh => ?_, fun hs hh => ?_, fun hi hs => ⟨fun hd => ?_, fun hd => ?_⟩⟩
      · exact hgo.trans (congrArg _ (goGetx_uncached (e := opened e t) hline hi))
      · exact hgo.trans (congrArg _ ((goGetx_shared (e := opened e t) hline hs).trans (congrArg (State.advanceTxn · _ _) (if_pos hh))))
      · exact hgo.trans (congrArg _ ((goGetx_shared (e := opened e t) hline hs).trans 
          (congrArg (State.advanceTxn · _ _) (if_neg (Bool.eq_false_iff.1 hh)))))
      · exact hgo.trans (congrArg _ ((goGetx_owned (e := opened e t) hline hi hs).trans (congrArg (State.advanceTxn · _ _) (if_pos hd))))
      · exact hgo.trans (congrArg _ ((goGetx_owned (e := opened e t) hline hi hs).trans (congrArg (State.advanceTxn · _ _) (if_neg hd))))
    · rw [goTxn_putm hk ha] at hgo
      refine ⟨fun hst => hgo.trans (congrArg _ (goPutm_stale (e := opened e t) hline hst)), fun hd hs hi => ?_⟩
      replace hgo := hgo.trans (congrArg _ (goPutm_stores (e := opened e t) hline hd hs hi))
      refine ⟨fun hst => hgo.trans (congrArg (fun f => Host.Outcome.next (State.closeTxn _ _ f)) (if_pos hst)), fun hst ho => ?_,
        fun hst ho => ?_⟩
      all_goals replace hgo := hgo.trans (congrArg (fun f => Host.Outcome.next (State.closeTxn _ _ f)) (if_neg (Bool.eq_false_iff.1 hst)))
      · exact hgo.trans (congrArg (fun f => Host.Outcome.next (State.closeTxn _ _ f)) (if_neg ho))
      · exact hgo.trans (congrArg (fun f => Host.Outcome.next (State.closeTxn _ _ f)) (if_pos ho))
    · rw [goTxn_recall hline hk] at hgo
      exact ⟨fun hr => hgo.trans (by rw [if_pos hr]; rfl), fun hr => hgo.trans (by rw [if_neg (Bool.eq_false_iff.1 hr)]; rfl)⟩
  case granted => exact (advanceTxn_getx he ht ho hz hk).trans (if_pos hgr)
  case grants => exact (advanceTxn_getx he ht ho hz hk).trans (if_neg (Bool.eq_false_iff.1 hgr))
  case asked =>
    have h : ¬(y.asked = none ∨ y.asked = some .gets) := not_or.2 ⟨hn, hg⟩
    exact ⟨grant_waits hy h, fun hp => ⟨fun hw => (grant_holds hy h hp).trans (by rw [if_pos (List.isEmpty_iff.2 hw)]; rfl),
      fun hw => (grant_holds hy h hp).trans (by rw [if_neg (mt List.isEmpty_iff.1 hw)]; rfl)⟩⟩
  case leaves =>
    refine ⟨fun hp ha => (putack_leaves hy hw hl).trans (congrArg _ (if_pos ⟨List.isEmpty_iff.2 hp, Option.isNone_iff_eq_none.2 ha⟩)),
      fun hp => (putack_leaves hy hw hl).trans (congrArg _ (if_neg ?_))⟩
    rintro ⟨h1, h2⟩
    exact hp.elim (fun k => k (List.isEmpty_iff.1 h1)) (fun k => k (Option.isNone_iff_eq_none.1 h2))
  case once =>
    refine ⟨fun hp hw hi hx => (fill_once hy ha hk).trans (congrArg _ (if_pos ⟨List.isEmpty_iff.2 hp, by rw [hw]; rfl, hi,
      by rw [hx]; rfl⟩)), fun hp => (fill_once hy ha hk).trans (congrArg _ (if_neg ?_))⟩
    rintro ⟨h1, h2, h3, h4⟩
    rcases hp with hp | hp | hp | hp
    · exact hp (List.isEmpty_iff.1 h1)
    · rw [hp] at h2; cases h2
    · exact hp h3
    · rw [hp] at h4; cases h4
  case owner =>
    exact ⟨fun hi hd => (done_owner he ht hk hg).trans (congrArg _ (if_pos ⟨hi, hd⟩)),
      fun hd => (done_owner he ht hk hg).trans (congrArg _ (if_neg fun k => hd.elim (· k.1) (· k.2)))⟩
  case closes => exact congrArg (fun f => Host.Outcome.next (s.modPkg m f)) (funext fun x => by dsimp only; rw [if_neg h])
  case frees => exact congrArg (fun f => Host.Outcome.next (s.modPkg m f)) (funext fun x => by dsimp only; rw [if_pos h])

end Sys2Proof.Proofs.Coherence
end
section
/-! The canonical form of every memory (R3, R202, R203): what it says of the parts of a state, and one rule for each way in which a state's
parts change. -/

namespace Sys2Proof.Proofs.MemoryForm

open Sys2Proof Sys2Proof.Machine

/-! ## The form, part by part -/

/-- A core's own memories have the canonical form. -/
def CoreOk (k : Core) : Prop :=
  k.lanes.wf = true ∧ k.ctlPad.wf = true ∧ k.opmem.wf = true ∧ k.scales.wf = true ∧ k.acc.wf = true

/-- The bytes of a slice's line have it. -/
def LineOk (y : Line) : Prop := y.bytes.wf = true

/-- The bytes of every line that a die holds have it. -/
def DieOk (x : Die) : Prop := ∀ y ∈ x.lines, LineOk y

/-- A package's flash has it. -/
def PackageOk (x : Package) : Prop := x.flash.wf = true

/-- What a save keeps of a matrix engine has it. -/
def MatOk (x : SavedMat) : Prop := x.opmem.wf = true ∧ x.scales.wf = true ∧ x.acc.wf = true

def SavedOk (v : Saved) : Prop := ∀ x ∈ v.mats, MatOk x

/-- The parts of a state that hold memories have it. -/
def PartsOk (m : Memory) (cores : List (CoreId × Core)) (dies : List (DieId × Die)) (pkgs : List (Nat × Package)) (saves : List Saved) : Prop :=
  m.wf = true ∧ (∀ p ∈ cores, CoreOk p.2) ∧ (∀ p ∈ dies, DieOk p.2) ∧ (∀ p ∈ pkgs, PackageOk p.2) ∧ ∀ v ∈ saves, SavedOk v

/-- Every memory of a state has it: `State.memOk`, said by parts. -/
def MemOk (s : State) : Prop := PartsOk s.mem s.cores s.dies s.packages s.saves

theorem memOk_iff (s : State) : s.memOk = true ↔ MemOk s := by
  unfold State.memOk MemOk PartsOk DieOk LineOk PackageOk SavedOk MatOk CoreOk
  simp only [Bool.and_eq_true, List.all_eq_true, and_assoc]

/-! ## Tables -/

theorem forall_mem_set {κ α : Type} [DecidableEq κ] {P : α → Prop} {k : κ} {v : α} (hv : P v) :
    ∀ {m : List (κ × α)}, (∀ p ∈ m, P p.2) → ∀ p ∈ Assoc.set m k v, P p.2
  | [], _ => by simpa [Assoc.set] using hv
  | (k', v') :: m, h => by
    obtain ⟨h1, h2⟩ := List.forall_mem_cons.1 h
    unfold Assoc.set
    split
    · exact List.forall_mem_cons.2 ⟨hv, h2⟩
    · exact List.forall_mem_cons.2 ⟨h1, forall_mem_set hv h2⟩

theorem getD_of_forall {κ α : Type} [DecidableEq κ] {P : α → Prop} {k : κ} {d : α} (hd : P d) :
    ∀ {m : List (κ × α)}, (∀ p ∈ m, P p.2) → P (Assoc.getD m k d)
  | [], _ => hd
  | (k', v') :: m, h => by
    obtain ⟨h1, h2⟩ := List.forall_mem_cons.1 h
    unfold Assoc.getD Assoc.get?
    split
    · exact h1
    · exact getD_of_forall hd h2

/-! ## Folds -/

/-- What every step keeps holds after a fold. -/
theorem foldl_keeps {α β : Type} {P : β → Prop} {f : β → α → β} (hf : ∀ b a, P b → P (f b a)) {xs : List α} {b : β} (hb : P b) :
    P (xs.foldl f b) := by
  induction xs generalizing b with
  | nil => exact hb
  | cons x xs ih => exact ih (hf b x hb)

/-! ## The parts of a state, and a part replaced -/

theorem CoreOk.reset : CoreOk Core.reset := ⟨rfl, rfl, rfl, rfl, rfl⟩

theorem CoreOk.unlisted (c : CoreId) : CoreOk (Core.unlisted c) := by
  unfold Core.unlisted
  split
  · exact CoreOk.reset
  · exact ⟨rfl, rfl, rfl, rfl, rfl⟩

theorem DieOk.reset : DieOk Die.reset := fun _ hy => absurd hy List.not_mem_nil

theorem PackageOk.reset : PackageOk Package.reset := rfl

section
variable {s : State}

theorem MemOk.core (h : MemOk s) (c : CoreId) : CoreOk (s.core c) := by
  obtain ⟨_, hc, _⟩ := h
  exact getD_of_forall (CoreOk.unlisted c) hc

theorem MemOk.die (h : MemOk s) (d : DieId) : DieOk (s.die d) := by
  obtain ⟨_, _, hd, _⟩ := h
  exact getD_of_forall DieOk.reset hd

theorem MemOk.pkg (h : MemOk s) (p : Nat) : PackageOk (s.pkg p) := by
  obtain ⟨_, _, _, hp, _⟩ := h
  exact getD_of_forall PackageOk.reset hp

/-- A state that differs in none of its memories. -/
theorem MemOk.same {t : State} (h : MemOk s) (hm : t.mem = s.mem) (hc : t.cores = s.cores) (hd : t.dies = s.dies)
    (hp : t.packages = s.packages) (hv : t.saves = s.saves) : MemOk t := by
  unfold MemOk
  rwa [hm, hc, hd, hp, hv]

theorem MemOk.setCore {c : CoreId} {k : Core} (h : MemOk s) (hk : CoreOk k) : MemOk (s.setCore c k) := by
  obtain ⟨hm, hc, hrest⟩ := h
  exact ⟨hm, forall_mem_set hk hc, hrest⟩

theorem MemOk.setDie {d : DieId} {x : Die} (h : MemOk s) (hx : DieOk x) : MemOk (s.setDie d x) := by
  obtain ⟨hm, hc, hd, hrest⟩ := h
  exact ⟨hm, hc, forall_mem_set hx hd, hrest⟩

theorem MemOk.setPkg {p : Nat} {x : Package} (h : MemOk s) (hx : PackageOk x) : MemOk (s.setPkg p x) := by
  obtain ⟨hm, hc, hd, hp, hv⟩ := h
  exact ⟨hm, hc, hd, forall_mem_set hx hp, hv⟩

theorem MemOk.modCore {c : CoreId} {f : Core → Core} (h : MemOk s) (hf : ∀ k, CoreOk k → CoreOk (f k)) : MemOk (s.modCore c f) :=
  h.setCore (hf _ (h.core c))

theorem MemOk.modDie {d : DieId} {f : Die → Die} (h : MemOk s) (hf : ∀ x, DieOk x → DieOk (f x)) : MemOk (s.modDie d f) :=
  h.setDie (hf _ (h.die d))

theorem MemOk.modPkg {p : Nat} {f : Package → Package} (h : MemOk s) (hf : ∀ x, PackageOk x → PackageOk (f x)) : MemOk (s.modPkg p f) :=
  h.setPkg (hf _ (h.pkg p))

/-- Memories stand in cores, dies, packages and saves: clusters, activations, the agenda and the timers hold none. -/
theorem MemOk.setCluster {k : CluId} {x : Cluster} (h : MemOk s) : MemOk (s.setCluster k x) := h
theorem MemOk.modCluster {k : CluId} {f : Cluster → Cluster} (h : MemOk s) : MemOk (s.modCluster k f) := h
theorem MemOk.setAct {a : Nat} {x : Act} (h : MemOk s) : MemOk (s.setAct a x) := h
theorem MemOk.modAct {a : Nat} {f : Act → Act} (h : MemOk s) : MemOk (s.modAct a f) := by
  unfold State.modAct
  split
  · exact h
  · exact h

/-! ## A part changed many times, or by a case -/

theorem MemOk.foldl {α : Type} {f : State → α → State} (hf : ∀ s x, MemOk s → MemOk (f s x)) {xs : List α} (h : MemOk s) :
    MemOk (xs.foldl f s) :=
  foldl_keeps hf h

/-- The same where a fold carries something beside the state. -/
theorem MemOk.foldlSnd {α β : Type} {f : β × State → α → β × State} (hf : ∀ p x, MemOk p.2 → MemOk (f p x).2) {xs : List α}
    {p : β × State} (h : MemOk p.2) : MemOk (xs.foldl f p).2 :=
  foldl_keeps (P := fun (p : β × State) => MemOk p.2) hf h

theorem MemOk.foldlFst {α β : Type} {f : State × β → α → State × β} (hf : ∀ p x, MemOk p.1 → MemOk (f p x).1) {xs : List α}
    {p : State × β} (h : MemOk p.1) : MemOk (xs.foldl f p).1 :=
  foldl_keeps (P := fun (p : State × β) => MemOk p.1) hf h

theorem MemOk.ite {t : State} {p : Prop} [Decidable p] (h : MemOk s) (ht : MemOk t) : MemOk (if p then s else t) := by
  split
  · exact h
  · exact ht
end

end Sys2Proof.Proofs.MemoryForm
end
section
/-! The canonical form of the memories of a core, of a line, of a die and of a save: which operations on such a part keep it. -/

namespace Sys2Proof.Proofs.MemoryForm

open Sys2Proof Sys2Proof.Machine

/-! ## Memories -/

theorem wf_foldl_put {α : Type} {m : Memory} {a : α → Nat} {v : α → Byte} (hm : m.wf = true) (xs : List α) :
    (xs.foldl (fun (m : Memory) x => m.put (a x) (v x)) m).wf = true :=
  foldl_keeps (P := fun (m : Memory) => m.wf = true) (fun _ _ h => Memory.put_wf h) hm

theorem wf_foldl_putN {α : Type} {m : Memory} {a : α → Nat} {v : α → List Byte} (hm : m.wf = true) (xs : List α) :
    (xs.foldl (fun (m : Memory) x => m.putN (a x) (v x)) m).wf = true :=
  foldl_keeps (P := fun (m : Memory) => m.wf = true) (fun _ _ h => Memory.putN_wf h) hm

/-! ## A core's own memories: its lanes, its control pad, and the operands, scales and accumulators of its matrix engine -/

section
variable {k : Core}

theorem CoreOk.withLanes {m : Memory} (h : CoreOk k) (hm : m.wf = true) : CoreOk { k with lanes := m } := ⟨hm, h.2⟩

theorem CoreOk.withCtlPad {m : Memory} (h : CoreOk k) (hm : m.wf = true) : CoreOk { k with ctlPad := m } := by
  obtain ⟨hl, _, hr⟩ := h
  exact ⟨hl, hm, hr⟩

theorem CoreOk.withOpmem {m : Memory} (h : CoreOk k) (hm : m.wf = true) : CoreOk { k with opmem := m } := by
  obtain ⟨hl, hp, _, hr⟩ := h
  exact ⟨hl, hp, hm, hr⟩

theorem CoreOk.withScales {m : Memory} (h : CoreOk k) (hm : m.wf = true) : CoreOk { k with scales := m } := by
  obtain ⟨hl, hp, ho, _, ha⟩ := h
  exact ⟨hl, hp, ho, hm, ha⟩

theorem CoreOk.withAcc {m : Memory} (h : CoreOk k) (hm : m.wf = true) : CoreOk { k with acc := m } := by
  obtain ⟨hl, hp, ho, hs, _⟩ := h
  exact ⟨hl, hp, ho, hs, hm⟩

theorem CoreOk.lanes (h : CoreOk k) : k.lanes.wf = true := h.1

theorem CoreOk.ctlPad (h : CoreOk k) : k.ctlPad.wf = true := by
  obtain ⟨_, hp, _⟩ := h
  exact hp

theorem CoreOk.opmem (h : CoreOk k) : k.opmem.wf = true := by
  obtain ⟨_, _, ho, _⟩ := h
  exact ho

theorem CoreOk.scales (h : CoreOk k) : k.scales.wf = true := by
  obtain ⟨_, _, _, hs, _⟩ := h
  exact hs

theorem CoreOk.acc (h : CoreOk k) : k.acc.wf = true := by
  obtain ⟨_, _, _, _, ha⟩ := h
  exact ha

theorem CoreOk.putImage {x : Slice} {bs : List Byte} (h : CoreOk k) : CoreOk (k.putImage x bs) :=
  h.withLanes (wf_foldl_put h.lanes _)

theorem CoreOk.putLane {row l w : Nat} (h : CoreOk k) : CoreOk (k.putLane row l w) := h.withLanes (wf_foldl_put h.lanes _)

theorem CoreOk.putSlot {i off : Nat} {bs : List Byte} (h : CoreOk k) : CoreOk (k.putSlot i off bs) := h.withOpmem (Memory.putN_wf h.opmem)

theorem CoreOk.putScales {i first : Nat} {cs : List Byte} (h : CoreOk k) : CoreOk (k.putScales i first cs) :=
  h.withScales (Memory.putN_wf h.scales)

theorem CoreOk.putTile {i : Nat} {bs : List Byte} (h : CoreOk k) : CoreOk (k.putTile i bs) := h.withAcc (Memory.putN_wf h.acc)

theorem CoreOk.putWords {i : Nat} {ws : List Nat} (h : CoreOk k) : CoreOk (k.putWords i ws) := h.putTile

theorem CoreOk.putRow {t i : Nat} {x : RowState} (h : CoreOk k) : CoreOk (k.putRow t i x) := h

theorem CoreOk.withOClaim {o : List (Option (BitVec 9))} (h : CoreOk k) : CoreOk { k with oClaim := o } := h

theorem CoreOk.withAClaim {a : List (Option (BitVec 9))} (h : CoreOk k) : CoreOk { k with aClaim := a } := h

theorem CoreOk.clearSlot {i : Nat} (h : CoreOk k) : CoreOk (k.clearSlot i) := by
  unfold Core.clearSlot
  exact h.putSlot.putScales.withOClaim

theorem CoreOk.withRows {rows : List ((Nat × Nat) × RowState)} {a : List (Option (BitVec 9))} (h : CoreOk k) :
    CoreOk { k with rows := rows, aClaim := a } := h

theorem CoreOk.clearTile {i : Nat} (h : CoreOk k) : CoreOk (k.clearTile i) := by
  unfold Core.clearTile
  exact h.putTile.withRows

theorem CoreOk.withQueues {q : List (Byte × BitVec 9)} {n : List (BitVec 9 × Nat)}
    {b : List ((BitVec 9 × Nat) × (Nat × (List Byte × List Byte)))} (h : CoreOk k) :
    CoreOk { k with scaleQ := q, mmaxN := n, mmaxBuf := b } := h

theorem CoreOk.releaseClaims {col : BitVec 9} (h : CoreOk k) : CoreOk (k.releaseClaims col) := by
  have slots : ∀ (k : Core) (i : Nat), CoreOk k → CoreOk (if k.oClaim.getD i none = some col then k.clearSlot i else k) := by
    intro k i hk
    split
    · exact hk.clearSlot
    · exact hk
  have tiles : ∀ (k : Core) (i : Nat), CoreOk k → CoreOk (if k.aClaim.getD i none = some col then k.clearTile i else k) := by
    intro k i hk
    split
    · exact hk.clearTile
    · exact hk
  unfold Core.releaseClaims
  exact (foldl_keeps tiles (foldl_keeps slots h)).withQueues

theorem CoreOk.putRows {t : Nat} {x : Nat → RowState} {n : List Nat} (h : CoreOk k) :
    CoreOk (n.foldl (fun k i => k.putRow t i (x i)) k) :=
  foldl_keeps (fun _ _ hk => hk.putRow) h

theorem CoreOk.putGroupRow {g nt i : Nat} {ws : List Nat} (h : CoreOk k) : CoreOk (k.putGroupRow g nt i ws) :=
  foldl_keeps (fun _ _ hk => hk.withAcc (Memory.putN_wf hk.acc)) h

theorem CoreOk.runSmxu {m : MatMsg} {fr : Frame} (h : CoreOk k) : CoreOk (k.runSmxu m fr).1 :=
  foldl_keeps (P := fun (a : Core × List Byte × Flg) => CoreOk a.1) (fun a i ha => by
    split
    · exact ha.putRow.putGroupRow
    · exact ha) h

theorem CoreOk.runSmxn {m : MatMsg} (h : CoreOk k) : CoreOk (k.runSmxn m).1 :=
  foldl_keeps (P := fun (a : Core × List Nat × Flg × Nat) => CoreOk a.1) (fun a i ha => by
    dsimp only
    split
    · exact ha
    · split
      · exact ha.putRow
      · exact ha) h

theorem CoreOk.runSmxm {m : MatMsg} (h : CoreOk k) : CoreOk (k.runSmxm m).1 :=
  foldl_keeps (P := fun (a : Core × Flg) => CoreOk a.1) (fun _ _ ha => CoreOk.putGroupRow (CoreOk.putRow ha)) h

/-! What else changes a core leaves its memories as they are. -/

theorem CoreOk.setHold {p : Path} {es : List Entry} (h : CoreOk k) : CoreOk (k.setHold p es) := by
  cases p <;> exact h

theorem CoreOk.without {gone : MemReq → Bool} (h : CoreOk k) : CoreOk (k.without gone) := h

theorem CoreOk.putBlock {x : Image} {b : Block} (h : CoreOk k) : CoreOk (k.putBlock x b) := by
  unfold Core.putBlock
  refine foldl_keeps (P := CoreOk) (fun k i hk => ?_) h
  exact hk

theorem CoreOk.install {x : Image} {es : List Word} {b : Block} {wing : Nat} (h : CoreOk k) : CoreOk (k.install x es b wing) :=
  CoreOk.putBlock h

theorem CoreOk.disown {gone : List Word} (h : CoreOk k) : CoreOk (k.disown gone) := h

theorem CoreOk.purge {c : CoreId} {col : BitVec 9} (h : CoreOk k) : CoreOk (k.purge c col) := h
end

/-! ## A slice's line, and the lines of a die -/

section
variable {y : Line} {x : Die}

theorem LineOk.fresh {l : Nat} {p : Perm} {passing : Bool} : LineOk (Line.fresh l p passing) := rfl

theorem LineOk.cleaned {secs : List Nat} (h : LineOk y) : LineOk (y.cleaned secs) := h

theorem LineOk.applied (h : LineOk y) : LineOk y.applied := wf_foldl_put h _

theorem LineOk.emptied : LineOk y.emptied := rfl

theorem LineOk.filled {secs : List Nat} {data : LineData} (h : LineOk y) : LineOk (y.filled secs data) := wf_foldl_putN h _

theorem DieOk.line {l : Nat} (h : DieOk x) (e : x.line? l = some y) : LineOk y := h y (List.mem_of_find?_eq_some e)

theorem DieOk.withoutBars {cols : List (BitVec 9)} (h : DieOk x) : DieOk (x.withoutBars cols) := h

theorem DieOk.filter {p : Line → Bool} (h : DieOk x) : DieOk { x with lines := x.lines.filter p } := fun y hy =>
  h y (List.mem_filter.1 hy).1

theorem DieOk.map {f : Line → Line} (h : DieOk x) (hf : ∀ y, LineOk y → LineOk (f y)) : DieOk { x with lines := x.lines.map f } := by
  intro y hy
  obtain ⟨z, hz, rfl⟩ := List.mem_map.1 hy
  exact hf z (h z hz)
end
/-! ## What a firing's own part gives -/

theorem bind_eq_ok {α β : Type} {e : Except Flt α} {k : α → Except Flt β} {b : β} :
    e >>= k = .ok b ↔ ∃ a, e = .ok a ∧ k a = .ok b := by
  cases e with
  | error x => exact ⟨nofun, nofun⟩
  | ok a => exact ⟨fun h => ⟨a, rfl, h⟩, fun ⟨_, ha, hk⟩ => by cases ha; exact hk⟩


end Sys2Proof.Proofs.MemoryForm
end
section
/-! The canonical form of every memory through the model: what a state does to its bytes, its slices and its tokens. -/

namespace Sys2Proof.Proofs.MemoryForm

open Sys2Proof Sys2Proof.Machine

section
variable {s s' : State}

/-! ## Operations of the state -/

theorem MemOk.later {i : Instr} (h : MemOk s) : MemOk (s.later i) := h

theorem MemOk.laterAt {i : Instr} {c : CoreId} {n m : Nat} {flag : Bool} (h : MemOk s) : MemOk (s.laterAt i c n m flag) := h

theorem MemOk.laterAll {is : List Item} (h : MemOk s) : MemOk (s.laterAll is) := h

theorem MemOk.nextUp {i : Instr} (h : MemOk s) : MemOk (s.nextUp i) := h

theorem MemOk.issueLater {c : CoreId} (h : MemOk s) : MemOk (s.issueLater c) := h

theorem MemOk.at_ {due : Nat} {i : Instr} {x : Site} (h : MemOk s) : MemOk (s.at_ due i x) := h

theorem MemOk.fresh (h : MemOk s) : MemOk s.fresh.2 := h

theorem MemOk.board {k : CluId} {qn : Nat} {r : List Word} (h : MemOk s) : MemOk (s.board k qn r).1 := h.setCluster

theorem MemOk.boardPkg {p qn : Nat} {r : List Word} (h : MemOk s) : MemOk (s.boardPkg p qn r) := by
  unfold State.boardPkg
  grind [MemOk.board, MemOk.foldl]

theorem MemOk.fault {k : CluId} {src : Source} {stall : Bool} {c : CoreId} {node : Nat} {tag : Word} {f : Flt} (h : MemOk s) :
    MemOk (s.fault k src stall c node tag f) := h.board

theorem MemOk.faultCur {f : Flt} (h : MemOk s) : MemOk (s.faultCur f) := h.fault

theorem MemOk.faultEngine {e₀ : CluId} {m : Msg} {stall : Bool} {f : Flt} (h : MemOk s) : MemOk (s.faultEngine e₀ m stall f) := by
  unfold State.faultEngine
  grind [MemOk.board, MemOk.fault]

theorem MemOk.modCurAct {f : Act → Act} (h : MemOk s) : MemOk (s.modCurAct f) := by
  unfold State.modCurAct
  grind [MemOk.modAct]

theorem MemOk.raiseIn {a : Nat} {fl : Flg} (h : MemOk s) : MemOk (s.raiseIn a fl) := h.modAct

theorem MemOk.raise {fl : Flg} (h : MemOk s) : MemOk (s.raise fl) := h.modCurAct

theorem MemOk.reserve {n : Nat} (h : MemOk s) : MemOk (s.reserve n) := h.modCurAct

theorem MemOk.bindColour {d : DieId} {col : BitVec 9} {a : Nat} (h : MemOk s) : MemOk (s.bindColour d col a) := by
  unfold State.bindColour
  grind [MemOk, DieOk, MemOk.modDie]

theorem MemOk.setPhase {d : DieId} {image : Word} {clus : List CluId} {col : BitVec 9} {phase : Nat} (h : MemOk s) :
    MemOk (s.setPhase d image clus col phase) := by
  unfold State.setPhase
  grind [CoreOk, MemOk.modCore, MemOk.foldl]

theorem MemOk.clearPhase {d : DieId} {col : BitVec 9} (h : MemOk s) : MemOk (s.clearPhase d col) := by
  unfold State.clearPhase
  grind [CoreOk, MemOk.modCore, MemOk.foldl]

theorem MemOk.startChild {origin : Origin} {reiss : Bool} {pdest : Option Dest} {spec : Bool} {handle : Option (DieId × Nat)} {x₁ : Word}
    {x₂ : Nat}
    (h : MemOk s) (e : s.startChild origin reiss pdest spec handle = some (x₁, x₂, s')) : MemOk s' := by
  unfold State.startChild at e
  grind [MemOk, MemOk.fresh, MemOk.reserve, MemOk.setPhase, MemOk.bindColour]

/-! ## Reads as one die performs them (R227) -/

theorem MemOk.modLink {p peer : Nat} {f : LinkSt → LinkSt} (h : MemOk s) : MemOk (s.modLink p peer f) := by
  unfold State.modLink
  grind [PackageOk, MemOk.modPkg]

/-! ## Lines of the slices and the writes of a die (R205 to R210) -/

theorem MemOk.modLine {d : DieId} {l : Nat} {f : Line → Line} (h : MemOk s) (hf : ∀ y, LineOk y → LineOk (f y)) :
    MemOk (s.modLine d l f) := by
  refine h.modDie fun x hx => hx.map fun y hy => ?_
  split
  · exact hf y hy
  · exact hy

theorem MemOk.dropLine {d : DieId} {l : Nat} (h : MemOk s) : MemOk (s.dropLine d l) := by
  unfold State.dropLine
  grind [DieOk, MemOk.modDie]

theorem MemOk.touchLine {d : DieId} {l : Nat} (h : MemOk s) : MemOk (s.touchLine d l) := by
  unfold State.touchLine
  grind [DieOk, MemOk.modDie]

theorem MemOk.storeSector {sec : Nat} {bs : List Byte} {poison : Bool} (h : MemOk s) : MemOk (s.storeSector sec bs poison) :=
  ⟨Memory.putN_wf h.1, h.2⟩

theorem MemOk.storeHome {l : Nat} {data : LineData} {sectors : List Nat} (h : MemOk s) : MemOk (s.storeHome l data sectors) := by
  unfold State.storeHome
  grind [MemOk.storeSector, MemOk.foldl]

theorem MemOk.writeBackSome {d : DieId} {l : Nat} {keep : Bool} {secs : List Nat} (h : MemOk s) : MemOk (s.writeBackSome d l keep secs) := by
  unfold State.writeBackSome
  grind [LineOk, MemOk.later, MemOk.modLine, MemOk.dropLine, MemOk.storeHome, LineOk.cleaned]

theorem MemOk.writeBack {d : DieId} {l : Nat} {keep : Bool} (h : MemOk s) : MemOk (s.writeBack d l keep) := by
  unfold State.writeBack
  grind [MemOk.writeBackSome]

theorem MemOk.makeRoom {d : DieId} {l : Nat} (h : MemOk s) : MemOk (s.makeRoom d l) := by
  unfold State.makeRoom
  grind [MemOk.writeBack]

theorem MemOk.allocLine {d : DieId} {l : Nat} (h : MemOk s) : MemOk (s.allocLine d l) := by
  unfold State.allocLine
  grind [DieOk, MemOk.touchLine, MemOk.makeRoom, MemOk.modDie, LineOk.fresh]

theorem MemOk.sendGetx {d : DieId} {y : Line} (h : MemOk s) : MemOk (s.sendGetx d y) := by
  unfold State.sendGetx
  grind [MemOk.later]

theorem MemOk.ask {d : DieId} {l : Nat} {k : FwdKind} (h : MemOk s) : MemOk (s.ask d l k) := by
  unfold State.ask
  grind [MemOk.die, DieOk.line, LineOk, MemOk.modLine, MemOk.later, MemOk.sendGetx]

theorem MemOk.wantSectors {d : DieId} {l : Nat} {secs : List Nat} (h : MemOk s) : MemOk (s.wantSectors d l secs) := by
  unfold State.wantSectors
  grind [LineOk, MemOk.allocLine, MemOk.modLine, MemOk.later, MemOk.ask]

theorem MemOk.mapSettled {d : DieId} {l : Nat} (h : MemOk s) : MemOk (s.mapSettled d l) := by
  unfold State.mapSettled
  grind [PackageOk, MemOk.boardPkg, MemOk.modPkg, MemOk.foldl]

theorem MemOk.lineSettled {d : DieId} {l : Nat} (h : MemOk s) : MemOk (s.lineSettled d l) := by
  unfold State.lineSettled
  grind [CoreOk, MemOk.mapSettled, MemOk.modCore, MemOk.foldl]

theorem MemOk.settle {d : DieId} {l : Nat} (h : MemOk s) : MemOk (s.settle d l) := by
  unfold State.settle
  grind [MemOk.ask, MemOk.lineSettled, MemOk.modLine, LineOk.applied, MemOk.wantSectors]

theorem MemOk.captureLine {c : CoreId} {id l : Nat} (h : MemOk s) : MemOk (s.captureLine c id l) := by
  unfold State.captureLine
  grind [CoreOk, MemOk.modCore]

theorem MemOk.closeWindow {d : DieId} {l : Nat} (h : MemOk s) : MemOk (s.closeWindow d l) := by
  unfold State.closeWindow
  grind [DieOk, MemOk.captureLine, MemOk.modDie, MemOk.foldl]

theorem MemOk.lineReady {d : DieId} {l : Nat} (h : MemOk s) : MemOk (s.lineReady d l).2 := by
  unfold State.lineReady
  grind [DieOk, MemOk.modDie]

theorem MemOk.writeReady {d : DieId} {nc : Bool} {pa n : Nat} (h : MemOk s) : MemOk (s.writeReady d nc pa n).2 := by
  unfold State.writeReady
  grind [MemOk.foldlSnd, MemOk.lineReady]

theorem MemOk.enterLine {d : DieId} {l off : Nat} {bs : List Byte} {owner : Option (BitVec 9)} (h : MemOk s) :
    MemOk (s.enterLine d l off bs owner) := by
  unfold State.enterLine
  grind [LineOk, MemOk.allocLine, MemOk.closeWindow, MemOk.modLine, MemOk.settle]

theorem MemOk.dieWriteGo {d : DieId} {owner : Option (BitVec 9)} {n pa : Nat} {bs : List Byte} (h : MemOk s) :
    MemOk (s.dieWriteGo d owner n pa bs) := by
  induction n generalizing s pa bs with
  | zero => exact h
  | succ n ih =>
    unfold State.dieWriteGo
    split
    · exact h
    · exact ih h.enterLine

theorem MemOk.dieWrite {d : DieId} {nc : Bool} {pa : Nat} {bs : List Byte} {owner : Option (BitVec 9)} (h : MemOk s) :
    MemOk (s.dieWrite d nc pa bs owner) := by
  unfold State.dieWrite
  split
  · exact ⟨Memory.putN_wf h.1, h.2⟩
  · split
    · exact h.dieWriteGo
    · exact h.dieWriteGo

theorem MemOk.sysWrite {d : DieId} {pa : Nat} {bs : List Byte} (h : MemOk s) : MemOk (s.sysWrite d pa bs) := h.dieWrite

theorem MemOk.sysWord {d : DieId} {pa : Nat} {w : Word} (h : MemOk s) : MemOk (s.sysWord d pa w) := h.sysWrite

theorem MemOk.spoil {d : DieId} {nc : Bool} {pa n : Nat} (h : MemOk s) : MemOk (s.spoil d nc pa n) := by
  unfold State.spoil
  grind [MemOk, LineOk, MemOk.modLine, MemOk.foldl]

theorem MemOk.fillFor {d : DieId} {l : Nat} {offs : List Nat} (h : MemOk s) : MemOk (s.fillFor d l offs) := by
  unfold State.fillFor
  grind [MemOk.wantSectors]

theorem MemOk.readLine {c : CoreId} {id l : Nat} {offs : List Nat} (h : MemOk s) : MemOk (s.readLine c id l offs) := by
  unfold State.readLine
  grind [MemOk.touchLine, MemOk.captureLine, MemOk.fillFor]

theorem MemOk.readThrough {d : DieId} {pa n : Nat} (h : MemOk s) : MemOk (s.readThrough d pa n) := by
  unfold State.readThrough
  grind [MemOk.touchLine, MemOk.fillFor, MemOk.foldl]

theorem MemOk.drawRuns {d : DieId} {who : Reader} {ps : List MemPart} (h : MemOk s) : MemOk (s.drawRuns d who ps).2 := by
  unfold State.drawRuns
  grind [DieOk, MemOk.modDie, MemOk.readThrough, MemOk.fillFor, MemOk.foldl]

theorem MemOk.dropRead {d : DieId} {who : Reader} (h : MemOk s) : MemOk (s.dropRead d who) := by
  unfold State.dropRead
  grind [DieOk, MemOk.modDie]

theorem MemOk.captureAll {d : DieId} {l : Nat} (h : MemOk s) : MemOk (s.captureAll d l) := by
  unfold State.captureAll
  grind [DieOk, MemOk.captureLine, MemOk.modDie, MemOk.foldl]

/-! ## Page walks (R211 to R215) -/

theorem MemOk.walkThrough {d : DieId} {va : Nat} (h : MemOk s) : MemOk (s.walkThrough d va) := by
  unfold State.walkThrough
  grind [MemOk.readThrough, MemOk.foldl]

theorem MemOk.translate {d : DieId} {who : Option (CoreId × Nat)} {va : Nat} (h : MemOk s) : MemOk (s.translate d who va).2 := by
  unfold State.translate
  grind [DieOk, MemOk.die, MemOk.setDie, MemOk.walkThrough]

theorem MemOk.footGo {d : DieId} {who : Option (CoreId × Nat)} {write : Bool} {f va n pages : Nat} {acc : List MemPart} (h : MemOk s) :
    MemOk (s.footGo d who write f va n acc pages).2 := by
  induction f generalizing s va n acc pages with
  | zero => exact h
  | succ f ih =>
    unfold State.footGo
    grind [MemOk.translate]

theorem MemOk.footprint {c : CoreId} {who : Option (CoreId × Nat)} {write : Bool} {va n : Nat} (h : MemOk s) :
    MemOk (s.footprint c who write va n).2 := by
  unfold State.footprint
  grind [MemOk.footGo]

/-! ## Operands and slices of the lanes -/

theorem MemOk.constFill {at_ : Nat} (h : MemOk s) : MemOk (s.constFill at_) := by
  unfold State.constFill
  grind [MemOk, CoreOk, MemOk.readThrough, MemOk.modCore]

theorem MemOk.putImage {x : Slice} {bs : List Byte} (h : MemOk s) : MemOk (s.putImage x bs) := by
  unfold State.putImage
  grind [MemOk.modCore, CoreOk.putImage]

/-! ## Tokens sent, releases, and a firing (R92, R147, R347) -/

theorem MemOk.countNull {c : CoreId} (h : MemOk s) : MemOk (s.countNull c) := by
  unfold State.countNull
  grind [CoreOk, MemOk.modCore]

theorem MemOk.openRelease {c : CoreId} {colour : BitVec 9} {scope : Option Nat} {loads blocks : Bool} {tlc : Option (Nat × Nat)}
    {held : List Item}
    (h : MemOk s) : MemOk (s.openRelease c colour scope loads blocks tlc held) := by
  unfold State.openRelease
  grind [CoreOk, MemOk.fresh, MemOk.laterAt, MemOk.modCore]

theorem MemOk.startRelease {c : CoreId} {colour : BitVec 9} {scope : Nat} {blocks : Bool} {held : List Item} (h : MemOk s) :
    MemOk (s.startRelease c colour scope blocks held) := h.openRelease

theorem MemOk.sendItem {c : CoreId} {node : Nat} {dst : BitVec 24} {t : Word} {a : Option Item} (h : MemOk s) :
    MemOk (s.sendItem c node dst t a) := by
  unfold State.sendItem
  grind [MemOk.countNull, MemOk.laterAll, MemOk.startRelease]

theorem MemOk.sendFrom {c : CoreId} {node : Nat} {dst : BitVec 24} {t : Word} {o : Operand} (h : MemOk s) :
    MemOk (s.sendFrom c node dst t o) := h.sendItem

theorem MemOk.returnFrom {c : CoreId} {node : Nat} {dst : BitVec 24} {t : Word} {o : Operand} (h : MemOk s) :
    MemOk (s.returnFrom c node dst t o) := h.sendItem

theorem MemOk.replyFrom {c : CoreId} {node : Nat} {dst : BitVec 24} {t : Word} {o : Operand} (h : MemOk s) :
    MemOk (s.replyFrom c node dst t o) := by
  unfold State.replyFrom
  grind [MemOk.laterAll]

theorem MemOk.emit {r : Rec} {dst : BitVec 24} {t : Word} {o : Operand} (h : MemOk s) : MemOk (s.emit r dst t o) := by
  unfold State.emit
  grind [MemOk.nextUp, MemOk.sendFrom]

theorem MemOk.emitA {r : Rec} {t : Word} {o : Operand} (h : MemOk s) : MemOk (s.emitA r t o) := h.emit

theorem MemOk.emitB {r : Rec} {t : Word} {o : Operand} (h : MemOk s) : MemOk (s.emitB r t o) := h.emit

theorem MemOk.out {r : Rec} {t : Word} {o : Operand} (h : MemOk s) : MemOk (s.out r t o) := h.emitA.emitB

theorem MemOk.fireRaw {f : Form} {r : Rec} {eff : State → Eff} (h : MemOk s) (heff : ∀ s', eff s = .ok s' → MemOk s')
    (e : fireRaw f r s eff = .next s') : MemOk s' := by
  unfold Machine.fireRaw at e
  grind [MemOk.faultCur]

theorem MemOk.outTag {r : Rec} {x₁ : Word} (h : MemOk s) (e : s.outTag r = .ok (x₁, s')) : MemOk s' := by
  unfold State.outTag at e
  grind [MemOk.startChild]

theorem MemOk.fire {f : Form} {r : Rec} {eff : Word → State → Eff} (h : MemOk s)
    (heff : ∀ t s s', MemOk s → eff t s = .ok s' → MemOk s') (e : fire f r s eff = .next s') : MemOk s' := by
  refine h.fireRaw (fun s' e => ?_) e
  split at e
  · exact absurd e nofun
  · exact heff _ _ _ (h.outTag ‹_›) e

theorem MemOk.retryIssue (h : MemOk s) : MemOk s.retryIssue := by
  unfold State.retryIssue
  grind [CoreOk, MemOk.issueLater, MemOk.modCore]

end

end Sys2Proof.Proofs.MemoryForm
end
section
/-! The canonical form of every memory through the model: the integer and float instructions, the fetch, and the matching of tokens. -/

namespace Sys2Proof.Proofs.MemoryForm

open Sys2Proof Sys2Proof.Machine

section
variable {s s' : State}

/-! ## Integer and address instructions (R175 to R182) -/

theorem MemOk.intOut {r : Rec} {t : Word} {x : Nat × Flg} (h : MemOk s) (e : intOut r t s x = .ok s') : MemOk s' := by
  unfold Machine.intOut at e
  grind [MemOk.out, MemOk.raise]

theorem MemOk.intBin {f : Form} {op : Nat → Nat → Nat × Flg} {r : Rec} (h : MemOk s) (e : intBin f op r s = .next s') : MemOk s' := by
  unfold Machine.intBin at e
  grind [bind_eq_ok, MemOk.fire, MemOk.intOut]

theorem MemOk.intUn {f : Form} {op : Nat → Nat × Flg} {r : Rec} (h : MemOk s) (e : intUn f op r s = .next s') : MemOk s' := by
  unfold Machine.intUn at e
  grind [bind_eq_ok, MemOk.fire, MemOk.intOut]

theorem MemOk.execAdd {r : Rec} (h : MemOk s) (e : execAdd r s = .next s') : MemOk s' := h.intBin e

theorem MemOk.execSub {r : Rec} (h : MemOk s) (e : execSub r s = .next s') : MemOk s' := h.intBin e

theorem MemOk.execMul {r : Rec} (h : MemOk s) (e : execMul r s = .next s') : MemOk s' := h.intBin e

theorem MemOk.execMulh {r : Rec} (h : MemOk s) (e : execMulh r s = .next s') : MemOk s' := h.intBin e

theorem MemOk.execDiv {r : Rec} (h : MemOk s) (e : execDiv r s = .next s') : MemOk s' := h.intBin e

theorem MemOk.execRem {r : Rec} (h : MemOk s) (e : execRem r s = .next s') : MemOk s' := h.intBin e

theorem MemOk.execNeg {r : Rec} (h : MemOk s) (e : execNeg r s = .next s') : MemOk s' := h.intUn e

theorem MemOk.execAbs {r : Rec} (h : MemOk s) (e : execAbs r s = .next s') : MemOk s' := h.intUn e

theorem MemOk.execMin {r : Rec} (h : MemOk s) (e : execMin r s = .next s') : MemOk s' := h.intBin e

theorem MemOk.execMax {r : Rec} (h : MemOk s) (e : execMax r s = .next s') : MemOk s' := h.intBin e

theorem MemOk.execAnd {r : Rec} (h : MemOk s) (e : execAnd r s = .next s') : MemOk s' := h.intBin e

theorem MemOk.execOr {r : Rec} (h : MemOk s) (e : execOr r s = .next s') : MemOk s' := h.intBin e

theorem MemOk.execXor {r : Rec} (h : MemOk s) (e : execXor r s = .next s') : MemOk s' := h.intBin e

theorem MemOk.execAndn {r : Rec} (h : MemOk s) (e : execAndn r s = .next s') : MemOk s' := h.intBin e

theorem MemOk.execShl {r : Rec} (h : MemOk s) (e : execShl r s = .next s') : MemOk s' := h.intBin e

theorem MemOk.execShr {r : Rec} (h : MemOk s) (e : execShr r s = .next s') : MemOk s' := h.intBin e

theorem MemOk.execSar {r : Rec} (h : MemOk s) (e : execSar r s = .next s') : MemOk s' := h.intBin e

theorem MemOk.execRotl {r : Rec} (h : MemOk s) (e : execRotl r s = .next s') : MemOk s' := h.intBin e

theorem MemOk.execClz {r : Rec} (h : MemOk s) (e : execClz r s = .next s') : MemOk s' := h.intUn e

theorem MemOk.execCtz {r : Rec} (h : MemOk s) (e : execCtz r s = .next s') : MemOk s' := h.intUn e

theorem MemOk.execPopc {r : Rec} (h : MemOk s) (e : execPopc r s = .next s') : MemOk s' := h.intUn e

theorem MemOk.execBrev {r : Rec} (h : MemOk s) (e : execBrev r s = .next s') : MemOk s' := h.intUn e

theorem MemOk.execBext {r : Rec} (h : MemOk s) (e : execBext r s = .next s') : MemOk s' := by
  unfold Machine.execBext at e
  grind [bind_eq_ok, MemOk.fire, MemOk.intOut]

theorem MemOk.execBins {r : Rec} (h : MemOk s) (e : execBins r s = .next s') : MemOk s' := by
  unfold Machine.execBins at e
  grind [bind_eq_ok, MemOk.fire, MemOk.intOut]

theorem MemOk.execCmp {r : Rec} (h : MemOk s) (e : execCmp r s = .next s') : MemOk s' := by
  unfold Machine.execCmp at e
  grind [bind_eq_ok, MemOk.fire, MemOk.out]

theorem MemOk.execSel {r : Rec} (h : MemOk s) (e : execSel r s = .next s') : MemOk s' := by
  unfold Machine.execSel at e
  grind [bind_eq_ok, MemOk.fire, MemOk.intOut]

theorem MemOk.execMadd {r : Rec} (h : MemOk s) (e : execMadd r s = .next s') : MemOk s' := by
  unfold Machine.execMadd at e
  grind [bind_eq_ok, MemOk.fire, MemOk.intOut]

theorem MemOk.execLea {r : Rec} (h : MemOk s) (e : execLea r s = .next s') : MemOk s' := by
  unfold Machine.execLea at e
  grind [bind_eq_ok, MemOk.fire, MemOk.out]

theorem MemOk.execLine {r : Rec} (h : MemOk s) (e : execLine r s = .next s') : MemOk s' := by
  unfold Machine.execLine at e
  grind [bind_eq_ok, MemOk.fire, MemOk.emitB, MemOk.emitA]

/-! ## The passing of time and the fetch -/

theorem MemOk.modIsland {p i : Nat} {f : Island → Island} (h : MemOk s) : MemOk (s.modIsland p i f) := by
  unfold State.modIsland
  grind [PackageOk, MemOk.modPkg]

theorem MemOk.countDrowsy {c : CoreId} {n : Nat} (h : MemOk s) : MemOk (s.countDrowsy c n) := h.modIsland

theorem MemOk.wakeRouter {c : CoreId} (h : MemOk s) : MemOk (s.wakeRouter c) := by
  unfold State.wakeRouter
  grind [CoreOk, MemOk.core, MemOk.modIsland, MemOk.setCore, MemOk.countDrowsy]

theorem MemOk.tick (h : MemOk s) : MemOk s.tick := h

/-! ## Matching, the ready queue and the wings (R131 to R142) -/

theorem MemOk.writeWing {c : CoreId} {i : Nat} {bs : List Byte} (h : MemOk s) : MemOk (s.writeWing c i bs) := h.sysWrite

theorem MemOk.holdStart {c : CoreId} {p : Path} (h : MemOk s) : MemOk (s.holdStart c p) := by
  unfold State.holdStart
  grind [CoreOk, MemOk.modCore]

theorem MemOk.holdEnd {c : CoreId} {p : Path} (h : MemOk s) : MemOk (s.holdEnd c p) := by
  unfold State.holdEnd
  grind [CoreOk, MemOk.modCore]

theorem MemOk.waitProbe {c : CoreId} {p : Path} {t : Token} (h : MemOk s) : MemOk (s.waitProbe c p t) := by
  unfold State.waitProbe
  grind [CoreOk, MemOk.modCore, MemOk.holdStart]

theorem MemOk.pathFree {c : CoreId} {p : Path} (h : MemOk s) : MemOk (s.pathFree c p) := by
  unfold State.pathFree
  grind [MemOk.holdEnd]

theorem MemOk.tryPlace {c : CoreId} {e₀ : Entry} (h : MemOk s) (e : s.tryPlace c e₀ = some s') : MemOk s' := by
  unfold State.tryPlace at e
  grind [CoreOk, MemOk.core, MemOk.setCore, MemOk.writeWing]

theorem MemOk.putEntryBack {c : CoreId} {e₀ : Entry} (h : MemOk s) : MemOk (s.putEntryBack c e₀) := by
  unfold State.putEntryBack
  grind [CoreOk, MemOk.tryPlace, MemOk.modCore]

theorem MemOk.place {c : CoreId} {p : Path} {e₀ : Entry} (h : MemOk s) : MemOk (s.place c p e₀) := by
  unfold State.place
  grind [MemOk.tryPlace, MemOk.putEntryBack, MemOk.holdStart, MemOk.modCore, CoreOk.setHold, MemOk.board]

theorem MemOk.wakeHolds {c : CoreId} (h : MemOk s) : MemOk (s.wakeHolds c) := by
  unfold State.wakeHolds
  grind [MemOk.later]

theorem MemOk.endHold {c : CoreId} {e₀ : Entry} (h : MemOk s) : MemOk (s.endHold c e₀) := by
  unfold State.endHold
  grind [MemOk.pathFree, MemOk.modCore, CoreOk.setHold]

theorem MemOk.freeEntry {c : CoreId} {e₀ : Entry} (h : MemOk s) : MemOk (s.freeEntry c e₀) := by
  unfold State.freeEntry
  grind [CoreOk, MemOk.modCore, MemOk.writeWing, MemOk.wakeHolds, MemOk.endHold]

theorem MemOk.updateEntry {c : CoreId} {e₀ e' : Entry} (h : MemOk s) : MemOk (s.updateEntry c e₀ e') := by
  unfold State.updateEntry
  grind [CoreOk, MemOk.modCore, MemOk.writeWing]

theorem MemOk.refillSoon {c : CoreId} (h : MemOk s) : MemOk (s.refillSoon c) := by
  unfold State.refillSoon
  grind [MemOk.laterAt]

theorem MemOk.constRead {w : BitVec 96} (h : MemOk s) : MemOk (s.constRead w) := by
  unfold State.constRead
  grind [MemOk.constFill]

theorem MemOk.fetch {c : CoreId} {x₁ : Option Instr} (h : MemOk s) (e : s.fetch c = some (x₁, s')) : MemOk s' := by
  unfold State.fetch at e
  grind [MemOk, CoreOk, MemOk.constRead, MemOk.refillSoon, MemOk.modCore]

theorem MemOk.enqueue {c : CoreId} {f : Firing} (h : MemOk s) : MemOk (s.enqueue c f) := by
  unfold State.enqueue
  grind [CoreOk, MemOk.issueLater, MemOk.modCore]

theorem MemOk.drainBacklog {c : CoreId} {n : Nat} (h : MemOk s) : MemOk (s.drainBacklog c n) := by
  induction n generalizing s with
  | zero => exact h
  | succ n ih =>
    unfold State.drainBacklog
    grind [MemOk.freeEntry, MemOk.enqueue]

theorem MemOk.admitFiring {c : CoreId} {x : Path × Firing} (h : MemOk s) : MemOk (s.admitFiring c x) := by
  unfold State.admitFiring
  grind [CoreOk, MemOk.core, MemOk.setCore, MemOk.enqueue, MemOk.place, MemOk.modCore]

theorem MemOk.refill {c : CoreId} (h : MemOk s) : MemOk (s.refill c) := by
  unfold State.refill
  grind [CoreOk, MemOk.drainBacklog, MemOk.admitFiring, MemOk.modCore, MemOk.foldl]

theorem MemOk.newCycle {c : CoreId} {p : Path} (h : MemOk s) : MemOk (s.newCycle c p) := by
  unfold State.newCycle
  grind [MemOk.refill]

theorem MemOk.complete {c : CoreId} {p : Path} {f : Firing} (h : MemOk s) : MemOk (s.complete c p f) := by
  unfold State.complete
  grind [CoreOk, MemOk.newCycle, MemOk.modCore, MemOk.laterAt]

theorem MemOk.faultArrival {c : CoreId} {t : Token} (h : MemOk s) : MemOk (s.faultArrival c t) := h.fault

theorem MemOk.resolveSteer {c : CoreId} {node : Nat} {predicted : Bool} {ctl : Operand} (h : MemOk s) :
    MemOk (s.resolveSteer c node predicted ctl) := by
  unfold State.resolveSteer
  grind [CoreOk, MemOk.modCore]

theorem MemOk.keepEntry {c : CoreId} {p : Path} {old : Option Entry} {node : Nat} {tag : Word} {b : EntryBody} (h : MemOk s) :
    MemOk (s.keepEntry c p old node tag b) := by
  unfold State.keepEntry
  grind [MemOk.updateEntry, MemOk.place]

theorem MemOk.dropEntry {c : CoreId} {old : Option Entry} (h : MemOk s) : MemOk (s.dropEntry c old) := by
  unfold State.dropEntry
  grind [MemOk.freeEntry]

theorem MemOk.duplicate {c : CoreId} {t : Token} (h : MemOk s) : MemOk (s.duplicate c t) := by
  unfold State.duplicate
  grind [CoreOk, MemOk.faultArrival, MemOk.modCore]

theorem MemOk.meet {c : CoreId} {p : Path} {opc ari : Nat} {t : Token} {old : Option Entry} {chained : Bool} (h : MemOk s) :
    MemOk (s.meet c p opc ari t old chained) := by
  unfold State.meet
  grind [MemOk.duplicate, MemOk.resolveSteer, MemOk.complete, MemOk.dropEntry, MemOk.keepEntry]

theorem MemOk.chorusDiff {c : CoreId} {t : Token} {copy : Nat} (h : MemOk s) : MemOk (s.chorusDiff c t copy) := by
  unfold State.chorusDiff
  grind [CoreOk, MemOk.modCore, MemOk.board]

theorem MemOk.vote {c : CoreId} {p : Path} {t : Token} {old : Option Entry} (h : MemOk s) : MemOk (s.vote c p t old) := by
  unfold State.vote
  grind [MemOk.duplicate, MemOk.keepEntry, MemOk.complete, MemOk.dropEntry, MemOk.chorusDiff, MemOk.fault]

theorem MemOk.combine {c : CoreId} {p : Path} {r : Rec} {t : Token} {old : Option Entry} (h : MemOk s) : MemOk (s.combine c p r t old) := by
  unfold State.combine
  grind [MemOk.raiseIn, MemOk.complete, MemOk.dropEntry, MemOk.keepEntry]

theorem MemOk.takeEffect {c : CoreId} {p : Path} {opc : Nat} {r : Rec} {t : Token} {old : Option Entry} {chained : Bool} (h : MemOk s) :
    MemOk (s.takeEffect c p opc r t old chained) := by
  unfold State.takeEffect
  grind [MemOk.combine, MemOk.vote, MemOk.meet]

theorem MemOk.lookup {c : CoreId} {p : Path} {opc : Nat} {r : Rec} {t : Token} {chained : Bool} (h : MemOk s) :
    MemOk (s.lookup c p opc r t chained) := by
  unfold State.lookup
  grind [CoreOk, MemOk.core, MemOk.setCore, MemOk.takeEffect, MemOk.laterAt, MemOk.later, MemOk.waitProbe]

theorem MemOk.arrive {c : CoreId} {p : Path} {t : Token} {chained : Bool} (h : MemOk s) : MemOk (s.arrive c p t chained) := by
  unfold State.arrive
  grind [MemOk.faultArrival, MemOk.complete, MemOk.lookup]

theorem MemOk.deliverImage {c : CoreId} {t : Token} (h : MemOk s) : MemOk (s.deliverImage c t) := by
  unfold State.deliverImage
  grind [MemOk.modCore, CoreOk.putImage]

theorem MemOk.execTokenArrival {c : CoreId} {path : Path} {t : Token} (h : MemOk s) (e : execTokenArrival c path t s = .next s') : MemOk s' := by
  unfold Machine.execTokenArrival at e
  grind [MemOk.holdEnd, MemOk.later, MemOk.laterAt, MemOk.newCycle, MemOk.wakeRouter, MemOk.arrive, MemOk.deliverImage]

theorem MemOk.unpark {c : CoreId} {st n : Nat} (h : MemOk s) : MemOk (s.unpark c st n) := by
  induction n generalizing s with
  | zero => exact h
  | succ n ih =>
    unfold State.unpark
    grind [MemOk.core, CoreOk, MemOk.setCore, MemOk.newCycle, MemOk.arrive]

theorem MemOk.unparkAll {c : CoreId} (h : MemOk s) : MemOk (s.unparkAll c) := by
  unfold State.unparkAll
  grind [MemOk.unpark, MemOk.foldl]

theorem MemOk.probeReturned {c : CoreId} {t : Token} {chained : Bool} (h : MemOk s) : MemOk (s.probeReturned c t chained) := h.takeEffect

theorem MemOk.execWingsHoldRelease {c : CoreId} {path : Path} (h : MemOk s) (e : execWingsHoldRelease c path s = .next s') : MemOk s' := by
  unfold Machine.execWingsHoldRelease at e
  grind [MemOk.tryPlace, MemOk.pathFree, MemOk.modCore, CoreOk.setHold, MemOk.unparkAll, MemOk.wakeHolds]

theorem MemOk.execChainLink {c : CoreId} {t : Token} {n : Nat} (h : MemOk s) (e : execChainLink c t n s = .next s') : MemOk s' := by
  unfold Machine.execChainLink at e
  grind [MemOk, CoreOk, MemOk.holdEnd, MemOk.later, MemOk.modCore, MemOk.newCycle, MemOk.arrive]

theorem MemOk.execLinkTokenCrossing {src : CoreId} {node : Nat} {dst : CoreId} {t : Token}
    (h : MemOk s) (e : execLinkTokenCrossing src node dst t s = .next s') : MemOk s' := by
  unfold Machine.execLinkTokenCrossing at e
  grind [MemOk.fault, MemOk.laterAll, MemOk.laterAt, MemOk.later]

/-! ## Scalar float instructions (R183 to R188) -/

theorem MemOk.rounding {r : Rec} (h : MemOk s) : MemOk (s.rounding r).2 := by
  unfold State.rounding
  grind [MemOk.reserve]

theorem MemOk.fltOut {r : Rec} {t : Word} {x : Nat × Flg} (h : MemOk s) (e : fltOut r t s x = .ok s') : MemOk s' := by
  unfold Machine.fltOut at e
  grind [MemOk.out, MemOk.raise]

theorem MemOk.fltBin {f : Form} {op : Fmt → Rnd → Nat → Nat → Nat × Flg} {r : Rec} (h : MemOk s) (e : fltBin f op r s = .next s') : MemOk s' := by
  unfold Machine.fltBin at e
  grind [bind_eq_ok, MemOk.fire, MemOk.rounding, MemOk.fltOut]

theorem MemOk.fltUn {f : Form} {op : Fmt → Rnd → Nat → Nat × Flg} {r : Rec} (h : MemOk s) (e : fltUn f op r s = .next s') : MemOk s' := by
  unfold Machine.fltUn at e
  grind [bind_eq_ok, MemOk.fire, MemOk.rounding, MemOk.fltOut]

theorem MemOk.execFadd {r : Rec} (h : MemOk s) (e : execFadd r s = .next s') : MemOk s' := h.fltBin e

theorem MemOk.execFsub {r : Rec} (h : MemOk s) (e : execFsub r s = .next s') : MemOk s' := h.fltBin e

theorem MemOk.execFmul {r : Rec} (h : MemOk s) (e : execFmul r s = .next s') : MemOk s' := h.fltBin e

theorem MemOk.execFma {r : Rec} (h : MemOk s) (e : execFma r s = .next s') : MemOk s' := by
  unfold Machine.execFma at e
  grind [bind_eq_ok, MemOk.fire, MemOk.rounding, MemOk.fltOut]

theorem MemOk.execFdiv {r : Rec} (h : MemOk s) (e : execFdiv r s = .next s') : MemOk s' := h.fltBin e

theorem MemOk.execFsqrt {r : Rec} (h : MemOk s) (e : execFsqrt r s = .next s') : MemOk s' := h.fltUn e

theorem MemOk.execFmin {r : Rec} (h : MemOk s) (e : execFmin r s = .next s') : MemOk s' := by
  unfold Machine.execFmin at e
  grind [bind_eq_ok, MemOk.fire, MemOk.fltOut]

theorem MemOk.execFmax {r : Rec} (h : MemOk s) (e : execFmax r s = .next s') : MemOk s' := by
  unfold Machine.execFmax at e
  grind [bind_eq_ok, MemOk.fire, MemOk.fltOut]

theorem MemOk.execFabs {r : Rec} (h : MemOk s) (e : execFabs r s = .next s') : MemOk s' := by
  unfold Machine.execFabs at e
  grind [bind_eq_ok, MemOk.fire, MemOk.fltOut]

theorem MemOk.execFneg {r : Rec} (h : MemOk s) (e : execFneg r s = .next s') : MemOk s' := by
  unfold Machine.execFneg at e
  grind [bind_eq_ok, MemOk.fire, MemOk.fltOut]

theorem MemOk.execFcmp {r : Rec} (h : MemOk s) (e : execFcmp r s = .next s') : MemOk s' := by
  unfold Machine.execFcmp at e
  grind [bind_eq_ok, MemOk.fire, MemOk.out, MemOk.raise]

theorem MemOk.execFcvt {r : Rec} (h : MemOk s) (e : execFcvt r s = .next s') : MemOk s' := by
  unfold Machine.execFcvt at e
  grind [bind_eq_ok, MemOk.fire, MemOk.out, MemOk.raise, MemOk.rounding]

theorem MemOk.execFrnd {r : Rec} (h : MemOk s) (e : execFrnd r s = .next s') : MemOk s' := h.fltUn e

theorem MemOk.execFexp2 {r : Rec} (h : MemOk s) (e : execFexp2 r s = .next s') : MemOk s' := h.fltUn e

theorem MemOk.execFlog2 {r : Rec} (h : MemOk s) (e : execFlog2 r s = .next s') : MemOk s' := h.fltUn e

theorem MemOk.execFrcp {r : Rec} (h : MemOk s) (e : execFrcp r s = .next s') : MemOk s' := h.fltUn e

theorem MemOk.execFrsq {r : Rec} (h : MemOk s) (e : execFrsq r s = .next s') : MemOk s' := h.fltUn e

end

end Sys2Proof.Proofs.MemoryForm
end
section
/-! The canonical form of every memory through the model: the dataflow instructions and the timeline counters. -/

namespace Sys2Proof.Proofs.MemoryForm

open Sys2Proof Sys2Proof.Machine

section
variable {s s' : State}

/-! ## Routing, loops, calls and activations (R155 to R174) -/

theorem MemOk.execSink {r : Rec} (h : MemOk s) (e : execSink r s = .next s') : MemOk s' := by
  unfold Machine.execSink at e
  grind [bind_eq_ok, MemOk.fire]

theorem MemOk.execDup {r : Rec} (h : MemOk s) (e : execDup r s = .next s') : MemOk s' := by
  unfold Machine.execDup at e
  grind [MemOk.fire, MemOk.out]

theorem MemOk.execConst {r : Rec} (h : MemOk s) (e : execConst r s = .next s') : MemOk s' := by
  unfold Machine.execConst at e
  grind [bind_eq_ok, MemOk.fire, MemOk.out]

theorem MemOk.execSteer {r : Rec} (h : MemOk s) (e : execSteer r s = .next s') : MemOk s' := by
  unfold Machine.execSteer at e
  grind [MemOk.fire, MemOk.emitA, MemOk.emitB]

theorem MemOk.execGate {r : Rec} (h : MemOk s) (e : execGate r s = .next s') : MemOk s' := by
  unfold Machine.execGate at e
  grind [MemOk.fire, MemOk.out]

theorem MemOk.execDends {r : Rec} (h : MemOk s) (e : execDends r s = .next s') : MemOk s' := by
  unfold Machine.execDends at e
  grind [MemOk.fire, MemOk.emitA, MemOk.emitB]

theorem MemOk.putGate {c : CoreId} {node : Nat} {u : Word} {g : GateState} (h : MemOk s) : MemOk (s.putGate c node u g) := by
  unfold State.putGate
  grind [MemOk.dropEntry, MemOk.keepEntry]

theorem MemOk.serveOne {c : CoreId} {node : Nat} {u : Word} {g : GateState} (h : MemOk s) : MemOk (s.serveOne c node u g).1 := by
  unfold State.serveOne
  grind [MemOk.freeEntry, MemOk.sendFrom]

theorem MemOk.serveSoon {c : CoreId} {node : Nat} {u : Word} (h : MemOk s) : MemOk (s.serveSoon c node u) := by
  unfold State.serveSoon
  grind [MemOk.laterAt]

theorem MemOk.endGate {c : CoreId} {node : Nat} {u : Word} {g : GateState} (h : MemOk s) : MemOk (s.endGate c node u g) :=
  h.putGate.serveSoon

theorem MemOk.serveGate {c : CoreId} {node : Nat} {u : Word} (h : MemOk s) : MemOk (s.serveGate c node u) := by
  unfold State.serveGate
  grind [MemOk.serveOne, MemOk.endGate]

theorem MemOk.request {r : Rec} {node : Nat} {u : Word} {g : GateState} (h : MemOk s) : MemOk (s.request r node u g).1 := by
  unfold State.request
  grind [MemOk.emitB, MemOk.emitA, MemOk.fresh, MemOk.place]

theorem MemOk.loopinAct {r : Rec} (h : MemOk s) (e : s.loopinAct r = .ok s') : MemOk s' := by
  unfold State.loopinAct at e
  grind [MemOk.request, MemOk.endGate]

theorem MemOk.iterAct {r : Rec} (h : MemOk s) (e : s.iterAct r = .ok s') : MemOk s' := by
  unfold State.iterAct at e
  grind [bind_eq_ok, MemOk.serveOne, MemOk.request, MemOk.endGate]

theorem MemOk.loopoutAct {r : Rec} (h : MemOk s) (e : s.loopoutAct r = .ok s') : MemOk s' := by
  unfold State.loopoutAct at e
  grind [bind_eq_ok, MemOk.serveOne, MemOk.emitB, MemOk.emitA, MemOk.endGate]

theorem MemOk.loopcrAct {r : Rec} (h : MemOk s) (e : s.loopcrAct r = .ok s') : MemOk s' := by
  unfold State.loopcrAct at e
  grind [bind_eq_ok, MemOk.serveOne, MemOk.out, MemOk.endGate]

theorem MemOk.gateAct {opc : Nat} {r : Rec} (h : MemOk s) (e : s.gateAct opc r = .ok s') : MemOk s' := by
  unfold State.gateAct at e
  grind [MemOk.loopinAct, MemOk.iterAct, MemOk.loopoutAct, MemOk.loopcrAct]

theorem MemOk.atGate {opc : Nat} {r : Rec} {node : Nat} {u : Word} (h : MemOk s) (e : s.atGate opc r node u = .ok s') : MemOk s' := by
  unfold State.atGate at e
  grind [CoreOk, MemOk.core, MemOk.laterAt, MemOk.setCore, MemOk.retryIssue, MemOk.gateAct]

theorem MemOk.execLoopin {r : Rec} (h : MemOk s) (e : execLoopin r s = .next s') : MemOk s' := by
  unfold Machine.execLoopin at e
  grind [MemOk.fireRaw, MemOk.atGate]

theorem MemOk.execIter {r : Rec} (h : MemOk s) (e : execIter r s = .next s') : MemOk s' := by
  unfold Machine.execIter at e
  grind [bind_eq_ok, MemOk.fireRaw, MemOk.atGate]

theorem MemOk.execLoopout {r : Rec} (h : MemOk s) (e : execLoopout r s = .next s') : MemOk s' := by
  unfold Machine.execLoopout at e
  grind [bind_eq_ok, MemOk.fireRaw, MemOk.atGate]

theorem MemOk.execLoopcr {r : Rec} (h : MemOk s) (e : execLoopcr r s = .next s') : MemOk s' := by
  unfold Machine.execLoopcr at e
  grind [bind_eq_ok, MemOk.fireRaw, MemOk.atGate]

theorem MemOk.probeEffect {c : CoreId} {x : Parked} (h : MemOk s) : MemOk (s.probeEffect c x) := by
  cases x with
  | arrival t ch => exact h.probeReturned
  | gate _ _ f =>
    unfold State.probeEffect
    have hf : MemOk { s with cur := f } := h
    grind [MemOk.gateAct, MemOk.faultCur]

theorem MemOk.execWingProbeReturn (h : MemOk s) (e : execWingProbeReturn s = .next s') : MemOk s' := by
  unfold Machine.execWingProbeReturn at e
  grind [CoreOk, MemOk.core, MemOk.newCycle, MemOk.laterAt, MemOk.setCore, MemOk.probeEffect, MemOk.unpark]

theorem MemOk.execBacklogRefill (h : MemOk s) (e : execBacklogRefill s = .next s') : MemOk s' := by
  unfold Machine.execBacklogRefill at e
  grind [MemOk.serveGate, MemOk.refill]

theorem MemOk.execCall {r : Rec} (h : MemOk s) (e : execCall r s = .next s') : MemOk s' := by
  unfold Machine.execCall at e
  grind [MemOk.fireRaw, MemOk.out]

theorem MemOk.firstToken {r : Rec} {t : Word} {id : Nat} {o : Operand} (h : MemOk s) : MemOk (s.firstToken r t id o) := h.modAct.sendFrom

theorem MemOk.execCallCol {r : Rec} (h : MemOk s) (e : execCallCol r s = .next s') : MemOk s' := by
  unfold Machine.execCallCol at e
  grind [MemOk.fireRaw, MemOk.startChild, MemOk.firstToken]

theorem MemOk.endAct {a : Nat} {w : Word} (h : MemOk s) : MemOk (s.endAct a w) := h.modAct.laterAt.laterAt

theorem MemOk.returnValue {d : Dest} {t : Word} (h : MemOk s) : MemOk (s.returnValue d t) := by
  unfold State.returnValue
  grind [MemOk.countNull, MemOk.startRelease, MemOk.laterAll]

theorem MemOk.execRet {r : Rec} (h : MemOk s) (e : execRet r s = .next s') : MemOk s' := by
  unfold Machine.execRet at e
  grind [MemOk.fireRaw, MemOk.countNull, MemOk.returnValue, MemOk.endAct, MemOk.modAct, MemOk.sendFrom]

theorem MemOk.execTagget {r : Rec} (h : MemOk s) (e : execTagget r s = .next s') : MemOk s' := by
  unfold Machine.execTagget at e
  grind [bind_eq_ok, MemOk.fire, MemOk.out]

theorem MemOk.execTagset {r : Rec} (h : MemOk s) (e : execTagset r s = .next s') : MemOk s' := by
  unfold Machine.execTagset at e
  grind [MemOk.fire, MemOk.out]

theorem MemOk.execSpawn {r : Rec} (h : MemOk s) (e : execSpawn r s = .next s') : MemOk s' := by
  unfold Machine.execSpawn at e
  grind [bind_eq_ok, MemOk.fireRaw, MemOk.startChild, MemOk.firstToken]

theorem MemOk.orderPurge {a : Nat} (h : MemOk s) : MemOk (s.orderPurge a) := by
  unfold State.orderPurge
  grind [MemOk.laterAt, MemOk.modAct]

theorem MemOk.execPurge {r : Rec} (h : MemOk s) (e : execPurge r s = .next s') : MemOk s' := by
  unfold Machine.execPurge at e
  grind [bind_eq_ok, MemOk.fire, MemOk.out, MemOk.orderPurge]

theorem MemOk.execJoin {r : Rec} (h : MemOk s) (e : execJoin r s = .next s') : MemOk s' := by
  unfold Machine.execJoin at e
  grind [bind_eq_ok, MemOk.fire, MemOk.emitA, MemOk.emitB]

theorem MemOk.execEndg {r : Rec} (h : MemOk s) (e : execEndg r s = .next s') : MemOk s' := by
  unfold Machine.execEndg at e
  grind [bind_eq_ok, MemOk.fire, MemOk.countNull, MemOk.endAct]

theorem MemOk.execCmb {r : Rec} (h : MemOk s) (e : execCmb r s = .next s') : MemOk s' := by
  unfold Machine.execCmb at e
  grind [bind_eq_ok, MemOk.fire, MemOk.out]

theorem MemOk.heldTokens {r : Rec} {t : Word} {o : Operand} {reply : Bool} (h : MemOk s) : MemOk (s.heldTokens r t o reply).2 := by
  unfold State.heldTokens
  grind [MemOk.countNull]

theorem MemOk.execBndry {r : Rec} (h : MemOk s) (e : execBndry r s = .next s') : MemOk s' := by
  unfold Machine.execBndry at e
  grind [MemOk.fire, MemOk.heldTokens, MemOk.startRelease]

theorem MemOk.execVote {r : Rec} (h : MemOk s) (e : execVote r s = .next s') : MemOk s' := by
  unfold Machine.execVote at e
  grind [MemOk.fire, MemOk.out]

theorem MemOk.execRng {r : Rec} (h : MemOk s) (e : execRng r s = .next s') : MemOk s' := by
  unfold Machine.execRng at e
  grind [bind_eq_ok, MemOk.fire, MemOk.reserve, MemOk.out]

theorem MemOk.execEvpost {r : Rec} (h : MemOk s) (e : execEvpost r s = .next s') : MemOk s' := by
  unfold Machine.execEvpost at e
  grind [bind_eq_ok, MemOk.fire, MemOk.board, MemOk.out]

/-! ## Timeline counters (R382 to R385) -/

theorem MemOk.replyBoth {x : ReplyTo} {a b : Operand} (h : MemOk s) : MemOk (s.replyBoth x a b) := h.returnFrom.returnFrom

theorem MemOk.setCounter {k : CluId} {col : BitVec 9} {c : Nat} {x : Counter} (h : MemOk s) : MemOk (s.setCounter k col c x) := h.modCluster

theorem MemOk.takeNumber {k : CluId} {col : BitVec 9} {c : Nat} (h : MemOk s) : MemOk (s.takeNumber k col c).2 := h.setCounter

theorem MemOk.sendArmed {k : CluId} {x : Armed} (h : MemOk s) : MemOk (s.sendArmed k x) := h.later

theorem MemOk.wakeWaits {k : CluId} {n : Nat} (h : MemOk s) : MemOk (s.wakeWaits k n) := by
  induction n generalizing s with
  | zero => exact h
  | succ n ih =>
    unfold State.wakeWaits
    grind [MemOk.modCluster, MemOk.replyBoth]

theorem MemOk.wakeTimeline {k : CluId} (h : MemOk s) : MemOk (s.wakeTimeline k) := by
  unfold State.wakeTimeline
  grind [MemOk.wakeWaits, MemOk.sendArmed, MemOk.modCluster, MemOk.foldl]

theorem MemOk.completeNumber {k : CluId} {col : BitVec 9} {c n : Nat} (h : MemOk s) : MemOk (s.completeNumber k col c n) :=
  h.setCounter.wakeTimeline

theorem MemOk.execRemoteAdvance {k : CluId} {colour : BitVec 9} {ctr : Nat}
    (h : MemOk s) (e : execRemoteAdvance k colour ctr s = .next s') : MemOk s' := by
  unfold Machine.execRemoteAdvance at e
  grind [MemOk.takeNumber, MemOk.completeNumber]

end

end Sys2Proof.Proofs.MemoryForm
end
section
/-! The canonical form of every memory through the model: the memory unit and the streams. -/

namespace Sys2Proof.Proofs.MemoryForm

open Sys2Proof Sys2Proof.Machine

section
variable {s s' : State}

/-! ## Requests and what performs them (R229 to R243) -/

theorem MemOk.stallGo {c : CoreId} {node : Nat} {write : Bool} {f va n : Nat} {acc : List MemPart} (h : MemOk s) :
    MemOk (s.stallGo c node write f va n acc).2 := by
  induction f generalizing s va n acc with
  | zero => exact h
  | succ f ih =>
    unfold State.stallGo
    grind [MemOk.translate]

theorem MemOk.coverOne {c : CoreId} {node : Nat} {stall write : Bool} {va n : Nat} {x₁ : List MemPart} {x₂ : Option Flt}
    (h : MemOk s) (e : s.coverOne c node stall write va n = .ok (x₁, x₂, s')) : MemOk s' := by
  unfold State.coverOne at e
  grind [MemOk.stallGo, MemOk.footprint]

theorem MemOk.coverAll {c : CoreId} {node : Nat} {stall write : Bool} {xs : List (Nat × Nat)} {ps : List MemPart} {bad : Option Flt}
    (h : MemOk s) (e : s.coverAll c node stall write xs = .ok (ps, bad, s')) : MemOk s' := by
  induction xs generalizing s s' ps bad with
  | nil =>
    cases e
    exact h
  | cons x xs ih =>
    unfold State.coverAll at e
    obtain ⟨⟨qs, b, t⟩, hx, e⟩ := bind_eq_ok.1 e
    have ht : MemOk t := h.coverOne hx
    dsimp only at e
    split at e
    · cases e
      exact ht
    · obtain ⟨⟨rs, b', u⟩, hr, e⟩ := bind_eq_ok.1 e
      cases e
      exact ih ht hr

theorem MemOk.memFire {f : Form} {r : Rec} {eff : Word → State → Eff} (h : MemOk s)
    (heff : ∀ t s s', MemOk s → eff t s = .ok s' → MemOk s') (e : memFire f r s eff = .next s') : MemOk s' := by
  unfold Machine.memFire at e
  split at e
  · cases e
    exact h.retryIssue
  · exact h.fire heff e

theorem MemOk.retouch {c : CoreId} (h : MemOk s) : MemOk (s.retouch c) := by
  unfold State.retouch
  grind [CoreOk, MemOk.modCore]

theorem MemOk.joinWindow {c : CoreId} {id l : Nat} (h : MemOk s) : MemOk (s.joinWindow c id l) := by
  unfold State.joinWindow
  grind [DieOk, MemOk.die, MemOk.setDie, MemOk.laterAt]

theorem MemOk.leaveUnit {c : CoreId} {q : MemReq} (h : MemOk s) : MemOk (s.leaveUnit c q) := by
  unfold State.leaveUnit
  grind [CoreOk, MemOk.startRelease, MemOk.laterAt, MemOk.modCore, MemOk.retouch]

theorem MemOk.askMerge {c : CoreId} {q : MemReq} (h : MemOk s) : MemOk (s.askMerge c q) := by
  unfold State.askMerge
  grind [CoreOk, MemOk.joinWindow, MemOk.modCore, MemOk.foldl]

theorem MemOk.joinWave {c : CoreId} {q : MemReq} {w : Nat × Nat × Nat × Nat} (h : MemOk s) (e : s.joinWave c q w = .ok s') : MemOk s' := by
  unfold State.joinWave at e
  grind [CoreOk, MemOk.core, MemOk.setCore, MemOk.later]

theorem MemOk.stallRecord {c : CoreId} {q : MemReq} {f : Flt} (h : MemOk s) : MemOk (s.stallRecord c q f) := h.fault

theorem MemOk.makeReq {r : Rec} {t : Word} {op : MemOp} {write : Bool} {ranges : List (Nat × Nat)} {data : List Byte} {reply : Operand}
    {wave : Option (Nat × Nat × Nat × Nat)} {pages : List Leaf} {after : Option Nat}
    (h : MemOk s) (e : s.makeReq r t op write ranges data reply wave pages after = .ok s') : MemOk s' := by
  unfold State.makeReq at e
  grind [CoreOk, bind_eq_ok, MemOk.coverAll, MemOk.fresh, MemOk.stallRecord, MemOk.joinWave, MemOk.modCore, MemOk.leaveUnit]

theorem MemOk.dropReq {c : CoreId} {id : Nat} (h : MemOk s) : MemOk (s.dropReq c id) := by
  unfold State.dropReq
  grind [MemOk.retouch, MemOk.modCore, CoreOk.without]

theorem MemOk.modReq {c : CoreId} {id : Nat} {f : MemReq → MemReq} (h : MemOk s) : MemOk (s.modReq c id f) := by
  unfold State.modReq
  grind [CoreOk, MemOk.modCore]

theorem MemOk.engineDone {c : CoreId} {m : Nat} {bs : List Byte} (h : MemOk s) : MemOk (s.engineDone c m bs) := by
  unfold State.engineDone
  grind [CoreOk, MemOk.laterAt, MemOk.modCore]

theorem MemOk.finishReq {c : CoreId} {q : MemReq} {o : Operand} (h : MemOk s) : MemOk (s.finishReq c q o) := by
  unfold State.finishReq
  grind [MemOk.dropReq, MemOk.engineDone, MemOk.replyBoth]

theorem MemOk.failReq {c : CoreId} {q : MemReq} {l : Nat} (h : MemOk s) : MemOk (s.failReq c q l) := h.dropReq.fault

theorem MemOk.consumePoison {c : CoreId} {node : Nat} {tag : Word} {pa : Nat} (h : MemOk s) : MemOk (s.consumePoison c node tag pa) := by
  unfold State.consumePoison
  grind [MemOk.fault, MemOk.orderPurge]

theorem MemOk.captureDirect {c : CoreId} {id : Nat} (h : MemOk s) : MemOk (s.captureDirect c id) := h.modReq

theorem MemOk.readAll {c : CoreId} {q : MemReq} (h : MemOk s) : MemOk (s.readAll c q) := by
  unfold State.readAll
  grind [MemOk.captureDirect, MemOk.readLine, MemOk.foldl]

theorem MemOk.keyWrite {c : CoreId} {nc : Bool} {key : Nat} {bs : List Byte} {owner : Option (BitVec 9)} (h : MemOk s) :
    MemOk (s.keyWrite c nc key bs owner) := by
  unfold State.keyWrite
  split
  · exact h.modCore fun _ hk => hk.withCtlPad (Memory.putN_wf hk.ctlPad)
  · split
    · exact h.modCore fun _ hk => hk.withLanes (Memory.putN_wf hk.lanes)
    · exact h.dieWrite

theorem MemOk.storeParts {c : CoreId} {owner : Option (BitVec 9)} {ps : List MemPart} {bs : List Byte} (h : MemOk s) :
    MemOk (s.storeParts c owner ps bs) := by
  induction ps generalizing s bs with
  | nil => exact h
  | cons p ps ih =>
    unfold State.storeParts
    grind [MemOk.keyWrite]

theorem MemOk.storeReady {c : CoreId} {q : MemReq} (h : MemOk s) : MemOk (s.storeReady c q).2 := by
  unfold State.storeReady
  exact MemOk.foldlSnd (fun p x hp => by grind [MemOk.writeReady]) h

theorem MemOk.holdLine {h₀ : DieId} {l : Nat} {secs : List Nat} (h : MemOk s) : MemOk (s.holdLine h₀ l secs).2 := by
  unfold State.holdLine
  grind [MemOk.lineReady, MemOk.allocLine, MemOk.settle, MemOk.ask, MemOk.wantSectors]

theorem MemOk.atomReady {c : CoreId} {a : Nat} (h : MemOk s) : MemOk (s.atomReady c a).2 := by
  unfold State.atomReady
  grind [MemOk.settle, MemOk.holdLine]

theorem MemOk.homeWrite {d : DieId} {a : Nat} {bs : List Byte} {owner : Option (BitVec 9)} (h : MemOk s) :
    MemOk (s.homeWrite d a bs owner) :=
  h.closeWindow.modLine fun _ hy => Memory.putN_wf hy

theorem MemOk.atomWrite {c : CoreId} {q : MemReq} {p : MemPart} {a : Nat} {bs : List Byte} (h : MemOk s) : MemOk (s.atomWrite c q p a bs) := by
  unfold State.atomWrite
  grind [MemOk.keyWrite, MemOk.homeWrite]

theorem MemOk.atomPerform {c : CoreId} {q : MemReq} {p : MemPart} {a : Nat} (h : MemOk s) : MemOk (s.atomPerform c q p a) := by
  unfold State.atomPerform
  grind [MemOk.consumePoison, MemOk.dropReq, MemOk.atomWrite, MemOk.raiseIn, MemOk.finishReq, MemOk.replyBoth]

theorem MemOk.queueWaiter {c : CoreId} {q : MemReq} {take : Bool} {word : Nat} {x : Presence} {x₁ : Presence}
    (h : MemOk s) (e : s.queueWaiter c q take word x = some (x₁, s')) : MemOk s' := by
  unfold State.queueWaiter at e
  grind [MemOk.fresh, MemOk.modAct, MemOk.sysWrite, MemOk.sysWord]

theorem MemOk.serve {c : CoreId} {mine word : Nat} {v : Word} {n head : Nat} (h : MemOk s) :
    MemOk (s.serve c mine word v n head).1 := by
  induction n generalizing s head with
  | zero => exact h
  | succ n ih =>
    unfold State.serve
    grind [MemOk.modAct, MemOk.returnFrom]

theorem MemOk.presencePerform {c : CoreId} {q : MemReq} {p : MemPart} {a k : Nat} {v : Word} (h : MemOk s) :
    MemOk (s.presencePerform c q p a k v) := by
  unfold State.presencePerform
  grind [MemOk.keyWrite, MemOk.dropReq, MemOk.fault, MemOk.returnFrom, MemOk.finishReq, MemOk.serve, MemOk.queueWaiter]

theorem MemOk.discardLine {d : DieId} {l : Nat} (h : MemOk s) : MemOk (s.discardLine d l) := by
  have hl := MemOk.lineSettled (d := d) (l := l) (h.modLine (d := d) (l := l) (f := fun y =>
    { y with sectors := List.replicate 4 Sector.none_, pend := [], whole := [], bytes := [] }) fun _ _ => rfl)
  unfold State.discardLine
  dsimp only
  split
  · exact MemOk.ite hl hl.writeBack
  · exact hl

theorem MemOk.denyReq {c : CoreId} {q : MemReq} {p : MemPart} (h : MemOk s) : MemOk (s.denyReq c q p) := h.dropReq.fault

theorem MemOk.atomStep {c : CoreId} {q : MemReq} {p : MemPart} {a : Nat} (h : MemOk s) : MemOk (s.atomStep c q p a) := by
  unfold State.atomStep
  grind [MemOk.denyReq, MemOk.failReq, MemOk.atomPerform, MemOk.atomReady, MemOk.laterAt]

/-- What the upkeep of a line goes on from keeps the form, however it ends. -/
theorem MemOk.maintain {d : DieId} {l : Nat} {inval discard : Bool} {t : State} (h : MemOk s)
    (e : s.maintain d l inval discard = .over t ∨ s.maintain d l inval discard = .wait t ∨ s.maintain d l inval discard = .acted t) :
    MemOk t := by
  unfold State.maintain at e
  grind [MemOk.discardLine, MemOk.settle, MemOk.writeBack]

theorem MemOk.maintained {d : DieId} {l : Nat} {inval : Bool} {t : State} (h : MemOk s)
    (e : s.maintained d l inval = .over t ∨ s.maintained d l inval = .wait t ∨ s.maintained d l inval = .acted t) : MemOk t := by
  unfold State.maintained at e
  grind [MemOk.writeBack]

theorem MemOk.upkeep {c : CoreId} {q : MemReq} {inval discard : Bool} (h : MemOk s) : MemOk (s.upkeep c q inval discard) := by
  unfold State.upkeep
  grind [MemOk.maintain, MemOk.maintained, MemOk.finishReq, MemOk.laterAt, MemOk.modReq]

theorem MemOk.writeStep {c : CoreId} {q : MemReq} (h : MemOk s) : MemOk (s.writeStep c q) := by
  unfold State.writeStep
  grind [MemOk.laterAt, MemOk.upkeep, MemOk.atomStep, MemOk.dropReq, MemOk.denyReq, MemOk.failReq, MemOk.presencePerform, MemOk.storeReady,
    MemOk.modReq, MemOk.storeParts]

theorem MemOk.execWriteAcknowledgement (h : MemOk s) (e : execWriteAcknowledgement s = .next s') : MemOk s' := by
  unfold Machine.execWriteAcknowledgement at e
  grind [MemOk.laterAt, MemOk.dropReq, MemOk.finishReq, MemOk.writeStep]

theorem MemOk.execWaveAccessPerform {c : CoreId} {tag : Word} {region : Nat}
    (h : MemOk s) (e : execWaveAccessPerform c tag region s = .next s') : MemOk s' := by
  unfold Machine.execWaveAccessPerform at e
  grind [CoreOk, MemOk.core, MemOk.setCore, MemOk.leaveUnit, MemOk.later]

theorem MemOk.execReleaseComplete (h : MemOk s) (e : execReleaseComplete s = .next s') : MemOk s' := by
  unfold Machine.execReleaseComplete at e
  grind [CoreOk, MemOk.core, MemOk.laterAt, MemOk.setCore, MemOk.completeNumber, MemOk.laterAll, MemOk.modCore]

theorem MemOk.execMergeWindowClose (h : MemOk s) (e : execMergeWindowClose s = .next s') : MemOk s' := by
  unfold Machine.execMergeWindowClose at e
  grind [MemOk.touchLine, MemOk.closeWindow, MemOk.laterAt, MemOk.fillFor]

theorem MemOk.recover {c : CoreId} {q : MemReq} {x₁ : List MemPart} {x₂ : Option Flt} (h : MemOk s) (e : s.recover c q = .ok (x₁, x₂, s')) :
    MemOk s' := by
  unfold State.recover at e
  grind [MemOk.coverAll]

theorem MemOk.retryWalk {c : CoreId} {id : Nat} (h : MemOk s) : MemOk (s.retryWalk c id) := by
  unfold State.retryWalk
  dsimp only
  split
  case h_1 q hq => grind [CoreOk, MemOk.recover, MemOk.denyReq, MemOk.modCore, MemOk.leaveUnit, MemOk.modReq, MemOk.stallRecord]
  case h_2 =>
    split
    case h_2 => exact h
    case h_1 x q hx =>
      split
      case h_2 f hf => exact h.stallRecord
      case h_1 ps bad t hr =>
        have ht : MemOk t := h.recover hr
        grind [CoreOk, MemOk.denyReq, MemOk.modCore, MemOk.stallRecord, MemOk.later]

theorem MemOk.execPageWalkComplete {d : DieId} {w : WalkFor} (h : MemOk s) (e : execPageWalkComplete d w s = .next s') : MemOk s' := by
  unfold Machine.execPageWalkComplete at e
  grind [MemOk.translate, MemOk.countNull, MemOk.wantSectors, MemOk.later, MemOk.retryWalk]

theorem MemOk.execTlbEntryDrop (h : MemOk s) (e : execTlbEntryDrop s = .next s') : MemOk s' := by
  unfold Machine.execTlbEntryDrop at e
  grind [DieOk, MemOk.modDie]

/-! ## Streams (R217 to R221, R244 to R247) -/

theorem MemOk.engPlace {k : CluId} {who : CoreId × Nat} {pages : List Leaf} {stall write : Bool} {va n : Nat} (h : MemOk s) :
    MemOk (s.engPlace k who pages stall write va n).2 := by
  unfold State.engPlace
  grind [MemOk.translate]

theorem MemOk.engRuns {k : CluId} {who : CoreId × Nat} {pages : List Leaf} {stall write : Bool} {f va n : Nat} {acc : List MemPart}
    (h : MemOk s) : MemOk (s.engRuns k who pages stall write f va n acc).2 := by
  induction f generalizing s va n acc with
  | zero => exact h
  | succ f ih =>
    unfold State.engRuns
    grind [MemOk.engPlace]

theorem MemOk.setPort {k : CluId} {n : Nat} {p : Port} (h : MemOk s) : MemOk (s.setPort k n p) := h.modCluster

theorem MemOk.bindStream {c : CoreId} {q : MemReq} {port : Nat} {ctag : Word} {cdst : BitVec 24} {bs : List Byte} (h : MemOk s) :
    MemOk (s.bindStream c q port ctag cdst bs).2 := by
  unfold State.bindStream
  grind [MemOk.takeNumber, MemOk.setPort, MemOk.laterAt]

theorem MemOk.execStreamStart (h : MemOk s) (e : execStreamStart s = .next s') : MemOk s' := by
  unfold Machine.execStreamStart at e
  grind [MemOk.laterAt, MemOk.setPort, MemOk.dropRead]

theorem MemOk.endStream {k : CluId} {x : Stream} (h : MemOk s) : MemOk (s.endStream k x) := by
  unfold State.endStream
  grind [MemOk.completeNumber, MemOk.replyFrom]

theorem MemOk.execStreamComplete (h : MemOk s) (e : execStreamComplete s = .next s') : MemOk s' := by
  unfold Machine.execStreamComplete at e
  grind [MemOk.endStream, MemOk.setPort, MemOk.laterAt]

theorem MemOk.portFault {x : Stream} {port : Nat} {stall : Bool} {f : Flt} (h : MemOk s) : MemOk (s.portFault x port stall f) := h.fault

theorem MemOk.stopStream {k : CluId} {n : Nat} {p : Port} {x : Stream} {status : Nat} (h : MemOk s) : MemOk (s.stopStream k n p x status) :=
  h.laterAt.setPort

theorem MemOk.withholdStream {k : CluId} {n : Nat} {p : Port} {x : Stream} {f : Flt} (h : MemOk s) : MemOk (s.withholdStream k n p x f) :=
  h.setPort.portFault

theorem MemOk.sendScale {dst : CoreId} {x : Byte × BitVec 9} (h : MemOk s) : MemOk (s.sendScale dst x) := by
  unfold State.sendScale
  grind [CoreOk, DieOk, MemOk.modCore, MemOk.modDie]

theorem MemOk.admitScales {c : CoreId} (h : MemOk s) : MemOk (s.admitScales c) := by
  unfold State.admitScales
  grind [DieOk, MemOk.sendScale, MemOk.modDie, MemOk.foldl]

theorem MemOk.execStreamElement (h : MemOk s) (e : execStreamElement s = .next s') : MemOk s' := by
  unfold Machine.execStreamElement at e
  cases e
  dsimp only
  split
  case h_1 => exact h
  case h_2 x hx =>
    split
    case h_1 => exact h.stopStream
    case h_2 a ha =>
      generalize patScales x.pat x.pos = ids
      cases ids with
      | nil =>
        dsimp only
        grind [MemOk.engRuns, MemOk.laterAt, MemOk.withholdStream, MemOk.portFault, MemOk.stopStream, MemOk.drawRuns, MemOk.orderPurge, MemOk.foldl,
          MemOk.sendScale, MemOk.setPort, MemOk.later]
      | cons i is =>
        dsimp only
        grind [MemOk.engRuns, MemOk.laterAt, MemOk.withholdStream, MemOk.portFault, MemOk.stopStream, MemOk.drawRuns, MemOk.orderPurge, MemOk.foldl,
          MemOk.sendScale, MemOk.setPort, MemOk.later]

theorem MemOk.cancelStreams {k : CluId} {xs : List Stream} (h : MemOk s) : MemOk (s.cancelStreams k xs) := by
  unfold State.cancelStreams
  grind [MemOk.endStream, MemOk.foldl]

end

end Sys2Proof.Proofs.MemoryForm
end
section
/-! The canonical form of every memory through the model: the engines, and the memory and synchronisation instructions. -/

namespace Sys2Proof.Proofs.MemoryForm

open Sys2Proof Sys2Proof.Machine

section
variable {s s' : State}

/-! ## Messages of the engines (R222 to R224, R249 to R251) -/

theorem MemOk.rejectMsg {e₀ : EngineId} {m : Msg} (h : MemOk s) : MemOk (s.rejectMsg e₀ m) := h.faultEngine

theorem MemOk.setInbox {e₀ : EngineId} {xs : List EngMsg} (h : MemOk s) : MemOk (s.setInbox e₀ xs) := by
  unfold State.setInbox
  grind [MemOk.modCluster]

theorem MemOk.modMsg {e₀ : EngineId} {id : Nat} {f : EngMsg → EngMsg} (h : MemOk s) : MemOk (s.modMsg e₀ id f) := h.setInbox

theorem MemOk.dropMsg {e₀ : EngineId} {id : Nat} (h : MemOk s) : MemOk (s.dropMsg e₀ id) := h.setInbox.dropRead

theorem MemOk.execEngineInboxAccept {e₀ : EngineId} {m : Msg} (h : MemOk s) (e : execEngineInboxAccept e₀ m s = .next s') : MemOk s' := by
  unfold Machine.execEngineInboxAccept at e
  grind [MemOk.later, MemOk.rejectMsg, MemOk.fresh, MemOk.takeNumber, MemOk.setInbox, MemOk.sendFrom]

theorem MemOk.endMsg {e₀ : EngineId} {id status : Nat} (h : MemOk s) : MemOk (s.endMsg e₀ id status) := h.modMsg.later

theorem MemOk.refuseMsg {e₀ : EngineId} {x : EngMsg} {f : Flt} (h : MemOk s) : MemOk (s.refuseMsg e₀ x f) := by
  unfold State.refuseMsg
  grind [MemOk.dropMsg, MemOk.faultEngine, MemOk.completeNumber]

theorem MemOk.execEngineMessageComplete {e₀ : EngineId} {id : Nat} (h : MemOk s) (e : execEngineMessageComplete e₀ id s = .next s') :
    MemOk s' := by
  unfold Machine.execEngineMessageComplete at e
  grind [MemOk.later, MemOk.modMsg, MemOk.dropMsg, MemOk.completeNumber, MemOk.replyFrom]

theorem MemOk.msgPlace {e₀ : EngineId} {m : Msg} {write : Bool} {a n : Nat} (h : MemOk s) : MemOk (s.msgPlace e₀ m write a n).2 := by
  unfold State.msgPlace
  grind [MemOk.engPlace]

theorem MemOk.stallMsg {e₀ : EngineId} {x : EngMsg} {f : Flt} (h : MemOk s) : MemOk (s.stallMsg e₀ x f) := h.modMsg.faultEngine

theorem MemOk.failMsg {e₀ : EngineId} {x : EngMsg} {f : Flt} (h : MemOk s) : MemOk (s.failMsg e₀ x f) := by
  unfold State.failMsg
  grind [MemOk.stallMsg, MemOk.endMsg, MemOk.faultEngine]

theorem MemOk.sendPiece {e₀ : EngineId} {x : EngMsg} (h : MemOk s) : MemOk (s.sendPiece e₀ x) := by
  unfold State.sendPiece
  grind [MemOk.later, MemOk.msgPlace, MemOk.failMsg, MemOk.endMsg, MemOk.modMsg]

theorem MemOk.readOn {e₀ : EngineId} {f : Nat} {x : EngMsg} (h : MemOk s) : MemOk (s.readOn e₀ f x).2.2 := by
  induction f generalizing s x with
  | zero => exact h
  | succ f ih =>
    unfold State.readOn
    grind [MemOk.msgPlace, MemOk.drawRuns]

theorem MemOk.goMsg {e₀ : EngineId} {x : EngMsg} (h : MemOk s) : MemOk (s.goMsg e₀ x) := by
  unfold State.goMsg
  grind [MemOk.readOn, MemOk.modMsg, MemOk.sendPiece, MemOk.later, MemOk.refuseMsg, MemOk.failMsg]

theorem MemOk.runMsg {e₀ : EngineId} {id : Nat} (h : MemOk s) : MemOk (s.runMsg e₀ id) := by
  unfold State.runMsg
  grind [MemOk.goMsg, MemOk.endMsg, MemOk.faultEngine]

theorem MemOk.execCopy {e₀ : EngineId} {id : Nat} (h : MemOk s) (e : execCopy e₀ id s = .next s') : MemOk s' := by
  cases e
  exact h.runMsg

theorem MemOk.execCopyr {e₀ : EngineId} {id : Nat} (h : MemOk s) (e : execCopyr e₀ id s = .next s') : MemOk s' := by
  cases e
  exact h.runMsg

theorem MemOk.execCopyp {e₀ : EngineId} {id : Nat} (h : MemOk s) (e : execCopyp e₀ id s = .next s') : MemOk s' := by
  cases e
  exact h.runMsg

theorem MemOk.execCopypr {e₀ : EngineId} {id : Nat} (h : MemOk s) (e : execCopypr e₀ id s = .next s') : MemOk s' := by
  cases e
  exact h.runMsg

theorem MemOk.execLcopy {e₀ : EngineId} {id : Nat} (h : MemOk s) (e : execLcopy e₀ id s = .next s') : MemOk s' := by
  cases e
  exact h.runMsg

theorem MemOk.raiseMsg {e₀ : EngineId} {m : Msg} {fl : Flg} (h : MemOk s) : MemOk (s.raiseMsg e₀ m fl) := by
  unfold State.raiseMsg
  grind [MemOk.raiseIn]

theorem MemOk.landPiece {p : Piece} {x : EngMsg} (h : MemOk s) : MemOk (s.landPiece p x) := by
  unfold State.landPiece
  grind [MemOk.dieWrite, MemOk.raiseMsg, MemOk.spoil, MemOk.modMsg]

theorem MemOk.execCopyPieceArrival {p : Piece} (h : MemOk s) (e : execCopyPieceArrival p s = .next s') : MemOk s' := by
  unfold Machine.execCopyPieceArrival at e
  grind [MemOk.refuseMsg, MemOk.later, MemOk.settle, MemOk.writeReady, MemOk.runMsg, MemOk.landPiece]

theorem MemOk.retryDie {d : DieId} {all : Bool} {a : Nat} (h : MemOk s) : MemOk (s.retryDie d all a) := by
  unfold State.retryDie
  grind [MemOk.later, MemOk.laterAt, MemOk.foldl]

/-! ## Memory, stream, copy and translation instructions (R236 to R253) -/

theorem MemOk.execLd {r : Rec} (h : MemOk s) (e : execLd r s = .next s') : MemOk s' := by
  unfold Machine.execLd at e
  grind [bind_eq_ok, MemOk.memFire, MemOk.makeReq]

theorem MemOk.execSt {r : Rec} (h : MemOk s) (e : execSt r s = .next s') : MemOk s' := by
  unfold Machine.execSt at e
  grind [bind_eq_ok, MemOk.memFire, MemOk.makeReq]

theorem MemOk.execLdv {r : Rec} (h : MemOk s) (e : execLdv r s = .next s') : MemOk s' := by
  unfold Machine.execLdv at e
  grind [bind_eq_ok, MemOk.memFire, MemOk.makeReq]

theorem MemOk.execMcrd {r : Rec} (h : MemOk s) (e : execMcrd r s = .next s') : MemOk s' := by
  unfold Machine.execMcrd at e
  grind [bind_eq_ok, MemOk.memFire, MemOk.makeReq]

theorem MemOk.execStv {r : Rec} (h : MemOk s) (e : execStv r s = .next s') : MemOk s' := by
  unfold Machine.execStv at e
  grind [bind_eq_ok, MemOk.memFire, MemOk.makeReq]

theorem MemOk.execLdg {r : Rec} (h : MemOk s) (e : execLdg r s = .next s') : MemOk s' := by
  unfold Machine.execLdg at e
  grind [bind_eq_ok, MemOk.memFire, MemOk.makeReq]

theorem MemOk.execSts {r : Rec} (h : MemOk s) (e : execSts r s = .next s') : MemOk s' := by
  unfold Machine.execSts at e
  grind [bind_eq_ok, MemOk.memFire, MemOk.makeReq]

theorem MemOk.execMnop {r : Rec} (h : MemOk s) (e : execMnop r s = .next s') : MemOk s' := by
  unfold Machine.execMnop at e
  grind [bind_eq_ok, MemOk.memFire, MemOk.makeReq]

theorem MemOk.rejectAbove {c : CoreId} {qs : List MemReq} (h : MemOk s) : MemOk (s.rejectAbove c qs) := by
  unfold State.rejectAbove
  grind [MemOk.fault, MemOk.foldl]

theorem MemOk.execWave {r : Rec} (h : MemOk s) (e : execWave r s = .next s') : MemOk s' := by
  unfold Machine.execWave at e
  grind [CoreOk, MemOk.core, MemOk.memFire, MemOk.out, MemOk.setCore, MemOk.rejectAbove, MemOk.later]

theorem MemOk.execPf {r : Rec} (h : MemOk s) (e : execPf r s = .next s') : MemOk s' := by
  unfold Machine.execPf at e
  grind [bind_eq_ok, MemOk.memFire, MemOk.countNull, MemOk.later, MemOk.out]

theorem MemOk.execLwb {r : Rec} (h : MemOk s) (e : execLwb r s = .next s') : MemOk s' := by
  unfold Machine.execLwb at e
  grind [bind_eq_ok, MemOk.memFire, MemOk.makeReq]

theorem MemOk.execLinv {r : Rec} (h : MemOk s) (e : execLinv r s = .next s') : MemOk s' := by
  unfold Machine.execLinv at e
  grind [bind_eq_ok, MemOk.memFire, MemOk.makeReq]

theorem MemOk.execSbind {r : Rec} (h : MemOk s) (e : execSbind r s = .next s') : MemOk s' := by
  unfold Machine.execSbind at e
  grind [bind_eq_ok, MemOk.memFire, MemOk.makeReq]

theorem MemOk.execScancel {r : Rec} (h : MemOk s) (e : execScancel r s = .next s') : MemOk s' := by
  unfold Machine.execScancel at e
  grind [bind_eq_ok, MemOk.memFire, MemOk.setPort, MemOk.out, MemOk.cancelStreams]

theorem MemOk.execSstat {r : Rec} (h : MemOk s) (e : execSstat r s = .next s') : MemOk s' := by
  unfold Machine.execSstat at e
  grind [bind_eq_ok, MemOk.memFire, MemOk.out]

theorem MemOk.sendCopy {m : Msg} (h : MemOk s) : MemOk (s.sendCopy m) := h.startRelease

theorem MemOk.execCpy {r : Rec} (h : MemOk s) (e : execCpy r s = .next s') : MemOk s' := by
  unfold Machine.execCpy at e
  grind [bind_eq_ok, MemOk.memFire, MemOk.sendCopy]

theorem MemOk.execCpyr {r : Rec} (h : MemOk s) (e : execCpyr r s = .next s') : MemOk s' := by
  refine h.memFire (fun t s s' hs e => ?_) e
  simp only [bind_eq_ok] at e
  grind [bind_eq_ok, MemOk.sendCopy]

theorem MemOk.xlat {c : CoreId} {a : Word} (h : MemOk s) : MemOk (s.xlat c a).2 := by
  unfold State.xlat
  grind [MemOk.translate]

theorem MemOk.execXlat {r : Rec} (h : MemOk s) (e : execXlat r s = .next s') : MemOk s' := by
  unfold Machine.execXlat at e
  grind [bind_eq_ok, MemOk.memFire, MemOk.xlat, MemOk.emitB, MemOk.emitA]

theorem MemOk.execTlbinv {r : Rec} (h : MemOk s) (e : execTlbinv r s = .next s') : MemOk s' := by
  unfold Machine.execTlbinv at e
  grind [DieOk, bind_eq_ok, MemOk.memFire, MemOk.retryDie, MemOk.modDie, MemOk.out, MemOk.foldl]

theorem MemOk.putGather {c : CoreId} {q : MemReq} {row : Nat} {lanes : List Nat} (h : MemOk s) : MemOk (s.putGather c q row lanes) :=
  h.modCore fun _ hk => foldl_keeps (fun _ _ hk => hk.putLane) hk

theorem MemOk.finishLoad {c : CoreId} {q : MemReq} (h : MemOk s) : MemOk (s.finishLoad c q) := by
  unfold State.finishLoad
  grind [CoreOk, MemOk.finishReq, MemOk.modCore, CoreOk.putImage, MemOk.putGather, MemOk.modReq, MemOk.engineDone, MemOk.dropReq,
    MemOk.laterAt, MemOk.fault, MemOk.bindStream]

theorem MemOk.execLoadReply (h : MemOk s) (e : execLoadReply s = .next s') : MemOk s' := by
  unfold Machine.execLoadReply at e
  grind [MemOk.dropReq, MemOk.laterAt, MemOk.failReq, MemOk.readAll, MemOk.askMerge, MemOk.consumePoison, MemOk.finishLoad]

/-! ## Synchronisation instructions (R381 to R394) -/

theorem MemOk.resultRelease {r : Rec} {t : Word} {scope : Option Nat} {loads blocks : Bool} {tlc : Option (Nat × Nat)} {o : Operand}
    (h : MemOk s) : MemOk (s.resultRelease r t scope loads blocks tlc o) := h.heldTokens.openRelease

theorem MemOk.execFence {r : Rec} (h : MemOk s) (e : execFence r s = .next s') : MemOk s' := by
  unfold Machine.execFence at e
  grind [MemOk.memFire, MemOk.resultRelease]

theorem MemOk.execRel {r : Rec} (h : MemOk s) (e : execRel r s = .next s') : MemOk s' := by
  unfold Machine.execRel at e
  grind [MemOk.memFire, MemOk.resultRelease]

theorem MemOk.execAcq {r : Rec} (h : MemOk s) (e : execAcq r s = .next s') : MemOk s' := by
  unfold Machine.execAcq at e
  grind [MemOk.memFire, MemOk.resultRelease]

theorem MemOk.execTlinc {r : Rec} (h : MemOk s) (e : execTlinc r s = .next s') : MemOk s' := by
  unfold Machine.execTlinc at e
  grind [bind_eq_ok, MemOk.fire, MemOk.takeNumber, MemOk.resultRelease]

theorem MemOk.execTlwait {r : Rec} (h : MemOk s) (e : execTlwait r s = .next s') : MemOk s' := by
  unfold Machine.execTlwait at e
  grind [bind_eq_ok, MemOk.fire, MemOk.wakeTimeline, MemOk.modCluster]

theorem MemOk.execTlread {r : Rec} (h : MemOk s) (e : execTlread r s = .next s') : MemOk s' := by
  unfold Machine.execTlread at e
  grind [bind_eq_ok, MemOk.fire, MemOk.emitB, MemOk.emitA]

theorem MemOk.execTlarm {r : Rec} (h : MemOk s) (e : execTlarm r s = .next s') : MemOk s' := by
  unfold Machine.execTlarm at e
  grind [bind_eq_ok, MemOk.fire, MemOk.emitA, MemOk.sendArmed, MemOk.modCluster]

theorem MemOk.execLsend {r : Rec} (h : MemOk s) (e : execLsend r s = .next s') : MemOk s' := by
  unfold Machine.execLsend at e
  grind [bind_eq_ok, MemOk.memFire, MemOk.startRelease]

theorem MemOk.answerBarrier {b : Barrier} {freed : Bool} (h : MemOk s) : MemOk (s.answerBarrier b freed) := by
  unfold State.answerBarrier
  grind [MemOk.replyBoth, MemOk.foldl]

theorem MemOk.freeBarrier {d : DieId} {i : Nat} {b : Barrier} (h : MemOk s) : MemOk (s.freeBarrier d i b) := by
  unfold State.freeBarrier
  grind [DieOk, MemOk.answerBarrier, MemOk.modDie]

theorem MemOk.putBarrier {d : DieId} {i : Nat} {b : Barrier} (h : MemOk s) : MemOk (s.putBarrier d i b) := by
  unfold State.putBarrier
  grind [DieOk, MemOk.freeBarrier, MemOk.answerBarrier, MemOk.modDie]

theorem MemOk.leaveBarriers {d : DieId} {col : BitVec 9} {killed : Bool} (h : MemOk s) : MemOk (s.leaveBarriers d col killed) := by
  unfold State.leaveBarriers
  grind [MemOk.freeBarrier, MemOk.putBarrier, MemOk.foldl]

theorem MemOk.execBarinit {r : Rec} (h : MemOk s) (e : execBarinit r s = .next s') : MemOk s' := by
  unfold Machine.execBarinit at e
  grind [DieOk, bind_eq_ok, MemOk.fire, MemOk.emitB, MemOk.emitA, MemOk.modDie]

theorem MemOk.execBararr {r : Rec} (h : MemOk s) (e : execBararr r s = .next s') : MemOk s' := by
  unfold Machine.execBararr at e
  grind [bind_eq_ok, MemOk.fire, MemOk.putBarrier]

theorem MemOk.execBarexit {r : Rec} (h : MemOk s) (e : execBarexit r s = .next s') : MemOk s' := by
  unfold Machine.execBarexit at e
  grind [bind_eq_ok, MemOk.fire, MemOk.out, MemOk.putBarrier]

theorem MemOk.execItake {r : Rec} (h : MemOk s) (e : execItake r s = .next s') : MemOk s' := by
  unfold Machine.execItake at e
  grind [bind_eq_ok, MemOk.memFire, MemOk.makeReq]

theorem MemOk.execIread {r : Rec} (h : MemOk s) (e : execIread r s = .next s') : MemOk s' := by
  unfold Machine.execIread at e
  grind [bind_eq_ok, MemOk.memFire, MemOk.makeReq]

theorem MemOk.execIput {r : Rec} (h : MemOk s) (e : execIput r s = .next s') : MemOk s' := by
  unfold Machine.execIput at e
  grind [bind_eq_ok, MemOk.memFire, MemOk.makeReq]

theorem MemOk.execIclr {r : Rec} (h : MemOk s) (e : execIclr r s = .next s') : MemOk s' := by
  unfold Machine.execIclr at e
  grind [bind_eq_ok, MemOk.memFire, MemOk.makeReq]

theorem MemOk.execAtom {r : Rec} (h : MemOk s) (e : execAtom r s = .next s') : MemOk s' := by
  unfold Machine.execAtom at e
  grind [bind_eq_ok, MemOk.memFire, MemOk.makeReq]

theorem MemOk.execAcas {r : Rec} (h : MemOk s) (e : execAcas r s = .next s') : MemOk s' := by
  unfold Machine.execAcas at e
  grind [bind_eq_ok, MemOk.memFire, MemOk.makeReq]

theorem MemOk.execSpecbeg {r : Rec} (h : MemOk s) (e : execSpecbeg r s = .next s') : MemOk s' := by
  refine h.fireRaw (fun s' e => ?_) e
  simp only [bind_eq_ok] at e
  obtain ⟨_, _, ps, _, e⟩ := e
  have hd : ∀ {d : DieId} {t : State} {hs : List (Nat × SpecHandle)}, MemOk t → MemOk (t.modDie d fun x => { x with handles := hs }) :=
    fun ht => ht.modDie fun _ hx => hx
  grind [MemOk.startChild, MemOk.modAct, MemOk.modCurAct, MemOk.modDie, DieOk, MemOk.firstToken]

end

end Sys2Proof.Proofs.MemoryForm
end
section
/-! The canonical form of every memory through the model: the vector instructions and the matrix engine. -/

namespace Sys2Proof.Proofs.MemoryForm

open Sys2Proof Sys2Proof.Machine

section
variable {s s' : State}

/-! ## Vector, conversion and selection instructions (R282 to R292) -/

theorem MemOk.putElems {x : Slice} {w : Nat} {es : List Nat} (h : MemOk s) : MemOk (s.putElems x w es) := h.putImage

theorem MemOk.vecRnd {r : Rec} {n : Nat} (h : MemOk s) : MemOk (s.vecRnd r n).2 := by
  unfold State.vecRnd
  grind [MemOk.reserve]

theorem MemOk.vecOut {r : Rec} {t : Word} {x : Slice} {es : List (Nat × Flg)} {cls : Nat}
    (h : MemOk s) (e : vecOut r t x s es cls = .ok s') : MemOk s' := by
  unfold Machine.vecOut at e
  grind [MemOk.out, MemOk.raise, MemOk.putElems]

theorem MemOk.vecUn {f : Form} {draws : Bool} {iop : Nat → Bool → Nat → Nat × Flg} {fop : Fmt → Rnd → Nat → Nat × Flg} {r : Rec}
    (h : MemOk s) (e : vecUn f draws iop fop r s = .next s') : MemOk s' := by
  unfold Machine.vecUn at e
  grind [bind_eq_ok, MemOk.fire, MemOk.vecRnd, MemOk.vecOut]

theorem MemOk.vecBin {f : Form} {draws : Bool} {iop : Nat → Bool → Nat → Nat → Nat × Flg} {fop : Fmt → Rnd → Nat → Nat → Nat × Flg}
    {r : Rec}
    (h : MemOk s) (e : vecBin f draws iop fop r s = .next s') : MemOk s' := by
  unfold Machine.vecBin at e
  grind [bind_eq_ok, MemOk.fire, MemOk.vecRnd, MemOk.vecOut]

theorem MemOk.execVadd {r : Rec} (h : MemOk s) (e : execVadd r s = .next s') : MemOk s' := h.vecBin e

theorem MemOk.execVsub {r : Rec} (h : MemOk s) (e : execVsub r s = .next s') : MemOk s' := h.vecBin e

theorem MemOk.execVmul {r : Rec} (h : MemOk s) (e : execVmul r s = .next s') : MemOk s' := h.vecBin e

theorem MemOk.execVfma {r : Rec} (h : MemOk s) (e : execVfma r s = .next s') : MemOk s' := by
  unfold Machine.execVfma at e
  grind [bind_eq_ok, MemOk.fire, MemOk.vecRnd, MemOk.vecOut]

theorem MemOk.execVmin {r : Rec} (h : MemOk s) (e : execVmin r s = .next s') : MemOk s' := h.vecBin e

theorem MemOk.execVmax {r : Rec} (h : MemOk s) (e : execVmax r s = .next s') : MemOk s' := h.vecBin e

theorem MemOk.execVabs {r : Rec} (h : MemOk s) (e : execVabs r s = .next s') : MemOk s' := h.vecUn e

theorem MemOk.execVneg {r : Rec} (h : MemOk s) (e : execVneg r s = .next s') : MemOk s' := h.vecUn e

theorem MemOk.execVexp2 {r : Rec} (h : MemOk s) (e : execVexp2 r s = .next s') : MemOk s' := h.vecUn e

theorem MemOk.execVrcp {r : Rec} (h : MemOk s) (e : execVrcp r s = .next s') : MemOk s' := h.vecUn e

theorem MemOk.execVrsq {r : Rec} (h : MemOk s) (e : execVrsq r s = .next s') : MemOk s' := h.vecUn e

theorem MemOk.execVand {r : Rec} (h : MemOk s) (e : execVand r s = .next s') : MemOk s' := h.vecBin e

theorem MemOk.execVor {r : Rec} (h : MemOk s) (e : execVor r s = .next s') : MemOk s' := h.vecBin e

theorem MemOk.execVxor {r : Rec} (h : MemOk s) (e : execVxor r s = .next s') : MemOk s' := h.vecBin e

theorem MemOk.execVshl {r : Rec} (h : MemOk s) (e : execVshl r s = .next s') : MemOk s' := h.vecBin e

theorem MemOk.execVshr {r : Rec} (h : MemOk s) (e : execVshr r s = .next s') : MemOk s' := h.vecBin e

theorem MemOk.execVcmp {r : Rec} (h : MemOk s) (e : execVcmp r s = .next s') : MemOk s' := by
  unfold Machine.execVcmp at e
  grind [bind_eq_ok, MemOk.fire, MemOk.vecOut]

theorem MemOk.execVsel {r : Rec} (h : MemOk s) (e : execVsel r s = .next s') : MemOk s' := by
  unfold Machine.execVsel at e
  grind [bind_eq_ok, MemOk.fire, MemOk.vecOut]

theorem MemOk.reduce {r : Rec} {x₁ : Slice} {x₂ : List (Nat × Flg)} (h : MemOk s) (e : s.reduce r = .ok (x₁, x₂, s')) : MemOk s' := by
  unfold State.reduce at e
  grind [bind_eq_ok, MemOk.vecRnd]

theorem MemOk.execVred {r : Rec} (h : MemOk s) (e : execVred r s = .next s') : MemOk s' := by
  unfold Machine.execVred at e
  grind [bind_eq_ok, MemOk.fire, MemOk.reduce, MemOk.out, MemOk.raise]

theorem MemOk.execVscan {r : Rec} (h : MemOk s) (e : execVscan r s = .next s') : MemOk s' := by
  refine h.fire (fun t s s' hs e => ?_) e
  obtain ⟨⟨x, ys, s₁⟩, hr, e⟩ := bind_eq_ok.1 e
  exact (hs.reduce hr).vecOut e

theorem MemOk.moveOut {r : Rec} {t : Word} {n : Nat} {x : Slice} {w : Nat} {es : List Nat} {cls : Nat}
    (h : MemOk s) (e : moveOut r t s n x w es cls = .ok s') : MemOk s' := by
  unfold Machine.moveOut at e
  grind [MemOk.out, MemOk.putElems]

theorem MemOk.execVperm {r : Rec} (h : MemOk s) (e : execVperm r s = .next s') : MemOk s' := by
  unfold Machine.execVperm at e
  grind [bind_eq_ok, MemOk.fire, MemOk.moveOut]

theorem MemOk.execVsplat {r : Rec} (h : MemOk s) (e : execVsplat r s = .next s') : MemOk s' := by
  unfold Machine.execVsplat at e
  grind [bind_eq_ok, MemOk.fire, MemOk.moveOut]

theorem MemOk.execViota {r : Rec} (h : MemOk s) (e : execViota r s = .next s') : MemOk s' := by
  unfold Machine.execViota at e
  grind [bind_eq_ok, MemOk.fire, MemOk.moveOut]

theorem MemOk.execVpack {r : Rec} (h : MemOk s) (e : execVpack r s = .next s') : MemOk s' := by
  unfold Machine.execVpack at e
  grind [bind_eq_ok, MemOk.fire, MemOk.moveOut]

theorem MemOk.execVunpk {r : Rec} (h : MemOk s) (e : execVunpk r s = .next s') : MemOk s' := by
  unfold Machine.execVunpk at e
  grind [bind_eq_ok, MemOk.fire, MemOk.putElems, MemOk.emitB, MemOk.emitA]

theorem MemOk.execVcpy {r : Rec} (h : MemOk s) (e : execVcpy r s = .next s') : MemOk s' := by
  unfold Machine.execVcpy at e
  grind [bind_eq_ok, MemOk.fire, MemOk.moveOut]

theorem MemOk.emitOverflow {r : Rec} {t : Word} {o : Option (Nat × Nat × Bool)} (h : MemOk s) : MemOk (s.emitOverflow r t o) := by
  unfold State.emitOverflow
  grind [MemOk.emitB]

theorem MemOk.execVcvt {r : Rec} (h : MemOk s) (e : execVcvt r s = .next s') : MemOk s' := by
  unfold Machine.execVcvt at e
  grind [bind_eq_ok, MemOk.fire, MemOk.vecRnd, MemOk.raise, MemOk.putElems, MemOk.emitOverflow, MemOk.emitA]

theorem MemOk.execCvt {r : Rec} (h : MemOk s) (e : execCvt r s = .next s') : MemOk s' := by
  unfold Machine.execCvt at e
  grind [bind_eq_ok, MemOk.fire, MemOk.vecRnd, MemOk.emitOverflow, MemOk.emitA, MemOk.raise]

theorem MemOk.execQblk {r : Rec} (h : MemOk s) (e : execQblk r s = .next s') : MemOk s' := by
  unfold Machine.execQblk at e
  grind [bind_eq_ok, MemOk.fire, MemOk.vecRnd, MemOk.raise, MemOk.putElems, MemOk.emitB, MemOk.emitA]

theorem MemOk.nanScale {hit : Bool} (h : MemOk s) : MemOk (s.nanScale hit) := by
  unfold State.nanScale
  grind [MemOk.raise, MemOk.faultCur]

theorem MemOk.execDqblk {r : Rec} (h : MemOk s) (e : execDqblk r s = .next s') : MemOk s' := by
  unfold Machine.execDqblk at e
  grind [bind_eq_ok, MemOk.fire, MemOk.vecRnd, MemOk.raise, MemOk.putElems, MemOk.out, MemOk.nanScale]

theorem MemOk.execTernpk {r : Rec} (h : MemOk s) (e : execTernpk r s = .next s') : MemOk s' := by
  unfold Machine.execTernpk at e
  grind [bind_eq_ok, MemOk.fire, MemOk.out, MemOk.raise, MemOk.putElems]

theorem MemOk.execTernpkUnpk {r : Rec} (h : MemOk s) (e : execTernpkUnpk r s = .next s') : MemOk s' := by
  unfold Machine.execTernpkUnpk at e
  grind [bind_eq_ok, MemOk.fire, MemOk.out, MemOk.raise, MemOk.putElems]

theorem MemOk.execTopk {r : Rec} (h : MemOk s) (e : execTopk r s = .next s') : MemOk s' := by
  unfold Machine.execTopk at e
  grind [bind_eq_ok, MemOk.fire, MemOk.moveOut]

theorem MemOk.execTopkm {r : Rec} (h : MemOk s) (e : execTopkm r s = .next s') : MemOk s' := by
  unfold Machine.execTopkm at e
  grind [bind_eq_ok, MemOk.fire, MemOk.moveOut]

/-! ## Matrix and softmax messages (R294 to R309) -/

theorem MemOk.modMat {c : CoreId} {id : Nat} {f : MatMsg → MatMsg} (h : MemOk s) : MemOk (s.modMat c id f) := by
  unfold State.modMat
  grind [CoreOk, MemOk.modCore]

theorem MemOk.dropMat {c : CoreId} {id : Nat} (h : MemOk s) : MemOk (s.dropMat c id) := by
  unfold State.dropMat
  grind [CoreOk, MemOk.modCore]

theorem MemOk.faultMat {f : Flt} (h : MemOk s) : MemOk (s.faultMat f) := h.fault

theorem MemOk.matFire {f : Form} {r : Rec} (h : MemOk s) (e : matFire f r s = .next s') : MemOk s' := by
  unfold Machine.matFire at e
  grind [CoreOk, MemOk.retryIssue, MemOk.fire, MemOk.fresh, MemOk.laterAt, MemOk.modCore]

theorem MemOk.execOclm {r : Rec} (h : MemOk s) (e : execOclm r s = .next s') : MemOk s' := h.matFire e

theorem MemOk.execOrel {r : Rec} (h : MemOk s) (e : execOrel r s = .next s') : MemOk s' := h.matFire e

theorem MemOk.execOld {r : Rec} (h : MemOk s) (e : execOld r s = .next s') : MemOk s' := h.matFire e

theorem MemOk.execOlds {r : Rec} (h : MemOk s) (e : execOlds r s = .next s') : MemOk s' := h.matFire e

theorem MemOk.execOldsQ {r : Rec} (h : MemOk s) (e : execOldsQ r s = .next s') : MemOk s' := h.matFire e

theorem MemOk.execMma {r : Rec} (h : MemOk s) (e : execMma r s = .next s') : MemOk s' := h.matFire e

theorem MemOk.execMmat {r : Rec} (h : MemOk s) (e : execMmat r s = .next s') : MemOk s' := h.matFire e

theorem MemOk.execMmax {r : Rec} (h : MemOk s) (e : execMmax r s = .next s') : MemOk s' := h.matFire e

theorem MemOk.execAclr {r : Rec} (h : MemOk s) (e : execAclr r s = .next s') : MemOk s' := h.matFire e

theorem MemOk.execAmov {r : Rec} (h : MemOk s) (e : execAmov r s = .next s') : MemOk s' := h.matFire e

theorem MemOk.execAadd {r : Rec} (h : MemOk s) (e : execAadd r s = .next s') : MemOk s' := h.matFire e

theorem MemOk.execAcvt {r : Rec} (h : MemOk s) (e : execAcvt r s = .next s') : MemOk s' := h.matFire e

theorem MemOk.execAckpt {r : Rec} (h : MemOk s) (e : execAckpt r s = .next s') : MemOk s' := h.matFire e

theorem MemOk.execArst {r : Rec} (h : MemOk s) (e : execArst r s = .next s') : MemOk s' := h.matFire e

theorem MemOk.execAstat {r : Rec} (h : MemOk s) (e : execAstat r s = .next s') : MemOk s' := h.matFire e

theorem MemOk.execSmxi {r : Rec} (h : MemOk s) (e : execSmxi r s = .next s') : MemOk s' := h.matFire e

theorem MemOk.execSmxu {r : Rec} (h : MemOk s) (e : execSmxu r s = .next s') : MemOk s' := h.matFire e

theorem MemOk.execSmxn {r : Rec} (h : MemOk s) (e : execSmxn r s = .next s') : MemOk s' := h.matFire e

theorem MemOk.execSmxm {r : Rec} (h : MemOk s) (e : execSmxm r s = .next s') : MemOk s' := h.matFire e

theorem MemOk.execSmxr {r : Rec} (h : MemOk s) (e : execSmxr r s = .next s') : MemOk s' := h.matFire e

theorem MemOk.execSmxw {r : Rec} (h : MemOk s) (e : execSmxw r s = .next s') : MemOk s' := h.matFire e

theorem MemOk.execSmxs {r : Rec} (h : MemOk s) (e : execSmxs r s = .next s') : MemOk s' := h.matFire e

theorem MemOk.claimBlock {m : MatMsg} (h : MemOk s) : MemOk (s.claimBlock m).2 := by
  unfold State.claimBlock
  grind [CoreOk, MemOk.core, MemOk.setCore]

theorem MemOk.execMatrixAccept (h : MemOk s) (e : execMatrixAccept s = .next s') : MemOk s' := by
  unfold Machine.execMatrixAccept at e
  grind [MemOk, CoreOk, MemOk.core, MemOk.laterAt, MemOk.setCore, MemOk.faultCur, MemOk.claimBlock, MemOk.modCore]

theorem MemOk.runMma {m : MatMsg} (h : MemOk s) : MemOk (s.runMma m) := by
  unfold State.runMma
  grind [MemOk.raise, MemOk.modCore, CoreOk.putWords, MemOk.nanScale, MemOk.foldl]

theorem MemOk.ckptReq {m : MatMsg} {write : Bool} {data : List Byte} (h : MemOk s) : MemOk (s.ckptReq m write data) := by
  unfold State.ckptReq
  grind [CoreOk, MemOk.stallGo, MemOk.fresh, MemOk.modMat, MemOk.stallRecord, MemOk.modCore, MemOk.leaveUnit]

theorem MemOk.tokReq {m : MatMsg} (h : MemOk s) (e : s.tokReq m = .ok s') : MemOk s' := by
  unfold State.tokReq at e
  obtain ⟨va, _, e⟩ := bind_eq_ok.1 e
  cases e
  exact h.fresh.modMat.leaveUnit

theorem MemOk.tokRest {m : MatMsg} (h : MemOk s) (e : s.tokRest m = .ok s') : MemOk s' := by
  unfold State.tokRest at e
  obtain ⟨va, _, e⟩ := bind_eq_ok.1 e
  obtain ⟨_, _, e⟩ := bind_eq_ok.1 e
  dsimp only at e
  split at e
  · exact absurd e nofun
  · split at e
    · cases e
      exact h
    · cases e
      exact MemOk.laterAt (MemOk.retouch (MemOk.modReq (MemOk.modMat h)))

theorem MemOk.takeCopy {m : MatMsg} (h : MemOk s) (e : s.takeCopy m = .ok s') : MemOk s' := by
  unfold State.takeCopy at e
  grind [CoreOk, MemOk.modCore, CoreOk.putScales, CoreOk.putSlot]

theorem MemOk.matBegin {m : MatMsg} {x₁ : Option (List Byte)} (h : MemOk s) (e : s.matBegin m = .ok (x₁, s')) : MemOk s' := by
  unfold State.matBegin at e
  grind [MemOk, CoreOk, bind_eq_ok, MemOk.admitScales, MemOk.modCore, MemOk.later, MemOk.takeCopy, MemOk.ckptReq, MemOk.tokReq, MemOk.foldl]

theorem MemOk.execMatrixStart (h : MemOk s) (e : execMatrixStart s = .next s') : MemOk s' := by
  unfold Machine.execMatrixStart at e
  grind [MemOk, MemOk.laterAt, MemOk.matBegin, MemOk.faultMat, MemOk.dropMat, MemOk.consumePoison, MemOk.modMat, MemOk.reserve]

theorem MemOk.execMmaxACopy {c leader : CoreId} {n : Nat} (h : MemOk s) (e : execMmaxACopy c leader n s = .next s') : MemOk s' := by
  unfold Machine.execMmaxACopy at e
  grind [CoreOk, MemOk.modCore, MemOk.modMat]

theorem MemOk.putSliceOf {m : MatMsg} {n : Nat} {bs : List Byte} (h : MemOk s) : MemOk (s.putSliceOf m n bs) := by
  unfold State.putSliceOf
  grind [MemOk.putImage]

theorem MemOk.matCommit {m : MatMsg} {o₁ o₂ : Operand} (h : MemOk s) (e : s.matCommit m = .ok (s', o₁, o₂)) : MemOk s' := by
  have hk : CoreOk (s.core s.cur.core) := h.core _
  unfold State.matCommit at e
  dsimp only at e
  split at e
  case h_1 =>
    cases e
    refine h.modCore fun k hk => foldl_keeps (fun k j hk => ?_) hk
    split
    · exact hk.clearTile
    · exact hk.clearSlot
  case h_2 =>
    cases e
    exact h.modCore fun k hk => hk.putSlot
  case h_3 =>
    cases e
    exact h.modCore fun k hk => hk.putScales
  case h_4 =>
    cases e
    exact h.modCore fun k hk => hk.putTile
  case h_5 =>
    split at e
    · cases e
      exact h.putSliceOf
    · cases e
      exact h.modCore fun k hk => hk.putTile
    · cases e
      exact h.modCore fun k hk => CoreOk.putRows hk.putTile
  case h_6 =>
    cases e
    exact MemOk.raise (h.modCore fun k hk => hk.putWords)
  case h_7 =>
    cases e
    exact h.putSliceOf.raise
  case h_8 =>
    cases e
    exact h
  case h_9 =>
    split at e
    · exact absurd e nofun
    · cases e
      exact h.modCore fun k hk => foldl_keeps (fun k p hk => hk.putRow) hk.putTile
  case h_10 =>
    cases e
    exact h.modCore fun k hk => foldl_keeps (fun k j hk => hk.putRow.putGroupRow) hk
  case h_11 =>
    split at e
    · exact absurd e nofun
    · cases e
      exact (h.setCore hk.runSmxu).putSliceOf.raise
  case h_12 =>
    cases e
    exact (h.setCore hk.runSmxn).putSliceOf.raise
  case h_13 =>
    cases e
    exact (h.setCore hk.runSmxm).raise
  case h_14 =>
    cases e
    exact h
  case h_15 =>
    split at e
    · exact absurd e nofun
    · cases e
      exact h.modCore fun k hk => foldl_keeps (fun k p hk => hk.putRow.putGroupRow) hk
  case h_16 =>
    cases e
    exact h
  case h_17 =>
    cases e
    exact h.runMma

theorem MemOk.endMat {c : CoreId} {m : MatMsg} (h : MemOk s) : MemOk (s.endMat c m) := by
  unfold State.endMat
  grind [MemOk.matCommit, MemOk.faultMat, MemOk.dropMat, MemOk.laterAt, MemOk.modMat]

theorem MemOk.execMatrixOccupancyEnd (h : MemOk s) (e : execMatrixOccupancyEnd s = .next s') : MemOk s' := by
  unfold Machine.execMatrixOccupancyEnd at e
  grind [MemOk, MemOk.tokRest, MemOk.dropReq, MemOk.faultMat, MemOk.dropMat, MemOk.laterAt, MemOk.modMat, MemOk.endMat]

theorem MemOk.execMatrixRetry (h : MemOk s) (e : execMatrixRetry s = .next s') : MemOk s' := by
  unfold Machine.execMatrixRetry at e
  grind [MemOk, MemOk.faultMat, MemOk.dropMat, MemOk.orderPurge, MemOk.endMat, MemOk.board]

theorem MemOk.execMatrixReply (h : MemOk s) (e : execMatrixReply s = .next s') : MemOk s' := by
  unfold Machine.execMatrixReply at e
  grind [MemOk.dropMat, MemOk.sendFrom]

end

end Sys2Proof.Proofs.MemoryForm
end
section
/-! The canonical form of every memory through the model: query tokens and the shard table. -/

namespace Sys2Proof.Proofs.MemoryForm

open Sys2Proof Sys2Proof.Machine

section
variable {s s' : State}

/-! ## Query tokens and their stations (R256 to R275) -/

theorem MemOk.readDesc {d : DieId} {pid : Nat} (h : MemOk s) : MemOk (s.readDesc d pid) := by
  unfold State.readDesc
  grind [MemOk.readThrough]

theorem MemOk.setDesc {d : DieId} {pid i v : Nat} (h : MemOk s) : MemOk (s.setDesc d pid i v) := h.sysWord

theorem MemOk.setEntry {d : DieId} {list i pid : Nat} (h : MemOk s) : MemOk (s.setEntry d list i pid) := h.sysWrite

theorem MemOk.addStation {d : DieId} {list : Nat} {c : CoreId} {npage : Nat} (h : MemOk s) : MemOk (s.addStation d list c npage) :=
  h.sysWord.sysWord

theorem MemOk.setSlot {c : CoreId} {i : Nat} {x : Option Slot} (h : MemOk s) : MemOk (s.setSlot c i x) := by
  unfold State.setSlot
  grind [CoreOk, MemOk.modCore]

theorem MemOk.modSlot {c : CoreId} {i : Nat} {f : Slot → Slot} (h : MemOk s) : MemOk (s.modSlot c i f) := by
  unfold State.modSlot
  grind [MemOk.setSlot]

theorem MemOk.setRing {c : CoreId} {b : Nat} {x : Option (Nat × RingUse)} (h : MemOk s) : MemOk (s.setRing c b x) := by
  unfold State.setRing
  grind [CoreOk, MemOk.modCore]

theorem MemOk.modTok {q : Nat} {f : QTok → QTok} (h : MemOk s) : MemOk (s.modTok q f) := h

theorem MemOk.dropTok {q : Nat} (h : MemOk s) : MemOk (s.dropTok q) := h

theorem MemOk.wakeRing {c : CoreId} (h : MemOk s) : MemOk (s.wakeRing c) := by
  unfold State.wakeRing
  grind [CoreOk, MemOk.laterAt, MemOk.modCore]

theorem MemOk.leaveWait {c : CoreId} {q : Nat} (h : MemOk s) : MemOk (s.leaveWait c q) := by
  unfold State.leaveWait
  grind [CoreOk, MemOk.wakeRing, MemOk.modCore]

theorem MemOk.moveOn {q : Nat} (h : MemOk s) : MemOk (s.moveOn q) := by
  unfold State.moveOn
  grind [MemOk.leaveWait, MemOk.laterAt, MemOk.modTok]

theorem MemOk.freeRing {c : CoreId} {b : Nat} (h : MemOk s) : MemOk (s.freeRing c b) := h.setRing.wakeRing

theorem MemOk.takeRing {c : CoreId} {q : Nat} (h : MemOk s) : MemOk (s.takeRing c q).2 := by
  unfold State.takeRing
  grind [CoreOk, MemOk.core, MemOk.wakeRing, MemOk.setCore]

theorem MemOk.discardTok {q : Nat} (h : MemOk s) : MemOk (s.discardTok q) := by
  unfold State.discardTok
  grind [CoreOk, MemOk.dropTok, MemOk.modCore, MemOk.freeRing, MemOk.wakeRing]

theorem MemOk.copyPage {c : CoreId} {i src dst : Nat} (h : MemOk s) : MemOk (s.copyPage c i src dst).2 := by
  unfold State.copyPage
  grind [MemOk.drawRuns, MemOk.writeReady, MemOk.sysWrite, MemOk.spoil, MemOk.foldl]

theorem MemOk.setLoc {c : CoreId} {i pid loc : Nat} (h : MemOk s) : MemOk (s.setLoc c i pid loc) := by
  unfold State.setLoc
  grind [MemOk.setDesc, MemOk.modSlot]

theorem MemOk.startRefill {c : CoreId} {i : Nat} (h : MemOk s) : MemOk (s.startRefill c i) := by
  unfold State.startRefill
  grind [MemOk.laterAt, MemOk.modSlot, MemOk.setLoc]

theorem MemOk.bumpHdr {c : CoreId} {b hi lo : Nat} (h : MemOk s) : MemOk (s.bumpHdr c b hi lo) := h.keyWrite

theorem MemOk.beginVisit {c : CoreId} {q b i : Nat} {x : Slot} (h : MemOk s) : MemOk (s.beginVisit c q b i x) := by
  unfold State.beginVisit
  grind [MemOk.readDesc, MemOk.setRing, MemOk.bumpHdr, MemOk.later]

theorem MemOk.execQueryTokenStationArrival (h : MemOk s) (e : execQueryTokenStationArrival s = .next s') : MemOk s' := by
  unfold Machine.execQueryTokenStationArrival at e
  grind [MemOk.discardTok, MemOk.readThrough, MemOk.moveOn, MemOk.laterAt, MemOk.modTok, MemOk.foldl]

theorem MemOk.execVisitStart (h : MemOk s) (e : execVisitStart s = .next s') : MemOk s' := by
  unfold Machine.execVisitStart at e
  cases e
  dsimp only
  split
  case h_1 => exact h
  case h_2 t ht =>
    grind [MemOk.discardTok, MemOk.moveOn, MemOk.modTok, MemOk.laterAt, MemOk.takeRing, MemOk.keyWrite, MemOk.beginVisit,
      MemOk.fresh, MemOk.startRefill, MemOk.setRing, MemOk.bumpHdr]

theorem MemOk.failRefill {c : CoreId} {x : Slot} {q : Nat} (h : MemOk s) : MemOk (s.failRefill c x q) := by
  unfold State.failRefill
  grind [MemOk.fault, MemOk.discardTok, MemOk.orderPurge]

theorem MemOk.execRefillComplete (h : MemOk s) (e : execRefillComplete s = .next s') : MemOk s' := by
  unfold Machine.execRefillComplete at e
  grind [MemOk.modSlot, MemOk.setLoc, MemOk.failRefill, MemOk.copyPage, MemOk.laterAt, MemOk.setDesc, MemOk.discardTok, MemOk.beginVisit,
    MemOk.foldl]

theorem MemOk.execTokenReturn (h : MemOk s) (e : execTokenReturn s = .next s') : MemOk s' := by
  unfold Machine.execTokenReturn at e
  grind [MemOk.discardTok, MemOk.takeRing, MemOk.modTok, MemOk.keyWrite, MemOk.setRing, MemOk.later]

/-! ## Shard instructions and speculation (R312, R327 to R339, R396 to R398) -/

theorem MemOk.statusOut {r : Rec} {t : Word} {st : Nat} (h : MemOk s) (e : statusOut r t st s = .ok s') : MemOk s' := by
  unfold Machine.statusOut at e
  grind [MemOk.out]

theorem MemOk.execQsend {r : Rec} (h : MemOk s) (e : execQsend r s = .next s') : MemOk s' := by
  unfold Machine.execQsend at e
  grind [MemOk, bind_eq_ok, MemOk.memFire, MemOk.statusOut, MemOk.fresh, MemOk.moveOn]

theorem MemOk.execQfwd {r : Rec} (h : MemOk s) (e : execQfwd r s = .next s') : MemOk s' := by
  unfold Machine.execQfwd at e
  grind [bind_eq_ok, MemOk.memFire, MemOk.freeRing, MemOk.modTok, MemOk.statusOut, MemOk.laterAt, MemOk.moveOn, MemOk.dropTok]

theorem MemOk.execKlook {r : Rec} (h : MemOk s) (e : execKlook r s = .next s') : MemOk s' := by
  refine h.memFire (fun t s s' hs e => ?_) e
  simp only [bind_eq_ok] at e
  grind [MemOk.statusOut, MemOk.keyWrite]

theorem MemOk.execKlookPage {r : Rec} (h : MemOk s) (e : execKlookPage r s = .next s') : MemOk s' := by
  unfold Machine.execKlookPage at e
  grind [bind_eq_ok, MemOk.memFire, MemOk.emitB, MemOk.emitA]

theorem MemOk.execSeqtblNext {r : Rec} (h : MemOk s) (e : execSeqtblNext r s = .next s') : MemOk s' := by
  unfold Machine.execSeqtblNext at e
  grind [bind_eq_ok, MemOk.memFire, MemOk.statusOut, MemOk.modCluster]

theorem MemOk.askTurn {opc : Nat} {r : Rec} {t : Word} {data : List Byte} {stage : Nat} (h : MemOk s) : MemOk (s.askTurn opc r t data stage) := by
  unfold State.askTurn
  grind [CoreOk, MemOk.fresh, MemOk.laterAt, MemOk.modCore]

theorem MemOk.modShard {c : CoreId} {id : Nat} {f : ShardReq → ShardReq} (h : MemOk s) : MemOk (s.modShard c id f) := by
  unfold State.modShard
  grind [CoreOk, MemOk.modCore]

theorem MemOk.dropShard {c : CoreId} {id : Nat} (h : MemOk s) : MemOk (s.dropShard c id) := by
  unfold State.dropShard
  grind [CoreOk, MemOk.modCore]

theorem MemOk.endShard {c : CoreId} {q : ShardReq} {v : Nat} (h : MemOk s) : MemOk (s.endShard c q v) := h.dropShard.replyBoth

theorem MemOk.failShard {c : CoreId} {q : ShardReq} {f : Flt} (h : MemOk s) : MemOk (s.failShard c q f) := h.faultCur.dropShard

theorem MemOk.turnAgain {c : CoreId} {q : ShardReq} (h : MemOk s) : MemOk (s.turnAgain c q) := h.laterAt

theorem MemOk.toStage {c : CoreId} {q : ShardReq} {stage : Nat} (h : MemOk s) : MemOk (s.toStage c q stage) := h.modShard

theorem MemOk.reachTurn {c : CoreId} {q : ShardReq} {pid list : Option Nat} (h : MemOk s) : MemOk (s.reachTurn c q pid list).2 := by
  unfold State.reachTurn
  grind [MemOk.fresh, MemOk.readDesc, MemOk.readThrough, MemOk.modShard]

theorem MemOk.atTurn {c : CoreId} {q : ShardReq} {pid list : Option Nat} {go : ShardReq → State → State} (h : MemOk s)
    (hgo : ∀ q s, MemOk s → MemOk (go q s)) : MemOk (s.atTurn c q pid list go) := by
  unfold State.atTurn
  grind [MemOk.reachTurn, MemOk.turnAgain]

theorem MemOk.releaseShard {c : CoreId} {q : ShardReq} {scope v : Nat} (h : MemOk s) : MemOk (s.releaseShard c q scope v) :=
  h.heldTokens.dropShard.openRelease

theorem MemOk.stageShard {c : CoreId} {q : ShardReq} {stage : Nat} (h : MemOk s) : MemOk (s.stageShard c q stage) := h.toStage.openRelease

theorem MemOk.readTable {q : ShardReq} {a : Word} {n m : Nat} (h : MemOk s) (e : s.readTable q a n m = .ok s') : MemOk s' := by
  unfold State.readTable at e
  grind [bind_eq_ok, MemOk.makeReq]

theorem MemOk.askTable {opc : Nat} {r : Rec} {t a : Word} {n m : Nat} (h : MemOk s) (e : s.askTable opc r t a n m = .ok s') : MemOk s' := by
  unfold State.askTable at e
  grind [CoreOk, MemOk.fresh, MemOk.readTable, MemOk.modCore]

theorem MemOk.execPxlook {r : Rec} (h : MemOk s) (e : execPxlook r s = .next s') : MemOk s' := by
  unfold Machine.execPxlook at e
  grind [bind_eq_ok, MemOk.memFire, MemOk.askTable]

theorem MemOk.pxlookTurn {c : CoreId} {q : ShardReq} (h : MemOk s) : MemOk (s.pxlookTurn c q) := by
  unfold State.pxlookTurn
  grind [MemOk.replyBoth, MemOk.dropShard]

theorem MemOk.execSeqtbl {r : Rec} (h : MemOk s) (e : execSeqtbl r s = .next s') : MemOk s' := by
  unfold Machine.execSeqtbl at e
  grind [bind_eq_ok, MemOk.memFire, MemOk.askTable]

theorem MemOk.seqtblTurn {c : CoreId} {q : ShardReq} (h : MemOk s) : MemOk (s.seqtblTurn c q) := by
  unfold State.seqtblTurn
  grind [MemOk.endShard, MemOk.modCluster]

theorem MemOk.residency {d : DieId} {pid : Nat} {asked : Bool} (h : MemOk s) : MemOk (s.residency d pid asked).2 := by
  unfold State.residency
  grind [MemOk.startRefill]

theorem MemOk.setLogEntry {d : DieId} {h₀ : SpecHandle} {i pid start n : Nat} (h : MemOk s) : MemOk (s.setLogEntry d h₀ i pid start n) :=
  h.sysWrite

theorem MemOk.logAppend {d : DieId} {hd : DieId × Nat} {h₀ : SpecHandle} {i pid pos : Nat} (h : MemOk s) :
    MemOk (s.logAppend d hd h₀ i pid pos) := by
  unfold State.logAppend
  grind [DieOk, MemOk.setLogEntry, MemOk.modDie]

theorem MemOk.writeRows {c : CoreId} {q : ShardReq} {x : Seq} {addr p : Nat} (h : MemOk s) : MemOk (s.writeRows c q x addr p) := by
  unfold State.writeRows
  grind [MemOk.dieWrite]

theorem MemOk.append {c : CoreId} {q : ShardReq} {x : Seq} {pid : Nat} {log : Option ((DieId × Nat) × SpecHandle × Nat)} (h : MemOk s) :
    MemOk (s.append c q x pid log) := by
  unfold State.append
  grind [MemOk.endShard, MemOk.foldlSnd, MemOk.writeReady, MemOk.turnAgain, MemOk.writeRows, MemOk.logAppend, MemOk.modShard]

theorem MemOk.countUp {c : CoreId} {q : ShardReq} {x : Seq} {pid : Nat} (h : MemOk s) : MemOk (s.countUp c q x pid) := by
  unfold State.countUp
  grind [MemOk.turnAgain, MemOk.releaseShard, MemOk.setDesc]

theorem MemOk.kappTurn {c : CoreId} {q : ShardReq} (h : MemOk s) : MemOk (s.kappTurn c q) := by
  unfold State.kappTurn
  dsimp only
  split
  case h_1 => exact h.endShard
  case h_2 x hx =>
    refine MemOk.ite h.endShard (MemOk.ite h.endShard (h.atTurn fun q s hs => ?_))
    grind [MemOk.countUp, MemOk.failShard, MemOk.residency, MemOk.append, MemOk.turnAgain, MemOk.toStage, MemOk.endShard]

theorem MemOk.execKapp {r : Rec} (h : MemOk s) (e : execKapp r s = .next s') : MemOk s' := by
  unfold Machine.execKapp at e
  grind [bind_eq_ok, MemOk.memFire, MemOk.statusOut, MemOk.askTurn]

theorem MemOk.execKpin {r : Rec} (h : MemOk s) (e : execKpin r s = .next s') : MemOk s' := by
  unfold Machine.execKpin at e
  grind [bind_eq_ok, MemOk.memFire, MemOk.statusOut, MemOk.setSlot]

theorem MemOk.unpinTurn {c : CoreId} {q : ShardReq} (h : MemOk s) : MemOk (s.unpinTurn c q) := by
  unfold State.unpinTurn
  grind [MemOk.endShard, MemOk.turnAgain, MemOk.setSlot]

theorem MemOk.execKpinUnpin {r : Rec} (h : MemOk s) (e : execKpinUnpin r s = .next s') : MemOk s' := by
  unfold Machine.execKpinUnpin at e
  grind [bind_eq_ok, MemOk.memFire, MemOk.askTurn]

theorem MemOk.kevictTurn {c : CoreId} {q : ShardReq} (h : MemOk s) : MemOk (s.kevictTurn c q) := by
  unfold State.kevictTurn
  grind [MemOk.endShard, MemOk.atTurn, MemOk.turnAgain, MemOk.modSlot, MemOk.toStage, MemOk.laterAt]

theorem MemOk.execKevict {r : Rec} (h : MemOk s) (e : execKevict r s = .next s') : MemOk s' := by
  unfold Machine.execKevict at e
  grind [bind_eq_ok, MemOk.memFire, MemOk.askTurn]

theorem MemOk.execEvictionCopyComplete (h : MemOk s) (e : execEvictionCopyComplete s = .next s') : MemOk s' := by
  unfold Machine.execEvictionCopyComplete at e
  grind [MemOk.copyPage, MemOk.laterAt, MemOk.setLoc, MemOk.modSlot, MemOk.toStage, MemOk.foldl]

theorem MemOk.kfillTurn {c : CoreId} {q : ShardReq} (h : MemOk s) : MemOk (s.kfillTurn c q) := by
  unfold State.kfillTurn
  grind [MemOk.endShard, MemOk.atTurn, MemOk.residency, MemOk.turnAgain, MemOk.toStage]

theorem MemOk.execKfill {r : Rec} (h : MemOk s) (e : execKfill r s = .next s') : MemOk s' := by
  unfold Machine.execKfill at e
  grind [bind_eq_ok, MemOk.memFire, MemOk.askTurn]

theorem MemOk.pxinsTurn {c : CoreId} {q : ShardReq} (h : MemOk s) : MemOk (s.pxinsTurn c q) := by
  unfold State.pxinsTurn
  grind [MemOk.releaseShard, MemOk.sysWrite, MemOk.endShard, MemOk.readTable, MemOk.toStage, MemOk.failShard, MemOk.atTurn,
    MemOk.stageShard, MemOk.modShard]

theorem MemOk.execPxins {r : Rec} (h : MemOk s) (e : execPxins r s = .next s') : MemOk s' := by
  unfold Machine.execPxins at e
  grind [bind_eq_ok, MemOk.memFire, MemOk.askTable]

theorem MemOk.addRef {d : DieId} {pid : Nat} {up : Bool} (h : MemOk s) : MemOk (s.addRef d pid up) := h.setDesc

theorem MemOk.pgmapTurn {c : CoreId} {q : ShardReq} (h : MemOk s) : MemOk (s.pgmapTurn c q) := by
  unfold State.pgmapTurn
  grind [MemOk.endShard, MemOk.atTurn, MemOk.addRef, MemOk.sysWord, MemOk.setEntry, MemOk.releaseShard, MemOk.addStation]

theorem MemOk.pgmapListTurn {c : CoreId} {q : ShardReq} (h : MemOk s) : MemOk (s.pgmapListTurn c q) := by
  unfold State.pgmapListTurn
  dsimp only
  split
  case h_1 => exact h.endShard
  case h_2 => exact h.endShard
  case h_3 x y _ _ =>
    refine h.atTurn fun q s hs => ?_
    grind [MemOk.endShard, MemOk.foldl, MemOk.addRef, MemOk.releaseShard, MemOk.sysWrite]

theorem MemOk.execPgmap {r : Rec} (h : MemOk s) (e : execPgmap r s = .next s') : MemOk s' := by
  unfold Machine.execPgmap at e
  grind [bind_eq_ok, MemOk.memFire, MemOk.askTurn]

theorem MemOk.execPgmapList {r : Rec} (h : MemOk s) (e : execPgmapList r s = .next s') : MemOk s' := by
  unfold Machine.execPgmapList at e
  grind [bind_eq_ok, MemOk.memFire, MemOk.askTurn]

theorem MemOk.pgfrzTurn {c : CoreId} {q : ShardReq} (h : MemOk s) : MemOk (s.pgfrzTurn c q) := by
  unfold State.pgfrzTurn
  grind [MemOk.endShard, MemOk.atTurn, MemOk.failShard, MemOk.releaseShard, MemOk.setDesc]

theorem MemOk.execPgfrz {r : Rec} (h : MemOk s) (e : execPgfrz r s = .next s') : MemOk s' := by
  unfold Machine.execPgfrz at e
  grind [bind_eq_ok, MemOk.memFire, MemOk.askTurn]

theorem MemOk.placeSlots {p pid pidx layer hg : Nat} (h : MemOk s) : MemOk (s.placeSlots p pid pidx layer hg) := by
  obtain ⟨hm, hc, hrest⟩ := h
  refine ⟨hm, fun q hq => ?_, hrest⟩
  obtain ⟨k, hk, rfl⟩ := List.mem_map.1 hq
  split
  · exact hc k hk
  · exact hc k hk

theorem MemOk.pgnewTurn {c : CoreId} {q : ShardReq} (h : MemOk s) : MemOk (s.pgnewTurn c q) := by
  unfold State.pgnewTurn
  grind [MemOk.endShard, MemOk.releaseShard, MemOk.addStation, MemOk.setEntry, MemOk.atTurn, MemOk.stageShard, MemOk.placeSlots,
    MemOk.setDesc]

theorem MemOk.execPgnew {r : Rec} (h : MemOk s) (e : execPgnew r s = .next s') : MemOk s' := by
  unfold Machine.execPgnew at e
  grind [bind_eq_ok, MemOk.memFire, MemOk.askTurn]

theorem MemOk.busyHandle {d : DieId} {i : Nat} {h₀ : SpecHandle} (h : MemOk s) : MemOk (s.busyHandle d i h₀) := by
  unfold State.busyHandle
  grind [DieOk, MemOk.modDie]

theorem MemOk.specTurn {c : CoreId} {q : ShardReq} (h : MemOk s) : MemOk (s.specTurn c q) := by
  unfold State.specTurn
  grind [DieOk, MemOk.failShard, MemOk.turnAgain, MemOk.toStage, MemOk.busyHandle, MemOk.modAct, MemOk.modDie, MemOk.releaseShard,
    MemOk.modShard, MemOk.atTurn, MemOk.setDesc]

theorem MemOk.execSpeccmt {r : Rec} (h : MemOk s) (e : execSpeccmt r s = .next s') : MemOk s' := by
  unfold Machine.execSpeccmt at e
  grind [bind_eq_ok, MemOk.fire, MemOk.askTurn, MemOk.busyHandle]

theorem MemOk.execSpecabt {r : Rec} (h : MemOk s) (e : execSpecabt r s = .next s') : MemOk s' := by
  unfold Machine.execSpecabt at e
  grind [bind_eq_ok, MemOk.fire, MemOk.askTurn, MemOk.orderPurge, MemOk.busyHandle]

theorem MemOk.execShardTableTurn (h : MemOk s) (e : execShardTableTurn s = .next s') : MemOk s' := by
  unfold Machine.execShardTableTurn at e
  grind [MemOk, MemOk.kappTurn, MemOk.unpinTurn, MemOk.kevictTurn, MemOk.kfillTurn, MemOk.pxlookTurn, MemOk.pxinsTurn, MemOk.pgmapListTurn,
    MemOk.pgmapTurn, MemOk.pgfrzTurn, MemOk.pgnewTurn, MemOk.seqtblTurn, MemOk.specTurn]

end

end Sys2Proof.Proofs.MemoryForm
end
section
/-! The canonical form of every memory through the model: coherence and the directory. -/

namespace Sys2Proof.Proofs.MemoryForm

open Sys2Proof Sys2Proof.Machine

section
variable {s s' : State}

/-! ## Transactions of the directory (R359 to R371) -/

theorem MemOk.setDirMap {q p i v : Nat} (h : MemOk s) : MemOk (s.setDirMap q p i v) := h.sysWord

theorem MemOk.afterMap {q p : Nat} {rs : List (Nat × List Word)} (h : MemOk s) : MemOk (s.afterMap q p rs) := by
  unfold State.afterMap
  grind [PackageOk, MemOk.boardPkg, MemOk.modPkg, MemOk.foldl]

theorem MemOk.loseCopy {d : DieId} {l : Nat} (h : MemOk s) : MemOk (s.loseCopy d l) := by
  unfold State.loseCopy
  grind [LineOk, MemOk.dropLine, MemOk.settle, MemOk.modLine, LineOk.emptied]

theorem MemOk.invalidate {d : DieId} {l : Nat} (h : MemOk s) : MemOk (s.invalidate d l) := by
  unfold State.invalidate
  grind [LineOk, MemOk.loseCopy, MemOk.modLine]

theorem MemOk.execSliceFillArrival {d : DieId} {l : Nat} {perm : Perm} {keep : Bool} {data : LineData}
    (h : MemOk s) (e : execSliceFillArrival d l perm keep data s = .next s') : MemOk s' := by
  unfold Machine.execSliceFillArrival at e
  grind [LineOk, MemOk.captureAll, MemOk.closeWindow, MemOk.dropLine, MemOk.settle, MemOk.modLine, LineOk.emptied, LineOk.filled]

theorem MemOk.execGrant (h : MemOk s) (e : execGrant s = .next s') : MemOk s' := by
  unfold Machine.execGrant at e
  grind [LineOk, MemOk.laterAt, MemOk.settle, MemOk.modLine, MemOk.wantSectors]

theorem MemOk.execPutack (h : MemOk s) (e : execPutack s = .next s') : MemOk s' := by
  unfold Machine.execPutack at e
  grind [LineOk, MemOk.dropLine, MemOk.settle, MemOk.modLine, LineOk.emptied, LineOk.cleaned]

theorem MemOk.putEntry {p : Nat} {e₀ : DirEntry} (h : MemOk s) : MemOk (s.putEntry p e₀) := by
  unfold State.putEntry
  grind [PackageOk, MemOk.modPkg]

theorem MemOk.dropEntryOf {p l : Nat} (h : MemOk s) : MemOk (s.dropEntryOf p l) := by
  unfold State.dropEntryOf
  grind [PackageOk, MemOk.modPkg]

theorem MemOk.frontAll {is : List Item} (h : MemOk s) : MemOk (s.frontAll is) := h

theorem MemOk.openTxn {p : Nat} {e₀ : DirEntry} (h : MemOk s) : MemOk (s.openTxn p e₀) := by
  unfold State.openTxn
  grind [MemOk.laterAt, MemOk.putEntry]

theorem MemOk.startRecall {p : Nat} {e₀ : DirEntry} {part : Bool} (h : MemOk s) : MemOk (s.startRecall p e₀ part) := h.openTxn.laterAll

theorem MemOk.countRecall {h₀ r : Nat} (h : MemOk s) : MemOk (s.countRecall h₀ r) := by
  unfold State.countRecall
  grind [PackageOk, MemOk.modPkg]

theorem MemOk.coarseRecord {p h₀ r kind n : Nat} (h : MemOk s) : MemOk (s.coarseRecord p h₀ r kind n) := h.afterMap

theorem MemOk.enterCoarse {p h₀ r : Nat} (h : MemOk s) : MemOk (s.enterCoarse p h₀ r) := by
  unfold State.enterCoarse
  grind [PackageOk, MemOk.modPkg, MemOk.setDirMap, MemOk.coarseRecord, MemOk.startRecall, MemOk.countRecall, MemOk.foldl]

theorem MemOk.recallCounted {p l : Nat} (h : MemOk s) : MemOk (s.recallCounted p l) := by
  unfold State.recallCounted
  grind [MemOk.countRecall, MemOk.enterCoarse]

theorem MemOk.watch {p due : Nat} (h : MemOk s) : MemOk (s.watch p due) := by
  unfold State.watch
  grind [MemOk.at_]

theorem MemOk.beginWait {p : Nat} (h : MemOk s) : MemOk (s.beginWait p) := by
  unfold State.beginWait
  grind [PackageOk, MemOk.watch, MemOk.modPkg]

theorem MemOk.waitDir {p : Nat} {i : Instr} (h : MemOk s) : MemOk (s.waitDir p i) := by
  unfold State.waitDir
  grind [PackageOk, MemOk.modPkg, MemOk.beginWait]

theorem MemOk.waitLine {p l : Nat} {i : Instr} (h : MemOk s) : MemOk (s.waitLine p l i) := by
  unfold State.waitLine
  grind [PackageOk, MemOk.modPkg, MemOk.beginWait]

theorem MemOk.closeTxn {p : Nat} {e₀ : DirEntry} (h : MemOk s) : MemOk (s.closeTxn p e₀) := by
  have empty : ∀ {t : State} {q : List Item}, MemOk t → MemOk (t.modPkg p fun x => { x with waitQ := q }) :=
    fun ht => ht.modPkg fun _ hx => hx
  unfold State.closeTxn
  extract_lets home t waitQ
  have ht : MemOk t := by grind [MemOk.later]
  split
  · exact MemOk.frontAll (empty (MemOk.dropEntryOf ht))
  · split
    · exact ht.countRecall.startRecall
    · exact (empty ht.putEntry).frontAll

theorem MemOk.advanceTxn {p l : Nat} (h : MemOk s) : MemOk (s.advanceTxn p l) := by
  unfold State.advanceTxn
  grind [MemOk.laterAt, MemOk.putEntry, MemOk.closeTxn]

theorem MemOk.sendData {l : Nat} {d : DieId} {perm : Perm} {keep : Bool} (h : MemOk s) : MemOk (s.sendData l d perm keep) := h.later

theorem MemOk.setHomePerm {l : Nat} {perm : Perm} (h : MemOk s) : MemOk (s.setHomePerm l perm) := by
  unfold State.setHomePerm
  grind [LineOk, MemOk.modLine]

theorem MemOk.takeHome {l : Nat} (h : MemOk s) : MemOk (s.takeHome l) := by
  unfold State.takeHome
  grind [MemOk.storeHome, MemOk.loseCopy]

theorem MemOk.goGets {p : Nat} {e₀ : DirEntry} {x : CohReq} (h : MemOk s) : MemOk (s.goGets p e₀ x) := by
  unfold State.goGets
  extract_lets l home plain
  split
  case h_1 marked alone _ _ =>
    have hm : MemOk marked := h
    split
    · exact hm.setHomePerm.sendData.closeTxn
    · exact hm.setHomePerm.sendData.closeTxn
    · exact hm.loseCopy.sendData.closeTxn
  case h_2 => exact h.sendData.closeTxn
  case h_3 => exact MemOk.ite h.sendData.closeTxn h.later

theorem MemOk.goGetx {p : Nat} {e₀ : DirEntry} {x : CohReq} (h : MemOk s) : MemOk (s.goGetx p e₀ x) := by
  unfold State.goGetx
  refine MemOk.advanceTxn ?_
  split
  · exact MemOk.sendData h.takeHome
  · exact MemOk.ite h h.sendData
  · exact MemOk.ite h h.later

theorem MemOk.goPutm {p : Nat} {e₀ : DirEntry} {x : CohReq} {keep : Bool} {data : LineData} {secs : List Nat} (h : MemOk s) :
    MemOk (s.goPutm p e₀ x keep data secs) := by
  unfold State.goPutm
  grind [MemOk.laterAt, MemOk.closeTxn, MemOk.storeHome]

theorem MemOk.goTxn {p : Nat} {e₀ : DirEntry} {t : Txn} (h : MemOk s) : MemOk (s.goTxn p e₀ t) := by
  unfold State.goTxn
  grind [MemOk.putEntry, MemOk.goGets, MemOk.goGetx, MemOk.goPutm, MemOk.closeTxn, MemOk.advanceTxn, MemOk.later]

theorem MemOk.execMirrorOpenAck (h : MemOk s) (e : execMirrorOpenAck s = .next s') : MemOk s' := by
  unfold Machine.execMirrorOpenAck at e
  grind [MemOk.goTxn]

theorem MemOk.execMirrorOpenRecord (h : MemOk s) (e : execMirrorOpenRecord s = .next s') : MemOk s' := by
  unfold Machine.execMirrorOpenRecord at e
  grind [PackageOk, MemOk.laterAt, MemOk.modPkg]

theorem MemOk.execMirrorCloseRecord {x l m : Nat} {st : Perm} {owner : DieId} {dies pkgs : List Nat}
    (h : MemOk s) (e : execMirrorCloseRecord x l m st owner dies pkgs s = .next s') : MemOk s' := by
  unfold Machine.execMirrorCloseRecord at e
  grind [PackageOk, MemOk.modPkg]

theorem MemOk.loseLine {d : DieId} {l : Nat} (h : MemOk s) : MemOk (s.loseLine d l) := h.dropLine.closeWindow.lineSettled

theorem MemOk.startRecallOf {p l : Nat} (h : MemOk s) : MemOk (s.startRecallOf p l) := by
  unfold State.startRecallOf
  grind [MemOk.startRecall]

theorem MemOk.makeWay {p l : Nat} (h : MemOk s) : MemOk (s.makeWay p l) := by
  unfold State.makeWay
  grind [MemOk.startRecallOf, MemOk.recallCounted]

theorem MemOk.homeAlone {l : Nat} (h : MemOk s) : MemOk (s.homeAlone l) := by
  unfold State.homeAlone
  grind [LineOk, MemOk.settle, MemOk.modLine, LineOk.emptied, MemOk.wantSectors]

theorem MemOk.startTxn {p : Nat} {i : Instr} {kind : TxnKind} {x : CohReq} (h : MemOk s) : MemOk (s.startTxn p i kind x) := by
  unfold State.startTxn
  grind [MemOk.waitLine, MemOk.waitDir, MemOk.laterAll, MemOk.openTxn, MemOk.laterAt, MemOk.homeAlone, MemOk.sendData, MemOk.makeWay]

theorem MemOk.atDirectory {x : CohReq} {again : CohReq → Instr} {k : Nat → State → State} (h : MemOk s)
    (hk : ∀ p s, MemOk s → MemOk (k p s)) : MemOk (s.atDirectory x again k) := by
  unfold State.atDirectory
  grind [MemOk.loseLine, MemOk.later]

theorem MemOk.execGets {x : CohReq} (h : MemOk s) (e : execGets x s = .next s') : MemOk s' := by
  unfold Machine.execGets at e
  grind [MemOk.atDirectory, MemOk.startTxn]

theorem MemOk.carryHome {d : DieId} {l : Nat} (h : MemOk s) : MemOk (s.carryHome d l) := by
  unfold State.carryHome
  grind [LineOk, MemOk.lineSettled, MemOk.loseCopy, MemOk.modLine, MemOk.dieWriteGo, MemOk.foldl]

theorem MemOk.execGetx {x : CohReq} (h : MemOk s) (e : execGetx x s = .next s') : MemOk s' := by
  unfold Machine.execGetx at e
  grind [MemOk.atDirectory, MemOk.carryHome, MemOk.startTxn]

theorem MemOk.execUpg {x : CohReq} (h : MemOk s) (e : execUpg x s = .next s') : MemOk s' := by
  unfold Machine.execUpg at e
  grind [MemOk.atDirectory, MemOk.carryHome, MemOk.startTxn]

theorem MemOk.execPutm {x : CohReq} {keep : Bool} {data : LineData} {sectors : List Nat}
    (h : MemOk s) (e : execPutm x keep data sectors s = .next s') : MemOk s' := by
  unfold Machine.execPutm at e
  grind [MemOk.atDirectory, MemOk.startTxn]

theorem MemOk.execInvalidation {p l : Nat} {d : DieId} {wholePkg : Bool} (h : MemOk s) (e : execInvalidation p l d wholePkg s = .next s') :
    MemOk s' := by
  unfold Machine.execInvalidation at e
  grind [MemOk.later, MemOk.invalidate, MemOk.foldl]

theorem MemOk.ackTxn {p l : Nat} (h : MemOk s) : MemOk (s.ackTxn p l) := by
  unfold State.ackTxn
  grind [MemOk.advanceTxn, MemOk.putEntry]

theorem MemOk.execInvalidationAck {p l : Nat} {y : DieId} {z : Bool} (h : MemOk s) (e : execInvalidationAck p l y z s = .next s') : MemOk s' := by
  cases e
  exact h.ackTxn

theorem MemOk.execForward {p l : Nat} {k : FwdKind} {owner req : DieId} (h : MemOk s) (e : execForward p l k owner req s = .next s') :
    MemOk s' := by
  unfold Machine.execForward at e
  grind [LineOk, MemOk.sendData, MemOk.laterAt, MemOk.later, MemOk.modLine, MemOk.loseCopy, MemOk.storeHome]

theorem MemOk.execDone (h : MemOk s) (e : execDone s = .next s') : MemOk s' := by
  unfold Machine.execDone at e
  grind [MemOk.closeTxn, MemOk.ackTxn]

theorem MemOk.closeRecalls {p h₀ : Nat} (h : MemOk s) : MemOk (s.closeRecalls p h₀) := by
  unfold State.closeRecalls
  grind [PackageOk, MemOk.modPkg, MemOk.setDirMap, MemOk.coarseRecord, MemOk.foldl]

theorem MemOk.execRecallWindow (h : MemOk s) (e : execRecallWindow s = .next s') : MemOk s' := by
  unfold Machine.execRecallWindow at e
  grind [MemOk.at_, MemOk.closeRecalls, MemOk.foldl]

/-! ## Failures and LOST regions (R372 to R379) -/

theorem MemOk.reissue {p : Nat} {puts : List Item} (h : MemOk s) : MemOk (s.reissue p puts) := by
  unfold State.reissue
  grind [MemOk, LineOk, MemOk.laterAll, MemOk.modLine, MemOk.ask, MemOk.foldl]

theorem MemOk.raiseGen {p : Nat} (h : MemOk s) : MemOk (s.raiseGen p).2 := by
  unfold State.raiseGen
  grind [PackageOk, MemOk.modPkg, MemOk.setDirMap, MemOk.foldl]

theorem MemOk.sweepLine {q l : Nat} (h : MemOk s) : MemOk (s.sweepLine q l) := by
  unfold State.sweepLine
  extract_lets keep t
  have ht : MemOk t := MemOk.foldl (fun s d hs => by grind [MemOk.loseCopy]) h
  cases keep with
  | some d => exact MemOk.putEntry (ht.modLine fun _ hy => hy)
  | none => exact MemOk.dropEntryOf ht

theorem MemOk.takeoverRecord {failed acting : Nat} {g : BitVec 16} {swept : Nat} (h : MemOk s) :
    MemOk (s.takeoverRecord failed acting g swept) := h.afterMap

theorem MemOk.writeGen {q p : Nat} {g : BitVec 16} {act : Bool} (h : MemOk s) : MemOk (s.writeGen q p g act) := by
  unfold State.writeGen
  grind [MemOk.setDirMap, MemOk.foldl]

theorem MemOk.execDirectoryFailure {p : Nat} {why : DirFail} (h : MemOk s) (e : execDirectoryFailure p why s = .next s') : MemOk s' := by
  unfold Machine.execDirectoryFailure at e
  grind [PackageOk, MemOk.laterAt, MemOk.modPkg, MemOk.foldl]

theorem MemOk.execDirectoryWatchdog (h : MemOk s) (e : execDirectoryWatchdog s = .next s') : MemOk s' := by
  unfold Machine.execDirectoryWatchdog at e
  grind [MemOk.later, MemOk.watch]

theorem MemOk.execDirTakeover (h : MemOk s) (e : execDirTakeover s = .next s') : MemOk s' := by
  unfold Machine.execDirTakeover at e
  grind [PackageOk, MemOk.laterAt, MemOk.raiseGen, MemOk.modPkg, MemOk.sweepLine, MemOk.reissue, MemOk.takeoverRecord, MemOk.writeGen,
    MemOk.foldl]

theorem MemOk.execDirectoryRestore (h : MemOk s) (e : execDirectoryRestore s = .next s') : MemOk s' := by
  unfold Machine.execDirectoryRestore at e
  grind [PackageOk, MemOk.raiseGen, MemOk.modPkg, MemOk.sweepLine, MemOk.reissue, MemOk.takeoverRecord, MemOk.writeGen, MemOk.foldl]

theorem MemOk.abandonLine {d : DieId} {l : Nat} {reach : Bool} (h : MemOk s) : MemOk (s.abandonLine d l reach).2 := by
  unfold State.abandonLine
  grind [MemOk.storeHome, MemOk.loseLine]

theorem MemOk.cutLinks {p : Nat} (h : MemOk s) : MemOk (s.cutLinks p) := by
  unfold State.cutLinks
  grind [MemOk.modLink, MemOk.foldl]

theorem MemOk.execDirLost (h : MemOk s) (e : execDirLost s = .next s') : MemOk s' := by
  unfold Machine.execDirLost at e
  cases e
  dsimp only
  split
  · exact h
  · grind [MemOk, MemOk.modPkg, PackageOk, MemOk.foldlSnd, MemOk.abandonLine, MemOk.foldl, MemOk.loseLine, MemOk.setDirMap, MemOk.afterMap,
      MemOk.cutLinks]

theorem MemOk.execChannelClosing (h : MemOk s) (e : execChannelClosing s = .next s') : MemOk s' := by
  unfold Machine.execChannelClosing at e
  grind [MemOk.raiseGen, MemOk.laterAt, MemOk.modLink]

theorem MemOk.execChannelRetired (h : MemOk s) (e : execChannelRetired s = .next s') : MemOk s' := by
  unfold Machine.execChannelRetired at e
  grind [MemOk.laterAt, MemOk.modLink]

end

end Sys2Proof.Proofs.MemoryForm
end
section
/-! The canonical form of every memory through the model: power, the loader and the boot. -/

namespace Sys2Proof.Proofs.MemoryForm

open Sys2Proof Sys2Proof.Machine

section
variable {s s' : State}

/-! ## Power and thermal events (R433 to R438) -/

theorem MemOk.setPoint {p i pt : Nat} (h : MemOk s) : MemOk (s.setPoint p i pt) := by
  unfold State.setPoint
  grind [MemOk.at_, MemOk.modIsland]

theorem MemOk.execClockChangeDone (h : MemOk s) (e : execClockChangeDone s = .next s') : MemOk s' := by
  cases e
  exact h.modIsland

theorem MemOk.refreshIsland {p i : Nat} (h : MemOk s) : MemOk (s.refreshIsland p i) := by
  unfold State.refreshIsland
  grind [MemOk.modIsland, MemOk.setPoint]

theorem MemOk.execAllowanceRefresh (h : MemOk s) (e : execAllowanceRefresh s = .next s') : MemOk s' := by
  unfold Machine.execAllowanceRefresh at e
  grind [MemOk.at_, MemOk.refreshIsland, MemOk.foldl]

theorem MemOk.execDroopStretch (h : MemOk s) (e : execDroopStretch s = .next s') : MemOk s' := by
  cases e
  exact h.modIsland

theorem MemOk.execSupplyRecovery (h : MemOk s) (e : execSupplyRecovery s = .next s') : MemOk s' := by
  cases e
  exact h.modIsland

theorem MemOk.execCurrentPeak (h : MemOk s) (e : execCurrentPeak s = .next s') : MemOk s' := by
  unfold Machine.execCurrentPeak at e
  grind [MemOk.modIsland, MemOk.setPoint]

theorem MemOk.execPackagePowerWindow (h : MemOk s) (e : execPackagePowerWindow s = .next s') : MemOk s' := by
  unfold Machine.execPackagePowerWindow at e
  grind [MemOk.modIsland, MemOk.foldl]

theorem MemOk.thermalRecord {p i ev : Nat} {t : Int} (h : MemOk s) : MemOk (s.thermalRecord p i ev t) := h.board

theorem MemOk.stopPackage {p i : Nat} {t : Int} (h : MemOk s) : MemOk (s.stopPackage p i t) := by
  unfold State.stopPackage
  grind [PackageOk, MemOk.cutLinks, MemOk.modPkg, MemOk.thermalRecord]

theorem MemOk.junctionWatch {p i : Nat} {t : Int} (h : MemOk s) : MemOk (s.junctionWatch p i t) := by
  unfold State.junctionWatch
  grind [MemOk.laterAt]

theorem MemOk.execThermal {p i : Nat} {t : Int} (h : MemOk s) (e : execThermal p i t s = .next s') : MemOk s' := by
  unfold Machine.execThermal at e
  grind [MemOk.stopPackage, MemOk.junctionWatch, MemOk.modIsland, MemOk.at_, MemOk.thermalRecord, MemOk.setPoint]

theorem MemOk.execCoreDrowsy (h : MemOk s) (e : execCoreDrowsy s = .next s') : MemOk s' := by
  unfold Machine.execCoreDrowsy at e
  grind [CoreOk, MemOk.core, MemOk.setCore]

theorem MemOk.execCoreWake (h : MemOk s) (e : execCoreWake s = .next s') : MemOk s' := by
  unfold Machine.execCoreWake at e
  grind [CoreOk, MemOk.core, MemOk.countDrowsy, MemOk.setCore]

theorem MemOk.execRouterDrowsy (h : MemOk s) (e : execRouterDrowsy s = .next s') : MemOk s' := by
  unfold Machine.execRouterDrowsy at e
  grind [CoreOk, MemOk.core, MemOk.setCore, MemOk.laterAt]

theorem MemOk.execRouterWake (h : MemOk s) (e : execRouterWake s = .next s') : MemOk s' := by
  cases e
  exact h.wakeRouter

theorem MemOk.execPowerGate (h : MemOk s) (e : execPowerGate s = .next s') : MemOk s' := by
  unfold Machine.execPowerGate at e
  grind [CoreOk, MemOk.core, MemOk.laterAt, MemOk.setCore]

theorem MemOk.wakeCore {c : CoreId} (h : MemOk s) : MemOk (s.wakeCore c) := by
  unfold State.wakeCore
  grind [CoreOk, MemOk.core, MemOk.setCore]

theorem MemOk.execHbmBankTest {d : DieId} {stack : Nat} {failing spares : Bool}
    (h : MemOk s) (e : execHbmBankTest d stack failing spares s = .next s') : MemOk s' := by
  unfold Machine.execHbmBankTest at e
  grind [DieOk, PackageOk, MemOk.modPkg, MemOk.modDie]

theorem MemOk.execLinkBeatCrcFail {p peer : Nat} {y : Bool} (h : MemOk s) (e : execLinkBeatCrcFail p peer y s = .next s') : MemOk s' := by
  cases e
  exact h.modLink

theorem MemOk.execAuditBeat {p peer : Nat} {free received : BitVec 16} (h : MemOk s) (e : execAuditBeat p peer free received s = .next s') :
    MemOk s' := by
  unfold Machine.execAuditBeat at e
  grind [MemOk.modLink]

theorem MemOk.execSecurityTrigger (h : MemOk s) (e : execSecurityTrigger s = .next s') : MemOk s' := by
  unfold Machine.execSecurityTrigger at e
  grind [PackageOk, MemOk.modPkg, MemOk.boardPkg]

theorem MemOk.execAttestationRequest (h : MemOk s) (e : execAttestationRequest s = .next s') : MemOk s' := by
  unfold Machine.execAttestationRequest at e
  grind [PackageOk, MemOk.modPkg]

/-! ## The loader (R99 to R102) -/

theorem MemOk.load {p pa : Nat} (h : MemOk s) : MemOk (s.load p pa) := by
  unfold State.load
  grind [PackageOk, MemOk.modPkg]

/-! ## Start-up, host adapter and system records (R103 to R108) -/

theorem MemOk.bootFail {p : Nat} {reason : BitVec 8} (h : MemOk s) : MemOk (s.bootFail p reason) := by
  unfold State.bootFail
  grind [PackageOk, MemOk.modPkg, MemOk.laterAt]

theorem MemOk.execPowerOnReset (h : MemOk s) (e : execPowerOnReset s = .next s') : MemOk s' := by
  have hc : MemOk (s.cutLinks s.site.core.pkg) := h.cutLinks
  have hflash : PackageOk (s.pkg s.site.core.pkg) := h.pkg _
  obtain ⟨hm, hcores, hdies, hpkgs, hsaves⟩ := hc
  unfold Machine.execPowerOnReset at e
  cases e
  refine MemOk.setPkg ⟨hm, fun p hp => hcores p (List.mem_filter.1 hp).1, fun p hp => ?_, fun p hp => ?_, hsaves⟩ hflash
  · obtain ⟨x, hx, rfl⟩ := List.mem_map.1 hp
    exact DieOk.filter (hdies x (List.mem_filter.1 hx).1)
  · obtain ⟨x, hx, rfl⟩ := List.mem_map.1 hp
    exact hpkgs x hx

theorem MemOk.execBootTest {p : Nat} {sigOk hbmOk sliceOk rebuild : Bool}
    (h : MemOk s) (e : execBootTest p sigOk hbmOk sliceOk rebuild s = .next s') : MemOk s' := by
  unfold Machine.execBootTest at e
  grind [PackageOk, MemOk.bootFail, MemOk.modPkg]

theorem MemOk.execBootMap {p : Nat} {linksOk : Bool} {gran ptbase shardbase dirmap : Nat}
    (h : MemOk s) (e : execBootMap p linksOk gran ptbase shardbase dirmap s = .next s') : MemOk s' := by
  unfold Machine.execBootMap at e
  grind [DieOk, PackageOk, MemOk.bootFail, MemOk.modDie, MemOk.modPkg, MemOk.at_, MemOk.foldl]

theorem MemOk.execBootRuntime {p : Nat} {sigOk digestOk : Bool} (h : MemOk s) (e : execBootRuntime p sigOk digestOk s = .next s') : MemOk s' := by
  unfold Machine.execBootRuntime at e
  grind [PackageOk, MemOk.laterAt, MemOk.modPkg, MemOk.bootFail]

theorem MemOk.execLinkTraining {p peer : Nat} {lo hi : BitVec 16} {lowLanes highLanes : Bool}
    (h : MemOk s) (e : execLinkTraining p peer lo hi lowLanes highLanes s = .next s') : MemOk s' := by
  unfold Machine.execLinkTraining at e
  grind [MemOk.modLink, MemOk.bootFail]

theorem MemOk.hostReply {r : HostReply} (h : MemOk s) : MemOk (s.hostReply r) := h

theorem MemOk.hostServe {p : Nat} {op : HostOp} (h : MemOk s) : MemOk (s.hostServe p op).2 := by
  unfold State.hostServe
  grind [PackageOk, MemOk.hostReply, MemOk.drawRuns, MemOk.writeReady, MemOk.modPkg, MemOk.sysWrite, MemOk.load]

theorem MemOk.hostNext {p : Nat} (h : MemOk s) : MemOk (s.hostNext p) := by
  unfold State.hostNext
  grind [PackageOk, MemOk.later, MemOk.modPkg, MemOk.hostServe]

theorem MemOk.execHostAccess {p : Nat} {op : HostOp} (h : MemOk s) (e : execHostAccess p op s = .next s') : MemOk s' := by
  have hq : ∀ {q : List HostOp}, MemOk (s.modPkg p fun x => { x with hostQ := x.hostQ ++ q }) := h.modPkg fun _ hx => hx
  unfold Machine.execHostAccess at e
  cases e
  split
  · exact h.hostNext
  · refine MemOk.ite h ?_
    split
    · exact h.hostReply
    · exact MemOk.hostReply (h.modPkg fun _ hx => Memory.putN_wf hx)
    · exact MemOk.ite h (MemOk.ite hq.later hq)

theorem MemOk.execRegisterWrite {p : Nat} {reg : MgmtReg} {v : Nat} (h : MemOk s) (e : execRegisterWrite p reg v s = .next s') : MemOk s' := by
  unfold Machine.execRegisterWrite at e
  grind [DieOk, PackageOk, MemOk.modPkg, MemOk.modDie, MemOk.modIsland]

theorem MemOk.execTrap {r : Rec} (h : MemOk s) (e : execTrap r s = .next s') : MemOk s' := by
  unfold Machine.execTrap at e
  grind [bind_eq_ok, MemOk.fire]

theorem MemOk.execBrk {r : Rec} (h : MemOk s) (e : execBrk r s = .next s') : MemOk s' := by
  unfold Machine.execBrk at e
  grind [bind_eq_ok, MemOk.fire]

theorem MemOk.execSysrd {r : Rec} (h : MemOk s) (e : execSysrd r s = .next s') : MemOk s' := by
  unfold Machine.execSysrd at e
  grind [bind_eq_ok, MemOk.fire, MemOk.out]

/-- An effect that ends well ends in a state whose memories have the form. -/
def EffOk (x : Eff) : Prop := ∀ t, x = .ok t → MemOk t

theorem EffOk.ok (h : MemOk s) : EffOk (.ok s) := by
  rintro _ ⟨⟩
  exact h

theorem EffOk.error {f : Flt} : EffOk (.error f) := nofun

theorem EffOk.ite {p : Prop} [Decidable p] {x y : Eff} (hx : EffOk x) (hy : EffOk y) : EffOk (if p then x else y) := by
  split
  · exact hx
  · exact hy

theorem MemOk.setSysReg {i : Nat} {v : Word} (h : MemOk s) (e : s.setSysReg i v = .ok s') : MemOk s' := by
  have hk : CoreOk (s.core s.cur.core) := h.core _
  have keeps : EffOk (s.setSysReg i v) := by
    unfold State.setSysReg
    refine .ite (.ok (MemOk.laterAt (h.setCore hk))) (.ite (.ok (MemOk.laterAt (h.setCore hk))) (.ite (.ok (MemOk.laterAt (h.setCore hk))) ?_))
    refine .ite (.ok (h.setCore hk)) (.ite (.ok (h.setCore hk)) (.ite (.ok (h.setCore hk)) (.ite (.ok (h.setCore hk)) ?_)))
    refine .ite (.ok (h.setCore hk)) (.ite (.ok (h.setCore hk)) (.ite (.ok (h.setCore hk)) (.ite (.ok (h.setCore hk)) ?_)))
    exact .ite (.ite .error (.ok h.modCurAct)) (.ite (.ok h.modCurAct) (.ite (.ok h.modCurAct) .error))
  exact keeps s' e

theorem MemOk.execSyswr {r : Rec} (h : MemOk s) (e : execSyswr r s = .next s') : MemOk s' := by
  unfold Machine.execSyswr at e
  grind [bind_eq_ok, MemOk.fire, MemOk.setSysReg, MemOk.out]

theorem MemOk.execTime {r : Rec} (h : MemOk s) (e : execTime r s = .next s') : MemOk s' := by
  unfold Machine.execTime at e
  grind [bind_eq_ok, MemOk.fire, MemOk.out]

theorem MemOk.execEvget {r : Rec} (h : MemOk s) (e : execEvget r s = .next s') : MemOk s' := by
  unfold Machine.execEvget at e
  grind [bind_eq_ok, MemOk.fire, MemOk.setCluster, MemOk.keyWrite, MemOk.out]

theorem MemOk.execLaunch {r : Rec} (h : MemOk s) (e : execLaunch r s = .next s') : MemOk s' := by
  unfold Machine.execLaunch at e
  grind [bind_eq_ok, MemOk.fire, MemOk.heldTokens, MemOk.startRelease]

theorem MemOk.execPrompt {r : Rec} (h : MemOk s) (e : execPrompt r s = .next s') : MemOk s' := by
  unfold Machine.execPrompt at e
  grind [DieOk, bind_eq_ok, MemOk.memFire, MemOk.coverOne, MemOk.fresh, MemOk.modDie, MemOk.laterAt]

theorem MemOk.promptDone {d : DieId} {x : Prompt} {status : Nat} (h : MemOk s) : MemOk (s.promptDone d x status) := by
  unfold State.promptDone
  grind [MemOk, DieOk, MemOk.replyBoth, MemOk.modDie]

theorem MemOk.execPromptRoutineEnd (h : MemOk s) (e : execPromptRoutineEnd s = .next s') : MemOk s' := by
  unfold Machine.execPromptRoutineEnd at e
  grind [LineOk, MemOk.promptDone, MemOk.holdLine, MemOk.laterAt, MemOk.modLine, MemOk.enterLine]

end

end Sys2Proof.Proofs.MemoryForm
end
section
/-! The canonical form of every memory through the model: regions, saves, launches and task graphs. -/

namespace Sys2Proof.Proofs.MemoryForm

open Sys2Proof Sys2Proof.Machine

section
variable {s s' : State}

/-! ## What an activation still has (R415 to R417) -/

theorem MemOk.dropEntries {d : DieId} {col : BitVec 9} {count : Bool} (h : MemOk s) : MemOk (s.dropEntries d col count) := by
  unfold State.dropEntries
  grind [CoreOk, MemOk.freeEntry, MemOk.modCore, MemOk.foldl]

theorem MemOk.dropWaves {d : DieId} {col : BitVec 9} (h : MemOk s) : MemOk (s.dropWaves d col) := by
  unfold State.dropWaves
  grind [CoreOk, MemOk.modCore, MemOk.foldl]

theorem MemOk.dropWaiters {a : Nat} {d : DieId} {col : BitVec 9} (h : MemOk s) : MemOk (s.dropWaiters a d col) := by
  unfold State.dropWaiters
  grind [MemOk.sysWord, MemOk.foldl]

theorem MemOk.dropTable {d : DieId} {col : BitVec 9} (h : MemOk s) : MemOk (s.dropTable d col) := by
  unfold State.dropTable
  grind [MemOk.modCluster, MemOk.foldl]

theorem MemOk.dropTimeline {d : DieId} {col : BitVec 9} (h : MemOk s) : MemOk (s.dropTimeline d col) := by
  unfold State.dropTimeline
  grind [MemOk.modCluster, MemOk.wakeTimeline, MemOk.foldl]

theorem MemOk.dropClaims {d : DieId} {col : BitVec 9} (h : MemOk s) : MemOk (s.dropClaims d col) := by
  unfold State.dropClaims
  grind [MemOk.modCore, CoreOk.releaseClaims, MemOk.foldl]

theorem MemOk.writeBackOf {a : Nat} (h : MemOk s) : MemOk (s.writeBackOf a) := by
  unfold State.writeBackOf
  grind [MemOk.settle, MemOk.writeBackSome, MemOk.foldl]

theorem MemOk.uncharge {a : Nat} (h : MemOk s) : MemOk (s.uncharge a) := by
  unfold State.uncharge
  grind [MemOk.modAct, MemOk.modIsland, MemOk.foldl]

theorem MemOk.leaveHandle {a : Nat} (h : MemOk s) : MemOk (s.leaveHandle a) := by
  unfold State.leaveHandle
  grind [DieOk, MemOk.modDie]

theorem MemOk.freeColours {a : Nat} (h : MemOk s) : MemOk (s.freeColours a) := by
  unfold State.freeColours
  grind [DieOk, MemOk.clearPhase, MemOk.modDie, MemOk.foldl]

theorem MemOk.forget {a : Nat} (h : MemOk s) : MemOk (s.forget a) := h

theorem MemOk.parentToken {a status : Nat} (h : MemOk s) : MemOk (s.parentToken a status) := by
  unfold State.parentToken
  grind [MemOk.replyFrom]

theorem MemOk.notify {a : Nat} {r : List Word} (h : MemOk s) : MemOk (s.notify a r) := by
  unfold State.notify
  grind [MemOk.sysWord]

theorem MemOk.postCompletion {c : CoreId} {ws : List Word} {status col : Nat} {w : Word} {replay : Nat} (h : MemOk s) :
    MemOk (s.postCompletion c ws status col w replay) := h.board.notify

theorem MemOk.modGraph {c : CoreId} {tgid : Nat} {f : TaskGraph → TaskGraph} (h : MemOk s) : MemOk (s.modGraph c tgid f) := h.modCluster

theorem MemOk.nodeEnded {c : CoreId} {tgid num node : Nat} {ok : Bool} (h : MemOk s) : MemOk (s.nodeEnded c tgid num node ok) := by
  unfold State.nodeEnded
  grind [MemOk.modGraph, MemOk.postCompletion, MemOk.later, MemOk.laterAt, MemOk.foldl]

theorem MemOk.launchEnded {c : CoreId} {ws : List Word} {status col : Nat} {w : Word} {replay : Nat} (h : MemOk s) :
    MemOk (s.launchEnded c ws status col w replay) := by
  unfold State.launchEnded
  grind [MemOk.postCompletion, MemOk.nodeEnded]

/-! ## Saves and restores (R409 to R414) -/

theorem MemOk.writeSave {d : DieId} {v : Saved} (h : MemOk s) : MemOk (s.writeSave d v) := by
  unfold State.writeSave
  grind [MemOk.sysWrite, MemOk.foldl]

theorem MemOk.detach {reg : List Nat} {v : Saved} (h : MemOk s) : MemOk (s.detach reg v) := by
  unfold State.detach
  grind [CoreOk, DieOk, MemOk.discardTok, MemOk.modCore, CoreOk.without, MemOk.modCluster, MemOk.modDie, DieOk.withoutBars,
    MemOk.dropTimeline, MemOk.dropWaves, MemOk.dropEntries, MemOk.foldl]

theorem MemOk.startPorts {d : DieId} (h : MemOk s) : MemOk (s.startPorts d) := by
  unfold State.startPorts
  grind [MemOk.laterAt, MemOk.foldl]

theorem MemOk.restoreAct {rs : List Renaming} {c : CoreId} {r : Renaming} {x : Act} (h : MemOk s) : MemOk (s.restoreAct rs c r x) := by
  unfold State.restoreAct
  grind [MemOk, MemOk.setPhase, MemOk.bindColour, MemOk.sysWord, MemOk.foldl]

theorem MemOk.restoreHandle {rs : List Renaming} {d : DieId} {i : Nat} {h₀ : SpecHandle} (h : MemOk s) : MemOk (s.restoreHandle rs d i h₀) := by
  unfold State.restoreHandle
  grind [DieOk, MemOk.modDie, MemOk.modAct]

theorem MemOk.restoreEntry {rs : List Renaming} {c : CoreId} {e₀ : Entry} (h : MemOk s) : MemOk (s.restoreEntry rs c e₀) := by
  unfold State.restoreEntry
  grind [CoreOk, MemOk.putEntryBack, MemOk.modCore]

theorem MemOk.retryLater {c : CoreId} {id : Nat} (h : MemOk s) : MemOk (s.retryLater c id) := h.later

theorem MemOk.restoreWave {rs : List Renaming} {c : CoreId} {w : WaveInst} (h : MemOk s) : MemOk (s.restoreWave rs c w) := by
  unfold State.restoreWave
  have hfold : ∀ {f : State × List MemReq → MemReq → State × List MemReq}, (∀ p x, MemOk p.1 → MemOk (f p x).1) →
      MemOk (w.waiting.foldl f (s, [])).1 := fun hf => MemOk.foldlFst hf h
  grind [MemOk.fresh, MemOk.modCore, CoreOk, MemOk.foldl, MemOk.retryLater, MemOk.later]

theorem MemOk.restoreMat {rs : List Renaming} {x : SavedMat} (h : MemOk s) : MemOk (s.restoreMat rs x) := by
  refine h.modCore fun k hk => foldl_keeps (fun k p hk => ?_) (foldl_keeps (fun k p hk => ?_) hk)
  · exact CoreOk.withAClaim (CoreOk.putRows hk.putTile)
  · exact hk.putSlot.putScales.withOClaim

theorem MemOk.restoreBarrier {rs : List Renaming} {d : DieId} {i : Nat} {b : Barrier} (h : MemOk s) : MemOk (s.restoreBarrier rs d i b) := by
  unfold State.restoreBarrier
  grind [MemOk.putBarrier]

theorem MemOk.restoreStream {rs : List Renaming} {k : CluId} {n : Nat} {x : Stream} (h : MemOk s) : MemOk (s.restoreStream rs k n x) := by
  unfold State.restoreStream
  grind [MemOk.setPort]

theorem MemOk.restoreTok {rs : List Renaming} {q : QTok} {use : Option (Nat × RingUse)} (h : MemOk s) : MemOk (s.restoreTok rs q use) := by
  unfold State.restoreTok
  grind [MemOk, MemOk.fresh, MemOk.keyWrite, MemOk.setRing, MemOk.laterAt]

theorem MemOk.restoreReq {rs : List Renaming} {shards : List (CoreId × ShardReq)} {c : CoreId} {q : MemReq} (h : MemOk s) :
    MemOk (s.restoreReq rs shards c q) := by
  unfold State.restoreReq
  grind [CoreOk, MemOk.fresh, MemOk.modCore, MemOk.retryLater]

theorem MemOk.sendKept {reg : List Nat} (h : MemOk s) : MemOk (s.sendKept reg) := by
  unfold State.sendKept
  grind [CoreOk, MemOk.laterAll, MemOk.modCore, MemOk.foldl]

theorem MemOk.reopen {reg : List Nat} (h : MemOk s) : MemOk (s.reopen reg) := by
  unfold State.reopen
  grind [MemOk.modAct, MemOk.sendKept, MemOk.serveGate, MemOk.issueLater, MemOk.laterAt, MemOk.wakeTimeline, MemOk.foldl]

theorem MemOk.restore {c : CoreId} {v : Saved} {rs : List Renaming} (h : MemOk s) : MemOk (s.restore c v rs) := by
  unfold State.restore
  extract_lets acts handles mats waves ctrs waits armed bars streams slots entries toks reqs kept ending
  have hacts : MemOk acts := MemOk.foldl (fun s i hs => by grind [MemOk.restoreAct]) h
  have hmats : MemOk mats := MemOk.foldl (fun _ _ hs => hs.restoreMat) (MemOk.foldl (fun _ _ hs => hs.restoreHandle) hacts)
  have hctrs : MemOk ctrs := MemOk.foldl (fun _ _ hs => hs.setCounter) (MemOk.foldl (fun _ _ hs => hs.restoreWave) hmats)
  have harmed : MemOk armed := MemOk.foldl (fun _ _ hs => hs.modCluster) (MemOk.foldl (fun _ _ hs => hs.modCluster) hctrs)
  have hstreams : MemOk streams := MemOk.foldl (fun _ _ hs => hs.restoreStream) (MemOk.foldl (fun _ _ hs => hs.restoreBarrier) harmed)
  have hslots : MemOk slots := MemOk.foldl (fun s x hs => by grind [MemOk.modSlot]) hstreams
  have htoks : MemOk toks := MemOk.foldl (fun _ _ hs => hs.restoreTok) (MemOk.foldl (fun _ _ hs => hs.restoreEntry) hslots)
  have hkept : MemOk kept := MemOk.laterAll (MemOk.foldl (fun _ _ hs => hs.restoreReq) htoks)
  exact MemOk.reopen (MemOk.foldl (fun s r hs => by grind [MemOk.laterAt]) hkept)

theorem MemOk.renamings {d₀ : DieId} {col₀ : BitVec 9} {v : Saved} (h : MemOk s) : MemOk (s.renamings d₀ col₀ v).2 := by
  unfold State.renamings
  refine foldl_keeps (P := fun (x : List Renaming × List (DieId × BitVec 9) × State) => MemOk x.2.2) (fun x y hx => ?_) h
  exact MemOk.fresh hx

/-! ## Start, installation and admission (R109 to R117) -/

theorem MemOk.setLaunches {c : CoreId} {xs : List Launch} (h : MemOk s) : MemOk (s.setLaunches c xs) := h.modCluster

theorem MemOk.modLaunch {c : CoreId} {id : Nat} {f : Launch → Launch} (h : MemOk s) : MemOk (s.modLaunch c id f) := h.setLaunches

theorem MemOk.dropLaunch {c : CoreId} {id : Nat} (h : MemOk s) : MemOk (s.dropLaunch c id) := h.setLaunches

theorem MemOk.hold {c : CoreId} {y : Launch} (h : MemOk s) : MemOk (s.hold c y) := h.fresh.laterAt.setLaunches

theorem MemOk.takeLaunch {c : CoreId} {m : Msg} (h : MemOk s) : MemOk (s.takeLaunch c m).2 := by
  unfold State.takeLaunch
  grind [MemOk.takeNumber]

theorem MemOk.endLaunch {c : CoreId} {m : Msg} {num status : Nat} (h : MemOk s) : MemOk (s.endLaunch c m num status) := by
  unfold State.endLaunch
  grind [MemOk.completeNumber, MemOk.replyFrom]

theorem MemOk.acceptStart {c : CoreId} {m : Msg} {replay : Nat} {windows : List Nat} (h : MemOk s) :
    MemOk (s.acceptStart c m replay windows) := by
  unfold State.acceptStart
  grind [MemOk.takeLaunch, MemOk.endLaunch, MemOk.launchEnded, MemOk.hold]

theorem MemOk.execStart {c : CoreId} {m : Msg} (h : MemOk s) (e : execStart c m s = .next s') : MemOk s' := by
  cases e
  exact h.acceptStart

theorem MemOk.displace {k : CluId} {gone : List Word} (h : MemOk s) : MemOk (s.displace k gone) := by
  unfold State.displace
  grind [MemOk.modCore, CoreOk.disown, MemOk.laterAt, MemOk.foldl]

theorem MemOk.installClu {x : Image} {es : List Word} {e₀ : Word} {wing due : Nat} (h : MemOk s) : MemOk (s.installClu x es e₀ wing due) := by
  unfold State.installClu
  grind [PackageOk, MemOk.displace, MemOk.modCore, MemOk.wakeCore, CoreOk.install, MemOk.modPkg, MemOk.foldl]

theorem MemOk.endCfginst {p id : Nat} (h : MemOk s) : MemOk (s.endCfginst p id) := by
  unfold State.endCfginst
  grind [PackageOk, MemOk.replyBoth, MemOk.modPkg]

theorem MemOk.execInstall (h : MemOk s) (e : execInstall s = .next s') : MemOk s' := by
  unfold Machine.execInstall at e
  grind [MemOk.endCfginst, MemOk.laterAt, MemOk.modLaunch, MemOk.installClu, MemOk.at_, MemOk.foldl]

theorem MemOk.execCfginst {r : Rec} (h : MemOk s) (e : execCfginst r s = .next s') : MemOk s' := by
  unfold Machine.execCfginst at e
  grind [MemOk, PackageOk, bind_eq_ok, MemOk.fire, MemOk.out, MemOk.fresh, MemOk.modPkg, MemOk.installClu, MemOk.at_]

theorem MemOk.charge {y : Launch} (h : MemOk s) : MemOk (s.charge y) := by
  unfold State.charge
  grind [MemOk.modIsland, MemOk.setPoint, MemOk.foldl]

theorem MemOk.bindAll {a : Nat} (h : MemOk s) : MemOk (s.bindAll a) := by
  unfold State.bindAll
  grind [MemOk.setPhase, MemOk.bindColour, MemOk.foldl]

theorem MemOk.admitStart {c : CoreId} {y : Launch} {x : Image} (h : MemOk s) : MemOk (s.admitStart c y x) := by
  unfold State.admitStart
  grind [MemOk, MemOk.fresh, MemOk.bindAll, MemOk.later]

theorem MemOk.readmitChild {old : Nat} (h : MemOk s) : MemOk (s.readmitChild old) := by
  unfold State.readmitChild
  grind [MemOk, MemOk.fresh, MemOk.bindAll, MemOk.replyFrom]

theorem MemOk.admitLaunch {c : CoreId} {y : Launch} (h : MemOk s) : MemOk (s.admitLaunch c y) := by
  unfold State.admitLaunch
  grind [MemOk.dropLaunch, MemOk.charge, MemOk.readmitChild, MemOk.replyBoth, MemOk.renamings, MemOk.restore, MemOk.modAct, MemOk.admitStart,
    MemOk.endLaunch]

theorem MemOk.consider {c : CoreId} {ys : List Launch} (h : MemOk s) : MemOk (s.consider c ys) := by
  induction ys generalizing s with
  | nil => exact h
  | cons y ys ih =>
    unfold State.consider
    grind [MemOk.admitLaunch, MemOk.at_, MemOk.modLaunch]

theorem MemOk.execAdmission (h : MemOk s) (e : execAdmission s = .next s') : MemOk s' := by
  unfold Machine.execAdmission at e
  grind [MemOk.modLaunch, MemOk.consider, MemOk.laterAt]

theorem MemOk.execLaunchBlocking (h : MemOk s) (e : execLaunchBlocking s = .next s') : MemOk s' := by
  cases e
  exact h

/-! ## Task graphs (R118 to R123) -/

theorem MemOk.endGraphMsg {c : CoreId} {m : Msg} {num status tgid node replay : Nat} (h : MemOk s) :
    MemOk (s.endGraphMsg c m num status tgid node replay) := h.board.notify.endLaunch

theorem MemOk.execGraphreg {c : CoreId} {m : Msg} (h : MemOk s) (e : execGraphreg c m s = .next s') : MemOk s' := by
  unfold Machine.execGraphreg at e
  grind [MemOk.takeLaunch, MemOk.endGraphMsg, MemOk.modCluster]

theorem MemOk.snapshot {body : List Word} {a : Nat} (h : MemOk s) : MemOk (s.snapshot body a).2 := h.sysWrite

theorem MemOk.acceptReplay {c : CoreId} {m : Msg} {num : Nat} {g : TaskGraph} (h : MemOk s) : MemOk (s.acceptReplay c m num g) := by
  unfold State.acceptReplay
  grind [MemOk.foldlSnd, MemOk.snapshot, MemOk.modGraph, MemOk.foldl, MemOk.later, MemOk.endGraphMsg]

theorem MemOk.execReplay {c : CoreId} {m : Msg} (h : MemOk s) (e : execReplay c m s = .next s') : MemOk s' := by
  unfold Machine.execReplay at e
  grind [MemOk.takeLaunch, MemOk.endGraphMsg, MemOk.modGraph, MemOk.acceptReplay]

theorem MemOk.freeGraph {c : CoreId} {tgid : Nat} (h : MemOk s) : MemOk (s.freeGraph c tgid) := h.modCluster

theorem MemOk.execReplayRelease (h : MemOk s) (e : execReplayRelease s = .next s') : MemOk s' := by
  unfold Machine.execReplayRelease at e
  grind [MemOk.modGraph, MemOk.acceptReplay, MemOk.freeGraph]

theorem MemOk.execPatch {c : CoreId} {m : Msg} (h : MemOk s) (e : execPatch c m s = .next s') : MemOk s' := by
  unfold Machine.execPatch at e
  grind [MemOk.takeLaunch, MemOk.endGraphMsg, MemOk.modGraph]

theorem MemOk.execGraphdrop {c : CoreId} {m : Msg} (h : MemOk s) (e : execGraphdrop c m s = .next s') : MemOk s' := by
  unfold Machine.execGraphdrop at e
  grind [MemOk.takeLaunch, MemOk.endGraphMsg, MemOk.freeGraph, MemOk.modGraph]

theorem MemOk.execTaskgraphNodeDispatch {c : CoreId} {tg replay node : Nat}
    (h : MemOk s) (e : execTaskgraphNodeDispatch c tg replay node s = .next s') : MemOk s' := by
  unfold Machine.execTaskgraphNodeDispatch at e
  grind [MemOk.later, MemOk.modGraph, MemOk.acceptStart]

end

end Sys2Proof.Proofs.MemoryForm
end
section
/-! The canonical form of every memory through the model: what ends an activation, the curtain, the dispatch and the step. -/

namespace Sys2Proof.Proofs.MemoryForm

open Sys2Proof Sys2Proof.Machine

section
variable {s s' : State}

/-! ## Retirement and the purge (R426 to R430) -/

theorem MemOk.execRetireDiscard (h : MemOk s) (e : execRetireDiscard s = .next s') : MemOk s' := by
  unfold Machine.execRetireDiscard at e
  grind [MemOk.laterAt, MemOk.dropWaiters, MemOk.dropWaves, MemOk.dropEntries, MemOk.writeBackOf, MemOk.modAct, MemOk.foldl]

theorem MemOk.countIsland {c : CoreId} {f : Island → Island} (h : MemOk s) : MemOk (s.countIsland c f) := h.modIsland

theorem MemOk.retire {a : Nat} {x : Act} (h : MemOk s) : MemOk (s.retire a x) := by
  unfold State.retire
  grind [MemOk.uncharge, MemOk.dropTable, MemOk.dropTimeline, MemOk.dropClaims, MemOk.leaveBarriers, MemOk.leaveHandle, MemOk.parentToken,
    MemOk.countIsland, MemOk.forget, MemOk.freeColours, MemOk.launchEnded, MemOk.foldl]

theorem MemOk.execCompletionTokenRetire (h : MemOk s) (e : execCompletionTokenRetire s = .next s') : MemOk s' := by
  unfold Machine.execCompletionTokenRetire at e
  grind [MemOk.laterAt, MemOk.writeBackOf, MemOk.retire]

theorem MemOk.purgeCurtain {a : Nat} {dead : List Nat} {x : Curtain} (h : MemOk s) : MemOk (s.purgeCurtain a dead x) := by
  unfold State.purgeCurtain
  grind [PackageOk, MemOk.modPkg, MemOk.replyBoth, MemOk.reopen]

theorem MemOk.startPurge {root m : Nat} (h : MemOk s) : MemOk (s.startPurge root m) := by
  unfold State.startPurge
  grind [MemOk.modAct, MemOk.laterAt, MemOk.later, MemOk.foldl]

theorem MemOk.dropReissue {m : Nat} (h : MemOk s) : MemOk (s.dropReissue m) := by
  unfold State.dropReissue
  grind [MemOk, MemOk.forget]

theorem MemOk.execColourPurge (h : MemOk s) (e : execColourPurge s = .next s') : MemOk s' := by
  unfold Machine.execColourPurge at e
  grind [MemOk.purgeCurtain, MemOk.dropReissue, MemOk.startPurge, MemOk.modAct, MemOk.foldl]

theorem MemOk.dropVisits {d : DieId} {col : BitVec 9} (h : MemOk s) : MemOk (s.dropVisits d col) := by
  unfold State.dropVisits
  grind [MemOk.orderPurge, MemOk.discardTok, MemOk.foldl]

theorem MemOk.dropStreams {a : Nat} {d : DieId} (h : MemOk s) : MemOk (s.dropStreams a d) := by
  unfold State.dropStreams
  grind [MemOk.modCluster, MemOk.cancelStreams, MemOk.foldl]

theorem MemOk.endStalled {a : Nat} {d : DieId} (h : MemOk s) : MemOk (s.endStalled a d) := by
  unfold State.endStalled
  grind [MemOk.endMsg, MemOk.foldl]

theorem MemOk.execPurgeArriveDie {act : Nat} {d : DieId} (h : MemOk s) (e : execPurgeArriveDie act d s = .next s') : MemOk s' := by
  unfold Machine.execPurgeArriveDie at e
  grind [MemOk.modAct, MemOk.pathFree, MemOk.modCore, CoreOk.purge, MemOk.dropWaves, MemOk.dropEntries, MemOk.discardTok, MemOk.dropVisits,
    MemOk.startPorts, MemOk.dropStreams, MemOk.endStalled, MemOk.leaveBarriers, MemOk.dropTimeline, MemOk.writeBackOf, MemOk.dropWaiters,
    MemOk.foldl]

theorem MemOk.abandonHandle {d : DieId} {i : Nat} {h₀ : SpecHandle} (h : MemOk s) : MemOk (s.abandonHandle d i h₀) := by
  unfold State.abandonHandle
  grind [DieOk, MemOk.setDesc, MemOk.modDie, MemOk.foldl]

theorem MemOk.abandonHandles {a : Nat} (h : MemOk s) : MemOk (s.abandonHandles a) := by
  unfold State.abandonHandles
  grind [MemOk.abandonHandle, MemOk.foldl]

theorem MemOk.afterPurge {a : Nat} {x : Act} (h : MemOk s) : MemOk (s.afterPurge a x) := by
  unfold State.afterPurge
  grind [MemOk.hold, MemOk.forget, MemOk.freeColours, MemOk.modAct, MemOk.leaveHandle, MemOk.parentToken, MemOk.launchEnded]

theorem MemOk.execPurgeEnd (h : MemOk s) (e : execPurgeEnd s = .next s') : MemOk s' := by
  unfold Machine.execPurgeEnd at e
  grind [MemOk.laterAt, MemOk.writeBackOf, MemOk.abandonHandles, MemOk.uncharge, MemOk.dropTable, MemOk.dropClaims, MemOk.afterPurge,
    MemOk.countIsland, MemOk.foldl]

/-! ## The curtain (R406 to R414) -/

theorem MemOk.modCurtain {p id : Nat} {f : Curtain → Curtain} (h : MemOk s) : MemOk (s.modCurtain p id f) := by
  unfold State.modCurtain
  grind [PackageOk, MemOk.modPkg]

theorem MemOk.dropCurtain {p id : Nat} (h : MemOk s) : MemOk (s.dropCurtain p id) := by
  unfold State.dropCurtain
  grind [PackageOk, MemOk.modPkg]

theorem MemOk.keepReleases {a : Nat} (h : MemOk s) : MemOk (s.keepReleases a) := by
  unfold State.keepReleases
  grind [CoreOk, MemOk.modCore, MemOk.foldl]

theorem MemOk.execCurtain {r : Rec} (h : MemOk s) (e : execCurtain r s = .next s') : MemOk s' := by
  unfold Machine.execCurtain at e
  grind [PackageOk, bind_eq_ok, MemOk.fire, MemOk.out, MemOk.fresh, MemOk.modPkg, MemOk.keepReleases, MemOk.modAct, MemOk.laterAt,
    MemOk.at_, MemOk.foldl]

theorem MemOk.holdRegion {root : Nat} (h : MemOk s) : MemOk (s.holdRegion root) := by
  unfold State.holdRegion
  grind [MemOk.modAct, MemOk.foldl]

theorem MemOk.execCurtainClear (h : MemOk s) (e : execCurtainClear s = .next s') : MemOk s' := by
  unfold Machine.execCurtainClear at e
  grind [MemOk.laterAt, MemOk.holdRegion, MemOk.replyBoth, MemOk.modCurtain]

theorem MemOk.backlogRegion {root : Nat} (h : MemOk s) : MemOk (s.backlogRegion root) := by
  unfold State.backlogRegion
  grind [CoreOk, MemOk.modCore, MemOk.putEntryBack, MemOk.foldl]

theorem MemOk.takeHolds {root : Nat} (h : MemOk s) : MemOk (s.takeHolds root) := by
  unfold State.takeHolds
  grind [MemOk.modCore, CoreOk.setHold, MemOk.pathFree, MemOk.putEntryBack, MemOk.foldl]

theorem MemOk.execFullSave (h : MemOk s) (e : execFullSave s = .next s') : MemOk s' := by
  unfold Machine.execFullSave at e
  grind [MemOk.holdRegion, MemOk.modCurtain, MemOk.takeHolds, MemOk.backlogRegion, MemOk.endStalled, MemOk.laterAt, MemOk.foldl]

theorem MemOk.noRoom {x : Curtain} {used : Nat} (h : MemOk s) : MemOk (s.noRoom x used) := h.sysWrite.modCurtain.replyBoth

/-- A save keeps what the matrix engines of its cores hold, memory by memory. -/
theorem SavedOk.saved {id area : Nat} {reg : List Nat} (h : MemOk s) : SavedOk (s.saved id area reg) := by
  intro x hx
  obtain ⟨c, _, hc⟩ := List.mem_filterMap.1 hx
  obtain ⟨_, _, ho, hs, ha⟩ := h.core c
  unfold State.savedMat at hc
  dsimp only at hc
  split at hc
  · exact absurd hc nofun
  · cases hc
    exact ⟨ho, hs, ha⟩

theorem SavedOk.laid {v : Saved} {full : Bool} {start : Word} {xs : List Section} (h : SavedOk v) : SavedOk (v.laid full start xs) := h

theorem MemOk.addSave {v : Saved} {free : Nat} (h : MemOk s) (hv : SavedOk v) : MemOk { s with free := free, saves := s.saves ++ [v] } := by
  obtain ⟨hm, hc, hd, hp, hs⟩ := h
  refine ⟨hm, hc, hd, hp, fun w hw => ?_⟩
  obtain hw | hw := List.mem_append.1 hw
  · exact hs w hw
  · rwa [List.mem_singleton.1 hw]

theorem MemOk.makeSave {x : Curtain} (h : MemOk s) : MemOk (s.makeSave x) := by
  unfold State.makeSave
  dsimp only
  split
  · exact MemOk.noRoom (MemOk.same h.fresh rfl rfl rfl rfl rfl)
  · have hv : SavedOk (s.fresh.2.saved s.fresh.1 x.area (s.family x.root)) := SavedOk.saved h.fresh
    refine MemOk.laterAt (MemOk.foldl (fun t a ht => ht.modAct.writeBackOf) (MemOk.foldl (fun t d ht => ht.startPorts) ?_))
    exact (MemOk.addSave h.fresh (SavedOk.laid hv)).writeSave.detach

theorem MemOk.endSave {x : Curtain} (h : MemOk s) : MemOk (s.endSave x) := by
  unfold State.endSave
  grind [MemOk.uncharge, MemOk.leaveBarriers, MemOk.dropTable, MemOk.dropClaims, MemOk.freeColours, MemOk.leaveHandle, MemOk.forget,
    MemOk.sysWrite, MemOk.replyBoth, MemOk.dropCurtain, MemOk.foldl]

theorem MemOk.execSaveWhole (h : MemOk s) (e : execSaveWhole s = .next s') : MemOk s' := by
  unfold Machine.execSaveWhole at e
  grind [MemOk.makeSave, MemOk.laterAt, MemOk.writeBackOf, MemOk.endSave, MemOk.foldl]

theorem MemOk.execCtxsv {r : Rec} (h : MemOk s) (e : execCtxsv r s = .next s') : MemOk s' := by
  unfold Machine.execCtxsv at e
  grind [bind_eq_ok, MemOk.fire, MemOk.out, MemOk.modCurtain, MemOk.laterAt]

theorem MemOk.execCtxld {r : Rec} (h : MemOk s) (e : execCtxld r s = .next s') : MemOk s' := by
  unfold Machine.execCtxld at e
  grind [bind_eq_ok, MemOk.fire, MemOk.out, MemOk.reopen, MemOk.dropCurtain, MemOk.hold]

/-! ## Every instruction and event -/

theorem MemOk.exec {i : Instr} (h : MemOk s) (e : exec i s = .next s') : MemOk s' := by
  cases i with
  | sink _ => exact h.execSink e
  | dup _ => exact h.execDup e
  | const _ => exact h.execConst e
  | steer _ => exact h.execSteer e
  | gate _ => exact h.execGate e
  | loopin _ => exact h.execLoopin e
  | iter _ => exact h.execIter e
  | loopout _ => exact h.execLoopout e
  | loopcr _ => exact h.execLoopcr e
  | call _ => exact h.execCall e
  | callCol r => exact MemOk.execCallCol (r := r) h e
  | ret _ => exact h.execRet e
  | tagget _ => exact h.execTagget e
  | tagset _ => exact h.execTagset e
  | spawn _ => exact h.execSpawn e
  | purge _ => exact h.execPurge e
  | join _ => exact h.execJoin e
  | cmb _ => exact h.execCmb e
  | dends _ => exact h.execDends e
  | bndry _ => exact h.execBndry e
  | vote _ => exact h.execVote e
  | rng _ => exact h.execRng e
  | evpost _ => exact h.execEvpost e
  | endg _ => exact h.execEndg e
  | add _ => exact h.execAdd e
  | sub _ => exact h.execSub e
  | mul _ => exact h.execMul e
  | mulh _ => exact h.execMulh e
  | div _ => exact h.execDiv e
  | rem _ => exact h.execRem e
  | neg _ => exact h.execNeg e
  | abs _ => exact h.execAbs e
  | min _ => exact h.execMin e
  | max _ => exact h.execMax e
  | and _ => exact h.execAnd e
  | or _ => exact h.execOr e
  | xor _ => exact h.execXor e
  | andn _ => exact h.execAndn e
  | shl _ => exact h.execShl e
  | shr _ => exact h.execShr e
  | sar _ => exact h.execSar e
  | rotl _ => exact h.execRotl e
  | clz _ => exact h.execClz e
  | ctz _ => exact h.execCtz e
  | popc _ => exact h.execPopc e
  | brev _ => exact h.execBrev e
  | bext _ => exact h.execBext e
  | bins _ => exact h.execBins e
  | cmp _ => exact h.execCmp e
  | sel _ => exact h.execSel e
  | madd _ => exact h.execMadd e
  | lea _ => exact h.execLea e
  | line _ => exact h.execLine e
  | fadd _ => exact h.execFadd e
  | fsub _ => exact h.execFsub e
  | fmul _ => exact h.execFmul e
  | fma _ => exact h.execFma e
  | fdiv _ => exact h.execFdiv e
  | fsqrt _ => exact h.execFsqrt e
  | fmin _ => exact h.execFmin e
  | fmax _ => exact h.execFmax e
  | fabs _ => exact h.execFabs e
  | fneg _ => exact h.execFneg e
  | fcmp _ => exact h.execFcmp e
  | fcvt _ => exact h.execFcvt e
  | frnd _ => exact h.execFrnd e
  | fexp2 _ => exact h.execFexp2 e
  | flog2 _ => exact h.execFlog2 e
  | frcp _ => exact h.execFrcp e
  | frsq _ => exact h.execFrsq e
  | vadd _ => exact h.execVadd e
  | vsub _ => exact h.execVsub e
  | vmul _ => exact h.execVmul e
  | vfma _ => exact h.execVfma e
  | vmin _ => exact h.execVmin e
  | vmax _ => exact h.execVmax e
  | vabs _ => exact h.execVabs e
  | vneg _ => exact h.execVneg e
  | vand _ => exact h.execVand e
  | vor _ => exact h.execVor e
  | vxor _ => exact h.execVxor e
  | vshl _ => exact h.execVshl e
  | vshr _ => exact h.execVshr e
  | vcmp _ => exact h.execVcmp e
  | vsel _ => exact h.execVsel e
  | vred _ => exact h.execVred e
  | vscan _ => exact h.execVscan e
  | vexp2 _ => exact h.execVexp2 e
  | vrcp _ => exact h.execVrcp e
  | vrsq _ => exact h.execVrsq e
  | vcvt _ => exact h.execVcvt e
  | vperm _ => exact h.execVperm e
  | vsplat _ => exact h.execVsplat e
  | viota _ => exact h.execViota e
  | vpack _ => exact h.execVpack e
  | vunpk _ => exact h.execVunpk e
  | vcpy _ => exact h.execVcpy e
  | cvt _ => exact h.execCvt e
  | qblk _ => exact h.execQblk e
  | dqblk _ => exact h.execDqblk e
  | ternpk _ => exact h.execTernpk e
  | ternpkUnpk _ => exact h.execTernpkUnpk e
  | ld _ => exact h.execLd e
  | st _ => exact h.execSt e
  | ldv _ => exact h.execLdv e
  | stv _ => exact h.execStv e
  | ldg _ => exact h.execLdg e
  | sts _ => exact h.execSts e
  | mnop _ => exact h.execMnop e
  | wave _ => exact h.execWave e
  | pf _ => exact h.execPf e
  | lwb _ => exact h.execLwb e
  | linv _ => exact h.execLinv e
  | sbind _ => exact h.execSbind e
  | scancel _ => exact h.execScancel e
  | sstat _ => exact h.execSstat e
  | cpy _ => exact h.execCpy e
  | cpyr _ => exact h.execCpyr e
  | mcrd _ => exact h.execMcrd e
  | xlat _ => exact h.execXlat e
  | tlbinv _ => exact h.execTlbinv e
  | fence _ => exact h.execFence e
  | rel _ => exact h.execRel e
  | acq _ => exact h.execAcq e
  | tlinc _ => exact h.execTlinc e
  | tlwait _ => exact h.execTlwait e
  | tlarm _ => exact h.execTlarm e
  | tlread _ => exact h.execTlread e
  | barinit _ => exact h.execBarinit e
  | bararr _ => exact h.execBararr e
  | barexit _ => exact h.execBarexit e
  | itake _ => exact h.execItake e
  | iput _ => exact h.execIput e
  | iread _ => exact h.execIread e
  | iclr _ => exact h.execIclr e
  | atom _ => exact h.execAtom e
  | acas _ => exact h.execAcas e
  | lsend _ => exact h.execLsend e
  | specbeg _ => exact h.execSpecbeg e
  | speccmt _ => exact h.execSpeccmt e
  | specabt _ => exact h.execSpecabt e
  | oclm _ => exact h.execOclm e
  | orel _ => exact h.execOrel e
  | old _ => exact h.execOld e
  | olds _ => exact h.execOlds e
  | oldsQ _ => exact h.execOldsQ e
  | mma _ => exact h.execMma e
  | mmat _ => exact h.execMmat e
  | mmax _ => exact h.execMmax e
  | aclr _ => exact h.execAclr e
  | amov _ => exact h.execAmov e
  | aadd _ => exact h.execAadd e
  | acvt _ => exact h.execAcvt e
  | ackpt _ => exact h.execAckpt e
  | arst _ => exact h.execArst e
  | astat _ => exact h.execAstat e
  | topk _ => exact h.execTopk e
  | topkm _ => exact h.execTopkm e
  | smxi _ => exact h.execSmxi e
  | smxu _ => exact h.execSmxu e
  | smxn _ => exact h.execSmxn e
  | smxm _ => exact h.execSmxm e
  | smxr _ => exact h.execSmxr e
  | smxw _ => exact h.execSmxw e
  | smxs _ => exact h.execSmxs e
  | qsend _ => exact h.execQsend e
  | qfwd _ => exact h.execQfwd e
  | klook _ => exact h.execKlook e
  | klookPage _ => exact h.execKlookPage e
  | kapp _ => exact h.execKapp e
  | kpin _ => exact h.execKpin e
  | kpinUnpin _ => exact h.execKpinUnpin e
  | kevict _ => exact h.execKevict e
  | kfill _ => exact h.execKfill e
  | pxlook _ => exact h.execPxlook e
  | pxins _ => exact h.execPxins e
  | pgmap _ => exact h.execPgmap e
  | pgmapList _ => exact h.execPgmapList e
  | pgfrz _ => exact h.execPgfrz e
  | pgnew _ => exact h.execPgnew e
  | seqtbl _ => exact h.execSeqtbl e
  | seqtblNext _ => exact h.execSeqtblNext e
  | trap _ => exact h.execTrap e
  | brk _ => exact h.execBrk e
  | sysrd _ => exact h.execSysrd e
  | syswr _ => exact h.execSyswr e
  | evget _ => exact h.execEvget e
  | launch _ => exact h.execLaunch e
  | cfginst _ => exact h.execCfginst e
  | curtain _ => exact h.execCurtain e
  | ctxsv _ => exact h.execCtxsv e
  | ctxld _ => exact h.execCtxld e
  | time _ => exact h.execTime e
  | prompt _ => exact h.execPrompt e
  | bootTest _ _ _ _ _ => exact h.execBootTest e
  | bootMap _ _ _ _ _ _ => exact h.execBootMap e
  | bootRuntime _ _ _ => exact h.execBootRuntime e
  | linkTraining _ _ _ _ _ _ => exact h.execLinkTraining e
  | hostAccess _ _ => exact h.execHostAccess e
  | registerWrite _ _ _ => exact h.execRegisterWrite e
  | start _ _ => exact h.execStart e
  | graphreg _ _ => exact h.execGraphreg e
  | replay _ _ => exact h.execReplay e
  | patch _ _ => exact h.execPatch e
  | graphdrop _ _ => exact h.execGraphdrop e
  | taskgraphNodeDispatch _ _ _ _ => exact h.execTaskgraphNodeDispatch e
  | tokenArrival _ _ _ => exact h.execTokenArrival e
  | wingsHoldRelease _ _ => exact h.execWingsHoldRelease e
  | chainLink _ _ _ => exact h.execChainLink e
  | linkTokenCrossing _ _ _ _ => exact h.execLinkTokenCrossing e
  | engineInboxAccept _ _ => exact h.execEngineInboxAccept e
  | engineMessageComplete _ _ => exact h.execEngineMessageComplete e
  | copy _ _ => exact h.execCopy e
  | copyr _ _ => exact h.execCopyr e
  | copyp _ _ => exact h.execCopyp e
  | copypr _ _ => exact h.execCopypr e
  | lcopy _ _ => exact h.execLcopy e
  | copyPieceArrival _ => exact h.execCopyPieceArrival e
  | remoteAdvance _ _ _ => exact h.execRemoteAdvance e
  | waveAccessPerform _ _ _ => exact h.execWaveAccessPerform e
  | sliceFillArrival _ _ _ _ _ => exact h.execSliceFillArrival e
  | pageWalkComplete _ _ => exact h.execPageWalkComplete e
  | mmaxACopy _ _ _ => exact h.execMmaxACopy e
  | gets _ => exact h.execGets e
  | getx _ => exact h.execGetx e
  | upg _ => exact h.execUpg e
  | putm _ _ _ _ => exact h.execPutm e
  | invalidation _ _ _ _ => exact h.execInvalidation e
  | invalidationAck _ _ y z => exact MemOk.execInvalidationAck (y := y) (z := z) h e
  | forward _ _ _ _ _ => exact h.execForward e
  | directoryFailure _ _ => exact h.execDirectoryFailure e
  | purgeArriveDie _ _ => exact h.execPurgeArriveDie e
  | hbmBankTest _ _ _ _ => exact h.execHbmBankTest e
  | linkBeatCrcFail _ _ y => exact MemOk.execLinkBeatCrcFail (y := y) h e
  | auditBeat _ _ _ _ => exact h.execAuditBeat e
  | thermal _ _ _ => exact h.execThermal e
  | mirrorCloseRecord x _ _ _ _ _ _ => exact MemOk.execMirrorCloseRecord (x := x) h e
  | powerOnReset => exact h.execPowerOnReset e
  | replayRelease => exact h.execReplayRelease e
  | install => exact h.execInstall e
  | admission => exact h.execAdmission e
  | allowanceRefresh => exact h.execAllowanceRefresh e
  | launchBlocking => exact h.execLaunchBlocking e
  | clockChangeDone => exact h.execClockChangeDone e
  | wingProbeReturn => exact h.execWingProbeReturn e
  | backlogRefill => exact h.execBacklogRefill e
  | streamStart => exact h.execStreamStart e
  | streamElement => exact h.execStreamElement e
  | streamComplete => exact h.execStreamComplete e
  | loadReply => exact h.execLoadReply e
  | releaseComplete => exact h.execReleaseComplete e
  | mergeWindowClose => exact h.execMergeWindowClose e
  | tlbEntryDrop => exact h.execTlbEntryDrop e
  | queryTokenStationArrival => exact h.execQueryTokenStationArrival e
  | visitStart => exact h.execVisitStart e
  | refillComplete => exact h.execRefillComplete e
  | evictionCopyComplete => exact h.execEvictionCopyComplete e
  | tokenReturn => exact h.execTokenReturn e
  | shardTableTurn => exact h.execShardTableTurn e
  | matrixAccept => exact h.execMatrixAccept e
  | matrixStart => exact h.execMatrixStart e
  | matrixOccupancyEnd => exact h.execMatrixOccupancyEnd e
  | matrixRetry => exact h.execMatrixRetry e
  | matrixReply => exact h.execMatrixReply e
  | grant => exact h.execGrant e
  | done => exact h.execDone e
  | putack => exact h.execPutack e
  | mirrorOpenAck => exact h.execMirrorOpenAck e
  | recallWindow => exact h.execRecallWindow e
  | directoryWatchdog => exact h.execDirectoryWatchdog e
  | dirTakeover => exact h.execDirTakeover e
  | dirLost => exact h.execDirLost e
  | channelClosing => exact h.execChannelClosing e
  | channelRetired => exact h.execChannelRetired e
  | curtainClear => exact h.execCurtainClear e
  | fullSave => exact h.execFullSave e
  | saveWhole => exact h.execSaveWhole e
  | colourPurge => exact h.execColourPurge e
  | purgeEnd => exact h.execPurgeEnd e
  | securityTrigger => exact h.execSecurityTrigger e
  | retireDiscard => exact h.execRetireDiscard e
  | completionTokenRetire => exact h.execCompletionTokenRetire e
  | promptRoutineEnd => exact h.execPromptRoutineEnd e
  | coreDrowsy => exact h.execCoreDrowsy e
  | routerDrowsy => exact h.execRouterDrowsy e
  | routerWake => exact h.execRouterWake e
  | coreWake => exact h.execCoreWake e
  | powerGate => exact h.execPowerGate e
  | droopStretch => exact h.execDroopStretch e
  | currentPeak => exact h.execCurrentPeak e
  | packagePowerWindow => exact h.execPackagePowerWindow e
  | mirrorOpenRecord => exact h.execMirrorOpenRecord e
  | writeAcknowledgement => exact h.execWriteAcknowledgement e
  | directoryRestore => exact h.execDirectoryRestore e
  | attestationRequest => exact h.execAttestationRequest e
  | supplyRecovery => exact h.execSupplyRecovery e

/-! ## One step -/

theorem MemOk.issue {c : CoreId} (h : MemOk s) (e : issue c s = .next s') : MemOk s' := by
  unfold Machine.issue at e
  split at e
  case h_1 =>
    cases e
    exact h
  case h_2 t ht =>
    cases e
    exact (h.fetch ht).faultCur
  case h_3 i t ht => exact (h.fetch ht).exec e

theorem MemOk.withSite {x : Site} (h : MemOk s) : MemOk { s with site := x } := h

theorem MemOk.withTimers {ts : List Timer} (h : MemOk s) : MemOk { s with timers := ts } := h

theorem MemOk.withAgenda {its : List Item} (h : MemOk s) : MemOk { s with agenda := its } := h

theorem MemOk.happen {it : Item} (h : MemOk s) (e : happen it s = .next s') : MemOk s' := by
  unfold Machine.happen at e
  split at e
  · split at e
    · cases e
      exact h
    · split at e
      · exact h.withSite.exec e
      · exact h.issue e
  · exact absurd e nofun

theorem MemOk.step (h : MemOk s) (e : step s = .next s') : MemOk s' := by
  have ht : MemOk s.tick := h.tick
  unfold Machine.step at e
  dsimp only at e
  split at e
  · exact ht.withTimers.happen e
  · split at e
    · cases e
      exact ht
    · exact ht.withAgenda.happen e

end

/-- Settles O59: every function that makes a state, up to `step` itself, takes one whose memories have the form to another such. -/
theorem stepKeepsMemoryForm : Obligations.StepKeepsMemoryForm := by
  intro s s' h e
  exact (memOk_iff s').2 (((memOk_iff s).1 h).step e)

end Sys2Proof.Proofs.MemoryForm
end
